-- ==== Sys2Proof/Word.lean ====
section
/-! DEFINITION. The word types of the NH512 model, the plain finite table that holds sparse state, and the
types of the register map (R32: every register is 32 bits wide; Table 2.1: the kinds of page). -/

namespace Sys2Proof

/-- A byte (memory) or octet (wire). -/
abbrev Byte := BitVec 8

/-- A register of the window (R32). -/
abbrev Word := BitVec 32

/-- A 64-bit value, read as its _LO/_HI pair (R21, R42). -/
abbrev DWord := BitVec 64

/-- A sparse table: a list of (key, value) pairs; keys that are not listed read as a default. -/
abbrev Tab (α : Type) := List (Nat × α)

/-- A port number P000–P511 (R2). -/
abbrev PortNo := Fin 512

/-- A cluster number C00–C65 (R2). -/
abbrev ClusterNo := Fin 66

/-- A parse pipe number PP00–PP47 (R2). -/
abbrev PipeNo := Fin 48

/-- A host queue or ring number (R255). -/
abbrev QueueNo := Fin 4096

/-- An interrupt source (R277). -/
abbrev SourceNo := Fin 2048

/-- An interrupt target T00–T67 (R281). -/
abbrev TargetNo := Fin 68

/-- A host function FN000–FN255 (R255). -/
abbrev FnNo := Fin 256

/-- The five command ports of Table 4.1, with the codes of R44. -/
inductive CmdPort
  | H | S | M | F | W
  deriving DecidableEq, Repr

/-- The six operating modes (R45). -/
inductive Mode
  | hold | proof | run | safelight | still | test
  deriving DecidableEq, Repr

/-- The sleep states of STILL (R322). -/
inductive Sleep
  | none | doze | dim | dark
  deriving DecidableEq, Repr

/-- The power domains of Table 2.1. -/
inductive Domain
  | ao | mg | ti | hd | sr
  | pq (q : Nat)
  | cl (n : Nat)
  deriving DecidableEq, Repr

/-- The kinds of page of Table 2.1. The interrupt and DMA pages are split by what they hold (R275, R280). -/
inductive PageKind
  | block | mode | cmd | sheet | power | retain | fixer | darkslide | cal | nv | fed | safety
  | time | shutter | offload | cv | irqCtrl | irqPend | irqMask | irqCount | irqT
  | loupe | loupeBank | memport | mac | pcs | sec | stat | pipe | spread | reorder | cls | clsKeys
  | version | flowkey | dma0 | dmaState | dmaFn | dmaPlain | fn | reserved
  deriving DecidableEq, Repr

/-- One row of a register table: `n1 × n2` registers at `first + i·s1 + j·s2`; `rw` the bits software may write,
`rc` the bits a read clears, `wo` the write-only bits, `reset` the reset value, `pair` 1 for a _LO and 2 for a _HI. -/
structure RegRow where
  first : Nat
  n1 : Nat
  s1 : Nat
  n2 : Nat
  s2 : Nat
  rw : Word
  rc : Word
  wo : Word
  reset : Word
  pair : Nat
  deriving DecidableEq, Repr

end Sys2Proof
end

