-- ==== Sys2Proof/Syntax.lean ====
section
/-! DEFINITION. The commands of the NH512, one constructor per row of the table of operations and events, and the
records their operands are made of. -/

namespace Sys2Proof

/-- A unit of Tables 19.1 and 20.1: type 0 slice, 1 cluster, 2 pipe, 3 privileged unit, 4 island; its number; its
slice, 0xFF none. -/
structure UnitId where
  type : Nat
  unit : Nat
  slice : Nat
  deriving DecidableEq, Repr

/-- What the FEC and PCS of a port counted in a 1 ms window (Table 5.7): `hist` from HIST_1 on, `laneSymbols` in the
order of the port's lanes. -/
structure FecReport where
  codewords : Nat
  corrected : Nat
  uncorrected : Nat
  symbols : Nat
  pcsErr : Nat
  deskew : Nat
  hist : List Nat
  laneSymbols : List Nat
  deriving DecidableEq, Repr

/-- What PROOF found in a step (Table 3.3, R51, R340): NV copies A and B the media gave undamaged, the management island
or the firmware failing, units that fail MBIST or LBIST beyond repair. -/
structure ProofReport where
  mapA : Bool
  mapB : Bool
  factA : Bool
  factB : Bool
  userA : Bool
  userB : Bool
  mgmtBad : Bool
  fwBad : Bool
  failed : List UnitId
  repaired : Nat
  deriving DecidableEq, Repr

/-- How a command arrives at a port (R65, R68, R78): its tag; `whole`: its transport passes check 1; the switch port and
the source of a command frame on F and W (a member number on F, a MAC address on W); a CONTACT_SHEET through SHEET_REQ
(R73); another code in place of the row's own (R66). -/
structure Arrival where
  port : CmdPort
  seq : BitVec 16
  whole : Bool
  ingress : PortNo
  source : Nat
  sheetReq : Bool
  code : Option (BitVec 16)
  deriving DecidableEq, Repr

/-- Readings of one unit's aging monitors (Table 19.2). -/
structure AgingReading where
  unit : UnitId
  slow : Nat
  ecc : Nat
  deriving DecidableEq, Repr

/-- What an uncorrectable word held (R345, R346): part of a received frame by port and sequence number, of the frame a
port is sending, table content that has a replica, a register, a queue context, or nothing in use. -/
inductive ErrContent
  | frame (port : PortNo) (seq : BitVec 24)
  | txFrame (port : PortNo)
  | replica
  | register (addr : BitVec 22)
  | context (rx : Bool) (q : QueueNo)
  | unused
  deriving DecidableEq, Repr

/-- The result of a unit's test (R355, R356, Table 20.5). -/
structure TestReport where
  mbistFail : Bool
  lbistFail : Bool
  restoreBad : Bool
  patterns : Nat
  signature : DWord
  failMask : BitVec 10
  rows : Nat
  deriving DecidableEq, Repr

/-- The start block of a received frame: the 2^-16 ns since it crossed the lane interface, and on which lane of the port's span
it did (R237). -/
structure RxBlock where
  age : Nat
  lane : Fin 8
  deriving DecidableEq, Repr

/-- The start block of a frame to be sent: its time in 2^-16 ns behind the commit octet, and the lane of the port's span that it
will cross (R241). -/
structure TxBlock where
  inStream : Nat
  lane : Fin 8
  deriving DecidableEq, Repr

/-- The commands, one per row of opcode_table.json. Where the row is a register's write or read, `p` is the port it
comes through and `v` the word written; for a command port's command, `a` is how it arrives and `args` its argument
octets; where an event hands something to the part (a frame, fetched data, a reading), the operand is what it hands;
an `Option` is `none` where the transfer failed. -/
inductive Instr
  /-- DIE_RESET_ASSERT (R49). A fall of DIE_RESET_N held for at least 1 µs takes the complex to HOLD: outputs are
  undriven, time of day is lost, and the command tables are emptied. -/
  | dieResetAssert
  /-- DIE_RESET_RELEASE (R50). The rise of DIE_RESET_N with power good samples STRAP_FACTORY and starts cold PROOF. -/
  | dieResetRelease (strap : Bool)
  /-- CORE_PG_FALL (R20). Loss of core supply takes the complex to HOLD within 50 ns, and any retained DARK state is
  discarded. -/
  | corePgFall
  /-- CORE_PG_RISE (R219). Core power-good after a loss of power restarts POWERED_NS from 0. -/
  | corePgRise
  /-- VDDIO_LOW (R26). VDDIO falling below 1.5 V enters HOLD and undrives every owned output within 50 ns. -/
  | vddioLow
  /-- PROOF_STEP_DONE (R50). Completion of a PROOF step moves the sequence on to the next step; after step 6 the
  complex enters RUN at the calibrated level. -/
  | proofStepDone (r : ProofReport)
  /-- ALARM_IN_RISE (R77). A rise of ALARM_IN starts the pulse filter against the MIN_US then in force. -/
  | alarmInRise
  /-- ALARM_IN_ACCEPTED (R77). A high level held for MIN_US raises ALARM_LEVEL, latches PG_SAFETY event 2 and acts as
  a SAFELIGHT trigger. -/
  | alarmInAccepted
  /-- ALARM_IN_FALL (R77). ALARM_IN falling drops ALARM_LEVEL within 1 µs. -/
  | alarmInFall
  /-- SAFELIGHT_IN_FORCE (R55). The last change of Table 3.4 completes SAFELIGHT entry: SAFE_ACTIVE goes high,
  ENTRY_COUNT increments and PG_MODE event 1 is latched. -/
  | safelightInForce
  /-- SAFELIGHT_SWITCH_TO_RUN (R59). Once an accepted exit has completed its deferred steps, the complex switches to
  RUN at one frame boundary and SAFE_ACTIVE goes low. -/
  | safelightSwitchToRun
  /-- TEST_IN_FORCE (R60). Once all named units have left service, the mode becomes TEST. -/
  | testInForce (clearOk : Bool)
  /-- TEST_END (R362). After the last listed result, or at abort, TEST ends through warm PROOF. -/
  | testEnd
  /-- CONTACT_SHEET (R81). The command returns the 1,024-byte state record on its arrival port and mirrors it in
  PG_SHEET. -/
  | contactSheet (a : Arrival) (args : List Byte)
  /-- REG_READ (R62). The command returns up to 16 consecutive registers. -/
  | regRead (a : Arrival) (args : List Byte) (access : Option (BitVec 22 × Bool))
  /-- REG_WRITE (R62). The command writes up to 16 consecutive registers; each word is judged by PERMIT. -/
  | regWrite (a : Arrival) (args : List Byte)
  /-- SET_LEVEL (R317). The command requests a performance level, checked for mode and capacity, or places it in the
  pending slot. -/
  | setLevel (a : Arrival) (args : List Byte)
  /-- SLEEP (R323). The command requests DOZE, DIM or DARK from RUN and starts quiescence. -/
  | sleep (a : Arrival) (args : List Byte)
  /-- SAFELIGHT_ENTER (R413). The command on port M, or a federation notice on port F, triggers SAFELIGHT entry. -/
  | safelightEnter (a : Arrival) (args : List Byte)
  /-- SAFELIGHT_EXIT (R59). The command on port M is checked against ALARM_LEVEL and capacity, then runs the deferred
  PROOF steps toward RUN. -/
  | safelightExit (a : Arrival) (args : List Byte)
  /-- TEST_START (R361). The command checks its unit list and hands the listed units' traffic to spares for TEST. -/
  | testStart (a : Arrival) (args : List Byte)
  /-- TEST_ABORT (R362). The command ends the TEST run, reports the current test INCOMPLETE and leads to warm PROOF.
  -/
  | testAbort (a : Arrival) (args : List Byte)
  /-- TIME_STEP_ARM (R230). The command on port M sets STEP_ARMED and ARM_M, permitting one step in either direction.
  -/
  | timeStepArm (a : Arrival) (args : List Byte)
  /-- FORCE_REPAIR_MIGRATE (R351). FORCE_REPAIR OP 1 queues a forced migration of a unit in service, with comparison
  if SHADOW is set. -/
  | forceRepairMigrate (a : Arrival) (rest : List Byte)
  /-- FORCE_REPAIR_RETURN (R351). FORCE_REPAIR OP 2 migrates traffic back to a standby home unit. -/
  | forceRepairReturn (a : Arrival) (rest : List Byte)
  /-- FORCE_REPAIR_CONDEMN (R351). FORCE_REPAIR OP 3 migrates the unit if it is in service and condemns it without a
  test. -/
  | forceRepairCondemn (a : Arrival) (rest : List Byte)
  /-- FORCE_REPAIR_REINSTATE (R351). FORCE_REPAIR OP 4 has DARKSLIDE test a condemned unit; a pass makes it a spare or
  standby. -/
  | forceRepairReinstate (a : Arrival) (rest : List Byte)
  /-- RESTORE_FACTORY (R373). The command erases the user overlay and applies the factory values, port map and
  SAFELIGHT list. -/
  | restoreFactory (a : Arrival) (args : List Byte)
  /-- VERSION_LOAD (R176). The command checks its arguments and starts reading a rule-version image into a free slot.
  -/
  | versionLoad (a : Arrival) (args : List Byte)
  /-- VERSION_LOAD_COMPLETE (R176). The last image record and CRC arrive; the slot becomes LOADED, or the load fails
  and is undone. -/
  | versionLoadComplete (img : Option (List Byte))
  /-- VERSION_COMMIT_NOW (R177). VERSION_COMMIT OP 0 makes a LOADED slot CURRENT at the next dealing boundary. -/
  | versionCommitNow (a : Arrival) (slot : Byte) (rest : List Byte)
  /-- VERSION_COMMIT_AT_TIME (R177). VERSION_COMMIT OP 1 accepts a timed commit and leaves it pending until its due
  time. -/
  | versionCommitAtTime (a : Arrival) (slot : Byte) (rest : List Byte)
  /-- VERSION_DISCARD (R177). VERSION_COMMIT OP 2 clears a LOADED slot without draining. -/
  | versionDiscard (a : Arrival) (slot : Byte) (rest : List Byte)
  /-- TIMED_COMMIT_DUE (R178). At its due time a pending timed commit comes into force if time is LOCKED, or is
  abandoned. -/
  | timedCommitDue
  /-- SLOT_RETIRE (R179). A DRAINING slot whose drain count reaches 0 becomes LOADED or is cleared to FREE. -/
  | slotRetire (slot : Fin 4)
  /-- SLK_POLL (R74). A safety-link POLL transaction returns STATUS and, when READY, the stored response for its tag.
  -/
  | slkPoll (seq : BitVec 16) (whole : Bool)
  /-- SLK_CS_TIMEOUT (R75). SLK_CS_N held low for more than 50 ms fails the transaction at step 1. -/
  | slkCsTimeout
  /-- SLK_WDOG_EXPIRY (R76). 100 ms without a valid safety-link frame sets WDOG_EXPIRED, latches PG_SAFETY event 1 and
  drives FAULT_N low. -/
  | slkWdogExpiry
  /-- SAFETY_CTRL_WRITE (R76). A write of PG_SAFETY.CTRL enables or disables the link and starts or stops the
  watchdog. -/
  | safetyCtrlWrite (p : CmdPort) (ok : Bool) (v : Word)
  /-- REGISTER_WRITE (R410). A write to a register that has no row of its own passes the ordered checks and then takes
  effect. -/
  | registerWrite (p : CmdPort) (a : BitVec 22) (ok : Bool) (v : Word)
  /-- EVT_SET (R37). Writing 1s to EVT_SET sets event latch bits without counting them. -/
  | evtSet (p : CmdPort) (page : BitVec 10) (v : Word)
  /-- EVT_CLR (R38). Writing 1s to EVT_CLR clears event latch bits; a hardware set in the same cycle wins. -/
  | evtClr (p : CmdPort) (page : BitVec 10) (v : Word)
  /-- EVT_MASK_SET (R37). Writing 1s to EVT_MASK_SET sets event mask bits. -/
  | evtMaskSet (p : CmdPort) (page : BitVec 10) (v : Word)
  /-- EVT_MASK_CLR (R39). Writing 1s to EVT_MASK_CLR clears mask bits and may raise a page interrupt edge. -/
  | evtMaskClr (p : CmdPort) (page : BitVec 10) (v : Word)
  /-- EVT_CNT_SEL_WRITE (R35). Any write to EVT_CNT_SEL selects the counted event and clears EVT_CNT. -/
  | evtCntSelWrite (p : CmdPort) (page : BitVec 10) (v : Word)
  /-- LANE_STATUS_CHANGE (R9). A change of LINK_UP, SIG_DET or ALIGN_OK is sampled, counted and gates lane data. -/
  | laneStatusChange (l : PortNo) (v : BitVec 3)
  /-- PORT_UP (R93). Once the lock conditions have held for 100 µs, an enabled port comes up. -/
  | portUp (p : PortNo)
  /-- RECONFIG_GO (R89). A write of RECONFIG.GO checks the masked lanes and, on a pass, stops their ports at frame
  boundaries. -/
  | reconfigGo (p : CmdPort) (cl : ClusterNo) (v : Word)
  /-- RECONFIG_RESTART (R89). Once the masked ports are down, their PCS/FEC restarts in the new configuration and
  PORT_LIVE is updated. -/
  | reconfigRestart (cl : ClusterNo)
  /-- COUNTER_SNAP (R102). A write of SNAP.GO captures every counter of the page in one cycle. -/
  | counterSnap (p : CmdPort) (page : Fin 1024)
  /-- COUNTER_CLEAR (R102). A CNT_CLR write clears the live and captured counters it names. -/
  | counterClear (p : CmdPort) (page : Fin 1024) (v : Word)
  /-- RX_FRAME (R109). A frame received from the PCS is admitted, checked, filtered and handed to the SecY and
  spreader, or discarded by row. -/
  | rxFrame (p : PortNo) (start : Byte) (frag : Byte) (o : List Byte) (codeErr : Bool) (headLeft : Bool)
      (block : RxBlock)
  /-- PAUSE_TIMER_EXPIRY (R115). The expiry of a pause timer lets the paused traffic be committed again. -/
  | pauseTimerExpiry (p : PortNo) (i : Fin 9)
  /-- MAC_TABLE_WRITE (R113). TBL_CMD OP 1 writes one entry of an indirect MAC table in a single cycle. -/
  | macTableWrite (p : CmdPort) (cl : ClusterNo)
  /-- MAC_TABLE_READ (R113). TBL_CMD OP 2 reads one entry of an indirect MAC table into TBL_RDATA. -/
  | macTableRead (p : CmdPort) (cl : ClusterNo)
  /-- SPREAD_DEAL (R144). The spreader takes a queued frame, numbers and stamps it, and deals it to the next ring
  position. -/
  | spreadDeal
  /-- PARSE_RECORD_DONE (R169). A pipe completes a frame's parse record and classification and delivers them to the
  reorder store. -/
  | parseRecordDone (p : PipeNo) (differs : Bool)
  /-- FLOWKEY_READY_CHANGE (R16). A change of a flow-key channel's ready input stops or resumes the sending of key
  words. -/
  | flowkeyReadyChange (q : Fin 4) (v : Bool)
  /-- PIPE_STALL (R149). A record overdue by 64 parse cycles stalls its pipe, substitutes a spare and declares its
  frames lost. -/
  | pipeStall (p : PipeNo)
  /-- REORDER_RELEASE (R154). A held frame whose lower sequence numbers are all resolved is released to the packet
  interface. -/
  | reorderRelease (p : PortNo)
  /-- GAP_TIMEOUT (R156). A port's gap outstanding for 2 µs has its missing sequence numbers declared lost. -/
  | gapTimeout (p : PortNo)
  /-- RX_CREDIT_GRANT (R10). The switch core grants a receive cell credit to a cluster. -/
  | rxCreditGrant (cl : ClusterNo) (n : Nat)
  /-- PIPE_TEST (R152). A write of PIPE_TEST.GO substitutes a spare for a pipe in rotation and has DARKSLIDE test it.
  -/
  | pipeTest (p : CmdPort) (v : Word)
  /-- QUARTER_OFF (R153). Setting a QUARTER_CTRL.OFF bit takes a parse quarter out of rotation and powers it down. -/
  | quarterOff (p : CmdPort) (v : Word)
  /-- QUARTER_ON (R153). Clearing a QUARTER_CTRL.OFF bit powers the quarter up and rejoins its pipes. -/
  | quarterOn (p : CmdPort) (v : Word)
  /-- QUARTER_IDLE_TIMEOUT (R153). 1 ms after the last register access that woke a switched-off quarter, the quarter
  powers down again. -/
  | quarterIdleTimeout (q : Fin 4)
  /-- CLASS_ROW_READ (R183). ROW_RD with GO reads a ternary row or exact entry into ROW_DATA. -/
  | classRowRead (p : CmdPort) (v : Word)
  /-- HASH_SEED_WRITE (R174). A write of HASH_SEED sets the flow-key hash seed and SEED_SET. -/
  | hashSeedWrite (p : CmdPort) (v : Word)
  /-- TX_CELL_ACCEPT (R185). A cell from the switch core is taken into the transmit buffer against a credit. -/
  | txCellAccept (cl : ClusterNo) (side : Word) (first : List Byte) (data : List Byte)
  /-- TX_FRAME_COMMIT (R184). The scheduler commits a frame's start on the line, fixing its departure, the PN and any
  one-step insertion. -/
  | txFrameCommit (p : PortNo) (block : TxBlock) (laid : Nat) (left : Nat)
  /-- TX_FRAME_END (R266). When the last octet of a frame passes the commit point, its credits are returned and any
  host completion is issued. -/
  | txFrameEnd (p : PortNo)
  /-- XOFF_REQUEST_CHANGE (R197). A change of the XOFF request generates a PFC or PAUSE frame. -/
  | xoffRequestChange (p : PortNo) (v : BitVec 8)
  /-- FC_REFRESH (R197). At each REFRESH interval while XOFF stands, a refresh flow-control frame is sent. -/
  | fcRefresh (p : PortNo)
  /-- PAUSE_WDOG_TRIP (R196). A priority paused for LIMIT_MS trips: its queued frames are discarded. -/
  | pauseWdogTrip (p : PortNo) (i : Fin 9)
  /-- VERIFY_TIMER (R198). At each VERIFY_TIME an SMD-V is sent; after VERIFY_LIMIT sends without SMD-R, verification
  fails. -/
  | verifyTimer (p : PortNo)
  /-- INSTALL_RX_SA (R210). KEY_CMD OP 1 installs a receive SA from the staging registers. -/
  | installRxSa (p : CmdPort) (cl : ClusterNo) (sc : Fin 64) (an : Fin 4)
  /-- INSTALL_TX_SA (R210). KEY_CMD OP 2 installs a transmit SA and sets KEY_CHECK. -/
  | installTxSa (p : CmdPort) (cl : ClusterNo) (sc : Fin 64) (an : Fin 4)
  /-- REMOVE_RX_SA (R210). KEY_CMD OP 3 removes a receive SA and erases its key. -/
  | removeRxSa (p : CmdPort) (cl : ClusterNo) (sc : Fin 64) (an : Fin 4)
  /-- REMOVE_TX_SA (R210). KEY_CMD OP 4 removes a transmit SA and erases its key. -/
  | removeTxSa (p : CmdPort) (cl : ClusterNo) (sc : Fin 64) (an : Fin 4)
  /-- SA_READ (R216). SA_RD with GO reads an SA's next PN and status. -/
  | saRead (p : CmdPort) (cl : ClusterNo) (v : Word)
  /-- ENCODING_SA_WRITE (R211). A write of TX_SC_CTRL.ENCODING_SA sets SWITCH_PENDING and prepares the new SA's
  keystream. -/
  | encodingSaWrite (p : CmdPort) (cl : ClusterNo) (sc : Fin 32) (v : Word)
  /-- ADJ_STEP (R228). ADJ_CMD OP 1 steps time of day by M when the step decision allows, and otherwise slews. -/
  | adjStep (p : CmdPort)
  /-- ADJ_SLEW (R228). ADJ_CMD OP 2 sets E and R to M and starts a slew. -/
  | adjSlew (p : CmdPort)
  /-- ADJ_REPORT (R228). ADJ_CMD OP 3 records M as the error estimate E. -/
  | adjReport (p : CmdPort)
  /-- ADJ_SET_AT_PPS (R228). ADJ_CMD OP 4 waits for the next good PPS edge and then steps to the given second. -/
  | adjSetAtPps (p : CmdPort)
  /-- TICK_INCR_COMMIT (R227). A write of TICK_INCR_HI commits a new, clamped increment. -/
  | tickIncrCommit (p : CmdPort) (v : Word)
  /-- SLEW_DONE (R229). The slew remainder R reaches 0, SLEWING clears and event 2 is latched. -/
  | slewDone
  /-- STEP_ARM_EXPIRY (R230). STEP_WINDOW seconds after it was set, the forward arm STEP_ARMED expires. -/
  | stepArmExpiry
  /-- PPS_EDGE (R224). A rising edge of TIME_PPS_IN is taken as a starting, good or bad edge, and a good edge is
  measured. -/
  | ppsEdge (phase : Fin 8)
  /-- PPS_TIMEOUT (R224). 1.5 s without a good edge clears the reference edge, PPS_PRESENT and REF_OK. -/
  | ppsTimeout
  /-- REF_TIMEOUT_EXPIRY (R223). REF_TIMEOUT seconds without an ADJ command clear REF_OK for the software reference.
  -/
  | refTimeoutExpiry
  /-- TIME_REF_LOSS (R225). Loss of TIME_REF_IN clears PLL_LOCKED and falls back to the die reference. -/
  | timeRefLoss
  /-- TIME_REF_RETURN (R225). TIME_REF_IN present and in tolerance for 100 ms returns the PLL to it. -/
  | timeRefReturn
  /-- TIME_ACQ_LOSS (R313). A receiving island loses time-word acquisition, clears TIME_ACQ and raises ISLAND_FAULT.
  -/
  | timeAcqLoss (i : Fin 75) (peak : BitVec 16)
  /-- TIME_ACQ_REGAINED (R313). The island reacquires the time word and sets TIME_ACQ. -/
  | timeAcqRegained (i : Fin 75)
  /-- DISTRIBUTION_DELAY_MEASURE (R312). Every 100 µs an echoed time word re-measures an island's distribution delay.
  -/
  | distributionDelayMeasure (i : Fin 75) (roundTrip : Nat) (peak : BitVec 16)
  /-- SHUTTER_ARM (R249). CH_CMD OP 1 samples the channel configuration and arms the channel, or refuses it. -/
  | shutterArm (p : CmdPort) (c : Fin 8)
  /-- SHUTTER_DISARM (R249). CH_CMD OP 2 disarms the channel once any pulse in progress completes. -/
  | shutterDisarm (p : CmdPort) (c : Fin 8)
  /-- SHUTTER_EDGE (R250). A scheduled leading edge is driven, suppressed or skipped. -/
  | shutterEdge (c : Fin 8)
  /-- SHUTTER_PULSE_END (R250). A pulse ends WIDTH after its leading edge. -/
  | shutterPulseEnd (c : Fin 8)
  /-- SHUTTER_WAKE (R253). WAKE_LEAD ms before an armed channel's next edge, the complex wakes from sleep. -/
  | shutterWake (c : Fin 8)
  /-- TSLOG_RD_WRITE (R247). A write of a ring read index (TSLOG_RD, FJ_RD or ARCH_RD) is accepted only within range.
  -/
  | tslogRdWrite (p : CmdPort) (u : Fin 3) (v : Word)
  /-- DB_TX (R258). A transmit or receive doorbell advances a queue's PI, is discarded, or puts the queue into OVERRUN
  ERROR. -/
  | dbTx (p : CmdPort) (f : FnNo) (rx : Bool) (v : Word)
  /-- DB_CQ (R267). A DB_CQ write advances a completion ring's CI and may edge its source. -/
  | dbCq (p : CmdPort) (f : FnNo) (v : Word)
  /-- DB_STABLE_TX (R259). A DB_STABLE write sets a queue's STABLE_TO mark. -/
  | dbStableTx (p : CmdPort) (f : FnNo) (rx : Bool) (v : Word)
  /-- DESCRIPTOR_FETCH_DONE (R259). A descriptor block read returns; its entries are marked, used or discarded, and
  checked. -/
  | descriptorFetchDone (rx : Bool) (q : QueueNo) (i : Nat) (data : Option (List Byte))
  /-- TX_HOST_FRAME_FETCHED (R262). A host frame fetched whole has its checksums generated and is handed to its port
  queue. -/
  | txHostFrameFetched (q : QueueNo) (data : Option (List Byte))
  /-- RX_QUEUE_DELIVERY (R269). A punted or mirrored frame is delivered to its receive queue, redirected or refused.
  -/
  | rxQueueDelivery (q : QueueNo)
  /-- FUNCTION_RESET (R271). A write of PG_FN.RESET.GO starts the reset of every queue and ring of the function. -/
  | functionReset (p : CmdPort) (f : FnNo) (v : Word)
  /-- RESET_DONE (R271). Once outstanding reads return and committed frames end, the indices are zeroed and RESET_DONE
  is set. -/
  | resetDone (f : FnNo)
  /-- CTX_READ (R274). CTX_CMD OP 1 reads a queue or ring context into CTX_DATA. -/
  | ctxRead (p : CmdPort)
  /-- CTX_WRITE (R274). CTX_CMD OP 2 writes a queue or ring context, or refuses it. -/
  | ctxWrite (p : CmdPort)
  /-- CLAIM (R283). A read of CLAIM returns and claims the target's candidate, or 0xFFFF. -/
  | claim (p : CmdPort) (t : TargetNo)
  /-- COMPLETE (R284). A COMPLETE write ends the target's service, or is ignored and counted. -/
  | complete (p : CmdPort) (t : TargetNo) (v : Word)
  /-- PEND_SET (R279). Writing PEND_SET sets interrupt pending bits without counting them. -/
  | pendSet (p : CmdPort) (w : Fin 64) (v : Word)
  /-- PEND_CLR (R279). Writing PEND_CLR clears interrupt pending bits. -/
  | pendClr (p : CmdPort) (w : Fin 64) (v : Word)
  /-- MASK_SET (R280). Writing MASK_SET masks interrupt sources. -/
  | maskSet (p : CmdPort) (w : Fin 64) (v : Word)
  /-- MASK_CLR (R280). Writing MASK_CLR unmasks sources, which are then offered at once. -/
  | maskClr (p : CmdPort) (w : Fin 64) (v : Word)
  /-- ROUTE_READ (R290). ROUTE_CMD OP 1 reads a source's route mask. -/
  | routeRead (p : CmdPort)
  /-- ROUTE_WRITE (R290). ROUTE_CMD OP 2 writes a source's route mask. -/
  | routeWrite (p : CmdPort)
  /-- EQ_CI_WRITE (R288). An EQ_CI write advances the event queue's CI, frees room and may raise the notification. -/
  | eqCiWrite (p : CmdPort) (t : TargetNo) (v : Word)
  /-- EQ_CFG_WRITE (R289). A write of EQ_CFG enables or disables an event queue and resets its indices. -/
  | eqCfgWrite (p : CmdPort) (t : TargetNo) (v : Word)
  /-- CV_JOB_START (R299). JOB_CMD OP 1 starts a check-value job, or is rejected with BUSY. -/
  | cvJobStart (p : CmdPort) (u : Fin 8)
  /-- CV_JOB_ABORT (R300). JOB_CMD OP 2 ends a running job with reason ABORTED. -/
  | cvJobAbort (p : CmdPort) (u : Fin 8)
  /-- CV_JOB_DONE (R299). A check-value job finishes reading and writes RESULT, or fails. -/
  | cvJobDone (u : Fin 8) (data : Option (List Byte))
  /-- MEMPORT_RESPONSE (R402). The memory controller answers a write, advancing its user's write index or counting an
  error. -/
  | memportResponse (i : Nat) (ok : Bool) (tenths : Nat)
  /-- MEMPORT_TIMEOUT (R19). A memory request unanswered for 50 µs is abandoned and counted. -/
  | memportTimeout (i : Nat)
  /-- MEM_STATUS_CHANGE (R402). A change of a memory-controller status level is shown in MEM_STATUS. -/
  | memStatusChange (v : BitVec 3)
  /-- REGION_VALIDATE (R401). Writing 1 to a REGION_CTRL.VALID bit validates a memory region, or refuses it. -/
  | regionValidate (p : CmdPort) (v : Word)
  /-- REGION_INVALIDATE (R401). Writing 0 to a REGION_CTRL.VALID bit invalidates the region once its writes are
  answered. -/
  | regionInvalidate (p : CmdPort) (v : Word)
  /-- LEVEL_CHANGE_DONE (R318). The level-change sequence completes and the new level is in force. -/
  | levelChangeDone
  /-- SLEEP_QUIESCED (R324). Quiescence completes with WAIT on the service cores, and sleep entry begins. -/
  | sleepQuiesced
  /-- SLEEP_STATE_REACHED (R30). Sleep entry completes, the DARK save included; a wake recorded meanwhile starts at
  once. -/
  | sleepStateReached
  /-- WAKE_EVENT (R327). A wake source in STILL is recorded in LAST_WAKE and starts the wake of the domains. -/
  | wakeEvent (code : BitVec 4) (loc : BitVec 8)
  /-- WAKE_COMPLETE (R328). Every domain is ready, the retention banks have been checked, and the complex is in RUN.
  -/
  | wakeComplete (bad : BitVec 4) (fails : List ClusterNo)
  /-- PAD_HOLD_CLR (R28). Writing 1 to PAD_HOLD_CLR releases the held time-group balls. -/
  | padHoldClr (p : CmdPort) (v : Word)
  /-- RETAIN_ACK (R334). Writing 1 to RETAIN_ACK clears CL_RETAIN_FAIL and ends fault cause 4. -/
  | retainAck (p : CmdPort) (v : Word)
  /-- THERM_WARN (R320). A junction temperature at or above 110 °C latches event 6 and changes no level. -/
  | thermWarn (t : BitVec 8)
  /-- AGING_SAMPLE (R341). The once-a-second sample of the aging monitors may set alarms and queue planned migrations.
  -/
  | agingSample (l : List AgingReading)
  /-- LOCKSTEP_MISCOMPARE (R341). A lock-step checker miscompare queues an urgent migration. -/
  | lockstepMiscompare (u : UnitId)
  /-- UNCORRECTABLE_ERROR (R346). An uncorrectable memory or crossing error is handled by migration, reload or
  discard. -/
  | uncorrectableError (u : UnitId) (c : ErrContent)
  /-- MIGRATION_START (R342). FIXER takes the next queued decision and powers and prepares the chosen spare. -/
  | migrationStart
  /-- SHADOW_COMPARE_START (R343). The spare has acquired lock in shadow, and comparison begins. -/
  | shadowCompareStart (differs : Option Nat)
  /-- MIGRATION_SWITCHOVER (R343). Comparison ends clean, or is skipped, and each port switches to the spare at its
  boundary. -/
  | migrationSwitchover (frames : Nat)
  /-- RETIRED_UNIT_FATE (R347). DARKSLIDE's result on a retired unit decides whether it is condemned, made spare,
  returned or kept standby. -/
  | retiredUnitFate
  /-- JOURNAL_HOUR_ROLLOVER (R350). At each new POWERED_NS hour, held journal entries are written within the 64
  allowed. -/
  | journalHourRollover
  /-- JRNL_RD (R349). JRNL_RD with GO reads one journal entry into JRNL_DATA. -/
  | jrnlRd (p : CmdPort) (v : Word)
  /-- DARKSLIDE_TEST_START (R354). DARKSLIDE starts testing the next unit: it clears secrets and runs MBIST and LBIST.
  -/
  | darkslideTestStart (clearOk : Bool)
  /-- DARKSLIDE_UNIT_RESULT (R355). A unit's test completes or stops, and its outcome is logged. -/
  | darkslideUnitResult (r : TestReport)
  /-- BG_TEST_START (R364). Every INTERVAL minutes, a background test of the next unit in the cycle starts. -/
  | bgTestStart
  /-- CAL_WRITE_OVERLAY (R372). CAL_CMD OP 1 reads and checks an overlay image and starts writing it. -/
  | calWriteOverlay (p : CmdPort) (fn : FnNo) (img : Option (List Byte))
  /-- CAL_WRITE_DONE (R372). Copy B of the overlay is written, and the write is complete. -/
  | calWriteDone
  /-- NV_RD (R375). NV_RD with GO reads a 64-byte NV line into NV_RD_DATA. -/
  | nvRd (p : CmdPort) (v : Word)
  /-- HEARTBEAT_SEND (R380). Every 1 ms the agent sends a heartbeat on every federation port that is up. -/
  | heartbeatSend
  /-- HEARTBEAT_RECEIVE (R384). A received heartbeat is accepted, discarded as duplicate or conflict, relayed, and may
  act as a SAFELIGHT notice. -/
  | heartbeatReceive (p : PortNo) (body : List Byte) (late : Bool)
  /-- MEMBER_ABSENT (R385). 3 ms without a heartbeat marks a member absent. -/
  | memberAbsent (m : Fin 1024)
  /-- RELAYED_COMMAND (R386). A relayed command is accepted, relayed, and handed to port F at its target. -/
  | relayedCommand (p : PortNo) (body : List Byte) (late : Bool)
  /-- RELAYED_RESPONSE (R386). A relayed response is relayed, or handed to the management core at its target. -/
  | relayedResponse (p : PortNo) (body : List Byte) (late : Bool)
  /-- DIGEST_RECOMPUTE (R381). After a change to a covered register, CONFIG_DIGEST is recomputed. -/
  | digestRecompute
  /-- ID_CONFLICT_CLEAR (R387). 10 s after the last conflicting heartbeat, the heartbeat ID-conflict flag clears. -/
  | idConflictClear
  /-- MEMBER_RD (R393). MEMBER_RD with GO reads a member's latest heartbeat body and age. -/
  | memberRd (p : CmdPort) (v : Word)
  /-- LOUPE_SNAP (R396). A write of PG_LOUPE.SNAP.GO copies all 1,024 counters into CAP_c in one cycle. -/
  | loupeSnap (p : CmdPort) (v : Word)
  /-- LOUPE_CFG_WRITE (R397). A write of CFG_c that changes any field reconfigures the counter and clears its value.
  -/
  | loupeCfgWrite (p : CmdPort) (b : Fin 8) (c : Fin 128) (v : Word)
  /-- LOUPE_CLR (R397). A write of CLR_w clears the named counters. -/
  | loupeClr (p : CmdPort) (b : Fin 8) (w : Fin 4) (v : Word)
  /-- BW_WINDOW_END (R398). At each window boundary, BW_p takes the utilisation of the window just ended. -/
  | bwWindowEnd
  /-- ARCHIVE_CAPTURE (R399). Every PERIOD_MS, a counter and bandwidth snapshot is captured and queued to die memory.
  -/
  | archiveCapture
  /-- LOCK_LOSS (R93). The PCS of an up port loses block lock or alignment-marker lock, or reports high BER, and the
  port goes down within 1 µs. -/
  | lockLoss (p : PortNo) (hiBer : Bool)
  /-- REMOTE_FAULT (R93). The start or end of received remote-fault ordered sets makes the port send idle in place of
  frames, or resume frames. -/
  | remoteFault (p : PortNo) (start : Bool)
  /-- DEGRADE_WINDOW_END (R103). At the end of each 1 ms window, a port whose corrected symbols reached THRESH gets
  DEGRADE set for the next window and DEGRADE_CNT incremented, with event 3 latched on a rise. -/
  | degradeWindowEnd (p : PortNo) (f : FecReport)
  /-- LOCK_BOUND_REACHED (R221). While a slew runs, |E| falls to LOCK_BOUND with REF_OK set and a measurement made,
  and time of day enters LOCKED, setting the forward arm. -/
  | lockBoundReached
  /-- TIME_DISJOINT_CLEARED (R231). While a slew runs, |E| falls to 10 ms, which clears TIME_DISJOINT and releases
  FAULT_N cause 3. -/
  | timeDisjointCleared
  /-- TIME_BOUND_EXCEEDED (R390). UNCERT grows past TIME_BOUND with time since the last measurement, and the member
  withdraws as a time source, latching event 4. -/
  | timeBoundExceeded
  /-- VDDIO_RISE (R26). VDDIO returning above 1.5 V ends the VDDIO cause of HOLD. -/
  | vddioRise
  deriving DecidableEq, Repr

end Sys2Proof
end

