-- ==== Sys2Proof/Decode.lean ====
section
/-! DEFINITION. The words of the table of operations and events: it gives no row a bit. -/

namespace Sys2Proof

/-- The command that a word spells by the table's bits: none of the 173 rows has bits, so no word spells one. -/
def decodeTableWord (nbits w : Nat) : Option Instr :=
  match nbits, w with
  | _, _ => none

end Sys2Proof
end

