-- ==== Sys2Proof/Config.lean ====
section
/-! DEFINITION. What one part or one die fixes and the spec does not, and the free values of the model. Every
constant here is opaque: nothing can prove a value of it. -/

namespace Sys2Proof.Config

/-- `PG_BLOCK.IDENT` MAJOR and MINOR, per stepping (Table 2.3). -/
opaque stepping : BitVec 16

/-- `PG_BLOCK.IDENT`: PRODUCT 0x0512 over the stepping (Table 2.3). -/
def ident : Word := (0x0512#16) ++ stepping

/-- DIE_ID: 64-bit die serial from the factory calibration (R82). -/
opaque dieId : DWord

/-- MEM_GRAIN[4:0] of the memory controller, static after reset (R20, R400). -/
opaque grain : BitVec 5

/-- `PG_MEMPORT.GRAIN` (R400). -/
def memGrain : Word := grain.setWidth 32

/-- Path residual of a lane in 2^-16 ns, by the slice or cluster that serves it: 0 home, 8 slice 8, 64 and 65 the spare
clusters (R100, R237, Table 21.1). -/
opaque residual : Nat → Nat → Int

/-- A frame that no gap holds starts at octet 4 of a block, not 0: by port and POWERED_NS (R190: where the stream stands then). -/
opaque lateStart : Nat → Nat → Bool

/-- Asymmetry of the time word's path to a receiving island, in ps (R312). -/
opaque wordAsymmetry : Nat → Int

/-- RX_OFFSET and TX_OFFSET of the factory calibration, as a TS_PORT word, by port and speed code (R240, R367). -/
opaque portOffset : Nat → Nat → Word

/-- The NV store as shipped outside the user overlay, by address (R369). -/
opaque nvByte : Nat → Byte

/-- Bytes of host memory at a read whose data no command carries, by read number and offset (R372 through REG_WRITE). -/
opaque hostByte : Nat → Nat → Byte

/-- Copy A of an overlay write in progress was already whole when power failed, by number (R374). -/
opaque cutWrite : Nat → Bool

/-- Bytes of the repair-map region, whose layout the spec does not give, by read number and address (R339). -/
opaque mapByte : Nat → Nat → Byte

/-- EVENT of a journal entry for which Table 19.5 lists no code: a fate that is no condemnation, an L2 repair; by number
(R347, R349, R356). -/
opaque journalEvent : Nat → Byte

/-- L2_STATUS: macros using redundancy and fewest spare rows left, by the number of L2 repairs made in the field (Table
19.7: from the map, which the factory wrote). -/
opaque l2Macros : Nat → BitVec 16
opaque l2Rows : Nat → Byte

/-- Pattern counter of a test that is running or was stopped, and the MISR at its stop, by number (R355). -/
opaque patterns : Nat → Fin 65536
opaque misr : Nat → DWord

/-- Result of a TEST_START that a SAFELIGHT trigger abandons, by number: R54 gives none. -/
opaque abandonedTest : Nat → Byte

/-- The registers that MEMBER_RD shows of a member that has never been heard, by number and word (R393). -/
opaque unheardWord : Nat → Nat → Word

end Sys2Proof.Config
end

