-- ==== Sys2Proof/Machine/RegMap.lean ====
section
/-! DEFINITION. The register map: for every kind of page the registers the spec's tables give it, with the
bits software may write, the bits a read clears, the bits that are write only, the reset value and the _LO/_HI role
(R32, R35, R40, R42 and the register tables of every chapter; Table numbers stand above each list). -/

namespace Sys2Proof.Machine

/-- `rowOf first n1 s1 n2 s2 rw rc wo reset pair`: one table row that stands for `n1 × n2` registers. -/
def rowOf (first n1 s1 n2 s2 : Nat) (rw rc wo reset : Nat) (pair : Nat) : RegRow :=
  { first := first, n1 := n1, s1 := s1, n2 := n2, s2 := s2, rw := BitVec.ofNat 32 rw, rc := BitVec.ofNat 32 rc,
    wo := BitVec.ofNat 32 wo, reset := BitVec.ofNat 32 reset, pair := pair }

/-- Registers of Tables 2.3. -/
def rowsBlock : List RegRow :=
  [ rowOf 0x080 1 4 1 4 0x00000000 0x00000000 0x00000000 0x05120000 0 -- IDENT
  , rowOf 0x084 1 4 1 4 0x00000000 0xFFFFFFFF 0x00000000 0x00000000 0 -- BAD_ACCESS
  , rowOf 0x088 1 4 1 4 0x00000000 0xFFFFFFFF 0x00000000 0x00000000 0 -- OFF_ACCESS
  , rowOf 0x08C 1 4 1 4 0x00000000 0x00000000 0x00000000 0x00000000 0 -- LAST_BAD_ADDR
  , rowOf 0x090 5 4 1 4 0x00000000 0x0000FFFF 0x00000000 0x00000000 0 -- PERMIT_DENY_x
  , rowOf 0x0A4 1 4 1 4 0x00000000 0x00000000 0x00000000 0x00000000 0 -- LAST_DENY
  ]

/-- Registers of Tables 3.7. -/
def rowsMode : List RegRow :=
  [ rowOf 0x080 1 4 1 4 0x00000000 0x00000000 0x00000000 0x00000301 0 -- MODE_STATE
  , rowOf 0x084 1 4 1 4 0x00000000 0x00000000 0x00000000 0x00000000 0 -- PROOF_STATUS
  , rowOf 0x088 1 4 1 4 0x00000000 0x00000000 0x00000000 0x00000000 0 -- SAFE_STATUS
  , rowOf 0x08C 1 4 1 4 0x00000000 0x00000000 0x00000000 0x00000000 1 -- SAFE_ENTRY_NS_LO
  , rowOf 0x090 1 4 1 4 0x00000000 0x00000000 0x00000000 0x00000000 2 -- SAFE_ENTRY_NS_HI
  , rowOf 0x094 1 4 1 4 0x00000000 0x00000000 0x00000000 0x00000000 0 -- LAST_REJECT
  , rowOf 0x098 5 4 1 4 0x00000000 0x0000FFFF 0x00000000 0x00000000 0 -- REJECT_CNT_x
  ]

/-- Registers of Tables 4.5. -/
def rowsCmd : List RegRow :=
  [ rowOf 0x080 1 4 1 4 0xFFFFFFFF 0x00000000 0x00000000 0x00000000 0 -- MB_HDR
  , rowOf 0x084 1 4 1 4 0x000001FF 0x00000000 0x00000000 0x00000000 0 -- MB_LEN
  , rowOf 0x088 1 4 1 4 0x00000000 0x00000000 0x00000001 0x00000000 0 -- MB_GO
  , rowOf 0x08C 1 4 1 4 0x00000000 0x00000000 0x00000000 0x00000000 0 -- MB_STATUS
  , rowOf 0x090 1 4 1 4 0x00000000 0x00000000 0x00000000 0x00000000 0 -- MB_RESP_HDR
  , rowOf 0x094 1 4 1 4 0x00000000 0x00000000 0x00000000 0x00000000 0 -- MB_RESP_LEN
  , rowOf 0x098 1 4 1 4 0x00000000 0x00000000 0x0000FFFF 0x00000000 0 -- SHEET_REQ
  , rowOf 0x09C 1 4 1 4 0x00000000 0x00000000 0x00000000 0x00000000 0 -- SHEET_STATUS
  , rowOf 0x0A0 1 4 1 4 0x00000000 0x00000000 0x00000000 0x00000000 0 -- STRAP
  , rowOf 0x0A4 5 4 1 4 0x00000000 0x0000FFFF 0x00000000 0x00000000 0 -- NOTPERM_CNT_x
  , rowOf 0x0B8 5 4 1 4 0x00000000 0x0000FFFF 0x00000000 0x00000000 0 -- DUP_CNT_x
  , rowOf 0x0CC 1 4 1 4 0x00000000 0xFFFFFFFF 0x00000000 0x00000000 0 -- CMD_FRAME_DROP
  , rowOf 0x0D0 1 4 1 4 0x00000000 0x0000FFFF 0x00000000 0x00000000 0 -- CMD_FRAME_NOROLE
  , rowOf 0x100 64 4 1 4 0xFFFFFFFF 0x00000000 0x00000000 0x00000000 0 -- MB_ARGS
  , rowOf 0x200 16 4 1 4 0x00000000 0x00000000 0x00000000 0x00000000 0 -- MB_RESP
  , rowOf 0x400 256 4 1 4 0x00000000 0x00000000 0x00000000 0x00000000 0 -- SHEET_H
  ]

/-- Registers of Tables 4.7a. -/
def rowsSafety : List RegRow :=
  [ rowOf 0x080 1 4 1 4 0x00000000 0x00000000 0x00000000 0x00000000 0 -- LINK_STATUS
  , rowOf 0x084 1 4 1 4 0x0000FFFF 0x00000000 0x00000000 0x0000000A 0 -- ALARM_FILTER
  , rowOf 0x088 1 4 1 4 0x00000000 0xFFFFFFFF 0x00000000 0x00000000 0 -- FRAME_CNT
  , rowOf 0x08C 1 4 1 4 0x00000000 0xFFFFFFFF 0x00000000 0x00000000 0 -- FRAME_ERR_CNT
  , rowOf 0x090 1 4 1 4 0x00000000 0x0000FFFF 0x00000000 0x00000000 0 -- WDOG_EXPIRY_CNT
  , rowOf 0x094 1 4 1 4 0x00000000 0x00000000 0x00000000 0x00000000 1 -- LAST_FRAME_NS_LO
  , rowOf 0x098 1 4 1 4 0x00000000 0x00000000 0x00000000 0x00000000 2 -- LAST_FRAME_NS_HI
  ]

/-- Registers of Tables 5.2, 5.7. -/
def rowsPcs : List RegRow :=
  [ rowOf 0x080 8 4 1 4 0x0000FFC0 0x00000000 0x00000000 0x00000000 0 -- PORT_CFG_i
  , rowOf 0x0A0 1 4 1 4 0x00000000 0x00000000 0x800000FF 0x00000000 0 -- RECONFIG
  , rowOf 0x0A4 1 4 1 4 0x00000000 0x00000000 0x00000000 0x00000000 0 -- RECONFIG_STATUS
  , rowOf 0x0A8 1 4 1 4 0x00000000 0x00000000 0x00000000 0x00FF0000 0 -- SUBST
  , rowOf 0x0AC 1 4 1 4 0x00000000 0x00000000 0x00000000 0x00000000 0 -- CAP
  , rowOf 0x0B0 1 4 1 4 0x00000000 0x00000000 0x00000000 0x00000000 0 -- PORT_STATE
  , rowOf 0x0B4 1 4 1 4 0x00FFFFFF 0x00000000 0x00000000 0x00000000 0 -- DEGRADE_CFG
  , rowOf 0x0B8 1 4 1 4 0x00000000 0x00000000 0x00000001 0x00000000 0 -- SNAP
  , rowOf 0x0BC 1 4 1 4 0x00000000 0x00000000 0x0000FFFF 0x00000000 0 -- CNT_CLR
  , rowOf 0x0C0 8 4 1 4 0x00000000 0x00000000 0x00000000 0x00000000 0 -- LANE_STATUS_i
  , rowOf 0x100 8 128 1 4 0x00000000 0x00000000 0x00000000 0x00000000 1 -- CW_TOTAL_LO
  , rowOf 0x104 8 128 1 4 0x00000000 0x00000000 0x00000000 0x00000000 2 -- CW_TOTAL_HI
  , rowOf 0x108 8 128 1 4 0x00000000 0x00000000 0x00000000 0x00000000 1 -- CW_CORR_LO
  , rowOf 0x10C 8 128 1 4 0x00000000 0x00000000 0x00000000 0x00000000 2 -- CW_CORR_HI
  , rowOf 0x110 8 128 1 4 0x00000000 0x00000000 0x00000000 0x00000000 1 -- CW_UNCORR_LO
  , rowOf 0x114 8 128 1 4 0x00000000 0x00000000 0x00000000 0x00000000 2 -- CW_UNCORR_HI
  , rowOf 0x118 8 128 1 4 0x00000000 0x00000000 0x00000000 0x00000000 1 -- SYM_CORR_LO
  , rowOf 0x11C 8 128 1 4 0x00000000 0x00000000 0x00000000 0x00000000 2 -- SYM_CORR_HI
  , rowOf 0x120 8 128 1 4 0x00000000 0x00000000 0x00000000 0x00000000 1 -- PCS_ERR_LO
  , rowOf 0x124 8 128 1 4 0x00000000 0x00000000 0x00000000 0x00000000 2 -- PCS_ERR_HI
  , rowOf 0x128 8 128 1 4 0x00000000 0x00000000 0x00000000 0x00000000 0 -- LOCK_LOSS
  , rowOf 0x12C 8 128 1 4 0x00000000 0x00000000 0x00000000 0x00000000 0 -- HI_BER_CNT
  , rowOf 0x130 8 128 1 4 0x00000000 0x00000000 0x00000000 0x00000000 0 -- DESKEW_ERR
  , rowOf 0x134 8 128 1 4 0x00000000 0x00000000 0x00000000 0x00000000 0 -- DEGRADE_CNT
  ] ++
  [ rowOf 0x140 8 128 15 4 0x00000000 0x00000000 0x00000000 0x00000000 0 -- HIST_k
  , rowOf 0x0E0 8 4 1 4 0x00000000 0x00000000 0x00000000 0x00000000 0 -- PORT_LIVE_i
  , rowOf 0x500 8 8 1 4 0x00000000 0x00000000 0x00000000 0x00000000 1 -- SYM_ERR_LANE_i_LO
  , rowOf 0x504 8 8 1 4 0x00000000 0x00000000 0x00000000 0x00000000 2 -- SYM_ERR_LANE_i_HI
  ]

/-- Registers of Tables 6.2, 10.5. -/
def rowsMac : List RegRow :=
  [ rowOf 0x080 8 4 1 4 0x3FFF3FFE 0x00000000 0x00000000 0x05EE00B2 0 -- RX_CFG_i
  , rowOf 0x0A0 8 4 1 4 0x00000000 0x00000000 0x00000000 0x00000000 0 -- RX_STATUS_i
  , rowOf 0x0C0 1 4 1 4 0x0707007F 0x00000000 0x00000000 0x00000000 0 -- TBL_ADDR
  , rowOf 0x0C4 1 4 1 4 0xFFFFFFFF 0x00000000 0x00000000 0x00000000 1 -- TBL_WDATA_LO
  , rowOf 0x0C8 1 4 1 4 0xFFFFFFFF 0x00000000 0x00000000 0x00000000 2 -- TBL_WDATA_HI
  , rowOf 0x0CC 1 4 1 4 0x00000000 0x00000000 0x00000003 0x00000000 0 -- TBL_CMD
  , rowOf 0x0D0 1 4 1 4 0x00000000 0x00000000 0x00000000 0x00000000 1 -- TBL_RDATA_LO
  , rowOf 0x0D4 1 4 1 4 0x00000000 0x00000000 0x00000000 0x00000000 2 -- TBL_RDATA_HI
  , rowOf 0x0D8 1 4 1 4 0x00000000 0x00000000 0x00000000 0x00000000 0 -- TBL_STATUS
  , rowOf 0x0DC 1 4 1 4 0x00000000 0x00000000 0x00000000 0x00000000 0 -- WAKE_STATUS
  , rowOf 0x200 8 4 1 4 0x03F3CEC0 0x00000000 0x00000000 0x00C00000 0 -- TX_CFG_i
  , rowOf 0x220 8 4 1 4 0xFFFFFFFF 0x00000000 0x00000000 0xFFFF8000 0 -- TX_FC_i
  , rowOf 0x240 8 4 1 4 0x000000FF 0x00000000 0x00000000 0x00000000 0 -- TX_XOFF_SW_i
  , rowOf 0x260 8 4 1 4 0x00000000 0x00000000 0x00000000 0x00000000 0 -- TX_STATUS_i
  , rowOf 0x280 8 4 1 4 0x00000000 0x00000000 0x00000000 0x00000000 0 -- TX_TAIL_i
  , rowOf 0x2A0 1 4 1 4 0x000003FF 0x00000000 0x00000000 0x00000000 0 -- PAUSE_WDOG
  , rowOf 0x2A4 1 4 1 4 0x000007FF 0x00000000 0x00000000 0x0000030A 0 -- VERIFY_CFG
  , rowOf 0x2A8 1 4 1 4 0x00000000 0xFFFFFFFF 0x00000000 0x00000000 0 -- TX_BAD_PORT
  , rowOf 0x2AC 1 4 1 4 0x00000000 0x0000FF00 0x00000000 0x00000080 0 -- TX_BUF
  ]

/-- Registers of Tables 6.6, 10.6, 5.8, 5.7. -/
def rowsStat : List RegRow :=
  [ rowOf 0x100 8 256 1 4 0x00000000 0x00000000 0x00000000 0x00000000 1 -- RX_OCTETS_LO
  , rowOf 0x104 8 256 1 4 0x00000000 0x00000000 0x00000000 0x00000000 2 -- RX_OCTETS_HI
  , rowOf 0x108 8 256 1 4 0x00000000 0x00000000 0x00000000 0x00000000 1 -- RX_OCTETS_OK_LO
  , rowOf 0x10C 8 256 1 4 0x00000000 0x00000000 0x00000000 0x00000000 2 -- RX_OCTETS_OK_HI
  , rowOf 0x110 8 256 1 4 0x00000000 0x00000000 0x00000000 0x00000000 1 -- RX_FRAMES_OK_LO
  , rowOf 0x114 8 256 1 4 0x00000000 0x00000000 0x00000000 0x00000000 2 -- RX_FRAMES_OK_HI
  , rowOf 0x118 8 256 1 4 0x00000000 0x00000000 0x00000000 0x00000000 1 -- RX_UCAST_LO
  , rowOf 0x11C 8 256 1 4 0x00000000 0x00000000 0x00000000 0x00000000 2 -- RX_UCAST_HI
  , rowOf 0x120 8 256 1 4 0x00000000 0x00000000 0x00000000 0x00000000 1 -- RX_MCAST_LO
  , rowOf 0x124 8 256 1 4 0x00000000 0x00000000 0x00000000 0x00000000 2 -- RX_MCAST_HI
  , rowOf 0x128 8 256 1 4 0x00000000 0x00000000 0x00000000 0x00000000 1 -- RX_BCAST_LO
  , rowOf 0x12C 8 256 1 4 0x00000000 0x00000000 0x00000000 0x00000000 2 -- RX_BCAST_HI
  , rowOf 0x130 8 256 10 8 0x00000000 0x00000000 0x00000000 0x00000000 1 -- RX_SIZE_k_LO
  , rowOf 0x134 8 256 10 8 0x00000000 0x00000000 0x00000000 0x00000000 2 -- RX_SIZE_k_HI
  , rowOf 0x180 8 256 1 4 0x00000000 0x00000000 0x00000000 0x00000000 0 -- RX_UNDERSIZE
  , rowOf 0x184 8 256 1 4 0x00000000 0x00000000 0x00000000 0x00000000 0 -- RX_FRAGMENT
  , rowOf 0x188 8 256 1 4 0x00000000 0x00000000 0x00000000 0x00000000 0 -- RX_OVERSIZE
  , rowOf 0x18C 8 256 1 4 0x00000000 0x00000000 0x00000000 0x00000000 0 -- RX_JABBER
  , rowOf 0x190 8 256 1 4 0x00000000 0x00000000 0x00000000 0x00000000 0 -- RX_FCS_ERR
  , rowOf 0x194 8 256 1 4 0x00000000 0x00000000 0x00000000 0x00000000 0 -- RX_FCS_LATE
  , rowOf 0x198 8 256 1 4 0x00000000 0x00000000 0x00000000 0x00000000 0 -- RX_ALIGN_ERR
  , rowOf 0x19C 8 256 1 4 0x00000000 0x00000000 0x00000000 0x00000000 0 -- RX_CODE_ERR
  , rowOf 0x1A0 8 256 1 4 0x00000000 0x00000000 0x00000000 0x00000000 0 -- RX_CODE_LATE
  , rowOf 0x1A4 8 256 1 4 0x00000000 0x00000000 0x00000000 0x00000000 0 -- RX_DA_FILTERED
  ] ++
  [ rowOf 0x1A8 8 256 1 4 0x00000000 0x00000000 0x00000000 0x00000000 0 -- RX_VLAN_FILTERED
  , rowOf 0x1AC 8 256 1 4 0x00000000 0x00000000 0x00000000 0x00000000 0 -- RX_PKTIF_DROP
  , rowOf 0x1B0 8 256 1 4 0x00000000 0x00000000 0x00000000 0x00000000 0 -- RX_SAFE_DISCARD
  , rowOf 0x1B4 8 256 1 4 0x00000000 0x00000000 0x00000000 0x00000000 0 -- RX_STILL_DROP
  , rowOf 0x1B8 8 256 1 4 0x00000000 0x00000000 0x00000000 0x00000000 0 -- RX_PAUSE
  , rowOf 0x1BC 8 256 1 4 0x00000000 0x00000000 0x00000000 0x00000000 0 -- RX_MAC_CTRL_OTHER
  , rowOf 0x1C0 8 256 8 4 0x00000000 0x00000000 0x00000000 0x00000000 0 -- RX_PFC_PRIO_i
  , rowOf 0x1E0 8 256 1 4 0x00000000 0x00000000 0x00000000 0x00000000 0 -- MERGE_ASS_OK
  , rowOf 0x1E4 8 256 1 4 0x00000000 0x00000000 0x00000000 0x00000000 0 -- MERGE_ASS_ERR
  , rowOf 0x1E8 8 256 1 4 0x00000000 0x00000000 0x00000000 0x00000000 0 -- MERGE_SMD_ERR
  , rowOf 0x1EC 8 256 1 4 0x00000000 0x00000000 0x00000000 0x00000000 0 -- MERGE_FRAG_RX
  , rowOf 0x1F0 8 256 1 4 0x00000000 0x00000000 0x00000000 0x00000000 0 -- MERGE_VERIFY_RX
  , rowOf 0x1F4 8 256 1 4 0x00000000 0x00000000 0x00000000 0x00000000 0 -- RX_WAKE_MATCH
  , rowOf 0x900 8 224 1 4 0x00000000 0x00000000 0x00000000 0x00000000 1 -- TX_OCTETS_LO
  , rowOf 0x904 8 224 1 4 0x00000000 0x00000000 0x00000000 0x00000000 2 -- TX_OCTETS_HI
  , rowOf 0x908 8 224 1 4 0x00000000 0x00000000 0x00000000 0x00000000 1 -- TX_FRAMES_OK_LO
  , rowOf 0x90C 8 224 1 4 0x00000000 0x00000000 0x00000000 0x00000000 2 -- TX_FRAMES_OK_HI
  , rowOf 0x910 8 224 1 4 0x00000000 0x00000000 0x00000000 0x00000000 1 -- TX_UCAST_LO
  , rowOf 0x914 8 224 1 4 0x00000000 0x00000000 0x00000000 0x00000000 2 -- TX_UCAST_HI
  , rowOf 0x918 8 224 1 4 0x00000000 0x00000000 0x00000000 0x00000000 1 -- TX_MCAST_LO
  , rowOf 0x91C 8 224 1 4 0x00000000 0x00000000 0x00000000 0x00000000 2 -- TX_MCAST_HI
  , rowOf 0x920 8 224 1 4 0x00000000 0x00000000 0x00000000 0x00000000 1 -- TX_BCAST_LO
  , rowOf 0x924 8 224 1 4 0x00000000 0x00000000 0x00000000 0x00000000 2 -- TX_BCAST_HI
  , rowOf 0x928 8 224 10 8 0x00000000 0x00000000 0x00000000 0x00000000 1 -- TX_SIZE_k_LO
  ] ++
  [ rowOf 0x92C 8 224 10 8 0x00000000 0x00000000 0x00000000 0x00000000 2 -- TX_SIZE_k_HI
  , rowOf 0x978 8 224 1 4 0x00000000 0x00000000 0x00000000 0x00000000 0 -- TX_PAUSE
  , rowOf 0x97C 8 224 8 4 0x00000000 0x00000000 0x00000000 0x00000000 0 -- TX_PFC_PRIO_i
  , rowOf 0x99C 8 224 1 4 0x00000000 0x00000000 0x00000000 0x00000000 0 -- TX_UNDERRUN
  , rowOf 0x9A0 8 224 1 4 0x00000000 0x00000000 0x00000000 0x00000000 0 -- TX_STOMPED
  , rowOf 0x9A4 8 224 1 4 0x00000000 0x00000000 0x00000000 0x00000000 0 -- TX_PADDED
  , rowOf 0x9A8 8 224 1 4 0x00000000 0x00000000 0x00000000 0x00000000 0 -- TX_RUNT_DISCARD
  , rowOf 0x9AC 8 224 1 4 0x00000000 0x00000000 0x00000000 0x00000000 0 -- TX_OVERLONG
  , rowOf 0x9B0 8 224 1 4 0x00000000 0x00000000 0x00000000 0x00000000 0 -- TX_PORT_DOWN_DISCARD
  , rowOf 0x9B4 8 224 1 4 0x00000000 0x00000000 0x00000000 0x00000000 0 -- TX_SAFE_DISCARD
  , rowOf 0x9B8 8 224 1 4 0x00000000 0x00000000 0x00000000 0x00000000 0 -- TX_PAUSE_WDOG_DROP
  , rowOf 0x9BC 8 224 1 4 0x00000000 0x00000000 0x00000000 0x00000000 0 -- TX_PAUSE_WAIT
  , rowOf 0x9C0 8 224 1 4 0x00000000 0x00000000 0x00000000 0x00000000 0 -- TX_UNSTARTED_OVER
  , rowOf 0x9C4 8 224 1 4 0x00000000 0x00000000 0x00000000 0x00000000 0 -- MERGE_PREEMPT
  , rowOf 0x9C8 8 224 1 4 0x00000000 0x00000000 0x00000000 0x00000000 0 -- MERGE_FRAG_TX
  , rowOf 0x9CC 8 224 1 4 0x00000000 0x00000000 0x00000000 0x00000000 0 -- MERGE_VERIFY_TX
  , rowOf 0x9D0 8 224 1 4 0x00000000 0x00000000 0x00000000 0x00000000 0 -- MERGE_VERIFY_FAIL
  , rowOf 0x9D4 8 224 1 4 0x00000000 0x00000000 0x00000000 0x00000000 0 -- TX_FED_CTRL_DROP
  , rowOf 0x080 8 4 1 4 0x00000000 0x3FFFFFFF 0x00000000 0x00000000 0 -- LANE_CHG_i
  , rowOf 0x0A0 1 4 1 4 0x00000000 0x00000000 0x00000001 0x00000000 0 -- SNAP
  , rowOf 0x0A4 1 4 1 4 0x00000000 0x00000000 0x000000FF 0x00000000 0 -- CNT_CLR
  ]

/-- Registers of Tables 7.9, 7.10. -/
def rowsPipe : List RegRow :=
  [ rowOf 0x080 1 4 1 4 0x00000000 0x00000000 0x00000000 0x00000000 0 -- PIPE_STATE
  , rowOf 0x084 1 4 1 4 0x00000000 0x00000000 0x00000000 0x00000000 0 -- HEALTH
  , rowOf 0x090 1 4 1 4 0x00000000 0x00000000 0x00000000 0x00000000 1 -- FRAMES_LO
  , rowOf 0x094 1 4 1 4 0x00000000 0x00000000 0x00000000 0x00000000 2 -- FRAMES_HI
  , rowOf 0x098 1 4 1 4 0x00000000 0x00000000 0x00000000 0x00000000 0 -- WINDOW_END_CNT
  , rowOf 0x09C 1 4 1 4 0x00000000 0x00000000 0x00000000 0x00000000 0 -- FRAG_CNT
  , rowOf 0x0A0 1 4 1 4 0x00000000 0x00000000 0x00000000 0x00000000 0 -- FED_TAG_CNT
  , rowOf 0x0A4 1 4 1 4 0x00000000 0x00000000 0x00000000 0x00000000 0 -- CONTROL_CNT
  , rowOf 0x0A8 1 4 1 4 0x00000000 0x00000000 0x00000000 0x00000000 0 -- RTP_CNT
  , rowOf 0x0AC 1 4 1 4 0x00000000 0x00000000 0x00000000 0x00000000 0 -- TUNNEL_CNT
  , rowOf 0x0B0 8 4 1 4 0x00000000 0x00000000 0x00000000 0x00000000 0 -- MALF_CNT_r
  , rowOf 0x0D0 1 4 1 4 0x00000000 0x00000000 0x00000001 0x00000000 0 -- SNAP
  , rowOf 0x0D4 1 4 1 4 0x00000000 0x00000000 0x00000001 0x00000000 0 -- CNT_CLR
  , rowOf 0x100 1 4 1 4 0xFFFF0007 0x00000000 0x00000000 0x91000002 0 -- PARSE_CFG
  , rowOf 0x104 1 4 1 4 0xFFFFFFFF 0x00000000 0x00000000 0x17C112B5 0 -- TUNNEL_PORTS
  , rowOf 0x108 1 4 1 4 0x0000FFFF 0x00000000 0x00000000 0x00000000 0 -- MALF_ACTION
  , rowOf 0x110 16 4 1 4 0x0001FFFF 0x00000000 0x00000000 0x00000000 0 -- RTP_PORT_k
  , rowOf 0x150 1 4 1 4 0x00000000 0x00000000 0x00000000 0x00000000 0 -- LAST_MALF
  , rowOf 0x160 8 4 1 4 0x00000000 0xFFFFFFFF 0x00000000 0x00000000 0 -- MALF_TOTAL_r
  ]

/-- Registers of Tables 8.2. -/
def rowsSpread : List RegRow :=
  [ rowOf 0x080 1 4 1 4 0x00000000 0x00000000 0x00000000 0x00000000 1 -- ROT_LO
  , rowOf 0x084 1 4 1 4 0x00000000 0x00000000 0x00000000 0x00000000 2 -- ROT_HI
  , rowOf 0x088 1 4 1 4 0x00000000 0x00000000 0x00000000 0x00000000 0 -- ROT_STATUS
  , rowOf 0x08C 1 4 1 4 0x0000000E 0x00000000 0x00000000 0x000F0000 0 -- QUARTER_CTRL
  , rowOf 0x090 1 4 1 4 0x00000000 0x00000000 0x8000003F 0x00000000 0 -- PIPE_TEST
  , rowOf 0x094 1 4 1 4 0x00000000 0x00000000 0x00000000 0x00000000 0 -- PIPE_TEST_STATUS
  , rowOf 0x098 1 4 1 4 0x00000000 0x00000000 0x00000000 0x00000000 0 -- SHADOW
  , rowOf 0x09C 1 4 1 4 0x00000000 0x00000000 0x00000000 0x00000000 0 -- SHADOW_CMP
  , rowOf 0x0A0 1 4 1 4 0x00000000 0x00000000 0x00000000 0x00000000 0 -- SHADOW_MISCMP
  , rowOf 0x0A4 1 4 1 4 0x00000000 0x00000000 0x00000000 0x00000000 0 -- LAST_STALL
  , rowOf 0x0A8 1 4 1 4 0x00000000 0x0000FFFF 0x00000000 0x00000000 0 -- STALL_CNT
  , rowOf 0x0B0 1 4 1 4 0x00000000 0x00000000 0x00000000 0x00000000 1 -- DEALT_LO
  , rowOf 0x0B4 1 4 1 4 0x00000000 0x00000000 0x00000000 0x00000000 2 -- DEALT_HI
  , rowOf 0x0B8 1 4 1 4 0x00000000 0x00000000 0x00000000 0x00000000 1 -- SHED_TOTAL_LO
  , rowOf 0x0BC 1 4 1 4 0x00000000 0x00000000 0x00000000 0x00000000 2 -- SHED_TOTAL_HI
  , rowOf 0x0C0 1 4 1 4 0x00000000 0x0000003F 0x00000000 0x00000000 0 -- QUEUE_PEAK
  , rowOf 0x0C8 1 4 1 4 0x00000000 0x00000000 0x00000001 0x00000000 0 -- SNAP
  , rowOf 0x0CC 1 4 1 4 0x00000000 0x00000000 0x00000001 0x00000000 0 -- CNT_CLR
  , rowOf 0x800 512 4 1 4 0x00000000 0x00000000 0x00000000 0x00000000 0 -- SHED_PORT_p
  ]

/-- Registers of Tables 8.3. -/
def rowsReorder : List RegRow :=
  [ rowOf 0x080 4 4 1 4 0x00000000 0x00000000 0x00000000 0x00000000 0 -- STORE_FILL_q
  , rowOf 0x090 4 4 1 4 0x00000000 0x00003FFF 0x00000000 0x00000000 0 -- STORE_PEAK_q
  , rowOf 0x0A0 1 4 1 4 0x00000000 0x00000000 0x00000000 0x00000000 1 -- LOST_TOTAL_LO
  , rowOf 0x0A4 1 4 1 4 0x00000000 0x00000000 0x00000000 0x00000000 2 -- LOST_TOTAL_HI
  , rowOf 0x0A8 1 4 1 4 0x00000000 0x00000000 0x00000000 0x00000000 0 -- GAP_FORCED
  , rowOf 0x0AC 1 4 1 4 0x00000000 0x00000000 0x00000000 0x00000000 0 -- LATE_DISCARD
  , rowOf 0x0B0 1 4 1 4 0x00000000 0x00000000 0x00000000 0x00000000 1 -- DISCARD_REL_LO
  , rowOf 0x0B4 1 4 1 4 0x00000000 0x00000000 0x00000000 0x00000000 2 -- DISCARD_REL_HI
  , rowOf 0x0B8 1 4 1 4 0x00000000 0x00000000 0x00000000 0x00000000 1 -- LAST_LOST_PORT
  , rowOf 0x0BC 1 4 1 4 0x00000000 0x00000000 0x00000000 0x00000000 2 -- LAST_LOST_SEQ
  , rowOf 0x0C0 1 4 1 4 0x00000000 0x00000000 0x00000001 0x00000000 0 -- SNAP
  , rowOf 0x0C4 1 4 1 4 0x00000000 0x00000000 0x00000001 0x00000000 0 -- CNT_CLR
  , rowOf 0x800 512 4 1 4 0x00000000 0x00000000 0x00000000 0x00000000 0 -- LOST_PORT_p
  ]

/-- Registers of Tables 9.8. -/
def rowsCls : List RegRow :=
  [ rowOf 0x080 1 4 1 4 0x41FF07FF 0x00000000 0x80000000 0x00000000 0 -- ROW_RD
  , rowOf 0x084 1 4 1 4 0x00000000 0x00000000 0x00000000 0x00000000 0 -- ROW_RD_STATUS
  , rowOf 0x090 1 4 1 4 0x00000000 0x00000000 0x00000000 0x00000000 1 -- FRAMES_LO
  , rowOf 0x094 1 4 1 4 0x00000000 0x00000000 0x00000000 0x00000000 2 -- FRAMES_HI
  , rowOf 0x098 1 4 1 4 0x00000000 0x00000000 0x00000000 0x00000000 1 -- EXACT_HIT_LO
  , rowOf 0x09C 1 4 1 4 0x00000000 0x00000000 0x00000000 0x00000000 2 -- EXACT_HIT_HI
  , rowOf 0x0A0 1 4 1 4 0x00000000 0x00000000 0x00000000 0x00000000 1 -- TERN_HIT_LO
  , rowOf 0x0A4 1 4 1 4 0x00000000 0x00000000 0x00000000 0x00000000 2 -- TERN_HIT_HI
  , rowOf 0x0A8 1 4 1 4 0x00000000 0x00000000 0x00000000 0x00000000 1 -- MISS_LO
  , rowOf 0x0AC 1 4 1 4 0x00000000 0x00000000 0x00000000 0x00000000 2 -- MISS_HI
  , rowOf 0x0B0 1 4 1 4 0x00000000 0x00000000 0x00000000 0x00000000 1 -- LIFE_LO
  , rowOf 0x0B4 1 4 1 4 0x00000000 0x00000000 0x00000000 0x00000000 2 -- LIFE_HI
  , rowOf 0x0B8 1 4 1 4 0x00000000 0x00000000 0x00000000 0x00000000 0 -- DROP
  , rowOf 0x0BC 1 4 1 4 0x00000000 0x00000000 0x00000000 0x00000000 0 -- PUNT
  , rowOf 0x0C0 1 4 1 4 0x00000000 0x00000000 0x00000000 0x00000000 0 -- MIRROR
  , rowOf 0x0C4 1 4 1 4 0x00000000 0x00000000 0x00000000 0x00000000 0 -- PUNT_DROP
  , rowOf 0x0C8 1 4 1 4 0x00000000 0x00000000 0x00000000 0x00000000 0 -- MALF_FWD
  , rowOf 0x0CC 1 4 1 4 0x00000000 0x00000000 0x00000000 0x00000000 0 -- TAG_TX_SKIP
  , rowOf 0x0D0 1 4 1 4 0x00000000 0x00000000 0x00000001 0x00000000 0 -- SNAP
  , rowOf 0x0D4 1 4 1 4 0x00000000 0x00000000 0x00000001 0x00000000 0 -- CNT_CLR
  , rowOf 0x200 24 4 1 4 0x00000000 0x00000000 0x00000000 0x00000000 0 -- ROW_DATA
  , rowOf 0x800 512 4 1 4 0x000FFF3F 0x00000000 0x00000000 0x00000000 0 -- PORT_CFG_p
  ]

/-- Registers of Tables 9.9. -/
def rowsClsKeys : List RegRow :=
  [ rowOf 0x080 4 32 5 4 0x00000000 0x00000000 0x00000000 0x00000000 0 -- TKSEL_s_w
  , rowOf 0x094 4 32 1 4 0x00000000 0x00000000 0x00000000 0x00000000 0 -- EKSEL_s
  , rowOf 0x098 4 32 1 4 0x00000000 0x00000000 0x00000000 0x00000000 0 -- MISS_ACTION_s
  , rowOf 0x800 512 4 1 4 0x00000000 0xFFFFFFFF 0x00000000 0x00000000 0 -- SAFE_DROP_p
  ]

/-- Registers of Tables 9.10. -/
def rowsVersion : List RegRow :=
  [ rowOf 0x080 4 4 1 4 0x00000000 0x00000000 0x00000000 0x00000000 0 -- SLOT_s
  , rowOf 0x090 4 4 1 4 0x00000000 0x00000000 0x00000000 0x00000000 0 -- DRAIN_s
  , rowOf 0x0A0 1 4 1 4 0x00000000 0x00000000 0x00000000 0x00000000 0 -- LOAD_STATUS
  , rowOf 0x0A4 1 4 1 4 0x00000000 0x00000000 0x00000000 0x00000000 0 -- COMMIT_STATUS
  , rowOf 0x0A8 1 4 1 4 0x00000000 0x00000000 0x00000000 0x00000000 1 -- COMMIT_AT_SEC_LO
  , rowOf 0x0AC 1 4 1 4 0x00000000 0x00000000 0x00000000 0x00000000 2 -- COMMIT_AT_SEC_HI
  , rowOf 0x0B0 1 4 1 4 0x00000000 0x00000000 0x00000000 0x00000000 0 -- COMMIT_AT_NS
  , rowOf 0x0B8 1 4 1 4 0x00000000 0x00000000 0x00000000 0x00000000 1 -- COMMIT_NS_LO
  , rowOf 0x0BC 1 4 1 4 0x00000000 0x00000000 0x00000000 0x00000000 2 -- COMMIT_NS_HI
  , rowOf 0x0C0 4 8 1 4 0x00000000 0x00000000 0x00000000 0x00000000 1 -- BUILD_TAG_s_LO
  , rowOf 0x0C4 4 8 1 4 0x00000000 0x00000000 0x00000000 0x00000000 2 -- BUILD_TAG_s_HI
  , rowOf 0x0E0 1 4 1 4 0x00000000 0x00000000 0x00000000 0x00000000 1 -- MISMATCH_TOTAL_LO
  , rowOf 0x0E4 1 4 1 4 0x00000000 0x00000000 0x00000000 0x00000000 2 -- MISMATCH_TOTAL_HI
  , rowOf 0x0E8 1 4 1 4 0x00000000 0x00000000 0x00000000 0x00000000 0 -- LAST_MISMATCH
  , rowOf 0x0EC 1 4 1 4 0x00000000 0x00000000 0x00000000 0x00000000 0 -- LAST_MISMATCH_VER
  , rowOf 0x0F0 1 4 1 4 0x00000000 0x00000000 0x00000001 0x00000000 0 -- SNAP
  , rowOf 0x0F4 1 4 1 4 0x00000000 0x00000000 0x00000001 0x00000000 0 -- CNT_CLR
  , rowOf 0x800 512 4 1 4 0x00000000 0x00000000 0x00000000 0x00000000 0 -- MISMATCH_PORT_p
  ]

/-- Registers of Tables 9.11. -/
def rowsFlowkey : List RegRow :=
  [ rowOf 0x080 1 4 1 4 0x00000000 0x00000000 0xFFFFFFFF 0x00000000 0 -- HASH_SEED
  , rowOf 0x084 1 4 1 4 0x00000000 0xFFFFFFFF 0x00000000 0x00000000 0 -- FK_OVERFLOW
  , rowOf 0x088 1 4 1 4 0x00000000 0x00000000 0x00000000 0x00000000 1 -- FK_WORDS_LO
  , rowOf 0x08C 1 4 1 4 0x00000000 0x00000000 0x00000000 0x00000000 2 -- FK_WORDS_HI
  , rowOf 0x090 1 4 1 4 0x00000000 0x00000000 0x00000000 0x00000000 0 -- CHANNEL_STATUS
  , rowOf 0x0A0 4 4 1 4 0x00000000 0x00000000 0x00000000 0x00000000 0 -- FIFO_FILL_q
  , rowOf 0x0B0 4 4 1 4 0x00000000 0x000003FF 0x00000000 0x00000000 0 -- FIFO_PEAK_q
  , rowOf 0x100 8 32 8 4 0xFFFFFFFF 0x00000000 0x00000000 0x3F3F3F3F 0 -- TEMPLATE_k_w
  ]

/-- Registers of Tables 11.3, 11.4. -/
def rowsSec : List RegRow :=
  [ rowOf 0x080 8 4 1 4 0x3FFF0000 0x00000000 0x00000000 0x02F00000 0 -- SECY_CFG_i
  , rowOf 0x0A0 8 4 1 4 0xFFFFFFFF 0x00000000 0x00000000 0x00000000 0 -- REPLAY_WINDOW_i
  , rowOf 0x0E0 1 4 1 4 0x00000000 0x00000000 0x00000000 0x00000000 0 -- SEC_STATUS
  , rowOf 0x0E4 1 4 1 4 0xFFFFFFFF 0x00000000 0x00000000 0xC0000000 0 -- PN_WARN
  , rowOf 0x0E8 1 4 1 4 0x00000000 0x00000000 0x00000001 0x00000000 0 -- SNAP
  , rowOf 0x0EC 1 4 1 4 0x00000000 0x00000000 0x000000FF 0x00000000 0 -- CNT_CLR
  , rowOf 0x0F0 1 4 1 4 0x00000000 0x00000000 0x00000000 0x00000000 0 -- LAST_OUT_DISCARD
  , rowOf 0x100 8 4 1 4 0x00000000 0x00000000 0xFFFFFFFF 0x00000000 0 -- KEY_DATA_w
  , rowOf 0x120 3 4 1 4 0x00000000 0x00000000 0xFFFFFFFF 0x00000000 0 -- SALT_w
  , rowOf 0x12C 1 4 1 4 0x00000000 0x00000000 0xFFFFFFFF 0x00000000 0 -- SSCI
  , rowOf 0x130 1 4 1 4 0x00000000 0x00000000 0xF0003F03 0x00000000 0 -- KEY_CMD
  , rowOf 0x134 1 4 1 4 0x00000000 0x00000000 0x00000000 0x00000000 0 -- KEY_STATUS
  , rowOf 0x138 1 4 1 4 0x00000000 0x00000000 0x00000000 0x00000000 0 -- KEY_CHECK
  , rowOf 0x140 1 4 1 4 0x00000000 0x00000000 0xFFFFFFFF 0x00000000 1 -- INIT_PN_LO
  , rowOf 0x144 1 4 1 4 0x00000000 0x00000000 0xFFFFFFFF 0x00000000 2 -- INIT_PN_HI
  , rowOf 0x148 1 4 1 4 0x00000000 0x00000000 0xC0003F03 0x00000000 0 -- SA_RD
  , rowOf 0x14C 1 4 1 4 0x00000000 0x00000000 0x00000000 0x00000000 1 -- SA_RD_PN_LO
  , rowOf 0x150 1 4 1 4 0x00000000 0x00000000 0x00000000 0x00000000 2 -- SA_RD_PN_HI
  , rowOf 0x154 1 4 1 4 0x00000000 0x00000000 0x00000000 0x00000000 0 -- SA_RD_STATUS
  , rowOf 0x200 32 32 1 4 0x871F0000 0x00000000 0x00000000 0x00000000 0 -- TX_SC_CTRL_s
  , rowOf 0x204 32 32 1 4 0xFFFFFFFF 0x00000000 0x00000000 0x00000000 1 -- TX_SCI_LO_s
  , rowOf 0x208 32 32 1 4 0xFFFFFFFF 0x00000000 0x00000000 0x00000000 2 -- TX_SCI_HI_s
  , rowOf 0x210 32 32 1 4 0x00000000 0x00000000 0x00000000 0x00000000 1 -- TX_NEXT_PN_LO_s
  , rowOf 0x214 32 32 1 4 0x00000000 0x00000000 0x00000000 0x00000000 2 -- TX_NEXT_PN_HI_s
  ] ++
  [ rowOf 0x600 64 16 1 4 0x870000F0 0x00000000 0x00000000 0x00000000 0 -- RX_SC_CTRL_r
  , rowOf 0x604 64 16 1 4 0xFFFFFFFF 0x00000000 0x00000000 0x00000000 1 -- RX_SCI_LO_r
  , rowOf 0x608 64 16 1 4 0xFFFFFFFF 0x00000000 0x00000000 0x00000000 2 -- RX_SCI_HI_r
  , rowOf 0xA00 8 96 1 4 0x00000000 0x00000000 0x00000000 0x00000000 1 -- IN_OCTETS_VALIDATED_LO
  , rowOf 0xA04 8 96 1 4 0x00000000 0x00000000 0x00000000 0x00000000 2 -- IN_OCTETS_VALIDATED_HI
  , rowOf 0xA08 8 96 1 4 0x00000000 0x00000000 0x00000000 0x00000000 1 -- IN_OCTETS_DECRYPTED_LO
  , rowOf 0xA0C 8 96 1 4 0x00000000 0x00000000 0x00000000 0x00000000 2 -- IN_OCTETS_DECRYPTED_HI
  , rowOf 0xA10 8 96 1 4 0x00000000 0x00000000 0x00000000 0x00000000 1 -- OUT_OCTETS_PROTECTED_LO
  , rowOf 0xA14 8 96 1 4 0x00000000 0x00000000 0x00000000 0x00000000 2 -- OUT_OCTETS_PROTECTED_HI
  , rowOf 0xA18 8 96 1 4 0x00000000 0x00000000 0x00000000 0x00000000 1 -- OUT_OCTETS_ENCRYPTED_LO
  , rowOf 0xA1C 8 96 1 4 0x00000000 0x00000000 0x00000000 0x00000000 2 -- OUT_OCTETS_ENCRYPTED_HI
  , rowOf 0xA20 8 96 1 4 0x00000000 0x00000000 0x00000000 0x00000000 1 -- IN_OK_LO
  , rowOf 0xA24 8 96 1 4 0x00000000 0x00000000 0x00000000 0x00000000 2 -- IN_OK_HI
  , rowOf 0xA28 8 96 1 4 0x00000000 0x00000000 0x00000000 0x00000000 1 -- OUT_PROTECTED_LO
  , rowOf 0xA2C 8 96 1 4 0x00000000 0x00000000 0x00000000 0x00000000 2 -- OUT_PROTECTED_HI
  , rowOf 0xA30 8 96 1 4 0x00000000 0x00000000 0x00000000 0x00000000 0 -- IN_UNTAGGED
  , rowOf 0xA34 8 96 1 4 0x00000000 0x00000000 0x00000000 0x00000000 0 -- IN_NO_TAG
  , rowOf 0xA38 8 96 1 4 0x00000000 0x00000000 0x00000000 0x00000000 0 -- IN_BAD_TAG
  , rowOf 0xA3C 8 96 1 4 0x00000000 0x00000000 0x00000000 0x00000000 0 -- IN_NO_SA
  , rowOf 0xA40 8 96 1 4 0x00000000 0x00000000 0x00000000 0x00000000 0 -- IN_LATE
  , rowOf 0xA44 8 96 1 4 0x00000000 0x00000000 0x00000000 0x00000000 0 -- IN_NOT_VALID
  , rowOf 0xA48 8 96 1 4 0x00000000 0x00000000 0x00000000 0x00000000 0 -- IN_INVALID
  , rowOf 0xA4C 8 96 1 4 0x00000000 0x00000000 0x00000000 0x00000000 0 -- IN_UNCHECKED
  , rowOf 0xA50 8 96 1 4 0x00000000 0x00000000 0x00000000 0x00000000 0 -- IN_DELAYED
  ] ++
  [ rowOf 0xA54 8 96 1 4 0x00000000 0x00000000 0x00000000 0x00000000 0 -- IN_ICV_LATE
  , rowOf 0xA58 8 96 1 4 0x00000000 0x00000000 0x00000000 0x00000000 0 -- OUT_UNTAGGED
  , rowOf 0xA5C 8 96 1 4 0x00000000 0x00000000 0x00000000 0x00000000 0 -- OUT_DISCARD
  ]

/-- Registers of Tables 12.5. -/
def rowsTime : List RegRow :=
  [ rowOf 0x080 1 4 1 4 0x00FF7F0F 0x00000000 0x00000000 0x00026400 0 -- TIME_CFG
  , rowOf 0x084 1 4 1 4 0x00FFFFFF 0x00000000 0x00000000 0x000003E8 0 -- LOCK_BOUND
  , rowOf 0x088 1 4 1 4 0x0000FFFF 0x00000000 0x00000000 0x0000003C 0 -- STEP_WINDOW
  , rowOf 0x08C 1 4 1 4 0x00FFFFFF 0x00000000 0x00000000 0x000003E8 0 -- HOLDOVER_PPB
  , rowOf 0x090 1 4 1 4 0x00000000 0x00000000 0x00000000 0x00000000 0 -- TOD_NS
  , rowOf 0x094 1 4 1 4 0x00000000 0x00000000 0x00000000 0x00000000 0 -- TOD_FRAC
  , rowOf 0x098 1 4 1 4 0x00000000 0x00000000 0x00000000 0x00000000 1 -- TOD_SEC_LO
  , rowOf 0x09C 1 4 1 4 0x00000000 0x00000000 0x00000000 0x00000000 2 -- TOD_SEC_HI
  , rowOf 0x0A0 1 4 1 4 0x00000000 0x00000000 0x00000000 0x00000000 1 -- POWERED_NS_LO
  , rowOf 0x0A4 1 4 1 4 0x00000000 0x00000000 0x00000000 0x00000000 2 -- POWERED_NS_HI
  , rowOf 0x0A8 1 4 1 4 0xFFFFFFFF 0x00000000 0x00000000 0x00000000 1 -- TICK_INCR_LO
  , rowOf 0x0AC 1 4 1 4 0x00000001 0x00000000 0x00000000 0x00000001 2 -- TICK_INCR_HI
  , rowOf 0x0B0 1 4 1 4 0xFFFFFFFF 0x00000000 0x00000000 0x00000000 1 -- ADJ_OFFSET_LO
  , rowOf 0x0B4 1 4 1 4 0xFFFFFFFF 0x00000000 0x00000000 0x00000000 2 -- ADJ_OFFSET_HI
  , rowOf 0x0B8 1 4 1 4 0x00000000 0x00000000 0x80000007 0x00000000 0 -- ADJ_CMD
  , rowOf 0x0BC 1 4 1 4 0x00000000 0x00000000 0x00000000 0x00000000 0 -- ADJ_STATUS
  , rowOf 0x0C0 1 4 1 4 0x00000000 0x00000000 0x00000000 0x00000000 1 -- ERROR_EST_LO
  , rowOf 0x0C4 1 4 1 4 0x00000000 0x00000000 0x00000000 0x00000000 2 -- ERROR_EST_HI
  , rowOf 0x0C8 1 4 1 4 0x00000000 0x00000000 0x00000000 0x00000000 1 -- SLEW_REMAIN_LO
  , rowOf 0x0CC 1 4 1 4 0x00000000 0x00000000 0x00000000 0x00000000 2 -- SLEW_REMAIN_HI
  , rowOf 0x0D0 1 4 1 4 0x00000000 0x00000000 0x00000000 0x00000000 0 -- LAST_MEAS
  , rowOf 0x0D4 1 4 1 4 0x00000000 0x00000000 0x00000000 0xFFFFFFFF 0 -- UNCERT
  , rowOf 0x0D8 1 4 1 4 0x00FFFFFF 0x00000000 0x00000000 0x00000000 0 -- PPS_DELAY
  , rowOf 0x0DC 1 4 1 4 0x00000000 0x00000000 0x00000000 0x00000000 0 -- PPS_LAST
  ] ++
  [ rowOf 0x0E0 5 4 1 4 0x00000000 0x0000FFFF 0x00000000 0x00000000 0 -- STEP_CNT
  , rowOf 0x0F8 1 4 1 4 0x00000000 0x00000000 0x00000000 0x00000000 1 -- LOCK_NS_LO
  , rowOf 0x0FC 1 4 1 4 0x00000000 0x00000000 0x00000000 0x00000000 2 -- LOCK_NS_HI
  ]

/-- Registers of Tables 13.5, 13.6, 13.7. -/
def rowsShutter : List RegRow :=
  [ rowOf 0x080 1 4 1 4 0x000007FF 0x00000000 0x00000000 0x00000001 0 -- WAKE_LEAD
  , rowOf 0x088 1 4 1 4 0x00000000 0x00000000 0x00000000 0x00000000 1 -- TS_INSERT_LO
  , rowOf 0x08C 1 4 1 4 0x00000000 0x00000000 0x00000000 0x00000000 2 -- TS_INSERT_HI
  , rowOf 0x090 1 4 1 4 0x00000000 0x00000000 0x00000000 0x00000000 0 -- TS_CAPTURE
  , rowOf 0x094 1 4 1 4 0x00000000 0x00000000 0x00000000 0x00000000 0 -- TSLOG_DROP
  , rowOf 0x098 1 4 1 4 0x00000000 0x00000000 0x00000000 0x00000000 0 -- LAST_SKIP
  , rowOf 0x09C 1 4 1 4 0x00000000 0x00000000 0x00000001 0x00000000 0 -- SNAP
  , rowOf 0x0A0 1 4 1 4 0x00000000 0x00000000 0x00000001 0x00000000 0 -- CNT_CLR
  , rowOf 0x0A4 1 4 1 4 0x00000000 0x00000000 0x00000000 0x00000000 0 -- TSLOG_WR
  , rowOf 0x0A8 1 4 1 4 0xFFFFFFFF 0x00000000 0x00000000 0x00000000 0 -- TSLOG_RD
  , rowOf 0x0B0 7 4 1 4 0x00000000 0x00000000 0x00000000 0x00000000 0 -- TS_SKIP_r
  , rowOf 0x100 8 64 1 4 0x0000001F 0x00000000 0x00000000 0x00000000 0 -- CH_CFG
  , rowOf 0x104 8 64 1 4 0x00000000 0x00000000 0x00000003 0x00000000 0 -- CH_CMD
  , rowOf 0x108 8 64 1 4 0x00000000 0x00000000 0x00000000 0x00000000 0 -- CH_STATUS
  , rowOf 0x10C 8 64 1 4 0x3FFFFFFF 0x00000000 0x00000000 0x00000000 0 -- CH_START_NS
  , rowOf 0x110 8 64 1 4 0xFFFFFFFF 0x00000000 0x00000000 0x00000000 1 -- CH_START_SEC_LO
  , rowOf 0x114 8 64 1 4 0x0000FFFF 0x00000000 0x00000000 0x00000000 2 -- CH_START_SEC_HI
  , rowOf 0x118 8 64 1 4 0xFFFFFFFF 0x00000000 0x00000000 0x00000000 1 -- CH_PERIOD_LO
  , rowOf 0x11C 8 64 1 4 0xFFFFFFFF 0x00000000 0x00000000 0x00000000 2 -- CH_PERIOD_HI
  , rowOf 0x120 8 64 1 4 0x3FFFFFFF 0x00000000 0x00000000 0x00000000 0 -- CH_WIDTH
  , rowOf 0x124 8 64 1 4 0x00000000 0x00000000 0x00000000 0x00000000 0 -- CH_FIRED_CNT
  , rowOf 0x128 8 64 1 4 0x00000000 0x00000000 0x00000000 0x00000000 0 -- CH_SUPPRESSED_CNT
  , rowOf 0x12C 8 64 1 4 0x00000000 0x00000000 0x00000000 0x00000000 0 -- CH_SKIPPED_CNT
  , rowOf 0x130 8 64 1 4 0x00000000 0x00000000 0x00000000 0x00000000 0 -- CH_NEXT_NS
  ] ++
  [ rowOf 0x134 8 64 1 4 0x00000000 0x00000000 0x00000000 0x00000000 1 -- CH_NEXT_SEC_LO
  , rowOf 0x138 8 64 1 4 0x00000000 0x00000000 0x00000000 0x00000000 2 -- CH_NEXT_SEC_HI
  , rowOf 0x800 512 4 1 4 0xFFFFFF03 0x00000000 0x00000000 0x00000000 0 -- TS_PORT_p
  ]

/-- Registers of Tables 14.7. -/
def rowsDma0 : List RegRow :=
  [ rowOf 0x080 1 4 1 4 0x30000FFF 0x00000000 0x00000000 0x00000000 0 -- CTX_SEL
  , rowOf 0x084 1 4 1 4 0x00000000 0x00000000 0x80000003 0x00000000 0 -- CTX_CMD
  , rowOf 0x088 1 4 1 4 0x00000000 0x00000000 0x00000000 0x00000000 0 -- CTX_STATUS
  , rowOf 0x08C 1 4 1 4 0x00000000 0x00000000 0x00000000 0x00000000 0 -- ERR_COUNT
  , rowOf 0x090 1 4 1 4 0x00000000 0x00000000 0x00000000 0x00000000 0 -- HOLD_COUNT
  , rowOf 0x094 1 4 1 4 0x00000000 0x00000000 0x00000000 0xFFFFFFFF 0 -- ERR_LOW
  , rowOf 0x098 1 4 1 4 0x00000000 0xFFFFFFFF 0x00000000 0x00000000 0 -- RX_NO_QUEUE
  , rowOf 0x0C0 8 4 1 4 0xFFFFFFFF 0x00000000 0x00000000 0x00000000 0 -- CTX_DATA_w
  ]

/-- Registers of Tables 14.11. -/
def rowsFn : List RegRow :=
  [ rowOf 0x080 1 4 1 4 0x00000000 0x00000000 0x80000001 0x00000000 0 -- RESET
  , rowOf 0x084 1 4 1 4 0x00000000 0x00000000 0x00000000 0x00000000 0 -- RESET_STATUS
  , rowOf 0x088 1 4 1 4 0x00000000 0x00000000 0x00000000 0x00000000 0 -- FN_STATUS
  , rowOf 0x100 1 4 1 4 0x00000000 0x00000000 0x1FFFFFFF 0x00000000 0 -- DB_TX
  , rowOf 0x104 1 4 1 4 0x00000000 0x00000000 0xFFFFFFFF 0x00000000 0 -- DB_RX
  , rowOf 0x108 1 4 1 4 0x00000000 0x00000000 0xFFFFFFFF 0x00000000 0 -- DB_CQ
  , rowOf 0x10C 1 4 1 4 0x00000000 0x00000000 0xFFFFFFFF 0x00000000 0 -- DB_STABLE_TX
  , rowOf 0x110 1 4 1 4 0x00000000 0x00000000 0xFFFFFFFF 0x00000000 0 -- DB_STABLE_RX
  , rowOf 0x180 10 4 1 4 0x00000000 0xFFFFFFFF 0x00000000 0x00000000 0 -- Counters
  ]

/-- Registers of Tables 15.4. -/
def rowsIrqCtrl : List RegRow :=
  [ rowOf 0x080 1 4 1 4 0x000007FF 0x00000000 0x00000000 0x00000000 0 -- ROUTE_SEL
  , rowOf 0x084 1 4 1 4 0x00000000 0x00000000 0x80000003 0x00000000 0 -- ROUTE_CMD
  , rowOf 0x088 1 4 1 4 0xFFFFFFFF 0x00000000 0x00000000 0x00000000 0 -- ROUTE_MASK_0
  , rowOf 0x08C 1 4 1 4 0xFFFFFFFF 0x00000000 0x00000000 0x00000000 0 -- ROUTE_MASK_1
  , rowOf 0x090 1 4 1 4 0x0000000F 0x00000000 0x00000000 0x00000000 0 -- ROUTE_MASK_2
  , rowOf 0x094 1 4 1 4 0x00000000 0x00000000 0x00000000 0x00000000 0 -- ROUTE_STATUS
  , rowOf 0x098 1 4 1 4 0x00000000 0x00000000 0x00000000 0xFFFF0000 0 -- MGMT_SUMMARY
  , rowOf 0x09C 1 4 1 4 0x00000000 0x00000000 0x00000000 0x00000000 0 -- UNROUTED
  , rowOf 0x0A0 3 4 1 4 0x00000000 0x00000000 0x00000000 0x00000000 0 -- REQ_LINES_0–2
  , rowOf 0x0AC 3 4 1 4 0x00000000 0x00000000 0x00000000 0x00000000 0 -- EQ_NONEMPTY_0–2
  ]

/-- Registers of Tables 15.6. -/
def rowsIrqT : List RegRow :=
  [ rowOf 0x080 1 4 1 4 0x00000000 0x00000000 0x00000000 0x0000FFFF 0 -- CLAIM
  , rowOf 0x084 1 4 1 4 0x00000000 0x00000000 0x000007FF 0x00000000 0 -- COMPLETE
  , rowOf 0x088 1 4 1 4 0x000000FF 0x00000000 0x00000000 0x000000FF 0 -- TARGET_PRIO
  , rowOf 0x08C 1 4 1 4 0x00000000 0x00000000 0x00000000 0x00000000 0 -- SERVICE
  , rowOf 0x090 1 4 1 4 0xFFFFFFFC 0x00000000 0x00000000 0x00000000 1 -- MSG_ADDR_LO
  , rowOf 0x094 1 4 1 4 0xFFFFFFFF 0x00000000 0x00000000 0x00000000 2 -- MSG_ADDR_HI
  , rowOf 0x098 1 4 1 4 0xFFFFFFFF 0x00000000 0x00000000 0x00000000 0 -- MSG_DATA_MGMT
  , rowOf 0x09C 1 4 1 4 0xFFFFFFFF 0x00000000 0x00000000 0x00000000 0 -- MSG_DATA_EQ
  , rowOf 0x0A0 1 4 1 4 0x00000003 0x00000000 0x00000000 0x00000000 0 -- MSG_CTRL
  , rowOf 0x0A4 1 4 1 4 0x811F0000 0x00000000 0x00000000 0x00060000 0 -- EQ_CFG
  , rowOf 0x0A8 1 4 1 4 0xFFFFFF00 0x00000000 0x00000000 0x00000000 1 -- EQ_BASE_LO
  , rowOf 0x0AC 1 4 1 4 0xFFFFFFFF 0x00000000 0x00000000 0x00000000 2 -- EQ_BASE_HI
  , rowOf 0x0B0 1 4 1 4 0xFFFFFFC0 0x00000000 0x00000000 0x00000000 1 -- EQ_WB_LO
  , rowOf 0x0B4 1 4 1 4 0xFFFFFFFF 0x00000000 0x00000000 0x00000000 2 -- EQ_WB_HI
  , rowOf 0x0B8 1 4 1 4 0x00000000 0x00000000 0x00000000 0x00000000 0 -- EQ_PI
  , rowOf 0x0BC 1 4 1 4 0x0001FFFF 0x00000000 0x00000000 0x00000000 0 -- EQ_CI
  , rowOf 0x0C0 6 4 1 4 0x00000000 0x0000FFFF 0x00000000 0x00000000 0 -- Counters
  ]

/-- Registers of Tables 16.5. -/
def rowsCv : List RegRow :=
  [ rowOf 0x080 1 4 1 4 0x000001FF 0x00000000 0x00000000 0x00000020 0 -- CV_CFG
  , rowOf 0x084 1 4 1 4 0xFFFFFFFF 0x00000000 0x00000000 0x04C11DB7 1 -- POLY_LO
  , rowOf 0x088 1 4 1 4 0xFFFFFFFF 0x00000000 0x00000000 0x00000000 2 -- POLY_HI
  , rowOf 0x08C 1 4 1 4 0xFFFFFFFF 0x00000000 0x00000000 0xFFFFFFFF 1 -- INIT_LO
  , rowOf 0x090 1 4 1 4 0xFFFFFFFF 0x00000000 0x00000000 0x00000000 2 -- INIT_HI
  , rowOf 0x094 1 4 1 4 0xFFFFFFFF 0x00000000 0x00000000 0xFFFFFFFF 1 -- XOROUT_LO
  , rowOf 0x098 1 4 1 4 0xFFFFFFFF 0x00000000 0x00000000 0x00000000 2 -- XOROUT_HI
  , rowOf 0x09C 1 4 1 4 0xFFFFFFFF 0x00000000 0x00000000 0x00000000 1 -- SRC_ADDR_LO
  , rowOf 0x0A0 1 4 1 4 0xFFFFFFFF 0x00000000 0x00000000 0x00000000 2 -- SRC_ADDR_HI
  , rowOf 0x0A4 1 4 1 4 0x0FFFFFFF 0x00000000 0x00000000 0x00000000 0 -- JOB_LEN
  , rowOf 0x0A8 1 4 1 4 0x000000FF 0x00000000 0x00000000 0x00000000 0 -- JOB_FN
  , rowOf 0x0AC 1 4 1 4 0x00000000 0x00000000 0x80000003 0x00000000 0 -- JOB_CMD
  , rowOf 0x0B0 1 4 1 4 0x00000000 0x00000000 0x00000000 0x00000000 0 -- JOB_STATUS
  , rowOf 0x0B4 1 4 1 4 0x00000000 0x00000000 0x00000000 0x00000000 1 -- RESULT_LO
  , rowOf 0x0B8 1 4 1 4 0x00000000 0x00000000 0x00000000 0x00000000 2 -- RESULT_HI
  , rowOf 0x0BC 1 4 1 4 0x00000000 0x0000FFFF 0x00000000 0x00000000 0 -- BUSY_REJECT
  ]

/-- Registers of Tables 16.6. -/
def rowsOffload : List RegRow :=
  [ rowOf 0x080 1 4 1 4 0x00000003 0x00000000 0x00000000 0x00000003 0 -- CSUM_CFG
  , rowOf 0x088 1 4 1 4 0x00000000 0x00000000 0x00000000 0x00000000 1 -- RX_CHECKED_LO
  , rowOf 0x08C 1 4 1 4 0x00000000 0x00000000 0x00000000 0x00000000 2 -- RX_CHECKED_HI
  , rowOf 0x090 1 4 1 4 0x00000000 0x00000000 0x00000000 0x00000000 0 -- RX_IPV4_BAD
  , rowOf 0x094 1 4 1 4 0x00000000 0x00000000 0x00000000 0x00000000 0 -- RX_L4_BAD
  , rowOf 0x098 1 4 1 4 0x00000000 0x00000000 0x00000000 0x00000000 0 -- RX_L4_TRUNC
  , rowOf 0x0A0 1 4 1 4 0x00000000 0x00000000 0x00000000 0x00000000 1 -- TX_GEN_LO
  , rowOf 0x0A4 1 4 1 4 0x00000000 0x00000000 0x00000000 0x00000000 2 -- TX_GEN_HI
  , rowOf 0x0A8 1 4 1 4 0x00000000 0x00000000 0x00000000 0x00000000 0 -- TX_CSUM_SKIP
  , rowOf 0x0AC 1 4 1 4 0x00000000 0x00000000 0x00000000 0x00000000 0 -- LAST_CSUM_SKIP
  , rowOf 0x0B0 1 4 1 4 0x00000000 0x00000000 0x00000001 0x00000000 0 -- SNAP
  , rowOf 0x0B4 1 4 1 4 0x00000000 0x00000000 0x00000001 0x00000000 0 -- CNT_CLR
  ]

/-- Registers of Tables 17.3, 18.10. -/
def rowsPower : List RegRow :=
  [ rowOf 0x800 75 4 1 4 0x00000000 0x00000000 0x00000000 0x03000000 0 -- ISLAND_STATUS_i
  , rowOf 0xA00 75 4 1 4 0x00000000 0xFFFFFFFF 0x00000000 0x00000000 0 -- XING_CNT_i
  , rowOf 0xC00 75 4 1 4 0x00000000 0xFF00FFFF 0x00000000 0x00000000 0 -- TIME_TRIM_i
  , rowOf 0x080 1 4 1 4 0x00000000 0x00000000 0x80000103 0x00000000 0 -- MODE_REQ
  , rowOf 0x084 1 4 1 4 0x00000000 0x00000000 0x00000000 0x00000000 0 -- REQ_STATUS
  , rowOf 0x088 1 4 1 4 0x00000000 0x00000000 0x00000000 0x00000000 0 -- PENDING
  , rowOf 0x08C 1 4 1 4 0x00000000 0x00000000 0x00000000 0x02580033 0 -- LEVEL_STATUS
  , rowOf 0x090 1 4 1 4 0x00000000 0x00000000 0x00000000 0x00000000 0 -- ROUND_TRIPS
  , rowOf 0x094 1 4 1 4 0x00000000 0x00000000 0x00000000 0x00000000 0 -- LAST_WAKE
  , rowOf 0x098 1 4 1 4 0x00000000 0x00000000 0x00000000 0x00000000 1 -- LAST_WAKE_NS_LO
  , rowOf 0x09C 1 4 1 4 0x00000000 0x00000000 0x00000000 0x00000000 2 -- LAST_WAKE_NS_HI
  , rowOf 0x0A0 1 4 1 4 0x00000000 0x00000000 0x00000000 0x00000000 0 -- PAD_HOLD
  , rowOf 0x0A4 1 4 1 4 0x00000000 0x00000000 0x00000001 0x00000000 0 -- PAD_HOLD_CLR
  , rowOf 0x0A8 1 4 1 4 0x00000000 0x00000000 0x00000001 0x00000000 0 -- RETAIN_ACK
  , rowOf 0x0AC 3 4 1 4 0x00000000 0x00000000 0x00000000 0x00000000 0 -- CL_RETAIN_FAIL_w
  , rowOf 0x0B8 1 4 1 4 0x00000000 0x3FFFFFFF 0x00000000 0x00000000 0 -- SLEEP_ENTRIES
  , rowOf 0x0BC 1 4 1 4 0x00000000 0x0000FF00 0x00000000 0x00000000 0 -- TEMP
  ]

/-- Registers of Tables 18.11. -/
def rowsRetain : List RegRow :=
  [ rowOf 0x080 4 4 1 4 0x00000000 0x00000000 0x00000000 0x00000000 0 -- BANK_b
  , rowOf 0x090 1 4 1 4 0x00000000 0x00000000 0x00000000 0x00000000 1 -- SAVE_NS_LO
  , rowOf 0x094 1 4 1 4 0x00000000 0x00000000 0x00000000 0x00000000 2 -- SAVE_NS_HI
  , rowOf 0x098 1 4 1 4 0x00000000 0x00000000 0x00000000 0x00000000 0 -- RETAIN_CNT
  ]

/-- Registers of Tables 19.7. -/
def rowsFixer : List RegRow :=
  [ rowOf 0x080 1 4 1 4 0x00000000 0x00000000 0x00000000 0x00000000 0 -- SPARES
  , rowOf 0x084 1 4 1 4 0x00000000 0x00000000 0x00000000 0x00000000 0 -- ACTIVITY
  , rowOf 0x088 1 4 1 4 0x00000000 0x00000000 0x00000000 0x00000000 0 -- ACT_FRAMES
  , rowOf 0x08C 1 4 1 4 0x00000000 0x00000000 0x00000000 0x00000000 0 -- ACT_MISCMP
  , rowOf 0x090 1 4 1 4 0x00000000 0x00000000 0x00000000 0x00000000 0 -- LAST_REPAIR
  , rowOf 0x094 1 4 1 4 0x00000000 0x00000000 0x00000000 0x00000000 1 -- LAST_REPAIR_NS_LO
  , rowOf 0x098 1 4 1 4 0x00000000 0x00000000 0x00000000 0x00000000 2 -- LAST_REPAIR_NS_HI
  , rowOf 0x0A0 1 4 1 4 0xFFFFFFFF 0x00000000 0x00000000 0x4010321E 0 -- AGING_CFG
  , rowOf 0x0A4 1 4 1 4 0x0000FFFF 0x00000000 0x00000000 0x00000303 0 -- AGING_TIME
  , rowOf 0x0A8 1 4 1 4 0xFFFFFFFF 0x00000000 0x00000000 0x03E80400 0 -- SHADOW_CFG
  , rowOf 0x0AC 1 4 1 4 0x00000000 0x00000000 0x00000000 0x00000000 0 -- JOURNAL
  , rowOf 0x0B0 1 4 1 4 0x00000000 0x00000000 0x00000000 0x00000000 0 -- REPAIRS_TOTAL
  , rowOf 0x0B4 1 4 1 4 0x00000000 0x00000000 0x00000000 0x00000000 0 -- L2_STATUS
  , rowOf 0x0C0 1 4 1 4 0x00000000 0x00000000 0x800007FF 0x00000000 0 -- JRNL_RD
  , rowOf 0x0C4 1 4 1 4 0x00000000 0x00000000 0x00000000 0x00000000 0 -- JRNL_STATUS
  , rowOf 0x0E0 8 4 1 4 0x00000000 0x00000000 0x00000000 0x00000000 0 -- JRNL_DATA_w
  , rowOf 0x100 16 4 1 4 0x00000000 0x00000000 0x00000000 0x00000000 0 -- HELD_DOWN_w
  , rowOf 0x200 66 4 1 4 0x00000000 0x00000000 0x00000000 0x00000000 0 -- CL_STATE_n
  , rowOf 0x400 594 4 1 4 0x00000000 0x00000000 0x00000000 0x00000000 0 -- SLICE_HEALTH
  ]

/-- Registers of Tables 20.4. -/
def rowsDarkslide : List RegRow :=
  [ rowOf 0x080 1 4 1 4 0x00000000 0x00000000 0x00000000 0x00000000 0 -- RUN_STATUS
  , rowOf 0x084 1 4 1 4 0x00000000 0x00000000 0x00000000 0x00000000 0 -- LIST_STATUS
  , rowOf 0x088 1 4 1 4 0x00000000 0x00000000 0x00000000 0x00000000 0 -- SCAN_STATUS
  , rowOf 0x08C 1 4 1 4 0x00000000 0xFFFFFFFF 0x00000000 0x00000000 0 -- RESULT_COUNTS
  , rowOf 0x090 1 4 1 4 0x00000000 0x00000000 0x00000000 0x00000000 0 -- RES_WR
  , rowOf 0x094 1 4 1 4 0x000007FF 0x00000000 0x00000000 0x0000003C 0 -- BG_CFG
  , rowOf 0x098 1 4 1 4 0x00000000 0xFFFF0000 0x00000000 0x00000000 0 -- BG_STATUS
  , rowOf 0x400 32 32 8 4 0x00000000 0x00000000 0x00000000 0x00000000 0 -- RES_LOG_e
  ]

/-- Registers of Tables 21.7. -/
def rowsCal : List RegRow :=
  [ rowOf 0x080 1 4 1 4 0x00000000 0x00000000 0x00000000 0x00000001 0 -- CAL_STATUS
  , rowOf 0x084 1 4 1 4 0x00000000 0x00000000 0x00000000 0x00000000 0 -- USER_SEQ
  , rowOf 0x088 1 4 1 4 0x00000000 0x00000000 0xF00000FF 0x00000000 0 -- CAL_CMD
  , rowOf 0x08C 1 4 1 4 0x00000000 0x00000000 0x00000000 0x00000000 0 -- CAL_CMD_STATUS
  , rowOf 0x090 1 4 1 4 0xFFFFFFFF 0x00000000 0x00000000 0x00000000 1 -- SRC_ADDR_LO
  , rowOf 0x094 1 4 1 4 0xFFFFFFFF 0x00000000 0x00000000 0x00000000 2 -- SRC_ADDR_HI
  , rowOf 0x098 1 4 1 4 0x0001FFFF 0x00000000 0x00000000 0x00000000 0 -- SRC_LEN
  , rowOf 0x0A0 1 4 1 4 0x00000000 0x00000000 0x80001FFF 0x00000000 0 -- NV_RD
  , rowOf 0x0A4 1 4 1 4 0x00000000 0x00000000 0x00000000 0x00000000 0 -- NV_RD_STATUS
  , rowOf 0x0C0 16 4 1 4 0x00000000 0x00000000 0x00000000 0x00000000 0 -- NV_RD_DATA_w
  ]

/-- Registers of Tables 21.8. -/
def rowsNv : List RegRow :=
  [ rowOf 0x080 1 4 1 4 0x00000000 0x00000000 0x00000000 0x00000000 0 -- WORST_LINE
  , rowOf 0x084 1 4 1 4 0x00000000 0x0000FFFF 0x00000000 0x00000000 0 -- COPY_REPAIR
  , rowOf 0x088 1 4 1 4 0x00000000 0x0000FFFF 0x00000000 0x00000000 0 -- RECORD_BAD
  ]

/-- Registers of Tables 22.7. -/
def rowsFed : List RegRow :=
  [ rowOf 0x080 1 4 1 4 0xFFFFFFFF 0x00000000 0x00000000 0x88B54000 0 -- FED_CFG
  , rowOf 0x084 1 4 1 4 0x00000000 0x00000000 0x00000000 0x00000001 0 -- FED_SIZE
  , rowOf 0x088 1 4 1 4 0xFFFFFFFF 0x00000000 0x00000000 0x48000001 1 -- HB_DA_LO
  , rowOf 0x08C 1 4 1 4 0x0000FFFF 0x00000000 0x00000000 0x0000034E 2 -- HB_DA_HI
  , rowOf 0x090 1 4 1 4 0xFFFFFFFF 0x00000000 0x00000000 0x000007D0 0 -- TIME_BOUND
  , rowOf 0x094 1 4 1 4 0x0000FFFF 0x00000000 0x00000000 0x0000FFFF 0 -- TIME_SOURCE
  , rowOf 0x098 1 4 1 4 0x0000003F 0x00000000 0x00000000 0x0000003F 0 -- DIGEST_SEL
  , rowOf 0x09C 1 4 1 4 0x00000000 0x00000000 0x00000000 0x00000000 1 -- CONFIG_DIGEST_LO
  , rowOf 0x0A0 1 4 1 4 0x00000000 0x00000000 0x00000000 0x00000000 2 -- CONFIG_DIGEST_HI
  , rowOf 0x0A4 1 4 1 4 0x00000000 0x00000000 0x00000000 0x00000000 0 -- FED_FLAGS
  , rowOf 0x0A8 1 4 1 4 0x00000000 0x00000000 0x00000000 0x00010000 0 -- COUNT_PA
  , rowOf 0x0AC 1 4 1 4 0x00000000 0x00000000 0x00000000 0x00000000 0 -- COUNT_SV
  , rowOf 0x0B0 1 4 1 4 0x00000000 0x00000000 0x00000000 0x00000000 0 -- COUNT_DW
  , rowOf 0x0B4 1 4 1 4 0x00000000 0x00000000 0x800003FF 0x00000000 0 -- MEMBER_RD
  , rowOf 0x0B8 1 4 1 4 0x00000000 0x00000000 0x00000000 0x00000000 0 -- MEMBER_RD_STATUS
  , rowOf 0x0BC 1 4 1 4 0x00000000 0x00000000 0x00000000 0x00000000 0 -- MEMBER_AGE
  , rowOf 0x0C0 16 4 1 4 0x00000000 0x00000000 0x00000000 0x00000000 0 -- MEMBER_DATA_w
  , rowOf 0x100 8 4 1 4 0x00000000 0xFFFFFFFF 0x00000000 0x00000000 0 -- Counters
  , rowOf 0x120 1 4 1 4 0x00000000 0x00000000 0x00000000 0x00000000 0 -- FJ_WR
  , rowOf 0x124 1 4 1 4 0xFFFFFFFF 0x00000000 0x00000000 0x00000000 0 -- FJ_RD
  , rowOf 0x128 1 4 1 4 0x00000000 0xFFFFFFFF 0x00000000 0x00000000 0 -- FJ_DROP
  , rowOf 0x200 32 4 1 4 0x00000000 0x00000000 0x00000000 0x00000000 0 -- PRESENT_MAP_w
  , rowOf 0x800 512 4 1 4 0x000007FF 0x00000000 0x00000000 0x000007FF 0 -- FED_PORT_p
  ]

/-- Registers of Tables 23.5. -/
def rowsLoupe : List RegRow :=
  [ rowOf 0x080 1 4 1 4 0x00000000 0x00000000 0x00000001 0x00000000 0 -- SNAP
  , rowOf 0x084 1 4 1 4 0x000FFFFF 0x00000000 0x00000000 0x000003E8 0 -- BW_CFG
  , rowOf 0x088 1 4 1 4 0xC0FFFFFF 0x00000000 0x00000000 0x000003E8 0 -- ARCH_CFG
  , rowOf 0x08C 1 4 1 4 0x00000000 0x00000000 0x00000000 0x00000000 0 -- ARCH_WR
  , rowOf 0x090 1 4 1 4 0xFFFFFFFF 0x00000000 0x00000000 0x00000000 0 -- ARCH_RD
  , rowOf 0x094 1 4 1 4 0x00000000 0xFFFFFFFF 0x00000000 0x00000000 0 -- ARCH_DROP
  , rowOf 0x800 512 4 1 4 0x00000000 0x00000000 0x00000000 0x00000000 0 -- BW_p
  ]

/-- Registers of Tables 23.6. -/
def rowsLoupeBank : List RegRow :=
  [ rowOf 0x080 4 4 1 4 0x00000000 0xFFFFFFFF 0x00000000 0x00000000 0 -- OVF_w
  , rowOf 0x0C0 4 4 1 4 0x00000000 0x00000000 0xFFFFFFFF 0x00000000 0 -- CLR_w
  , rowOf 0x100 128 4 1 4 0xEF3FF03F 0x00000000 0x00000000 0x00000000 0 -- CFG_c
  , rowOf 0x400 128 8 1 4 0x00000000 0x00000000 0x00000000 0x00000000 1 -- VAL_LO_c
  , rowOf 0x404 128 8 1 4 0x00000000 0x00000000 0x00000000 0x00000000 2 -- VAL_HI_c
  , rowOf 0x800 128 8 1 4 0x00000000 0x00000000 0x00000000 0x00000000 1 -- CAP_LO_c
  , rowOf 0x804 128 8 1 4 0x00000000 0x00000000 0x00000000 0x00000000 2 -- CAP_HI_c
  ]

/-- Registers of Tables 23.7. -/
def rowsMemport : List RegRow :=
  [ rowOf 0x080 1 4 1 4 0x00000000 0x00000000 0x00000000 0x00000000 0 -- GRAIN
  , rowOf 0x084 1 4 1 4 0x00000000 0x00000000 0x00000000 0x00000000 0 -- MEM_STATUS
  , rowOf 0x088 1 4 1 4 0x00000007 0x00000000 0x00000000 0x00000000 0 -- REGION_CTRL
  , rowOf 0x08C 1 4 1 4 0x00000000 0x00000000 0x00000000 0x00000000 0 -- REGION_STATUS
  , rowOf 0x090 3 16 1 4 0xFFFFFFFF 0x00000000 0x00000000 0x00000000 1 -- BASE_LO_r
  , rowOf 0x094 3 16 1 4 0xFFFFFFFF 0x00000000 0x00000000 0x00000000 2 -- BASE_HI_r
  , rowOf 0x098 3 16 1 4 0xFFFFFFFF 0x00000000 0x00000000 0x00000000 1 -- SIZE_LO_r
  , rowOf 0x09C 3 16 1 4 0xFFFFFFFF 0x00000000 0x00000000 0x00000000 2 -- SIZE_HI_r
  , rowOf 0x0C0 1 4 1 4 0x00000000 0x00000000 0x00000000 0x00000000 0 -- OCCUPANCY
  , rowOf 0x0C4 1 4 1 4 0x00000000 0x0000FFFF 0x00000000 0x00000000 0 -- MAX_RESP
  , rowOf 0x0C8 1 4 1 4 0x00000000 0xFFFFFFFF 0x00000000 0x00000000 0 -- TIMEOUT
  , rowOf 0x0CC 1 4 1 4 0x00000000 0xFFFFFFFF 0x00000000 0x00000000 0 -- ERR_CNT
  , rowOf 0x0D0 1 4 1 4 0x00000000 0x00000000 0x00000000 0x00000000 0 -- LAST_ERR
  , rowOf 0x0D4 1 4 1 4 0x00000000 0x00000000 0x00000000 0x00000000 1 -- WRITES_LO
  , rowOf 0x0D8 1 4 1 4 0x00000000 0x00000000 0x00000000 0x00000000 2 -- WRITES_HI
  ]

/-- Registers of Tables 15.2. -/
def rowsIrqPend : List RegRow :=
  [ rowOf 0x100 64 4 1 4 0x00000000 0x00000000 0x00000000 0x00000000 0 -- PENDING_w
  , rowOf 0x200 64 4 1 4 0x00000000 0x00000000 0xFFFFFFFF 0x00000000 0 -- PEND_SET_w
  , rowOf 0x300 64 4 1 4 0x00000000 0x00000000 0xFFFFFFFF 0x00000000 0 -- PEND_CLR_w
  ]

/-- Registers of Tables 15.2. -/
def rowsIrqMask : List RegRow :=
  [ rowOf 0x100 64 4 1 4 0x00000000 0x00000000 0x00000000 0xFFFFFFFF 0 -- MASK_w
  , rowOf 0x200 64 4 1 4 0x00000000 0x00000000 0xFFFFFFFF 0x00000000 0 -- MASK_SET_w
  , rowOf 0x300 64 4 1 4 0x00000000 0x00000000 0xFFFFFFFF 0x00000000 0 -- MASK_CLR_w
  ]

/-- Registers of Tables 15.2. -/
def rowsIrqCount : List RegRow :=
  [ rowOf 0x800 512 4 1 4 0x00000000 0xFFFFFFFF 0x00000000 0x00000000 0 -- COUNT_j
  ]

/-- Registers of Tables 4.7. -/
def rowsSheet : List RegRow :=
  [ rowOf 0x080 1 4 1 4 0x00000000 0x00000000 0x00000000 0x00000000 0 -- SHEET_INFO
  , rowOf 0x400 256 4 1 4 0x00000000 0x00000000 0x00000000 0x00000000 0 -- RECORD_w
  ]

/-- Registers of Tables 14.9. -/
def rowsDmaState : List RegRow :=
  [ rowOf 0x800 512 4 1 4 0x00000000 0x00000000 0x00000000 0x00000000 0 -- STATE_HALF_w
  ]

/-- Registers of Tables 14.10. -/
def rowsDmaFn : List RegRow :=
  [ rowOf 0x800 256 4 1 4 0x01010FFF 0x00000000 0x00000000 0x00000000 0 -- FN_CFG_f
  ]

/-- The page-specific registers of each kind of page. -/
def rowsOf : PageKind → List RegRow
  | .block => rowsBlock
  | .mode => rowsMode
  | .cmd => rowsCmd
  | .safety => rowsSafety
  | .pcs => rowsPcs
  | .mac => rowsMac
  | .stat => rowsStat
  | .pipe => rowsPipe
  | .spread => rowsSpread
  | .reorder => rowsReorder
  | .cls => rowsCls
  | .clsKeys => rowsClsKeys
  | .version => rowsVersion
  | .flowkey => rowsFlowkey
  | .sec => rowsSec
  | .time => rowsTime
  | .shutter => rowsShutter
  | .dma0 => rowsDma0
  | .fn => rowsFn
  | .irqCtrl => rowsIrqCtrl
  | .irqT => rowsIrqT
  | .cv => rowsCv
  | .offload => rowsOffload
  | .power => rowsPower
  | .retain => rowsRetain
  | .fixer => rowsFixer
  | .darkslide => rowsDarkslide
  | .cal => rowsCal
  | .nv => rowsNv
  | .fed => rowsFed
  | .loupe => rowsLoupe
  | .loupeBank => rowsLoupeBank
  | .memport => rowsMemport
  | .irqPend => rowsIrqPend
  | .irqMask => rowsIrqMask
  | .irqCount => rowsIrqCount
  | .sheet => rowsSheet
  | .dmaState => rowsDmaState
  | .dmaFn => rowsDmaFn
  | .dmaPlain => []
  | .reserved => []

end Sys2Proof.Machine
end

