-- ==== Sys2Proof/Machine/Tab.lean ====
section
/-! DEFINITION. Operations on sparse tables, and the bit and byte helpers every unit uses. A table lists keys in
rising order and never lists a key at its default, so that equal contents are equal data. -/

namespace Sys2Proof.Machine

/-- The value at `k`: the listed one, else the default. -/
def tabGet {α : Type} (d : Nat → α) : Tab α → Nat → α
  | [], k => d k
  | (a, x) :: r, k => if a = k then x else tabGet d r k

/-- The listed value at `k`, if any. -/
def tabFind {α : Type} : Tab α → Nat → Option α
  | [], _ => none
  | (a, x) :: r, k => if a = k then some x else tabFind r k

/-- Remove every entry of `k`. -/
def tabErase {α : Type} : Tab α → Nat → Tab α
  | [], _ => []
  | (a, x) :: r, k => if a = k then tabErase r k else (a, x) :: tabErase r k

/-- Insert before the first larger key. -/
def tabInsert {α : Type} : Tab α → Nat → α → Tab α
  | [], k, v => [(k, v)]
  | (a, x) :: r, k, v => if k < a then (k, v) :: (a, x) :: r else (a, x) :: tabInsert r k v

/-- Write `v` at `k`: an entry equal to the default is not listed. -/
def tabSet {α : Type} [DecidableEq α] (d : Nat → α) (t : Tab α) (k : Nat) (v : α) : Tab α :=
  if v = d k then tabErase t k else tabInsert (tabErase t k) k v

/-- Write `v` at `k` in a table whose absence means "no entry". -/
def tabPut {α : Type} (t : Tab α) (k : Nat) (v : α) : Tab α := tabInsert (tabErase t k) k v

/-- Keep the entries whose key satisfies `p`. -/
def tabKeep {α : Type} (p : Nat → Bool) : Tab α → Tab α
  | [] => []
  | (a, x) :: r => if p a then (a, x) :: tabKeep p r else tabKeep p r

/-- Insert a number into a rising list without repeats. -/
def setInsert : List Nat → Nat → List Nat
  | [], k => [k]
  | a :: r, k => if k < a then k :: a :: r else if k = a then a :: r else a :: setInsert r k

/-- Remove a number from a list. -/
def setErase : List Nat → Nat → List Nat
  | [], _ => []
  | a :: r, k => if a = k then setErase r k else a :: setErase r k

/-- Bits [hi:lo] of a word as a number. -/
def bits (w : Word) (hi lo : Nat) : Nat := (w.toNat / 2 ^ lo) % 2 ^ (hi + 1 - lo)

/-- Bit `n` of a word. -/
def bit (w : Word) (n : Nat) : Bool := w.getLsbD n

/-- The word with bits [hi:lo] replaced by the low bits of `v`. -/
def putBits (w : Word) (hi lo : Nat) (v : Nat) : Word :=
  let m : Word := BitVec.ofNat 32 ((2 ^ (hi + 1 - lo) - 1) * 2 ^ lo)
  (w &&& ~~~m) ||| (BitVec.ofNat 32 ((v % 2 ^ (hi + 1 - lo)) * 2 ^ lo))

/-- The word with bit `n` set to `b`. -/
def putBit (w : Word) (n : Nat) (b : Bool) : Word := putBits w n n (if b then 1 else 0)

/-- A word from a number. -/
def word (n : Nat) : Word := BitVec.ofNat 32 n

/-- 1 for true, 0 for false. -/
def flag (b : Bool) : Nat := if b then 1 else 0

/-- The `n` low bytes of a number, least significant first. -/
def leBytes (v : Nat) : Nat → List Byte
  | 0 => []
  | n + 1 => BitVec.ofNat 8 v :: leBytes (v / 256) n

/-- The `n` low bytes of a number, most significant first. -/
def beBytes (v n : Nat) : List Byte := (leBytes v n).reverse

/-- A little-endian number. -/
def leNat : List Byte → Nat
  | [] => 0
  | b :: r => b.toNat + 256 * leNat r

/-- A big-endian number. -/
def beNat (l : List Byte) : Nat := leNat l.reverse

/-- Bytes `[off, off + n)` of a list, zeros beyond its end. -/
def slice (l : List Byte) (off n : Nat) : List Byte :=
  let x := (l.drop off).take n
  x ++ List.replicate (n - x.length) 0

/-- A little-endian field of a byte block. -/
def leField (l : List Byte) (off n : Nat) : Nat := leNat (slice l off n)

/-- A big-endian (network order) field of a frame. -/
def beField (l : List Byte) (off n : Nat) : Nat := beNat (slice l off n)

/-- Byte `i` of a list, 0 beyond its end. -/
def byteAt (l : List Byte) (i : Nat) : Byte := (l.drop i).headD 0

/-- Words of a byte block, byte 0 in bits [7:0] of the first. -/
def wordsOf (l : List Byte) : Nat → Nat → List Word
  | _, 0 => []
  | off, n + 1 => word (leField l off 4) :: wordsOf l (off + 4) n

/-- `a + b`, not above `m`. -/
def satAdd (m a b : Nat) : Nat := if a + b ≤ m then a + b else m

/-- Two's complement reading of the low `w` bits. -/
def signed (w v : Nat) : Int :=
  let x := v % 2 ^ w
  if x < 2 ^ (w - 1) then (x : Int) else (x : Int) - (2 ^ w : Nat)

/-- The low `w` bits of an integer. -/
def unsigned (w : Nat) (i : Int) : Nat := (i % ((2 ^ w : Nat) : Int)).toNat

end Sys2Proof.Machine
end

