-- ==== Sys2Proof/Machine/Pages.lean ====
section
/-! DEFINITION. Pages and addresses of the register window: the page map of Table 2.1 with domains and PERMIT, the
common header of Table 2.2, the lookup of a register row and every register's reset value (R32-R35, R40). -/

namespace Sys2Proof.Machine

/-- The window offset of a register: page × 0x1000 + offset (R32). -/
def adr (page off : Nat) : Nat := page * 4096 + off

def pageOf (a : Nat) : Nat := a / 4096
def offOf (a : Nat) : Nat := a % 4096

def pgBlock : Nat := 0x000
def pgMode : Nat := 0x001
def pgCmd : Nat := 0x002
def pgSheet : Nat := 0x003
def pgPower : Nat := 0x004
def pgRetain : Nat := 0x005
def pgFixer : Nat := 0x006
def pgDark : Nat := 0x007
def pgCal : Nat := 0x008
def pgNv : Nat := 0x009
def pgFed : Nat := 0x00A
def pgSafety : Nat := 0x00B
def pgTime : Nat := 0x010
def pgShutter : Nat := 0x011
def pgOffload : Nat := 0x018
def pgCv (u : Nat) : Nat := 0x019 + u
def pgIrq : Nat := 0x040
def pgPend : Nat := 0x041
def pgMask : Nat := 0x042
def pgCount : Nat := 0x043
def pgTarget (t : Nat) : Nat := 0x044 + t
def pgLoupe : Nat := 0x0A0
def pgBank (b : Nat) : Nat := 0x0A1 + b
def pgMem : Nat := 0x0B0
/-- Page `k` of cluster `n`: 0 MAC, 1 PCS_FEC, 2 SEC, 3 STAT. -/
def pgCl (n k : Nat) : Nat := 0x100 + 4 * n + k
def pgPipe (p : Nat) : Nat := 0x280 + p
def pgSpread : Nat := 0x2B0
def pgReorder : Nat := 0x2B1
def pgClass : Nat := 0x2B2
def pgKeys : Nat := 0x2B3
def pgVersion : Nat := 0x2B4
def pgFlow : Nat := 0x2B5
def pgDma (i : Nat) : Nat := 0x2C0 + i
def pgFn (f : Nat) : Nat := 0x300 + f

/-- One line of Table 2.1. -/
structure PageInfo where
  kind : PageKind
  type : Nat
  inst : Nat
  domain : Domain
  permit : Nat
  deriving DecidableEq, Repr

/-- Table 2.1: what page `p` is. -/
def pageInfo (p : Nat) : PageInfo :=
  if p = 0x000 then ⟨.block, 0x0001, 0, .mg, 0x07⟩
  else if p = 0x001 then ⟨.mode, 0x0002, 0, .ao, 0x07⟩
  else if p = 0x002 then ⟨.cmd, 0x0003, 0, .mg, 0x03⟩
  else if p = 0x003 then ⟨.sheet, 0x0004, 0, .mg, 0x00⟩
  else if p = 0x004 then ⟨.power, 0x0005, 0, .ao, 0x03⟩
  else if p = 0x005 then ⟨.retain, 0x0006, 0, .ao, 0x02⟩
  else if p = 0x006 then ⟨.fixer, 0x0007, 0, .ao, 0x06⟩
  else if p = 0x007 then ⟨.darkslide, 0x0008, 0, .mg, 0x03⟩
  else if p = 0x008 then ⟨.cal, 0x0009, 0, .ao, 0x07⟩
  else if p = 0x009 then ⟨.nv, 0x000A, 0, .ao, 0x02⟩
  else if p = 0x00A then ⟨.fed, 0x000B, 0, .mg, 0x0B⟩
  else if p = 0x00B then ⟨.safety, 0x000C, 0, .ao, 0x06⟩
  else if p = 0x010 then ⟨.time, 0x0010, 0, .ti, 0x0F⟩
  else if p = 0x011 then ⟨.shutter, 0x0011, 0, .ti, 0x03⟩
  else if p = 0x018 then ⟨.offload, 0x0018, 0, .hd, 0x03⟩
  else if p < 0x019 then ⟨.reserved, 0, 0, .mg, 0⟩
  else if p < 0x021 then ⟨.cv, 0x0019, p - 0x019, .hd, 0x03⟩
  else if p < 0x040 then ⟨.reserved, 0, 0, .mg, 0⟩
  else if p = 0x040 then ⟨.irqCtrl, 0x0040, 0, .mg, 0x03⟩
  else if p = 0x041 then ⟨.irqPend, 0x0040, 1, .mg, 0x03⟩
  else if p = 0x042 then ⟨.irqMask, 0x0040, 2, .mg, 0x03⟩
  else if p = 0x043 then ⟨.irqCount, 0x0040, 3, .mg, 0x03⟩
  else if p < 0x088 then ⟨.irqT, 0x0044, p - 0x044, .mg, 0x03⟩
  else if p < 0x0A0 then ⟨.reserved, 0, 0, .mg, 0⟩
  else if p = 0x0A0 then ⟨.loupe, 0x00A0, 0, .mg, 0x13⟩
  else if p < 0x0A9 then ⟨.loupeBank, 0x00A1, p - 0x0A1, .mg, 0x13⟩
  else if p = 0x0B0 then ⟨.memport, 0x00B0, 0, .mg, 0x03⟩
  else if p < 0x100 then ⟨.reserved, 0, 0, .mg, 0⟩
  else if p < 0x208 then
    let n := (p - 0x100) / 4
    match (p - 0x100) % 4 with
    | 0 => ⟨.mac, 0x0100, n, .cl n, 0x03⟩
    | 1 => ⟨.pcs, 0x0101, n, .cl n, 0x03⟩
    | 2 => ⟨.sec, 0x0102, n, .cl n, 0x03⟩
    | _ => ⟨.stat, 0x0103, n, .cl n, 0x03⟩
  else if p < 0x280 then ⟨.reserved, 0, 0, .mg, 0⟩
  else if p < 0x2B0 then ⟨.pipe, 0x0280, p - 0x280, .pq ((p - 0x280) / 12), 0x03⟩
  else if p = 0x2B0 then ⟨.spread, 0x02B0, 0, .sr, 0x03⟩
  else if p = 0x2B1 then ⟨.reorder, 0x02B1, 0, .sr, 0x03⟩
  else if p = 0x2B2 then ⟨.cls, 0x02B2, 0, .sr, 0x03⟩
  else if p = 0x2B3 then ⟨.clsKeys, 0x02B3, 0, .sr, 0x03⟩
  else if p = 0x2B4 then ⟨.version, 0x02B4, 0, .sr, 0x0B⟩
  else if p = 0x2B5 then ⟨.flowkey, 0x02B5, 0, .sr, 0x03⟩
  else if p < 0x2C0 then ⟨.reserved, 0, 0, .mg, 0⟩
  else if p = 0x2C0 then ⟨.dma0, 0x02C0, 0, .hd, 0x03⟩
  else if p < 0x2CD then ⟨.dmaState, 0x02C0, p - 0x2C0, .hd, 0x03⟩
  else if p = 0x2CD then ⟨.dmaFn, 0x02C0, 13, .hd, 0x03⟩
  else if p < 0x2D0 then ⟨.dmaPlain, 0x02C0, p - 0x2C0, .hd, 0x03⟩
  else if p < 0x300 then ⟨.reserved, 0, 0, .mg, 0⟩
  else if p < 0x400 then ⟨.fn, 0x0300, p - 0x300, .hd, 0x01⟩
  else ⟨.reserved, 0, 0, .mg, 0⟩

/-- PAGE_CAP.EVT_COUNT of each kind of page, as its chapter gives it; 0 where it implements no events (R277). -/
def evtCount : PageKind → Nat
  | .block => 2
  | .mode => 4
  | .cmd => 4
  | .power => 7
  | .retain => 3
  | .fixer => 8
  | .darkslide => 5
  | .cal => 3
  | .nv => 2
  | .fed => 9
  | .safety => 4
  | .time => 8
  | .shutter => 19
  | .offload => 2
  | .cv => 3
  | .irqCtrl => 3
  | .loupe => 2
  | .loupeBank => 1
  | .memport => 4
  | .mac => 10
  | .pcs => 8
  | .sec => 8
  | .pipe => 3
  | .spread => 5
  | .reorder => 3
  | .cls => 2
  | .version => 6
  | .flowkey => 2
  | .dma0 => 3
  | .fn => 4
  | _ => 0

/-- DOMAIN code of PAGE_CAP (Table 2.2). -/
def domainCode : Domain → Nat
  | .ao => 0
  | .mg => 1
  | .ti => 2
  | .hd => 3
  | .sr => 4
  | .pq _ => 5
  | .cl _ => 6

/-- PERMIT bit of a command port (Table 2.2). -/
def portCode : CmdPort → Nat
  | .H => 0
  | .S => 1
  | .M => 2
  | .F => 3
  | .W => 4

/-- CTRL of each kind of page: writable bits and reset value (R35; log entry 5 where the chapter gives none). -/
def ctrlRow : PageKind → Nat × Nat
  | .safety => (3, 1)
  | .time => (0, 1)
  | .version => (2, 1)
  | .fixer => (7, 7)
  | .darkslide => (2, 1)
  | .fed => (2, 2)
  | _ => (1, 1)

/-- The registers of the common header that are stored (Table 2.2). -/
def headerRows (k : PageKind) : List RegRow :=
  if evtCount k = 0 then
    [ rowOf 0x010 1 4 1 4 (ctrlRow k).1 0 0 (ctrlRow k).2 0
    , rowOf 0x03C 1 4 1 4 31 0 0 0 0
    , rowOf 0x040 1 4 1 4 0 0 0 0 0 ]
  else
    [ rowOf 0x010 1 4 1 4 (ctrlRow k).1 0 0 (ctrlRow k).2 0
    , rowOf 0x020 2 4 1 4 0 0 0 0 0
    , rowOf 0x028 2 4 1 4 0 0 (2 ^ evtCount k - 1) 0 0
    , rowOf 0x030 1 4 1 4 0 0 0 (2 ^ evtCount k - 1) 0
    , rowOf 0x034 2 4 1 4 0 0 (2 ^ evtCount k - 1) 0 0
    , rowOf 0x03C 1 4 1 4 31 0 0 0 0
    , rowOf 0x040 1 4 1 4 0 0 0 0 0 ]

/-- Does the row hold the register at `off`? -/
def rowHas (r : RegRow) (off : Nat) : Bool :=
  decide (r.first ≤ off) &&
    (let d := off - r.first
     decide (d / r.s1 < r.n1) && decide ((d % r.s1) % r.s2 = 0) && decide ((d % r.s1) / r.s2 < r.n2))

/-- The row of a page-specific or header register. -/
def findRow : List RegRow → Nat → Option RegRow
  | [], _ => none
  | r :: t, off => if rowHas r off then some r else findRow t off

/-- The register row at window offset `a`; none for a reserved offset or page. -/
def rowAt (a : Nat) : Option RegRow :=
  let k := (pageInfo (pageOf a)).kind
  match k with
  | .reserved => none
  | _ => if offOf a < 0x80 then findRow (headerRows k) (offOf a) else findRow (rowsOf k) (offOf a)

/-- Reset values that depend on the page's instance or on the factory calibration. -/
def specialReset (k : PageKind) (inst off : Nat) (w : Word) : Word :=
  match k with
  | .block => if off = 0x080 then Config.ident else w
  | .irqT =>
    if off = 0x088 then (if 64 ≤ inst then 0 else 0xFF)
    else if off = 0x0A4 then w ||| word (inst % 2 * 2 ^ 24) else w
  | .dmaFn => if 0x800 ≤ off then word ((off - 0x800) / 4 % 2 * 2 ^ 24) else w
  | .pipe => if off = 0x080 then word (inst / 12 * 16) else w
  | .version => if 0x080 ≤ off && off < 0x090 then word ((off - 0x080) / 4 * 2 ^ 30) else w
  | .retain =>
    if off = 0x080 then 1424 else if off = 0x084 then 520 else if off = 0x088 then 597
    else if off = 0x08C then 345 else w
  | .power => if off = 0x800 + 4 * 74 then 0xC0000032 else w
  | .memport => if off = 0x080 then Config.memGrain else w
  | _ => w

/-- The reset value of the register at window offset `a`, 0 where there is none. -/
def regReset (a : Nat) : Word :=
  match rowAt a with
  | none => 0
  | some r => specialReset (pageInfo (pageOf a)).kind (pageInfo (pageOf a)).inst (offOf a) r.reset

end Sys2Proof.Machine
end

