-- ==== Sys2Proof/Machine/State.lean ====
section
/-! DEFINITION. The state of the NH512: every register, table, buffer, queue, mode and pin the spec gives the block,
as plain data, and the queue of waiting commands. -/

namespace Sys2Proof.Machine

/-- What the complex drives at its boundary (R1, Table 0.1). The model keeps a record of it, oldest first. -/
inductive Emit
  /-- A posted write on host-fabric channel `ch` (R17). -/
  | fabricWrite (ch addr : Nat) (data : List Byte)
  /-- A read request on host-fabric channel `ch` (R17). -/
  | fabricRead (ch addr len : Nat)
  /-- A write at the die memory port, of whole 64-byte lines from `addr` on: the octets written, and how many before and behind
  them the byte mask leaves out (R400). -/
  | memWrite (addr before : Nat) (data : List Byte) (after : Nat)
  /-- A cell sent to the switch core by a cluster: cell sideband, first-cell sideband (empty but in the first cell),
  data (R10-R12). -/
  | rxCell (cluster : Nat) (side : Word) (first data : List Byte)
  /-- A key word on flow-key channel `q` (R15). -/
  | keyWord (q : Nat) (key : List Byte)
  /-- A frame on the line: octets with FCS as sent, and whether it ends with an error (R189). -/
  | lineFrame (port : Nat) (data : List Byte) (error : Bool)
  /-- A fragment of a preemptable frame on the line: its SMD octet, the fragment count octet of an SMD-C, its octets with FCS or
  mCRC, and whether it ends with an error (R199). -/
  | fragment (port : Nat) (smd : Byte) (count : Option Byte) (data : List Byte) (error : Bool)
  /-- A gap of idle octets on the line before a start that follows within it (R190). -/
  | gap (port octets : Nat)
  /-- Transmit cell credits returned to the switch core (R10, R185). -/
  | credit (cluster n : Nat)
  /-- A verification or response mPacket (R198). -/
  | smd (port kind : Nat)
  /-- Octets on SLK_DOUT (R74). -/
  | slk (data : List Byte)
  /-- The response to a command on port S, F or W (R68, R78): port, ingress, destination, octets. -/
  | response (port : CmdPort) (ingress dest : Nat) (data : List Byte)
  /-- The pause state of a port to the switch core: bits 0-7 priorities, bit 8 PAUSE (R115). -/
  | pause (port state : Nat)
  /-- The value a register read returns at the window (R21). -/
  | regData (port : CmdPort) (addr : Nat) (value : Word)
  deriving DecidableEq, Repr

/-- A command as it enters the checks of Table 4.4 (R68). -/
structure Req where
  port : CmdPort
  code : BitVec 16
  seq : BitVec 16
  /-- The argument bytes as they arrived. -/
  args : List Byte
  /-- Ports F and W: the switch port the command frame arrived on (R78). -/
  ingress : Nat
  /-- Port W: the source MAC address the response is sent to (R78). Port F: the member number of the sender. -/
  source : Nat
  /-- Relayed command (R386): its RELAY_SEQ; `source` is the member that is to receive the response. -/
  relayed : Option Nat
  /-- Port H: asked for through SHEET_REQ (R73). -/
  sheetReq : Bool
  deriving DecidableEq, Repr

/-- A result as the ports return it (Table 4.3). -/
structure Resp where
  code : BitVec 16
  seq : BitVec 16
  result : Byte
  dup : Bool
  data : List Byte
  deriving DecidableEq, Repr

/-- One entry of a port's tag table (R70): the result and up to 64 bytes of its data once completed. -/
structure TagEntry where
  seq : BitVec 16
  code : BitVec 16
  done : Option (Byte × List Byte)
  /-- A duplicate of the completed tag has arrived (Table 4.8, step 6). -/
  dup : Bool
  deriving DecidableEq, Repr

/-- A command in a port's executing place: `started` once it has passed step 6 (R71). -/
structure Running where
  req : Req
  started : Bool
  deriving DecidableEq, Repr

/-- What one command port holds (R70, R71). -/
structure PortState where
  /-- The 16 most recent tags, newest first. -/
  tags : List TagEntry
  exec : Option Running
  wait : Option Req
  /-- The record of the port's most recent CONTACT_SHEET, with its tag. -/
  sheet : Option (BitVec 16 × List Byte)
  deriving DecidableEq, Repr

/-- A register access at the window: a read, or a write of a word (R21). -/
structure Access where
  port : CmdPort
  addr : Nat
  data : Option Word
  deriving DecidableEq, Repr

/-- The last transaction on the safety link (R74): none since HOLD, one that failed step 1, or one of a tag. -/
inductive SlkLast
  | none
  | bad
  | tag (seq : BitVec 16)
  deriving DecidableEq, Repr

/-- The command ports (04_command_ports.md). -/
structure Cmd where
  h : PortState
  s : PortState
  m : PortState
  f : PortState
  w : PortState
  /-- CONTACT_SHEET requests accepted and not yet generated (R71: executed at once). -/
  sheets : List Req
  /-- The port's most recent unstored result on port M (R74 rule 4). -/
  unstored : Option Resp
  /-- The last transaction on the safety link (R74). -/
  slkLast : SlkLast
  /-- Register accesses and commands stalled on a wake, oldest first (R29, R41). -/
  stalled : List Access
  deriving DecidableEq, Repr

/-- PROOF as PROOF_STATUS shows it (Table 3.7). -/
structure Proof where
  step : Nat
  haltReason : Nat
  lbistPass : Bool
  lbistRun : Bool
  safeListFallback : Bool
  userCalOk : Bool
  factoryCalOk : Bool
  repairMapOk : Bool
  bootRulesFallback : Bool
  /-- A unit failed MBIST or LBIST beyond repair (R52). -/
  unitBad : Bool
  deriving DecidableEq, Repr

/-- SAFE_STATUS and SAFE_ENTRY_NS (Table 3.7). -/
structure SafeStat where
  entryCount : Nat
  shedding : Bool
  testCut : Bool
  fromMode : Nat
  cause : Nat
  entryNs : Nat
  deriving DecidableEq, Repr

/-- The causes that hold FAULT_N low (bytes 856-859 of Table 4.7). -/
structure Faults where
  proof : Bool
  spares : Bool
  wdog : Bool
  disjoint : Bool
  retain : Bool
  journal : Bool
  deriving DecidableEq, Repr

/-- Input levels and the balls the complex drives (Tables 1.6 and 1.11). -/
structure Pins where
  dieResetLow : Bool
  corePgLow : Bool
  vddioLow : Bool
  strap : Bool
  alarmIn : Bool
  /-- POWERED_NS at the rise of ALARM_IN and the MIN_US in force then (R77); none once judged. -/
  alarmRise : Option (Nat × Nat)
  alarmLevel : Bool
  csLow : Bool
  /-- The owned outputs are driven (R26). -/
  driven : Bool
  safeActive : Bool
  /-- Levels on SHUTTER_OUT[7:0] (R28: kept while held). -/
  shutter : BitVec 8
  /-- The time group is held (R28, R329). -/
  timeHeld : Bool
  /-- SCAN_GATE_EN (R360). -/
  scanGate : Bool
  deriving DecidableEq, Repr

/-- A SAFELIGHT entry under way: its cause and the mode at the trigger (R53, R54). -/
structure SafeEntry where
  cause : Nat
  fromMode : Nat
  deriving DecidableEq, Repr

/-- The mode sequencer (03_operating_modes.md). -/
structure Ctl where
  mode : Mode
  warm : Bool
  halted : Bool
  proof : Proof
  /-- The PROOF step a SAFELIGHT exit resumes at, 0 when none is deferred (R54). -/
  deferred : Nat
  /-- The mode that the transition in flight leads to (R47). -/
  target : Option Mode
  entry : Option SafeEntry
  /-- The level named by an accepted SAFELIGHT_EXIT that is executing (R59). -/
  exit : Option (BitVec 2)
  pl : BitVec 2
  sleep : Sleep
  safe : SafeStat
  faults : Faults
  pins : Pins
  /-- Watchdog of the safety link: POWERED_NS at the start of its count while it counts (R76). -/
  wdogSince : Option Nat
  wdogExpired : Bool
  deriving DecidableEq, Repr

/-- The register window (02_register_pages.md). -/
structure Win where
  /-- Registers that differ from their reset value, by window offset. -/
  regs : Tab Word
  /-- Live values of the counters that SNAP captures, by the window offset of their (low) word. -/
  live : Tab Nat
  /-- R42 snapshots: per port and page the _LO last read and the high half taken then. -/
  snap : Tab (Nat × Word)
  /-- Time of day (2^-16 ns) at a port's last read of TOD_NS, by port (R236). -/
  tod : Tab Nat
  /-- R42 held _LO writes, per port and page. -/
  held : Tab (Nat × Word)
  deriving DecidableEq, Repr

/-- The interrupt controller (15_interrupts.md); masks and counts are window registers. -/
structure Irq where
  /-- Pending sources, rising (R279). -/
  pending : List Nat
  /-- Route masks that differ from reset, by source (R281, R290). -/
  route : Tab (BitVec 68)
  /-- Per source the POWERED_NS of the edge that set its pending bit (Table 15.5). -/
  edgeNs : Tab Nat
  /-- Sources whose pending bit a hardware edge set (SW_SET of Table 15.5). -/
  hwSet : List Nat
  /-- Data-class sources whose record waits for room, rising (R287). -/
  waiting : List Nat
  /-- Sources counted in UNROUTED (R281). -/
  unrouted : List Nat
  /-- Per target the source in service (R282). -/
  service : Tab Nat
  /-- Targets whose management request is asserted (R282). -/
  req : List Nat
  /-- The written-back EQ_PI of each event queue (R288). -/
  wb : Tab Nat
  deriving DecidableEq, Repr

/-- Where a level or sleep request came from (R317). -/
inductive ReqOrigin
  | modeReq (port : CmdPort)
  | command (port : CmdPort)
  deriving DecidableEq, Repr

/-- A level or sleep request (R317). -/
structure PwrReq where
  origin : ReqOrigin
  sleep : Bool
  value : BitVec 2
  deriving DecidableEq, Repr

/-- The power controller (18_power_and_retention.md). -/
structure Pwr where
  /-- The request in flight (R321). -/
  flight : Option PwrReq
  /-- The pending slot (R321). -/
  slot : Option PwrReq
  /-- POWERED_NS at the acceptance of the sleep request in flight: frames begun before it are admitted (R324). -/
  since : Nat
  /-- Sleep entry has begun and the state is not reached (R30). -/
  entering : Bool
  /-- The wake in progress, or recorded during entry: source code and location (R327). -/
  wake : Option (Nat × Nat)
  /-- The wake in progress ends a round trip (R30). -/
  round : Bool
  /-- The four saved banks: (window offset, word) pairs (R331). -/
  saved : List (List (Nat × Word))
  /-- Islands of Table 17.1 that are powered down. -/
  off : List Nat
  deriving DecidableEq, Repr

/-- A reconfiguration whose checks have passed (R89): its lanes, and whether the lanes have restarted. -/
structure Reconf where
  mask : Nat
  restarted : Bool
  /-- The eight PORT_CFG words sampled at the GO. -/
  words : List Word
  /-- It applies the factory map for RESTORE_FACTORY (R373). -/
  factory : Bool
  /-- POWERED_NS when its checks passed: frames begun before it are admitted (R89). -/
  since : Nat
  deriving DecidableEq, Repr

/-- Lanes and ports (05_lanes_ports_fec.md); maps and status are window registers. -/
structure Prt where
  /-- Levels of LINK_UP [0], SIG_DET [1] and ALIGN_OK [2] by lane; the last sample is LANE_STATUS (R9). -/
  laneIn : Tab (BitVec 3)
  /-- Ports that receive remote fault (R93). -/
  remote : List Nat
  /-- Reconfigurations under way, by cluster (R89). -/
  reconf : Tab Reconf
  /-- Ports that have stopped admitting frames for a reconfiguration (R89). -/
  stopped : List Nat
  /-- Spare clusters that stand in, with their home cluster (R98, R101). -/
  standIn : Tab Nat
  /-- Pages of units under test (R365). -/
  testPages : List Nat
  /-- Switched-off parse quarters woken by a register access (R153). -/
  quarterWoken : List Nat
  /-- Parse quarters whose change is in progress: out of the rotation, not yet powered down (R153). -/
  quarterMoving : List Nat
  /-- POWERED_NS at the last fall of each port: a frame in progress then ends with a code error (R93). -/
  fell : Tab Nat
  deriving DecidableEq, Repr

/-- A timestamp: seconds, nanoseconds, 2^-16 ns (Table 1.3). -/
structure Stamp where
  sec : Nat
  ns : Nat
  frac : Nat
  deriving DecidableEq, Repr

/-- What the first octet of a received frame fixes: T_rx and whether it is unlocked (R237, R238), the SECY_CFG it meets
(R212). -/
structure RxStart where
  ts : Stamp
  unlocked : Bool
  secy : Word
  deriving DecidableEq, Repr

/-- An open preemptable frame of a merge port (R117): frame number, next fragment count, octets so far, fragments, what its
start fixed, and whether its first 208 octets have been handed to the parse path (R119). -/
structure MergeRx where
  number : Nat
  nextCount : Nat
  octets : List Byte
  fragments : Nat
  start : RxStart
  handed : Bool
  deriving DecidableEq, Repr

/-- A wake frame held in a listening cluster (R122): its port, start, octets without FCS, FCS octets. -/
structure WakeFrm where
  port : Nat
  start : RxStart
  data : List Byte
  fcs : List Byte
  deriving DecidableEq, Repr

/-- MAC receive (06_mac_receive.md). -/
structure Rx where
  /-- Open preemptable frames by port. -/
  merge : Tab MergeRx
  /-- Running pause timers in quanta: key 16·port + priority, 16·port + 8 for PAUSE (R115). -/
  pause : Tab Nat
  /-- The indirect tables of every cluster (Table 6.3); the key is that of `tblKey`. -/
  tables : Tab DWord
  /-- Wake frames held until the wake completes, by cluster (R122). -/
  wakeHeld : Tab WakeFrm
  /-- Receive cell credits held by each cluster (R10). -/
  credits : Tab Nat
  deriving DecidableEq, Repr

/-- The time engine (12_time_engine.md). Time of day, E and R are kept in units of 2^-48 ns: 2^-16 ns and the 32
further fraction bits of R218. -/
structure Tim where
  /-- POWERED_NS (R219). -/
  powered : Nat
  /-- Time of day since the epoch, below 2^48 s (R218). -/
  tod : Nat
  /-- The time island is powered and runs (R232). -/
  on : Bool
  /-- A step has been taken since the end of HOLD (Table 12.1). -/
  set : Bool
  /-- The validity state as last evaluated: 0 UNSET, 1 LOCKED, 2 HOLDOVER. -/
  vstate : Nat
  e : Int
  r : Int
  refOk : Bool
  /-- A measurement has been made since the time island last powered up (R221). -/
  measured : Bool
  /-- POWERED_NS at the last measurement, and the part of the time since then spent powered down (R222). -/
  measNs : Nat
  offNs : Nat
  /-- The reference edge of R224: POWERED_NS at it, in time-island cycles. -/
  ppsRef : Option Nat
  /-- Consecutive good edges, up to 3 (Table 12.2). -/
  ppsGood : Nat
  ppsPresent : Bool
  pllLocked : Bool
  pllFallback : Bool
  /-- TIME_REF_IN is present and in tolerance. -/
  refIn : Bool
  stepArmed : Bool
  armM : Bool
  slept : Bool
  clamped : Bool
  modeForced : Bool
  stepOnce : Bool
  disjoint : Bool
  /-- SET_AT_PPS waiting: the seconds value S′ (R228). -/
  setAtPps : Option Nat
  /-- Islands whose TIME_ACQ is 1 (R313). -/
  acq : List Nat
  /-- Distribution delay of each receiving island in ps (R312). -/
  delay : Tab Nat
  deriving DecidableEq, Repr

/-- A cell for the switch core (R11, R12). -/
structure RxCell where
  side : Word
  first : List Byte
  data : List Byte
  deriving DecidableEq, Repr

/-- A frame the SecY has passed to the spreader (R143). -/
structure RxFrm where
  port : Nat
  /-- Frame data after decryption, SecTAG, ICV and FCS removed (R126). -/
  data : List Byte
  /-- FCS octets delivered with it (R107): none or four. -/
  fcs : List Byte
  secTag : Bool
  encrypted : Bool
  /-- End mark for the EOF cell as bits [12:9] of Table 1.2 (R108, R205). -/
  endMarks : Nat
  /-- An error found at the frame's end before its first cell left: released as discarded (R108, R155). -/
  macDiscard : Bool
  ts : Stamp
  unlocked : Bool
  /-- Words 0x100-0x14C of the shared parse configuration the frame entered the spreader under (R142). -/
  cfg : List Word
  /-- A preemptable frame handed over before its end, which is still to come (R119). -/
  pend : Bool
  deriving DecidableEq, Repr

/-- A frame dealt to a pipe (R144, R146, R163). -/
structure Dealt where
  frm : RxFrm
  seq : Nat
  /-- VERSION_TAG stamped on it. -/
  tag : Word
  pipe : Nat
  /-- Already declared lost (R149, R156). -/
  lost : Bool
  /-- Dealt to the spare of a shadow too (R151). -/
  shadow : Bool
  deriving DecidableEq, Repr

/-- What the reorder engine does with a sequence number when its turn comes (R154, R171). -/
inductive Fate
  | discard
  | lost
  /-- Handed to the packet interface; with a mirror queue. -/
  | forward (mirror : Option Nat)
  /-- Delivered to a host receive queue with a completion reason (Table 14.3). -/
  | punt (queue reason : Nat)
  deriving DecidableEq, Repr

/-- A record in the reorder store, or a resolved number (R154, R155). -/
structure Held where
  port : Nat
  seq : Nat
  quarter : Nat
  fate : Fate
  /-- Bytes 0-93 of the first-cell sideband. -/
  side : List Byte
  frm : RxFrm
  deriving DecidableEq, Repr

/-- The ring as it stood before a SAFELIGHT entry (R150). -/
structure RingSave where
  ring : List (Option Nat)
  spares : List Nat
  /-- Pipes of PP04-PP11 that have been used since as substitutes. -/
  used : List Nat
  deriving DecidableEq, Repr

/-- Spreader, pipes, reorder store and packet interface (08_spreading_and_reorder.md). -/
structure Dp where
  /-- Spreader queues by cluster, oldest first (R143). -/
  queues : Tab (List RxFrm)
  /-- 24-bit sequence counters by port (R144). -/
  seq : Tab Nat
  /-- The pipe that holds each of the 48 ring positions (R146). -/
  ring : List (Option Nat)
  /-- Position last dealt and cluster last served. -/
  lastPos : Nat
  lastCl : Nat
  before : Option RingSave
  /-- Frames in the pipes, in dealing order. -/
  dealt : List Dealt
  /-- Records that a stalled pipe still owes for frames declared lost, by pipe (R149, R158). -/
  overdue : Tab Nat
  /-- Next sequence number to be resolved, by port. -/
  expect : Tab Nat
  /-- Held records and resolved numbers (R154). -/
  held : List Held
  /-- Released frames whose end is still to come, by port (R119). -/
  opened : Tab Held
  /-- Cells that wait for credits, by cluster (R10). -/
  cells : Tab (List RxCell)
  /-- Key words that wait for a ready input, by channel (R16). -/
  fifo : Tab (List (List Byte))
  /-- POWERED_NS of the last shed frame (ROT_STATUS.SHEDDING). -/
  shedNs : Option Nat
  deriving DecidableEq, Repr

/-- A ternary row (R165): 320-bit VALUE and MASK, action word, version-valid mask. -/
structure TernRow where
  value : Nat
  mask : Nat
  action : Word
  valid : Nat
  deriving DecidableEq, Repr

/-- An exact entry (R165). -/
structure ExactEntry where
  key : Nat
  action : Word
  valid : Nat
  deriving DecidableEq, Repr

/-- A version load in progress (R176). -/
structure Load where
  port : CmdPort
  slot : Nat
  len : Nat
  addr : Nat
  fn : Nat
  deriving DecidableEq, Repr

/-- A pending commit (R177): its slot, the port of a commit-now, for a timed one whether it was already due, and what
COMMIT_STATUS held before. -/
structure Commit where
  slot : Nat
  now : Option CmdPort
  late : Bool
  before : Word
  deriving DecidableEq, Repr

/-- The classifier (09_classifier_and_versions.md). -/
structure Cls where
  /-- Rows in use, by number (one table behind every pipe copy, R165). -/
  tern : Tab TernRow
  /-- Entries in use, by 64·port + index. -/
  exact : Tab ExactEntry
  load : Option Load
  commit : Option Commit
  deriving DecidableEq, Repr

/-- Where a transmit frame comes from: the switch core, a host queue with the index of its first descriptor, or the
management core. -/
inductive TxSrc
  | switch
  | host (q first : Nat)
  /-- A frame of the federation agent (R188): `relay` is one it passes on (R384, R386). -/
  | own (relay : Bool)
  deriving DecidableEq, Repr

/-- A frame in a port's transmit queues (R184-R189). -/
structure TxFrm where
  src : TxSrc
  prio : Nat
  express : Bool
  fcsSupplied : Bool
  cutThrough : Bool
  ptpAction : Nat
  ptpOffset : Nat
  sc : Nat
  captureId : Nat
  /-- The octets held so far. -/
  data : List Byte
  /-- Its cells held in the transmit buffer. -/
  cells : Nat
  /-- The EOF cell is held; its end marks. -/
  eof : Bool
  endMarks : Nat
  /-- It reached 16 held cells without its EOF cell (R241). -/
  long : Bool
  /-- Counted in TX_PAUSE_WAIT (R195). -/
  waited : Bool
  /-- Discard the rest of its cells up to EOF (R187, R196). -/
  dropping : Bool
  deriving DecidableEq, Repr

/-- What MACsec protects a committed frame with (R207, R208): the SecY configuration at commit, the SCI, the SA with
the PN it gave, its AN. -/
structure TxSec where
  cfg : Word
  sci : List Byte
  key : List Byte
  salt : List Byte
  ssci : Nat
  pn : Nat
  an : Nat
  deriving DecidableEq, Repr

/-- A committed frame (R184). -/
structure Committed where
  frm : TxFrm
  /-- Octets as they leave stage 3: data tag and insertion done. -/
  line : List Byte
  /-- Its EOF cell was held at the commit. -/
  whole : Bool
  sec : Option TxSec
  /-- ENABLE of its SecY at the commit (R212). -/
  secy : Bool
  /-- Octets the data tag added (R182). -/
  shift : Nat
  /-- Octets laid in the fragments before this one, and how many those are (R199). -/
  base : Nat
  frags : Nat
  /-- Its cells whose credits have been returned (R185). -/
  gone : Nat
  /-- T_tx (R241). -/
  ts : Stamp
  unlocked : Bool
  /-- Sent as a preemptable frame (R199), and the SMD-S number it has. -/
  preemptable : Bool
  smd : Nat
  deriving DecidableEq, Repr

/-- The gaps of a port's line (R190): octet of a 66-bit block at which the last frame ended, or the one on the line started;
the deficit carried; POWERED_NS at the end. -/
structure Gap where
  pos : Nat
  deficit : Nat
  ended : Nat
  deriving DecidableEq, Repr

/-- MAC transmit (10_mac_transmit.md). -/
structure Tx where
  /-- Waiting frames of each port, in the order of their first cells. -/
  queues : Tab (List TxFrm)
  /-- The committed frame on the line, by port. -/
  flight : Tab Committed
  /-- A preempted frame that awaits its continuation, by port (R199). -/
  open_ : Tab Committed
  /-- XOFF request of the switch core by port (R197). -/
  xoff : Tab Nat
  /-- Changed request bits not yet sent in a flow-control frame, by port. -/
  fcPend : Tab Nat
  /-- SMD-V sends without an SMD-R, by port (R198). -/
  verify : Tab Nat
  /-- SMD-R responses owed, by port (R198). -/
  smdR : Tab Nat
  /-- SMD-S number of the next preemptable frame, by port (R199). -/
  smdS : Tab Nat
  /-- Transmit credits the switch core holds, by cluster, as the number below 128 (R10). -/
  used : Tab Nat
  /-- Clusters that discard the rest of a refused frame, with its port (Table 10.2 row 1). -/
  refused : Tab Nat
  /-- The gaps, by port (R190). -/
  gaps : Tab Gap
  /-- Clusters whose TX_BUF.PEAK holds a sample taken since its last read (Table 10.5). -/
  low : List Nat
  deriving DecidableEq, Repr

/-- An installed secure association (R210, R213). -/
structure SA where
  key : List Byte
  salt : List Byte
  ssci : Nat
  nextPn : Nat
  deriving DecidableEq, Repr

/-- MACsec key stores (11_macsec.md); the key of `sas` is that of `saKey`. -/
structure Sec where
  sas : Tab SA
  /-- Clusters whose SAs were erased at a power-down (R213). -/
  lost : List Nat
  deriving DecidableEq, Repr

/-- One SHUTTER channel (13_timestamps_and_shutter.md): the values sampled at ARM, in 2^-16 ns. -/
structure Chan where
  cfg : Word
  start : Nat
  period : Nat
  width : Nat
  /-- Edges that fell due while the time island was down (R253). -/
  missed : Nat
  /-- The next leading edge. -/
  next : Option Nat
  /-- A disarm that waits for the pulse in progress (R249). -/
  disarm : Bool
  deriving DecidableEq, Repr

/-- SHUTTER channels that have been armed, by number. -/
structure Shut where
  chans : Tab Chan
  deriving DecidableEq, Repr

/-- A block read of descriptors in flight (R259): first index, and the indices at its issue. -/
structure Fetch where
  idx : Nat
  ci : Nat
  pi : Nat
  stable : Nat
  /-- Entries of it to be read again (Table 14.6). -/
  single : Bool
  deriving DecidableEq, Repr

/-- A prefetched entry (R259). -/
structure Pre where
  bytes : List Byte
  usable : Bool
  deriving DecidableEq, Repr

/-- A host frame of a transmit queue, from its last descriptor to its completion (R262, R266). -/
structure HostTx where
  /-- Index of its first descriptor and the number of descriptors. -/
  first : Nat
  count : Nat
  /-- Its first descriptor and the (address, length) of every buffer. -/
  desc : List Byte
  bufs : List (Nat × Nat)
  /-- 0 reading its buffers, 1 fetched, 2 at its port, 3 complete. -/
  phase : Nat
  /-- Octets once fetched. -/
  data : List Byte
  /-- Its completion record once complete. -/
  done : List Byte
  deriving DecidableEq, Repr

/-- A transmit or receive queue (Table 14.8 and what R257-R273 give it). -/
structure Queue where
  base : Nat
  /-- CTX_DATA_2: ENABLE, SAFELIGHT, LIFE, LOG2_SIZE, RING_SRC, FUNCTION. -/
  word2 : Word
  pi : Nat
  ci : Nat
  stable : Nat
  reason : Nat
  errIndex : Nat
  frozen : Bool
  /-- The next descriptor to take. -/
  next : Nat
  fetches : List Fetch
  pre : Tab Pre
  /-- Descriptors of the frame being collected, oldest first. -/
  chain : List (List Byte)
  frames : List HostTx
  /-- Completions held for want of room (R268). -/
  held : List (List Byte)
  deriving DecidableEq, Repr

/-- A completion ring (Table 14.8). -/
structure Ring where
  base : Nat
  word2 : Word
  wbAddr : Nat
  pi : Nat
  ci : Nat
  /-- The written-back PI (R266). -/
  wb : Nat
  deriving DecidableEq, Repr

/-- A punt or mirror copy in the receive staging buffer (R264, R269). -/
structure Staged where
  queue : Nat
  reason : Nat
  port : Nat
  data : List Byte
  side : List Byte
  deriving DecidableEq, Repr

/-- A running check-value job (R298, R299): its sampled configuration. -/
structure CvJob where
  cfg : Word
  poly : Nat
  init : Nat
  xorout : Nat
  fn : Nat
  /-- Its read requests and their channel. -/
  reads : Nat
  chan : Nat
  deriving DecidableEq, Repr

/-- The host DMA island (14_host_rings.md, 16_offloads_and_check_values.md). -/
structure Dma where
  txq : Tab Queue
  rxq : Tab Queue
  cq : Tab Ring
  staging : List Staged
  /-- The channel each function uses, where it differs from FN_CFG (R275: taken at its next reset). -/
  chan : Tab Nat
  jobs : Tab CvJob
  /-- Read requests outstanding on each host-fabric channel, at most 512, and those that wait for one to return (R17). -/
  reads : Tab Nat
  readQ : Tab (List (Nat × Nat))
  deriving DecidableEq, Repr

/-- A request at the die memory port (R400). -/
structure MemReq where
  /-- 0 archive, 1 timestamp log, 2 federation journal. -/
  user : Nat
  index : Nat
  addr : Nat
  data : List Byte
  deriving DecidableEq, Repr

/-- A record whose requests are not all answered (R247). -/
structure MemRec where
  user : Nat
  index : Nat
  left : Nat
  /-- A write of it was answered with an error or abandoned. -/
  bad : Bool
  deriving DecidableEq, Repr

/-- The memory port (23_loupe_and_memory.md). -/
structure Mem where
  /-- Records waiting for the port: their requests, in issue order (R400). -/
  queue : List (List MemReq)
  outstanding : List MemReq
  recs : List MemRec
  /-- Next index to assign, by user (64-bit; R247). -/
  next : Tab Nat
  /-- Regions whose invalidation waits for outstanding writes (R401). -/
  closing : List Nat
  deriving DecidableEq, Repr

/-- LOUPE (23_loupe_and_memory.md): sums of the running bandwidth window and the archive ring. -/
structure Loupe where
  rxSum : Tab Nat
  txSum : Tab Nat
  /-- Length in µs of the running window. -/
  window : Nat
  /-- Periods were missed before the next archive record. -/
  missed : Bool
  /-- Archive index at slot 0 of the ring and the record length it was laid out for (Table 23.4). -/
  ringBase : Nat
  recLen : Nat
  deriving DecidableEq, Repr

/-- What the repair map holds of a unit (R339): state as SLICE_HEALTH.STATE, the unit it stands in for, retirements,
and whether one had a cause other than aging (R347). -/
structure UnitMap where
  state : Nat
  standsFor : Option Nat
  retired : Nat
  hardBefore : Bool
  deriving DecidableEq, Repr

/-- A queued decision (R342): 0 planned, 1 urgent, 2 forced; the cause of ACTIVITY. -/
structure Decision where
  unit : UnitId
  kind : Nat
  cause : Nat
  /-- The OP of FORCE_REPAIR; 2 for a return of R347 too, 5 for a hand-off of TEST_START; else 0. -/
  op : Nat
  /-- A spare that FORCE_REPAIR names (0xFF none), and its SHADOW. -/
  spare : Nat
  shadow : Bool
  /-- Only the test of a retired unit is queued (R342, stall). -/
  testOnly : Bool
  /-- FORCE_REPAIR on port M waits for it. -/
  forced : Bool
  /-- The reading that decided (DETAIL of Table 19.5). -/
  detail : Nat
  deriving DecidableEq, Repr

/-- The migration under way (R343): its decision, its spare, its step: 1 preparing, 2 shadow, 3 switching, 4 testing
the retired unit, 6 testing the spare. -/
structure Migration where
  dec : Decision
  spare : Nat
  step : Nat
  /-- Spares that failed under R344. -/
  failed : List Nat
  deriving DecidableEq, Repr

/-- A journal entry held for a later hour (R350): bytes 4-27, and whether a repair-map update goes with it. -/
structure HeldEntry where
  body : List Byte
  map : Bool
  deriving DecidableEq, Repr

/-- FIXER (19_fixer_repair.md). -/
structure Fix where
  /-- The repair map, by `unitKey`; units not listed are as manufactured. States of pipes are in PIPE_STATE and the ring. -/
  map : Tab UnitMap
  /-- The map as last written to the NV store, with its L2 faults (R339). -/
  stored : Tab UnitMap
  storedL2 : List Nat
  /-- L2 faults found in the field and not yet repaired (R339, R346), and L2 repairs recorded (R356). -/
  l2Pending : List Nat
  l2Repairs : Nat
  /-- L2 repairs in the map as last written (R340). -/
  storedRows : Nat
  queue : List Decision
  mig : Option Migration
  /-- Consecutive samples at or above RO_MIGRATE and ECC_MIGRATE, by `unitKey` (Table 19.2). -/
  roRun : Tab Nat
  eccRun : Tab Nat
  /-- Last readings: slowdown, corrected errors in a second; miscompares since HOLD. By `unitKey`. -/
  slow : Tab Nat
  ecc : Tab Nat
  lockstep : Tab Nat
  /-- Units with AGING_ALARM set, by `unitKey`. -/
  alarms : List Nat
  /-- Cause of the last retirement, by `unitKey`. -/
  causes : Tab Nat
  /-- Units degraded for want of a spare (R348), by `unitKey`, with the cause. -/
  degraded : Tab Nat
  /-- Tested units whose fate is still to be decided, and whether they passed (R347). -/
  tested : List (UnitId × Bool)
  /-- Journal entries held (R350), and the number of dropped ones to report. -/
  heldJrnl : List HeldEntry
  dropReport : Nat
  /-- Hour of POWERED_NS that JOURNAL.HOUR counts. -/
  hour : Nat
  /-- SEQ of the next journal entry (R349), and the repairs journalled (REPAIRS_TOTAL). -/
  jseq : Nat
  repairs : Nat
  deriving DecidableEq, Repr

/-- A unit to test and who asked (R363): origin 0 TEST_START, 1 PIPE_TEST, 2 FIXER, 3 background. -/
structure TestJob where
  unit : UnitId
  tests : Nat
  origin : Nat
  deriving DecidableEq, Repr

/-- DARKSLIDE (20_darkslide_self_test.md). -/
structure Dark where
  /-- The unit under test. -/
  now : Option TestJob
  /-- Tests asked for and not started. -/
  wait : List TestJob
  /-- The TEST list, with SCAN and the command port (R361). -/
  list : List TestJob
  scan : Bool
  testPort : Option CmdPort
  /-- Units whose tests ended, with their outcome and reason, in list order (R362). -/
  results : List (UnitId × Nat)
  /-- Saved state of a privileged unit: the registers of its pages (R358). -/
  saved : List (Nat × Word)
  /-- Source edges collected while the interrupt controller is under test (R358). -/
  edges : List Nat
  /-- TEST_ABORT or the end of the list: warm PROOF follows (R362). -/
  ending : Bool
  deriving DecidableEq, Repr

/-- Calibration and the NV store (21_calibration.md). -/
structure Nv where
  /-- Bytes of the store that differ from the store as shipped, by address, rising (R369). -/
  cells : Tab Byte
  /-- Writes per 64-byte line beyond those made at the factory. -/
  wear : Tab Nat
  /-- An overlay write being made: the image (R372). -/
  write : Option (List Byte)
  /-- Overlay writes in the current hour of POWERED_NS (R372). -/
  hour : Nat
  hourCount : Nat
  /-- RESTORE_FACTORY under way: its port (R373). -/
  restore : Option CmdPort
  /-- Its overlay is erased and the factory values are being applied; a cluster refused the factory map (R408). -/
  restoring : Bool
  restoreBad : Bool
  /-- Factory values deferred to SAFELIGHT exit (Table 21.6). -/
  restoreDeferred : Bool
  /-- The user calibration image that cold PROOF read, none where factory values apply (R50, R52). -/
  user : Option (List Byte)
  /-- The SAFELIGHT port list in force (R57). -/
  safeList : List Nat
  /-- The start count of R383. -/
  startTag : Nat
  /-- PROOF settings in force, as the word of Table 21.4. -/
  settings : Word
  /-- Port roles in force: [0] federation, [1] management (R79). -/
  roles : Tab Nat
  deriving DecidableEq, Repr

/-- What the agent keeps of a member (R384, R385). -/
structure Member where
  body : List Byte
  lastNs : Nat
  present : Bool
  startTag : Nat
  hbSeq : Nat
  deriving DecidableEq, Repr

/-- The federation agent (22_federation.md). -/
structure Fed where
  members : Tab Member
  /-- The last (START_TAG, SAFE_EPOCH) pair recorded per sender (R388). -/
  pairs : Tab (Nat × Nat)
  /-- HB_SEQ of the next heartbeat and the 32 most recent own ones (R380, R384). -/
  hbSeq : Nat
  recent : List Nat
  epoch : Nat
  /-- In SAFELIGHT from an entry of CAUSE 1 or 2 (R388). -/
  origin : Bool
  /-- Last accepted RELAY_SEQ per sender, commands and responses (R386). -/
  relayCmd : Tab Nat
  relayResp : Tab Nat
  /-- POWERED_NS of the last conflicting heartbeat (R387). -/
  conflictNs : Option Nat
  /-- Alarms of Table 22.4 as last evaluated. -/
  versionOn : List Nat
  digestOn : List Nat
  withdrawn : Bool
  sourceLost : Bool
  /-- UNCERT has grown past TIME_BOUND since the last measurement (R390). -/
  overBound : Bool
  /-- Relayed responses handed to the management core, newest first (R386). -/
  handedUp : List (List Byte)
  /-- Frames of the agent, from the EtherType on, that wait to be placed on the federation ports. -/
  outbox : List (List Byte)
  deriving DecidableEq, Repr

/-- The whole machine. `out` is what the complex has driven at its boundary, oldest first; `freeCount` numbers free
values; `pending` is the queue of waiting commands (the model's own). -/
structure State where
  ctl : Ctl
  win : Win
  cmd : Cmd
  irq : Irq
  pwr : Pwr
  tim : Tim
  prt : Prt
  rx : Rx
  dp : Dp
  cls : Cls
  tx : Tx
  sec : Sec
  shut : Shut
  dma : Dma
  mem : Mem
  loupe : Loupe
  fix : Fix
  dark : Dark
  nv : Nv
  fed : Fed
  out : List Emit
  freeCount : Nat
  pending : List Instr
  deriving DecidableEq, Repr

/-- The machine has no fault: every command of the table has an effect in every state (NOTES.md, '## Stops'). -/
inductive Fault
  /-- Raised by nothing; it stands for a stop the spec gives nowhere. Safe. -/
  | none
  deriving DecidableEq, Repr

/-- Why a command is not run. -/
inductive Refusal
  /-- Raised by an arm of `exec` whose command has no meaning yet. Safe. -/
  | notModelled (mnemonic : String)
  deriving DecidableEq, Repr

/-- A command port with empty tables and places (R70). -/
def PortState.empty : PortState := { tags := [], exec := none, wait := none, sheet := none }

/-- PROOF_STATUS before step 1 ends (Table 3.7). -/
def Proof.start : Proof :=
  { step := 0, haltReason := 0, lbistPass := false, lbistRun := false, safeListFallback := false, userCalOk := false
    factoryCalOk := false, repairMapOk := false, bootRulesFallback := false, unitBad := false }

/-- Levels at the end of reset: power good, inputs low, nothing driven (R26). -/
def Pins.start : Pins :=
  { dieResetLow := false, corePgLow := false, vddioLow := false, strap := false, alarmIn := false, alarmRise := none
    alarmLevel := false, csLow := false, driven := false, safeActive := false, shutter := 0, timeHeld := false
    scanGate := false }

/-- The mode sequencer at the start of cold PROOF: FAULT_N is to be driven low, PL3 (R26, Table 3.7). -/
def Ctl.start : Ctl :=
  { mode := .proof, warm := false, halted := false, proof := Proof.start, deferred := 0, target := none, entry := none
    exit := none, pl := 3, sleep := .none
    safe := { entryCount := 0, shedding := false, testCut := false, fromMode := 0, cause := 0, entryNs := 0 }
    faults := { proof := true, spares := false, wdog := false, disjoint := false, retain := false, journal := false }
    pins := Pins.start, wdogSince := none, wdogExpired := false }

/-- The interrupt controller with nothing pending and reset masks and routes (R291). -/
def Irq.empty : Irq :=
  { pending := [], route := [], edgeNs := [], hwSet := [], waiting := [], unrouted := [], service := [], req := []
    wb := [] }

/-- The time engine in HOLD: stopped, UNSET (R45, R220). -/
def Tim.start : Tim :=
  { powered := 0, tod := 0, on := false, set := false, vstate := 0, e := 0, r := 0, refOk := false, measured := false
    measNs := 0, offNs := 0, ppsRef := none, ppsGood := 0, ppsPresent := false, pllLocked := false, pllFallback := false
    refIn := false, stepArmed := false, armM := false, slept := false, clamped := false, modeForced := false
    stepOnce := false, disjoint := false, setAtPps := none, acq := [], delay := [] }

/-- Lanes and ports with nothing present. -/
def Prt.empty : Prt :=
  { laneIn := [], remote := [], reconf := [], stopped := [], standIn := [], testPages := [], quarterWoken := []
    quarterMoving := []
    fell := [] }

/-- The data path with nothing in it; PROOF sets the ring (R146). -/
def Dp.empty : Dp :=
  { queues := [], seq := [], ring := List.replicate 48 none, lastPos := 47, lastCl := 63, before := none, dealt := [], overdue := []
    expect := [], held := [], opened := [], cells := [], fifo := [], shedNs := none }

/-- MAC transmit with nothing in it: every credit is with the switch core (R10). -/
def Tx.empty : Tx :=
  { queues := [], flight := [], open_ := [], xoff := [], fcPend := [], verify := [], smdR := [], smdS := [], used := []
    refused := [], gaps := [], low := [] }

/-- FIXER with the repair map `m` as written, and nothing else. -/
def Fix.start (m : Tab UnitMap) (l2 : List Nat) (rows jseq repairs : Nat) : Fix :=
  { map := m, stored := m, storedL2 := l2, l2Pending := [], l2Repairs := 0, storedRows := rows, queue := [], mig := none, roRun := []
    eccRun := [], slow := [], ecc := [], lockstep := [], alarms := [], causes := [], degraded := [], tested := []
    heldJrnl := [], dropReport := 0, hour := 0, jseq := jseq, repairs := repairs }

/-- DARKSLIDE idle. -/
def Dark.idle : Dark :=
  { now := none, wait := [], list := [], scan := false, testPort := none, results := [], saved := [], edges := []
    ending := false }

/-- The NV store with cells and wear; nothing read from it yet. -/
def Nv.start (cells : Tab Byte) (wear : Tab Nat) (tag : Nat) : Nv :=
  { cells := cells, wear := wear, write := none, hour := 0, hourCount := 0, restore := none, restoring := false
    restoreBad := false, restoreDeferred := false, user := none, safeList := [], startTag := tag, settings := 0
    roles := [] }

/-- The federation agent after HOLD. -/
def Fed.start : Fed :=
  { members := [], pairs := [], hbSeq := 0, recent := [], epoch := 0, origin := false, relayCmd := [], relayResp := []
    conflictNs := none, versionOn := [], digestOn := [], withdrawn := false, sourceLost := false, overBound := false
    handedUp := [], outbox := [] }

/-- The machine right after the reset of a part as shipped: cold PROOF begins (R45, R50), every register holds its reset
value, the spare clusters are off, no output is driven. -/
def State.reset : State :=
  { ctl := Ctl.start
    win := { regs := [], live := [], snap := [], tod := [], held := [] }
    cmd := { h := PortState.empty, s := PortState.empty, m := PortState.empty, f := PortState.empty, w := PortState.empty
             sheets := [], unstored := none, slkLast := .none, stalled := [] }
    irq := Irq.empty
    pwr := { flight := none, slot := none, since := 0, entering := false, wake := none, round := false, saved := [], off := [64, 65] }
    tim := Tim.start
    prt := Prt.empty
    rx := { merge := [], pause := [], tables := [], wakeHeld := [], credits := [] }
    dp := Dp.empty
    cls := { tern := [], exact := [], load := none, commit := none }
    tx := Tx.empty
    sec := { sas := [], lost := [] }
    shut := { chans := [] }
    dma := { txq := [], rxq := [], cq := [], staging := [], chan := [], jobs := [], reads := [], readQ := [] }
    mem := { queue := [], outstanding := [], recs := [], next := [], closing := [] }
    loupe := { rxSum := [], txSum := [], window := 1000, missed := false, ringBase := 0, recLen := 64 }
    fix := Fix.start [] [] 0 0 0
    dark := Dark.idle
    nv := Nv.start [] [] 0
    fed := Fed.start
    out := []
    freeCount := 0
    pending := [] }

end Sys2Proof.Machine
end

