-- ==== Sys2Proof/Machine/Ops.lean ====
section
/-! DEFINITION. The named operations over registers, counters, events and the interrupt controller that every
command uses (02_register_pages.md R35-R42, 15_interrupts.md R277-R289). -/

namespace Sys2Proof.Machine

/-- What a meaning answers. -/
abbrev Out := Host.Outcome State Fault Refusal

/-! ### Registers -/

/-- The stored value of the register at window offset `a`. -/
def getReg (s : State) (a : Nat) : Word := tabGet regReset s.win.regs a

/-- Store `w` in the register at window offset `a`. -/
def setReg (a : Nat) (w : Word) (s : State) : State :=
  { s with win := { s.win with regs := tabSet regReset s.win.regs a w } }

/-- Bits [hi:lo] of a register. -/
def getF (s : State) (a hi lo : Nat) : Nat := bits (getReg s a) hi lo

/-- Bit `n` of a register. -/
def getB (s : State) (a n : Nat) : Bool := bit (getReg s a) n

/-- Write bits [hi:lo] of a register. -/
def setF (a hi lo v : Nat) (s : State) : State := setReg a (putBits (getReg s a) hi lo v) s

/-- Write bit `n` of a register. -/
def setB (a n : Nat) (b : Bool) (s : State) : State := setF a n n (flag b) s

/-- Add to the saturating count in bits [hi:lo] of a register. -/
def addF (a hi lo n : Nat) (s : State) : State :=
  setF a hi lo (satAdd (2 ^ (hi + 1 - lo) - 1) (getF s a hi lo) n) s

/-- Raise the peak in bits [hi:lo] of a register. -/
def peakF (a hi lo v : Nat) (s : State) : State := if getF s a hi lo < v then setF a hi lo v s else s

/-- The value of a _LO/_HI pair of stored registers. -/
def getPair (s : State) (a : Nat) : Nat := (getReg s a).toNat + 2 ^ 32 * (getReg s (a + 4)).toNat

/-- Store a 64-bit value in a _LO/_HI pair. -/
def setPair (a v : Nat) (s : State) : State := setReg (a + 4) (word (v / 2 ^ 32)) (setReg a (word v) s)

/-- Store consecutive words from window offset `a` on. -/
def setWords : Nat → List Word → State → State
  | _, [], s => s
  | a, w :: r, s => setWords (a + 4) r (setReg a w s)

/-! ### Live counters (R102, R160): reads return what SNAP captured -/

/-- The largest value of a counter: 64 bits for a pair, else 32. -/
def liveMax (a : Nat) : Nat :=
  match rowAt a with
  | some r => if r.pair = 1 then 2 ^ 64 - 1 else 2 ^ 32 - 1
  | none => 2 ^ 32 - 1

def getLive (s : State) (a : Nat) : Nat := tabGet (fun _ => 0) s.win.live a

def setLive (a v : Nat) (s : State) : State :=
  { s with win := { s.win with live := tabSet (fun _ => 0) s.win.live a v } }

/-- Count `n` in the live counter at `a`; counters saturate. -/
def addLive (a n : Nat) (s : State) : State := setLive a (satAdd (liveMax a) (getLive s a) n) s

/-- Copy every listed live counter that `p` selects into its captured register. -/
def captureLive (p : Nat → Bool) : Tab Nat → State → State
  | [], s => s
  | (a, v) :: r, s =>
    captureLive p r (if p a then
      (if liveMax a = 2 ^ 64 - 1 then setPair a v s else setReg a (word v) s) else s)

/-- Clear live and captured values of the counters that `p` selects. -/
def clearLive (p : Nat → Bool) (s : State) : State :=
  { s with win := { s.win with
      live := tabKeep (fun a => !p a) s.win.live
      regs := tabKeep (fun a => !p a) s.win.regs } }

/-! ### Record of what is driven at the boundary, and free values -/

def emit (e : Emit) (s : State) : State := { s with out := s.out ++ [e] }

/-- Use up one number of the free-value counter. -/
def nextFree (s : State) : State := { s with freeCount := s.freeCount + 1 }

/-! ### The interrupt controller -/

/-- The source that a page drives (Table 15.1). -/
def sourceOf (page : Nat) : Option Nat :=
  let i := pageInfo page
  match i.kind with
  | .mode => some 0
  | .safety => some 1
  | .power => some 2
  | .fixer => some 3
  | .time => some 4
  | .fed => some 5
  | .nv => some 6
  | .retain => some 7
  | .darkslide => some 8
  | .cal => some 9
  | .cmd => some 10
  | .block => some 11
  | .shutter => some 12
  | .irqCtrl => some 13
  | .memport => some 14
  | .offload => some 15
  | .cv => some (16 + i.inst)
  | .spread => some 24
  | .reorder => some 25
  | .cls => some 26
  | .version => some 27
  | .flowkey => some 28
  | .dma0 => some 29
  | .loupe => some 30
  | .loupeBank => some (31 + i.inst)
  | .pipe => some (40 + i.inst)
  | .mac => some (88 + i.inst)
  | .pcs => some (88 + i.inst)
  | .sec => some (88 + i.inst)
  | .fn => some (256 + i.inst)
  | _ => none

/-- Reset route masks: T64-T67 for sources 0-511, nothing above (R290). -/
def routeReset (n : Nat) : BitVec 68 := if n < 512 then BitVec.ofNat 68 (15 * 2 ^ 64) else 0

def routeOf (s : State) (n : Nat) : BitVec 68 := tabGet routeReset s.irq.route n

/-- The mask bit of a source (Table 15.2). -/
def masked (s : State) (n : Nat) : Bool := getB s (adr pgMask (0x100 + 4 * (n / 32))) (n % 32)

def targetPrio (s : State) (t : Nat) : Nat := getF s (adr (pgTarget t) 0x088) 7 0

/-- The allowed target with the lowest TARGET_PRIO below 0xFF, the lowest number on a tie, among `ts` (R281). -/
def bestTarget (s : State) (m : BitVec 68) : List Nat → Option Nat
  | [] => none
  | t :: r =>
    if m.getLsbD t && decide (targetPrio s t < 0xFF) then
      match bestTarget s m r with
      | none => some t
      | some u => if targetPrio s u < targetPrio s t then some u else some t
    else bestTarget s m r

/-- The target that has source `n` in service. -/
def claimedBy : Tab Nat → Nat → Option Nat
  | [], _ => none
  | (t, n) :: r, m => if n = m then some t else claimedBy r m

/-- The target a source goes to now (R281, R290). -/
def targetOf (s : State) (n : Nat) : Option Nat :=
  match claimedBy s.irq.service n with
  | some t => some t
  | none => bestTarget s (routeOf s n) (List.range 68)

/-- Pending and unmasked sources, rising. -/
def offered (s : State) : List Nat := s.irq.pending.filter (fun n => !masked s n)

/-- The candidate of target `t`: the lowest-numbered offered management-class source routed to it (R282). -/
def candidate (s : State) (t : Nat) : Option Nat :=
  (offered s).find? (fun n => decide (n < 512) && targetOf s n == some t)

/-- Increment the 8-bit event count of a source (R279, R280). -/
def countSource (n : Nat) (s : State) : State :=
  addF (adr pgCount (0x800 + 4 * (n / 4))) (8 * (n % 4) + 7) (8 * (n % 4)) 1 s

/-- A hardware edge of source `n`: pending and count (R279). -/
def setPending (n : Nat) (s : State) : State :=
  let s1 := countSource n s
  { s1 with irq := { s1.irq with
      pending := setInsert s1.irq.pending n
      hwSet := setInsert s1.irq.hwSet n
      edgeNs := if s1.irq.pending.contains n then s1.irq.edgeNs else tabPut s1.irq.edgeNs n s1.tim.powered } }

/-! ### LOUPE counters (R394-R397) -/

/-- Address of CFG_c of LOUPE counter `c` of the 1,024. -/
def lpCfg (c : Nat) : Nat := adr (pgBank (c / 128)) (0x100 + 4 * (c % 128))

/-- Address of VAL_LO_c. -/
def lpVal (c : Nat) : Nat := adr (pgBank (c / 128)) (0x400 + 8 * (c % 128))

/-- The counter whose CFG word lies at window offset `a`, if one does. -/
def lpOfCfg (a : Nat) : Option Nat :=
  let p := pageOf a
  let o := offOf a
  if 0x0A1 ≤ p ∧ p < 0x0A9 ∧ 0x100 ≤ o ∧ o < 0x300 then some ((p - 0x0A1) * 128 + (o - 0x100) / 4) else none

/-- Does counter `c` count the carries of counter `c - 1` (R395)? -/
def lpCarried (s : State) (c : Nat) : Bool := decide (0 < c) && getB s (lpCfg (c - 1)) 30

/-- Add to counter `c`, with the carry into chained counters; the banks whose event 0 is latched (R395). -/
def lpAdd : Nat → Nat → Nat → State → State × List Nat
  | 0, _, _, s => (s, [])
  | fuel + 1, c, n, s =>
    if getB s (lpCfg c) 31 = false then (s, [])
    else
      let v := getPair s (lpVal c) + n
      let s1 := setPair (lpVal c) (v % 2 ^ 48) s
      if v < 2 ^ 48 then (s1, [])
      else if getB s (lpCfg c) 30 = true ∧ c ≠ 1023 then lpAdd fuel (c + 1) (v / 2 ^ 48) s1
      else (setB (adr (pgBank (c / 128)) (0x080 + 4 * (c % 128 / 32))) (c % 32) true s1, [c / 128])

/-- Counters among the listed registers that count this signal of this kind (Table 23.1). -/
def lpMatch (s : State) (level : Bool) (unit inst sig : Nat) : Tab Word → List Nat
  | [] => []
  | (a, w) :: r =>
    match lpOfCfg a with
    | none => lpMatch s level unit inst sig r
    | some c =>
      if bit w 31 && (bit w 29 == level) && bits w 27 24 == unit && bits w 21 12 == inst && bits w 5 0 == sig
          && !lpCarried s c then
        c :: lpMatch s level unit inst sig r
      else lpMatch s level unit inst sig r

/-- Add to a list of counters. -/
def lpAddAll (n : Nat) : List Nat → State → State × List Nat
  | [], s => (s, [])
  | c :: r, s =>
    match lpAdd 1024 c n s with
    | (s1, b1) =>
      match lpAddAll n r s1 with
      | (s2, b2) => (s2, b1 ++ b2)

/-- Set the latch bit of event `n` and count it in EVT_CNT; the edge of R39 goes to `onEdge`. -/
def latchBit (onEdge : Nat → State → State) (page n : Nat) (s : State) : State :=
  let l := getReg s (adr page 0x24)
  let m := getReg s (adr page 0x30)
  let l' := putBit l n true
  let s1 := setReg (adr page 0x24) l' s
  let s2 := if getF s1 (adr page 0x3C) 4 0 = n then addF (adr page 0x40) 31 0 1 s1 else s1
  if l &&& ~~~m = 0 ∧ l' &&& ~~~m ≠ 0 then
    match sourceOf page with
    | some k => onEdge k s2
    | none => s2
  else s2

/-- Latch event 0 of a list of LOUPE banks, whose own events LOUPE may count (R37, R395). -/
def latchBanks (onEdge : Nat → State → State) : Nat → List Nat → State → State
  | 0, _, s => s
  | _ + 1, [], s => s
  | fuel + 1, b :: r, s =>
    let s1 := latchBit onEdge (pgBank b) 0 s
    match lpAddAll 1 (lpMatch s1 false 0 (pgBank b) 0 s1.win.regs) s1 with
    | (s2, more) => latchBanks onEdge fuel (r ++ more) s2

/-- Latch event `n` of `page` and count it, in LOUPE too (R37, R394). -/
def latchWith (onEdge : Nat → State → State) (page n : Nat) (s : State) : State :=
  let s1 := latchBit onEdge page n s
  match lpAddAll 1 (lpMatch s1 false 0 page n s1.win.regs) s1 with
  | (s2, banks) => latchBanks onEdge 64 banks s2

/-- Event of the interrupt controller's own page: its source 13 becomes pending and is served in the same settling. -/
def irqOwnEvent (n : Nat) (s : State) : State := latchWith setPending pgIrq n s

/-- An occurrence inside the interrupt controller; the edge of an overflow is served in the same settling. -/
def loupePlain (unit inst sig n : Nat) (s : State) : State :=
  match lpAddAll n (lpMatch s false unit inst sig s.win.regs) s with
  | (s1, banks) => latchBanks setPending 64 banks s1

/-- The posted 4-byte write of a host target's notification (R286). -/
def notify (t dataOff enBit : Nat) (s : State) : State :=
  if t < 64 ∧ getB s (adr (pgTarget t) 0x0A0) enBit = true then
    loupePlain 6 t 0 1 (addF (adr (pgTarget t) 0x0D4) 15 0 1
      (emit (.fabricWrite (getF s (adr (pgTarget t) 0x0A4) 24 24) (getPair s (adr (pgTarget t) 0x090))
        (leBytes (getReg s (adr (pgTarget t) dataOff)).toNat 4)) s))
  else s

/-- k of an event queue: 6-16, other values act as 6 (Table 15.6). -/
def eqLog2 (s : State) (t : Nat) : Nat :=
  let k := getF s (adr (pgTarget t) 0x0A4) 20 16
  if 6 ≤ k ∧ k ≤ 16 then k else 6

/-- d(a, b): how far index `b` lies ahead of `a` on a ring of 2^k entries (R256). -/
def ringDist (k a b : Nat) : Nat := (b + 2 ^ (k + 1) - a % 2 ^ (k + 1)) % 2 ^ (k + 1)

def eqPi (s : State) (t : Nat) : Nat := getF s (adr (pgTarget t) 0x0B8) 16 0
def eqCi (s : State) (t : Nat) : Nat := getF s (adr (pgTarget t) 0x0BC) 16 0

/-- Is the event queue of `t` enabled and not full (R287, R288)? -/
def eqRoom (s : State) (t : Nat) : Bool :=
  getB s (adr (pgTarget t) 0x0A4) 31 && decide (ringDist (eqLog2 s t) (eqCi s t) (eqPi s t) < 2 ^ eqLog2 s t)

/-- The 16-byte event record of source `n` for target `t` (Table 15.5). -/
def eventRecord (s : State) (n t : Nat) : List Byte :=
  leBytes n 2
    ++ leBytes (getF s (adr pgCount (0x800 + 4 * (n / 4))) (8 * (n % 4) + 7) (8 * (n % 4))) 1
    ++ leBytes (flag (!s.irq.hwSet.contains n) + 2 * flag (s.irq.waiting.contains n)) 1
    ++ leBytes t 1 ++ leBytes 0 3
    ++ leBytes (tabGet (fun _ => 0) s.irq.edgeNs n) 8

/-- Write source `n`'s record into the queue of `t` and clear its pending bit and count (R287). -/
def writeRecord (n t : Nat) (s : State) : State :=
  let k := eqLog2 s t
  let i := eqPi s t
  let s1 := emit (.fabricWrite (getF s (adr (pgTarget t) 0x0A4) 24 24)
    (getPair s (adr (pgTarget t) 0x0A8) + 16 * (i % 2 ^ k)) (eventRecord s n t)) s
  let s2 := setF (adr (pgTarget t) 0x0B8) 16 0 ((i + 1) % 2 ^ (k + 1)) s1
  let s3 := setF (adr pgCount (0x800 + 4 * (n / 4))) (8 * (n % 4) + 7) (8 * (n % 4)) 0 s2
  { s3 with irq := { s3.irq with
      pending := setErase s3.irq.pending n
      waiting := setErase s3.irq.waiting n
      hwSet := setErase s3.irq.hwSet n
      edgeNs := tabErase s3.irq.edgeNs n } }

/-- Source `n` waits for room: counted once for the wait (R287). -/
def waitRecord (n t : Nat) (s : State) : State :=
  if s.irq.waiting.contains n then s
  else
    let s1 := addF (adr (pgTarget t) 0x0CC) 15 0 1 s
    irqOwnEvent 0 { s1 with irq := { s1.irq with waiting := setInsert s1.irq.waiting n } }

/-- Serve the offered data-class sources in rising order (R287). -/
def serveData : List Nat → State → State
  | [], s => s
  | n :: r, s =>
    if n < 512 then serveData r s
    else
      match targetOf s n with
      | none => serveData r s
      | some t => serveData r (if eqRoom s t then writeRecord n t s else waitRecord n t s)

/-- Write back EQ_PI where it moved, with the notification of R288. -/
def writeBacks : List Nat → State → State
  | [], s => s
  | t :: r, s =>
    let old := tabGet (fun _ => 0) s.irq.wb t
    if eqPi s t = old then writeBacks r s
    else
      let s1 := emit (.fabricWrite (getF s (adr (pgTarget t) 0x0A4) 24 24) (getPair s (adr (pgTarget t) 0x0B0))
        (leBytes (eqPi s t) 4)) s
      let s2 := { s1 with irq := { s1.irq with wb := tabSet (fun _ => 0) s1.irq.wb t (eqPi s t) } }
      writeBacks r (if old = eqCi s t then notify t 0x09C 1 s2 else s2)

/-- Targets that a list of offered management sources goes to, without repeats. -/
def requestTargets (s : State) : List Nat → List Nat
  | [] => []
  | n :: r =>
    if n < 512 then
      match targetOf s n with
      | some t => setInsert (requestTargets s r) t
      | none => requestTargets s r
    else requestTargets s r

/-- Targets that a list of offered data-class sources goes to, without repeats. -/
def dataTargets (s : State) : List Nat → List Nat
  | [] => []
  | n :: r =>
    if n < 512 then dataTargets s r
    else
      match targetOf s n with
      | some t => setInsert (dataTargets s r) t
      | none => dataTargets s r

/-- Send the management message of every target whose request rises (R286). -/
def notifyRises (old : List Nat) : List Nat → State → State
  | [], s => s
  | t :: r, s => notifyRises old r (if old.contains t then s else notify t 0x098 0 s)

/-- One evaluation of routing, requests and records after a change (R281-R288). -/
def irqPass (s : State) : State :=
  let lost := (offered s).filter (fun n => (targetOf s n).isNone)
  let s1 := { s with irq := { s.irq with unrouted := lost } }
  let s2 := if s.irq.unrouted.isEmpty && !lost.isEmpty then irqOwnEvent 2 s1 else s1
  let req := (requestTargets s2 (offered s2)).filter (fun t => (tabFind s2.irq.service t).isNone)
  let s3 := notifyRises s2.irq.req req { s2 with irq := { s2.irq with req := req } }
  let s4 := serveData (offered s3) s3
  writeBacks (dataTargets s3 (offered s3)) s4

/-- Routing settles: the second evaluation serves the controller's own events (R281, R287). In STILL an edge only wakes the
complex, and what it asks for is served at the end of the wake (R286, R293). -/
def irqSettle (s : State) : State :=
  if decide (s.ctl.mode = .still) || s.irq.pending.isEmpty && s.irq.req.isEmpty && s.irq.unrouted.isEmpty then s else irqPass (irqPass s)

/-! ### Wake (R327) -/

/-- Does a wake source give way to the wake on record? The lowest code, and within it the lowest location, of the sources
of one always-on cycle of 20 ns is recorded, and those that wait for the end of an entry come together (R30, R327). -/
def wakeStands (s : State) (code loc : Nat) : Bool :=
  match s.pwr.wake with
  | none => false
  | some (c, l) =>
    decide (c < code ∨ (c = code ∧ l ≤ loc))
      || (decide (s.ctl.mode = .still) && decide (getPair s (adr pgPower 0x098) / 20 ≠ s.tim.powered / 20))

/-- Record a wake: at once in STILL, after the entry while one is in flight (R30). A later source changes nothing. -/
def noteWake (code loc : Nat) (s : State) : State :=
  if wakeStands s code loc then s
  else if s.ctl.mode = .still then
    setPair (adr pgPower 0x098) s.tim.powered
      (setF (adr pgPower 0x094) 15 0 (code + 256 * loc)
        { s with pwr := { s.pwr with wake := some (code, loc) }, ctl := { s.ctl with target := some .run } })
  else if s.pwr.entering then { s with pwr := { s.pwr with wake := some (code, loc) } }
  else s

/-- Is the interrupt controller under test (R358)? -/
def irqUnderTest (s : State) : Bool :=
  match s.dark.now with
  | some j => j.unit.type == 3 && j.unit.unit == 1
  | none => false

/-- A hardware edge of an interrupt source (R279, R293); collected while the controller is under test (R358). -/
def irqEdge (n : Nat) (s : State) : State :=
  if irqUnderTest s then { s with dark := { s.dark with edges := s.dark.edges ++ [n] } }
  else
    let s1 := setPending n s
    let loc := if masked s1 n then 0xFF else (targetOf s1 n).getD 0xFF
    irqSettle (noteWake 7 loc s1)

/-- A hardware set of event `n` of `page` (R37, R39). -/
def hwEvent (page n : Nat) (s : State) : State := latchWith irqEdge page n s

/-- An occurrence of an event signal of Table 23.1. -/
def loupe (unit inst sig n : Nat) (s : State) : State :=
  match lpAddAll n (lpMatch s false unit inst sig s.win.regs) s with
  | (s1, banks) => latchBanks irqEdge 64 banks s1

/-! ### Page event registers written by software (R37-R39) -/

/-- Write 1s to EVT_SET: latch bits are set and not counted (R37). -/
def evtSet (page : Nat) (v : Word) (s : State) : State :=
  let l := getReg s (adr page 0x24)
  let m := getReg s (adr page 0x30)
  let v' := v &&& word (2 ^ evtCount (pageInfo page).kind - 1)
  let s1 := setReg (adr page 0x24) (l ||| v') s
  if l &&& ~~~m = 0 ∧ (l ||| v') &&& ~~~m ≠ 0 then
    match sourceOf page with
    | some k => irqEdge k s1
    | none => s1
  else s1

/-- Write 1s to EVT_CLR. -/
def evtClr (page : Nat) (v : Word) (s : State) : State :=
  setReg (adr page 0x24) (getReg s (adr page 0x24) &&& ~~~v) s

/-- Write 1s to EVT_MASK_SET. -/
def evtMaskSet (page : Nat) (v : Word) (s : State) : State :=
  setReg (adr page 0x30)
    (getReg s (adr page 0x30) ||| (v &&& word (2 ^ evtCount (pageInfo page).kind - 1))) s

/-- Write 1s to EVT_MASK_CLR: a latched bit that becomes visible raises the page's edge (R39). -/
def evtMaskClr (page : Nat) (v : Word) (s : State) : State :=
  let l := getReg s (adr page 0x24)
  let m := getReg s (adr page 0x30)
  let s1 := setReg (adr page 0x30) (m &&& ~~~v) s
  if l &&& ~~~m = 0 ∧ l &&& ~~~(m &&& ~~~v) ≠ 0 then
    match sourceOf page with
    | some k => irqEdge k s1
    | none => s1
  else s1

/-- Any write to EVT_CNT_SEL selects the counted event and clears EVT_CNT (Table 2.2). -/
def evtCntSel (page : Nat) (v : Word) (s : State) : State :=
  setReg (adr page 0x40) 0 (setReg (adr page 0x3C) (v &&& 31) s)

/-- Time of day in 2^-16 ns. -/
def now16 (s : State) : Nat := s.tim.tod / 2 ^ 32

/-! ### Ports and pages of ports -/

/-- Page offsets of a port's registers on its home cluster's pages. -/
def macA (p off : Nat) : Nat := adr (pgCl (p / 8) 0) off
def pcsA (p off : Nat) : Nat := adr (pgCl (p / 8) 1) off
def secA (p off : Nat) : Nat := adr (pgCl (p / 8) 2) off
def statA (p off : Nat) : Nat := adr (pgCl (p / 8) 3) off

/-- The per-slot counter blocks of Tables 5.7, 6.6, 10.6 and 11.4. -/
def pcsCnt (p off : Nat) : Nat := pcsA p (0x100 + 0x80 * (p % 8) + off)
def rxCnt (p off : Nat) : Nat := statA p (0x100 + 0x100 * (p % 8) + off)
def txCnt (p off : Nat) : Nat := statA p (0x900 + 0xE0 * (p % 8) + off)
def secCnt (p off : Nat) : Nat := secA p (0xA00 + 0x60 * (p % 8) + off)

end Sys2Proof.Machine
end

