-- ==== Sys2Proof/Machine/CmdPorts.lean ====
section
/-! DEFINITION. The five command ports: permissions, tags, results and the checks 1 to 6 of Table 4.4
(04_command_ports.md R64-R73, 03_operating_modes.md R62). -/

namespace Sys2Proof.Machine

/-- Result codes (Table 4.4). -/
def rOk : Byte := 0x00
def rStateReject : Byte := 0x01
def rNotPermitted : Byte := 0x02
def rBadCommand : Byte := 0x03
def rBadArgs : Byte := 0x04
def rBusy : Byte := 0x05
def rTagConflict : Byte := 0x06
def rInProgress : Byte := 0x07
def rAlarmHeld : Byte := 0x08
def rPageDenied : Byte := 0x09
def rPolicyOff : Byte := 0x0A
def rFailed : Byte := 0x0B

/-- Command codes (Table 4.2). -/
def cSheet : BitVec 16 := 0x0001
def cRegRead : BitVec 16 := 0x0002
def cRegWrite : BitVec 16 := 0x0003
def cSetLevel : BitVec 16 := 0x0010
def cSleep : BitVec 16 := 0x0011
def cSafeEnter : BitVec 16 := 0x0020
def cSafeExit : BitVec 16 := 0x0021
def cTestStart : BitVec 16 := 0x0030
def cTestAbort : BitVec 16 := 0x0031
def cStepArm : BitVec 16 := 0x0040
def cForceRepair : BitVec 16 := 0x0050
def cRestore : BitVec 16 := 0x0060
def cLoad : BitVec 16 := 0x0070
def cCommit : BitVec 16 := 0x0071

/-- The ports that Table 4.2 permits a command; none for an unknown code. RESTORE_FACTORY on H follows R67. -/
def permitted (strap : Bool) (c : BitVec 16) : Option (List CmdPort) :=
  if c = cSheet then some [.H, .S, .M, .F, .W]
  else if c = cRegRead then some [.H, .S, .M, .F, .W]
  else if c = cRegWrite then some [.H, .S, .M, .F, .W]
  else if c = cSetLevel then some [.H, .S, .M, .W]
  else if c = cSleep then some [.H, .S]
  else if c = cSafeEnter then some [.M, .F]
  else if c = cSafeExit then some [.M]
  else if c = cTestStart then some [.H, .S, .M]
  else if c = cTestAbort then some [.H, .S, .M]
  else if c = cStepArm then some [.M]
  else if c = cForceRepair then some [.M]
  else if c = cRestore then some (if strap then [.H, .M] else [.M])
  else if c = cLoad then some [.H, .S]
  else if c = cCommit then some [.H, .S, .F]
  else none

/-- The state of a command port. -/
def portOf (s : State) : CmdPort → PortState
  | .H => s.cmd.h
  | .S => s.cmd.s
  | .M => s.cmd.m
  | .F => s.cmd.f
  | .W => s.cmd.w

def setPort (p : CmdPort) (x : PortState) (s : State) : State :=
  match p with
  | .H => { s with cmd := { s.cmd with h := x } }
  | .S => { s with cmd := { s.cmd with s := x } }
  | .M => { s with cmd := { s.cmd with m := x } }
  | .F => { s with cmd := { s.cmd with f := x } }
  | .W => { s with cmd := { s.cmd with w := x } }

/-- The response header and data of Table 4.3. -/
def respBytes (r : Resp) : List Byte :=
  leBytes r.code.toNat 2 ++ leBytes r.seq.toNat 2 ++ leBytes r.data.length 2 ++ [r.result]
    ++ leBytes (flag r.dup) 1 ++ r.data

/-- The latest sheet request of port H is answered (R73, Table 4.5). -/
def answerSheetH (r : Resp) (record : Option (List Byte)) (s : State) : State :=
  let a := adr pgCmd 0x09C
  if getF s a 15 0 = r.seq.toNat then
    let s1 := setReg a (word (r.seq.toNat + 2 ^ 16 + flag r.dup * 2 ^ 17 + flag record.isNone * 2 ^ 18
      + r.result.toNat * 2 ^ 19)) s
    let s2 := match record with
      | some d => setWords (adr pgCmd 0x400) (wordsOf d 0 256) s1
      | none => s1
    hwEvent pgCmd 1 s2
  else s

/-- The mailbox of port H takes a result (R73, Table 4.5). -/
def answerMailbox (r : Resp) (s : State) : State :=
  let a := adr pgCmd 0x08C
  let d := r.data.take 64
  hwEvent pgCmd 0
    (setWords (adr pgCmd 0x200) (wordsOf d 0 16)
      (setReg (adr pgCmd 0x094) (word d.length)
        (setReg (adr pgCmd 0x090) (word (r.code.toNat + 2 ^ 16 * r.seq.toNat))
          (setReg a (word (2 + 2 ^ 8 * r.result.toNat + 2 ^ 17 * flag r.dup
            + 2 ^ 18 * flag (getB s a 18))) s))))

/-- SOURCE_MEMBER of a response: the own member number on port F, 0xFFFF on port W (R78). -/
def ownMember (s : State) (p : CmdPort) : Nat :=
  match p with
  | .F => getF s (adr pgFed 0x080) 9 0
  | _ => 0xFFFF

/-- A relayed response from the EtherType on: responder, RELAY_SEQ, MAX_HOPS, target, response (R386). -/
def relayedResponse (s : State) (relaySeq target : Nat) (r : List Byte) : List Byte :=
  beBytes (getF s (adr pgFed 0x080) 31 16) 2 ++ [0x06, 0x00] ++ beBytes (ownMember s .F) 2 ++ beBytes relaySeq 2
    ++ beBytes (max 1 (getF s (adr pgFed 0x080) 15 10)) 1 ++ [0x00] ++ beBytes target 2 ++ r

/-- Return a result on the port the command arrived on (R68, R73, R78). On port M it is polled (R74). -/
def deliver (q : Req) (r : Resp) (record : Option (List Byte)) (s : State) : State :=
  match q.port with
  | .H =>
    let s1 := if q.code = cSheet then answerSheetH r record s else s
    if q.sheetReq then s1 else answerMailbox r s1
  | .S => emit (.response .S 0 0 (respBytes r)) s
  | .M => s
  | .F =>
    match q.relayed with
    | none => emit (.response .F q.ingress q.source ([0x03, 0x00] ++ beBytes (ownMember s .F) 2 ++ respBytes r)) s
    | some n =>
      { s with fed := { s.fed with outbox := s.fed.outbox ++ [relayedResponse s n q.source (respBytes r)] } }
  | .W => emit (.response .W q.ingress q.source ([0x03, 0x00] ++ beBytes (ownMember s .W) 2 ++ respBytes r)) s

/-- A result that is not stored: it stopped at step 2 to 5 (R69). Port M keeps its most recent one (R74). -/
def refuse (q : Req) (code : Byte) (dup : Bool) (s : State) : State :=
  let r : Resp := { code := q.code, seq := q.seq, result := code, dup := dup, data := [] }
  deliver q r none (if q.port = .M then { s with cmd := { s.cmd with unstored := some r } } else s)

/-- Enter the result of a tag (R70). -/
def storeResult (seq : BitVec 16) (res : Byte) (data : List Byte) : List TagEntry → List TagEntry
  | [] => []
  | t :: r =>
    if t.seq = seq then { t with done := some (res, data.take 64) } :: r else t :: storeResult seq res data r

/-- A command of a port completes: its result is stored, its place is free, its result is returned (R69-R71). -/
def finishReq (q : Req) (res : Byte) (data : List Byte) (s : State) : State :=
  let x := portOf s q.port
  deliver q { code := q.code, seq := q.seq, result := res, dup := false, data := data } none
    (setPort q.port { x with tags := storeResult q.seq res data x.tags, exec := none } s)

/-- The command in the executing place of a port completes. -/
def finishCmd (p : CmdPort) (res : Byte) (data : List Byte) (s : State) : State :=
  match (portOf s p).exec with
  | some run => finishReq run.req res data s
  | none => s

/-- Is the command executing on port `p`, past step 6, one of code `c`? -/
def executing (s : State) (p : CmdPort) (c : BitVec 16) : Bool :=
  match (portOf s p).exec with
  | some run => run.started && run.req.code == c
  | none => false

/-- The first tag entry of a tag. -/
def findTag (seq : BitVec 16) : List TagEntry → Option TagEntry
  | [] => none
  | t :: r => if t.seq = seq then some t else findTag seq r

/-- Note on a completed tag that a duplicate came (R70, Table 4.8). -/
def markDup (seq : BitVec 16) : List TagEntry → List TagEntry
  | [] => []
  | t :: r => if t.seq = seq then { t with dup := true } :: r else t :: markDup seq r

/-- Enter a new tag: the 16 most recent are kept (R70). -/
def enterTag (q : Req) (tags : List TagEntry) : List TagEntry :=
  ({ seq := q.seq, code := q.code, done := none, dup := false } : TagEntry) :: tags.take 15

/-- Step 4: the tag is known (R70). -/
def answerDup (q : Req) (t : TagEntry) (s : State) : State :=
  let x := portOf s q.port
  let again := decide (t.code = q.code) && t.done.isSome
  let s1 := addF (adr pgCmd (0x0B8 + 4 * portCode q.port)) 15 0 1
    (setPort q.port { x with tags := if again then markDup q.seq x.tags else x.tags } s)
  if t.code = q.code then
    match t.done with
    | some (res, data) =>
      if q.code = cSheet ∧ res = rOk then
        match x.sheet with
        | some (tag, body) =>
          if tag = q.seq then
            let d := if q.port = .H then body.take 64 else body
            deliver q { code := q.code, seq := q.seq, result := res, dup := true, data := d } (some body) s1
          else deliver q { code := q.code, seq := q.seq, result := rOk, dup := true, data := [] } none s1
        | none => deliver q { code := q.code, seq := q.seq, result := rOk, dup := true, data := [] } none s1
      else deliver q { code := q.code, seq := q.seq, result := res, dup := true, data := data } none s1
    | none => refuse q rInProgress true s1
  else refuse q rTagConflict false s1

/-- Step 5: a place on the port (R71). -/
def place (q : Req) (s : State) : State :=
  let x := portOf s q.port
  if q.code = cSheet then
    let s1 := setPort q.port { x with tags := enterTag q x.tags } s
    { s1 with cmd := { s1.cmd with sheets := s1.cmd.sheets ++ [q] } }
  else
    match x.exec, x.wait with
    | none, none =>
      setPort q.port { x with tags := enterTag q x.tags, exec := some { req := q, started := false } } s
    | some _, none =>
      if q.port = .H then refuse q rBusy false s
      else setPort q.port { x with tags := enterTag q x.tags, wait := some q } s
    | _, some _ => refuse q rBusy false (if q.port = .M then hwEvent pgSafety 3 s else s)

/-- Are the command ports served? Not in HOLD, not before the end of PROOF step 3, not in a PROOF halted with
reason 2 or 3 (R45, R51, R411). -/
def portsServed (s : State) : Bool :=
  match s.ctl.mode with
  | .hold => false
  | .proof => decide (3 ≤ s.ctl.proof.step) && (!s.ctl.halted || s.ctl.proof.haltReason == 1)
  | _ => true

/-- Steps 2 to 5 of Table 4.4 for a command whose transport is good; a command in HOLD is lost (R62). -/
def submit (q : Req) (s : State) : State :=
  if portsServed s then
    match permitted (getB s (adr pgCmd 0x0A0) 0) q.code with
    | none => refuse q rBadCommand false s
    | some ports =>
      if ports.contains q.port then
        match findTag q.seq (portOf s q.port).tags with
        | some t => answerDup q t s
        | none => place q s
      else
        refuse q rNotPermitted false
          (hwEvent pgCmd 2 (addF (adr pgCmd (0x0A4 + 4 * portCode q.port)) 15 0 1 s))
  else s

/-- Codes of MODE_STATE.MODE (Table 3.7); HOLD answers no read and has none. -/
def modeCode : Mode → Nat
  | .hold => 0
  | .proof => 1
  | .run => 2
  | .safelight => 3
  | .still => 4
  | .test => 5

/-- A refusal by mode: counted, latched in LAST_REJECT, event 3 of PG_MODE (R62, R63). -/
def rejectByMode (p : CmdPort) (code : Nat) (s : State) : State :=
  hwEvent pgMode 3
    (addF (adr pgMode (0x098 + 4 * portCode p)) 15 0 1
      (setReg (adr pgMode 0x094)
        (word (2 ^ 31 + portCode p * 2 ^ 24 + modeCode s.ctl.mode * 2 ^ 16 + code)) s))

/-- Verdicts of Table 3.6. -/
inductive ModeVerdict
  | accept | reject | wake
  deriving DecidableEq, Repr

/-- Table 3.6 for every command but REG_READ and REG_WRITE, whose words decide. -/
def modeVerdict (halted : Bool) (m : Mode) (c : BitVec 16) : ModeVerdict :=
  if c = cSheet then (if m = .still then .wake else .accept)
  else if c = cSetLevel then (match m with | .run => .accept | .still => .wake | _ => .reject)
  else if c = cSleep then (match m with | .run => .accept | _ => .reject)
  else if c = cSafeEnter then (match m with | .proof => if halted then .reject else .accept | _ => .accept)
  else if c = cSafeExit then (match m with | .safelight => .accept | _ => .reject)
  else if c = cTestStart then (match m with | .run => .accept | .still => .wake | _ => .reject)
  else if c = cTestAbort then (match m with | .test => .accept | _ => .reject)
  else if c = cStepArm then
    (match m with | .run => .accept | .safelight => .accept | .still => .wake | .test => .accept | _ => .reject)
  else if c = cForceRepair then
    (match m with | .run => .accept | .safelight => .accept | .still => .wake | _ => .reject)
  else if c = cRestore then
    (match m with | .proof => .accept | .run => .accept | .still => .wake | _ => .reject)
  else (match m with | .run => .accept | .still => .wake | .test => .accept | _ => .reject)

end Sys2Proof.Machine
end

