-- ==== Sys2Proof/Machine/Ports.lean ====
section
/-! DEFINITION. Port shapes, the live map, cluster capacity and the lock conditions (05_lanes_ports_fec.md R84-R104). -/

namespace Sys2Proof.Machine

/-- A decoded PORT_CFG or PORT_LIVE word (Table 5.2). -/
structure Shape where
  head : Bool
  enable : Bool
  width : Nat
  speed : Nat
  fec : Nat
  deriving DecidableEq, Repr

/-- Fields of a PORT_CFG word; the width in lanes. -/
def shapeOf (w : Word) : Shape :=
  { head := bit w 15, enable := bit w 14, width := 2 ^ bits w 13 12, speed := bits w 11 8, fec := bits w 7 6 }

def cfgShape (s : State) (cl i : Nat) : Shape := shapeOf (getReg s (adr (pgCl cl 1) (0x080 + 4 * i)))
def liveShape (s : State) (cl i : Nat) : Shape := shapeOf (getReg s (adr (pgCl cl 1) (0x0E0 + 4 * i)))

/-- Port speeds in Gb/s by code (Table 5.2). -/
def speedGb : Nat → Nat
  | 0 => 10
  | 1 => 25
  | 2 => 50
  | 3 => 100
  | 4 => 200
  | 5 => 400
  | 6 => 800
  | 7 => 1600
  | _ => 0

/-- The live shape of a port, if an enabled port starts at its slot. -/
def portShape (s : State) (p : Nat) : Option Shape :=
  let x := liveShape s (p / 8) (p % 8)
  if x.head && x.enable then some x else none

/-- Ports of 400G or below may use MAC merge (R117, R198). -/
def mergeSpeed (s : State) (p : Nat) : Bool :=
  match portShape s p with
  | some x => decide (x.speed ≤ 5)
  | none => false

/-- Home clusters that hold a port of the SAFELIGHT list in force. -/
def safeClusters (s : State) : List Nat := (List.range 64).filter (fun n => s.nv.safeList.any (fun p => p / 8 == n))

/-- A row of Table 5.1. -/
def combinationOk (x : Shape) : Bool :=
  match x.speed with
  | 0 => x.width == 1 && (x.fec == 0 || x.fec == 1)
  | 1 => x.width == 1 && (x.fec == 0 || x.fec == 1 || x.fec == 2)
  | 2 => x.width == 1 && x.fec == 3
  | 3 => (x.width == 1 && x.fec == 3) || (x.width == 2 && x.fec == 3) || (x.width == 4 && x.fec == 2)
  | 4 => (x.width == 1 || x.width == 2 || x.width == 4) && x.fec == 3
  | 5 => (x.width == 2 || x.width == 4 || x.width == 8) && x.fec == 3
  | 6 => (x.width == 4 || x.width == 8) && x.fec == 3
  | 7 => x.width == 8 && x.fec == 3
  | _ => false

/-- Expanded load of one enabled port in units of 1/514 Gb/s (R87). -/
def load514 (x : Shape) : Nat :=
  if x.head && x.enable then
    speedGb x.speed * (if x.fec = 3 then 544 else if x.fec = 2 then 528 else 514)
  else 0

def sumLoad : List Shape → Nat
  | [] => 0
  | x :: r => load514 x + sumLoad r

/-- Cluster capacity in Gb/s (Table 5.4). -/
def capGb : Nat → Nat
  | 0 => 2240
  | 1 => 1792
  | 2 => 1280
  | _ => 640

/-- Largest port of a level, as a speed code (Table 5.4). -/
def largestPort : Nat → Nat
  | 0 => 7
  | 1 => 7
  | 2 => 6
  | _ => 5

/-- The eight live shapes of a cluster. -/
def liveMap (s : State) (cl : Nat) : List Shape := (List.range 8).map (liveShape s cl)

/-- The words a reconfiguration leads to: those sampled at the GO in its lanes, PORT_LIVE elsewhere (R89). -/
def resultWords (s : State) (cl mask : Nat) (w : List Word) : List Word :=
  (List.range 8).map (fun i => if mask.testBit i then w.getD i 0 else getReg s (adr (pgCl cl 1) (0x0E0 + 4 * i)))

/-- The map of a cluster, or the one a passed reconfiguration is about to put in force (R90). -/
def comingMap (s : State) (cl : Nat) : List Shape :=
  match tabFind s.prt.reconf cl with
  | some r => if r.restarted then liveMap s cl else (resultWords s cl r.mask r.words).map shapeOf
  | none => liveMap s cl

/-- A map meets a level: its expanded load and every enabled port fit (R87). -/
def mapMeets (m : List Shape) (pl : Nat) : Bool :=
  decide (sumLoad m ≤ capGb pl * 514) &&
    m.all (fun x => !(x.head && x.enable) || decide (x.speed ≤ largestPort pl))

/-- CAP.FIT_LEVEL: the highest-numbered level the map meets; a map that meets none reads 0. -/
def fitLevel (m : List Shape) : Nat :=
  if mapMeets m 3 then 3 else if mapMeets m 2 then 2 else if mapMeets m 1 then 1 else 0

/-- CAP.LOAD in units of 0.1 Gb/s, to the nearest unit (log entry 12). -/
def capLoad (m : List Shape) : Nat := (sumLoad m * 10 + 257) / 514

/-- Is island `i` of Table 17.1 powered? -/
def islandOn (s : State) (i : Nat) : Bool := !s.pwr.off.contains i

/-- The cluster whose engines serve home cluster `n` (R98). -/
def serving (s : State) (n : Nat) : Nat :=
  match s.prt.standIn.find? (fun x => x.2 == n) with
  | some x => x.1
  | none => n

/-- The home cluster whose pages cluster `cl` answers for while it stands in (R101). -/
def home (s : State) (cl : Nat) : Nat := (tabFind s.prt.standIn cl).getD cl

/-- The live map of every home cluster whose engines, its own or a stand-in's, are powered meets the level (R88, R90, R98). -/
def mapsMeet (s : State) (pl : Nat) : Bool :=
  (List.range 64).all (fun n => !islandOn s (serving s n) || mapMeets (comingMap s n) pl)

/-- The slot of the port whose live span holds lane slot `i`, if any (R85). -/
def spanHead (s : State) (cl i : Nat) : Option Nat :=
  (List.range 8).find? (fun h =>
    let x := liveShape s cl h
    x.head && decide (h ≤ i) && decide (i < h + x.width))

/-- LANE_STATUS.RATE of lane slot `i`: the rate of the enabled port that holds it (R84, R85). -/
def laneRate (s : State) (cl i : Nat) : Nat :=
  match spanHead s cl i with
  | none => 0
  | some h =>
    let x := liveShape s cl h
    if x.enable then
      match speedGb x.speed / x.width with
      | 10 => 1
      | 25 => 2
      | 50 => 3
      | 100 => 4
      | 200 => 5
      | _ => 0
    else 0

/-- Address of LANE_STATUS_i of a lane. -/
def laneStA (l : Nat) : Nat := adr (pgCl (l / 8) 1) (0x0C0 + 4 * (l % 8))

/-- Lanes of a port. -/
def portLanes (s : State) (p : Nat) : List Nat :=
  match portShape s p with
  | some x => (List.range x.width).map (fun k => p + k)
  | none => []

/-- SIG_DET and ALIGN_OK hold on every lane of the port (R9, R93). -/
def lanesGood (s : State) (p : Nat) : Bool :=
  (portLanes s p).all (fun l => getB s (laneStA l) 1 && getB s (laneStA l) 2)

/-- PORT_STATE.UP of a port. -/
def portUp (s : State) (p : Nat) : Bool := getB s (pcsA p 0x0B0) (p % 8)

/-- A 64B/66B port locks by block, the others by alignment marker (Table 5.1, Table 5.2). -/
def usesBlockLock (x : Shape) : Bool := x.speed == 0 || x.speed == 1

/-- Set or clear the lock bits of a list of lanes. -/
def setLocks (blk : Bool) (v : Bool) : List Nat → State → State
  | [], s => s
  | l :: r, s => setLocks blk v r (setB (laneStA l) (if blk then 6 else 7) v s)

/-- Set or clear HI_BER of a list of lanes. -/
def setHiBer (v : Bool) : List Nat → State → State
  | [], s => s
  | l :: r, s => setHiBer v r (setB (laneStA l) 8 v s)

/-- A port goes down: UP falls and event 6 is latched (R93). -/
def portDown (p : Nat) (s : State) : State :=
  if portUp s p then hwEvent (pgCl (p / 8) 1) 6 (setB (pcsA p 0x0B0) (p % 8) false s) else s

/-- Clear the counters of one port's PCS_FEC, receive, transmit and SecY blocks (R89, R124). -/
def inBlock (base len a : Nat) : Bool := decide (base ≤ a) && decide (a < base + len)

def slotCounters (p a : Nat) : Bool :=
  inBlock (pcsCnt p 0) 0x80 a || inBlock (rxCnt p 0) 0x100 a || inBlock (txCnt p 0) 0xE0 a
    || inBlock (secCnt p 0) 0x60 a

/-- The switch port that carries traffic on lane `l`, if an enabled port's live span holds it. -/
def portOfLane (s : State) (l : Nat) : Option Nat :=
  match spanHead s (l / 8) (l % 8) with
  | none => none
  | some h => if (liveShape s (l / 8) h).enable then some (l / 8 * 8 + h) else none

end Sys2Proof.Machine
end

