-- ==== Sys2Proof/Machine/PowerOps.lean ====
section
/-! DEFINITION. The request unit of the power controller: acceptance, the pending slot, cancellation (R317, R321, R323,
R325; Table 18.3). -/

namespace Sys2Proof.Machine

/-- The sleep state that a request names. -/
def sleepOf (v : BitVec 2) : Sleep :=
  match v.toNat with
  | 1 => .doze
  | 2 => .dim
  | 3 => .dark
  | _ => .none

/-- Port code of a request. -/
def reqPort (r : PwrReq) : CmdPort :=
  match r.origin with
  | .modeReq p => p
  | .command p => p

/-- REQ_STATUS describes request `r` (R317). -/
def reqStatus (r : PwrReq) (state : Nat) (res : Byte) (reason : Nat) (s : State) : State :=
  setReg (adr pgPower 0x084) (word (state + 16 * r.value.toNat + 256 * flag r.sleep + 4096 * portCode (reqPort r)
    + 65536 * reason + 2 ^ 24 * res.toNat)) s

/-- Request `r` ends with a result: REQ_STATUS, event 1 on a refusal, the command's result (R317). -/
def endReq (r : PwrReq) (res : Byte) (reason : Nat) (s : State) : State :=
  let s1 := if res = rOk then reqStatus r 2 res 0 s
    else hwEvent pgPower 1 (reqStatus r 3 res reason s)
  match r.origin with
  | .modeReq _ => s1
  | .command p => finishCmd p res (if res = rFailed then leBytes reason 1 else []) s1

/-- RX_CFG of a port (Table 6.2). -/
def rxCfg (s : State) (p : Nat) : Word := getReg s (macA p (0x080 + 4 * (p % 8)))

/-- Ports whose WAKE_EN is set (R120). -/
def wakeSet (s : State) : List Nat :=
  (List.range 512).filter (fun p => (portShape s p).isSome && bit (rxCfg s p) 12)

/-- Does cluster `n` hold a port of the wake set? -/
def wakeCluster (s : State) (n : Nat) : Bool := (List.range 8).any (fun i =>
  decide (n < 64) && (portShape s (8 * n + i)).isSome && bit (rxCfg s (8 * n + i)) 12)

/-- The wake set is at most 8 ports in at most 4 clusters, none faster than 400G (R120). -/
def wakeSetOk (s : State) : Bool :=
  let w := wakeSet s
  decide (w.length ≤ 8)
    && decide (((List.range 64).filter (fun n => w.any (fun p => p / 8 == n))).length ≤ 4)
    && w.all (fun p => match portShape s p with | some x => decide (x.speed ≤ 5) | none => true)

/-- A quarter change is in progress: an OFF bit and its POWERED bit agree (R153). -/
def quarterChanging (s : State) : Bool :=
  [1, 2, 3].any (fun q => getB s (adr pgSpread 0x08C) q == getB s (adr pgSpread 0x08C) (16 + q)
    && !s.prt.quarterWoken.contains q)

/-- An activity of Table 18.3, 19.6, 20.3 or 21.6 that refuses SLEEP, or a transition to TEST or SAFELIGHT in flight
(R47). -/
def activity (s : State) : Bool :=
  s.ctl.target == some .test || s.ctl.target == some .safelight ||
  !s.prt.reconf.isEmpty || s.fix.mig.isSome || s.dark.now.isSome || !s.dark.wait.isEmpty
    || quarterChanging s || s.cls.load.isSome || s.nv.write.isSome || s.nv.restore.isSome
    || getF s (adr pgSpread 0x094) 1 0 == 1

/-- Put a request in flight (R318, R324). -/
def startReq (r : PwrReq) (s : State) : State :=
  let s1 := reqStatus r 1 rOk 0 { s with pwr := { s.pwr with flight := some r, since := s.tim.powered } }
  if r.sleep then { s1 with ctl := { s1.ctl with target := some .still } }
  else setB (adr pgPower 0x08C) 9 true (setF (adr pgPower 0x08C) 5 4 r.value.toNat s1)

/-- PENDING shows the slot (R321). -/
def showSlot (s : State) : State :=
  setReg (adr pgPower 0x088)
    (match s.pwr.slot with
     | none => 0
     | some r => word (r.value.toNat + 64 * flag r.sleep + 128 + 256 * portCode (reqPort r))) s

/-- Place an accepted request in the pending slot; an earlier one ends SUPERSEDED and REQ_STATUS shows that end, while
PENDING shows the request that replaced it (R317, R321). -/
def slotReq (r : PwrReq) (s : State) : State :=
  let s1 := reqStatus r 1 rOk 0 (showSlot { s with pwr := { s.pwr with slot := some r } })
  match s.pwr.slot with
  | some old => endReq old rFailed 4 s1
  | none => s1

/-- The refusal of a request that has passed the mode check, if one applies (R317). -/
def reqRefusal (s : State) (r : PwrReq) : Option Nat :=
  if r.sleep then
    if r.value = 2 ∧ wakeSetOk s = false then some 2
    else if activity s then some 3
    else none
  else if mapsMeet s r.value.toNat then none else some 1

/-- A request past its mode check (R317, R321). -/
def acceptReq (r : PwrReq) (s : State) : State :=
  if r.sleep = true ∧ r.value = 0 then endReq r rBadArgs 0 s
  else
    match reqRefusal s r with
    | some k => endReq r rFailed k s
    | none =>
      if s.pwr.flight.isSome || s.pwr.entering || s.ctl.mode == .still then slotReq r s
      else startReq r s

/-- Take the pending request when nothing is in flight: checked again against mode and map (R321). -/
def startSlot (s : State) : State :=
  if s.pwr.flight.isSome then s
  else
    match s.pwr.slot with
    | none => s
    | some r =>
      let s1 := showSlot { s with pwr := { s.pwr with slot := none } }
      match s.ctl.mode with
      | .run =>
        match reqRefusal s1 r with
        | some k => endReq r rFailed k s1
        | none => startReq r s1
      | .still => if r.sleep then endReq r rStateReject 0 s1 else noteWake 3 0xFF s
      | _ => endReq r rStateReject 0 s1

/-- A sleep request in quiescence is cancelled (R325). -/
def cancelSleep (s : State) : State :=
  match s.pwr.flight with
  | some r =>
    if r.sleep = true ∧ s.pwr.entering = false then
      startSlot (endReq r rFailed 6
        { s with pwr := { s.pwr with flight := none }, ctl := { s.ctl with target := none } })
    else s
  | none => s

/-- Is a sleep request quiescing (R324)? -/
def quiescing (s : State) : Bool :=
  match s.pwr.flight with
  | some r => r.sleep
  | none => false

end Sys2Proof.Machine
end

