-- ==== Sys2Proof/Machine/Aes.lean ====
section
/-! DEFINITION. AES and GCM, as the suites of Table 11.1 name them (IEEE 802.1AE-2018, FIPS 197, NIST SP 800-38D;
PRESUMED, log entry 31). -/

namespace Sys2Proof.Machine

/-- Multiply by x in GF(2^8) with the AES polynomial. -/
def xtime (a : Nat) : Nat := if a < 128 then 2 * a else (2 * a) % 256 ^^^ 0x1B

/-- Multiply in GF(2^8): `n` bits of `b`. -/
def gfMul : Nat → Nat → Nat → Nat
  | 0, _, _ => 0
  | n + 1, a, b => (if b % 2 = 1 then a else 0) ^^^ gfMul n (xtime a) (b / 2)

/-- a^254, the inverse in GF(2^8): square and multiply seven times. -/
def gfPow : Nat → Nat → Nat → Nat
  | 0, _, acc => acc
  | n + 1, sq, acc => let q := gfMul 8 sq sq; gfPow n q (gfMul 8 acc q)

/-- Rotate an octet left. -/
def rotl8 (a n : Nat) : Nat := (a * 2 ^ n) % 256 ||| a / 2 ^ (8 - n)

/-- The S-box. -/
def sbox (a : Nat) : Nat :=
  let i := gfPow 7 a 1
  i ^^^ rotl8 i 1 ^^^ rotl8 i 2 ^^^ rotl8 i 3 ^^^ rotl8 i 4 ^^^ 0x63

/-- The 256 S-box values. -/
def sboxTable : List Nat := (List.range 256).map sbox

def sub (t : List Nat) (a : Nat) : Nat := t.getD a 0

/-- XOR of two octet lists. -/
def xorL : List Nat → List Nat → List Nat
  | a :: r, b :: q => (a ^^^ b) :: xorL r q
  | _, _ => []

/-- Key words (four octets each), newest first, extended to `n` more words from index `i`. -/
def expandKey (t : List Nat) (nk : Nat) : Nat → Nat → Nat → List (List Nat) → List (List Nat)
  | 0, _, _, ws => ws
  | n + 1, i, rc, ws =>
    let prev := ws.headD []
    let back := (ws.drop (nk - 1)).headD []
    let x :=
      if i % nk = 0 then xorL ((prev.drop 1 ++ prev.take 1).map (sub t)) [rc, 0, 0, 0]
      else if 6 < nk ∧ i % nk = 4 then prev.map (sub t) else prev
    expandKey t nk n (i + 1) (if i % nk = 0 then xtime rc else rc) (xorL back x :: ws)

/-- Split into words of four octets. -/
def words4 : Nat → List Nat → List (List Nat)
  | 0, _ => []
  | n + 1, l => l.take 4 :: words4 n (l.drop 4)

/-- Round keys of 16 octets, first first. -/
def roundKeys (t : List Nat) (key : List Nat) : List (List Nat) :=
  let nk := key.length / 4
  let total := 4 * (nk + 7)
  let ws := (expandKey t nk (total - nk) nk 1 (words4 nk key).reverse).reverse
  (List.range (nk + 7)).map (fun r => ((ws.drop (4 * r)).take 4).flatten)

/-- ShiftRows on 16 octets in column order. -/
def shiftRows (l : List Nat) : List Nat :=
  (List.range 16).map (fun i => l.getD ((i + 4 * (i % 4)) % 16) 0)

/-- MixColumns on one column. -/
def mixCol (c : List Nat) : List Nat :=
  let a := c.getD 0 0
  let b := c.getD 1 0
  let d := c.getD 2 0
  let e := c.getD 3 0
  [xtime a ^^^ xtime b ^^^ b ^^^ d ^^^ e, a ^^^ xtime b ^^^ xtime d ^^^ d ^^^ e,
   a ^^^ b ^^^ xtime d ^^^ xtime e ^^^ e, xtime a ^^^ a ^^^ b ^^^ d ^^^ xtime e]

/-- The rounds after the first key. -/
def aesRounds (t : List Nat) : List (List Nat) → List Nat → List Nat
  | [], s => s
  | [k], s => xorL (shiftRows (s.map (sub t))) k
  | k :: r, s => aesRounds t r (xorL ((words4 4 (shiftRows (s.map (sub t)))).map mixCol).flatten k)

/-- AES of one block of 16 octets under round keys. -/
def aesRun (t : List Nat) (rk : List (List Nat)) (s : List Nat) : List Nat :=
  match rk with
  | [] => s
  | k :: r => aesRounds t r (xorL s k)

/-- AES encryption of one block under a key of 16 or 32 octets. -/
def aesBlock (key blk : List Byte) : List Byte :=
  (aesRun sboxTable (roundKeys sboxTable (key.map BitVec.toNat)) (blk.map BitVec.toNat)).map (BitVec.ofNat 8)

/-- A number of 128 bits from 16 octets, first octet most significant, padded with zeros. -/
def blockNat (l : List Byte) : Nat := beNat (l ++ List.replicate (16 - l.length) 0)

/-- Multiply in GF(2^128) as GHASH does, over the 128 bits of `x` from the top. -/
def ghMul : Nat → Nat → Nat → Nat → Nat
  | 0, _, _, z => z
  | n + 1, x, v, z =>
    ghMul n x (if v % 2 = 1 then v / 2 ^^^ (0xE1 * 2 ^ 120) else v / 2) (if x.testBit n then z ^^^ v else z)

/-- GHASH over octets cut into blocks; `n` bounds the blocks. -/
def ghash (h : Nat) : Nat → List Byte → Nat → Nat
  | 0, _, y => y
  | n + 1, l, y => if l = [] then y else ghash h n (l.drop 16) (ghMul 128 (y ^^^ blockNat (l.take 16)) h 0)

/-- CTR keystream of `n` blocks from counter `c` under a 96-bit IV. -/
def ctrStream (t : List Nat) (rk : List (List Nat)) (iv : List Byte) : Nat → Nat → List Byte
  | 0, _ => []
  | n + 1, c =>
    (aesRun t rk ((iv ++ beBytes c 4).map BitVec.toNat)).map (BitVec.ofNat 8) ++ ctrStream t rk iv n (c + 1)

/-- XOR octets with a keystream. -/
def xorBytes : List Byte → List Byte → List Byte
  | a :: r, b :: q => (a ^^^ b) :: xorBytes r q
  | _, _ => []

/-- Pad to whole blocks. -/
def padBlock (l : List Byte) : List Byte := l ++ List.replicate ((16 - l.length % 16) % 16) 0

/-- GCM: the transformed text and the tag over the ciphertext; `enc` false deciphers `txt`. -/
def gcm (enc : Bool) (key iv aad txt : List Byte) : List Byte × List Byte :=
  let t := sboxTable
  let rk := roundKeys t (key.map BitVec.toNat)
  let run := fun (b : List Byte) => (aesRun t rk (b.map BitVec.toNat)).map (BitVec.ofNat 8)
  let h := beNat (run (List.replicate 16 0))
  let out := xorBytes txt (ctrStream t rk iv (txt.length / 16 + 1) 2)
  let ct := if enc then out else txt
  let y := ghash h (aad.length / 16 + ct.length / 16 + 4)
    (padBlock aad ++ padBlock ct ++ beBytes (8 * aad.length) 8 ++ beBytes (8 * ct.length) 8) 0
  (out, xorBytes (beBytes y 16) (run (iv ++ beBytes 1 4)))

end Sys2Proof.Machine
end

