-- ==== Sys2Proof/Machine/SecY.lean ====
section
/-! DEFINITION. The SecY of a port: receive verdicts, protection on transmit, SA state (11_macsec.md R202-R217). -/

namespace Sys2Proof.Machine

/-- Key of an SA in the key stores: the cluster whose store it is (R214: a spare has its own), direction, SC index, AN. -/
def saKey (cl : Nat) (tx : Bool) (sc an : Nat) : Nat := ((cl * 2 + flag tx) * 64 + sc) * 4 + an

def saGet (s : State) (cl : Nat) (tx : Bool) (sc an : Nat) : Option SA := tabFind s.sec.sas (saKey cl tx sc an)

def saPut (cl : Nat) (tx : Bool) (sc an : Nat) (x : SA) (s : State) : State :=
  { s with sec := { s.sec with sas := tabPut s.sec.sas (saKey cl tx sc an) x } }

def saErase (cl : Nat) (tx : Bool) (sc an : Nat) (s : State) : State :=
  { s with sec := { s.sec with sas := tabErase s.sec.sas (saKey cl tx sc an) } }

/-- The cluster whose key store port `p` uses: the one that serves it (R98, R214). -/
def keyCl (s : State) (p : Nat) : Nat := serving s (p / 8)

/-- The key store and SA state of cluster `a` are copied into cluster `b` (R214). -/
def copyKeys (a b : Nat) (s : State) : State :=
  let own := tabKeep (fun k => !(k / 512 == b)) s.sec.sas
  let got := tabKeep (fun k => k / 512 == a) s.sec.sas
  { s with sec := { s.sec with
      sas := if a = b then s.sec.sas else got.foldl (fun t x => tabPut t (b * 512 + x.1 % 512) x.2) own } }

/-- SECY_CFG of a port. -/
def secCfg (s : State) (p : Nat) : Word := getReg s (secA p (0x080 + 4 * (p % 8)))

/-- XPN suites (Table 11.3). -/
def isXpn (cipher : Nat) : Bool := decide (2 ≤ cipher)

/-- Octets of confidentiality offset. -/
def confOffset (w : Word) : Nat := match bits w 27 26 with | 1 => 30 | 2 => 50 | _ => 0

/-- Offsets of the SC registers on the SEC page (Table 11.3). -/
def txScA (cl sc : Nat) : Nat := adr (pgCl cl 2) (0x200 + 0x20 * sc)
def rxScA (cl sc : Nat) : Nat := adr (pgCl cl 2) (0x600 + 0x10 * sc)

/-- SCI octets of an SC whose _LO register lies at `a` (first wire octet in bits [31:24] of _HI). -/
def sciAt (s : State) (a : Nat) : List Byte := beBytes (getPair s a) 8

/-- The lowest valid receive SC of a port slot that `ok` admits. -/
def findRxSc (s : State) (cl slot : Nat) (ok : Nat → Bool) : Option Nat :=
  (List.range 64).find? (fun r =>
    let w := getReg s (rxScA cl r)
    bit w 31 && bits w 26 24 == slot && ok r)

/-- A decoded SecTAG (IEEE 802.1AE). -/
structure SecTag where
  v : Bool
  es : Bool
  sc : Bool
  scb : Bool
  e : Bool
  c : Bool
  an : Nat
  sl : Nat
  pn : Nat
  len : Nat

def secTagOf (f : List Byte) : SecTag :=
  let t := (byteAt f 14).toNat
  { v := t.testBit 7, es := t.testBit 6, sc := t.testBit 5, scb := t.testBit 4, e := t.testBit 3, c := t.testBit 2
    an := t % 4, sl := (byteAt f 15).toNat, pn := beField f 16 4, len := if t.testBit 5 then 16 else 8 }

/-- Octets of secure data of a tagged frame, none where SL contradicts the frame length. -/
def secureLen (f : List Byte) (t : SecTag) : Option Nat :=
  let n := f.length
  let h := 12 + t.len + 16
  if t.sl = 0 then (if h + 48 ≤ n then some (n - h) else none)
  else if h + t.sl ≤ n ∧ (h + t.sl = n ∨ n ≤ 60) then some t.sl else none

/-- Row 2 of Table 11.2. -/
def secTagBad (f : List Byte) (t : SecTag) : Bool :=
  decide (f.length < 12 + t.len + 16) || t.v || (t.es && t.sc) || (t.sc && t.scb) || decide (48 ≤ t.sl)
    || (secureLen f t).isNone || decide (t.pn = 0) || (!t.e && t.c)

/-- The receive SC of a tagged frame (R204). -/
def rxScOf (s : State) (p : Nat) (f : List Byte) (t : SecTag) : Option Nat :=
  let cl := p / 8
  if t.sc then findRxSc s cl (p % 8) (fun r => sciAt s (rxScA cl r + 4) == slice f 20 8)
  else if t.es then
    findRxSc s cl (p % 8) (fun r => sciAt s (rxScA cl r + 4) == slice f 6 6 ++ [0x00, 0x01])
  else findRxSc s cl (p % 8) (fun _ => true)

/-- Recover a 64-bit PN from its low half and the SA's next PN (R204). -/
def xpnRecover (next pn : Nat) : Nat :=
  let hi := next / 2 ^ 32
  let lo := next % 2 ^ 32
  if pn < lo ∧ 2 ^ 31 ≤ lo ∧ pn < 2 ^ 31 then (hi + 1) * 2 ^ 32 + pn else hi * 2 ^ 32 + pn

/-- The 96-bit IV of a frame (IEEE 802.1AE). -/
def secIv (cipher : Nat) (sa : SA) (sci : List Byte) (pn : Nat) : List Byte :=
  if isXpn cipher then xorBytes sa.salt (beBytes sa.ssci 4 ++ beBytes pn 8) else sci ++ beBytes pn 4

/-- What the SecY makes of a received frame. -/
structure SecOut where
  st : State
  drop : Bool
  data : List Byte
  tag : Bool
  enc : Bool
  /-- ICV failure that discards or marks (R205). -/
  bad : Bool
  /-- The frame was changed, so that its FCS is computed anew (R107). -/
  changed : Bool

def secPass (f : List Byte) (s : State) : SecOut :=
  { st := s, drop := false, data := f, tag := false, enc := false, bad := false, changed := false }

def secDrop (cnt : Nat) (p : Nat) (s : State) : SecOut :=
  { st := addLive (secCnt p cnt) 1 s, drop := true, data := [], tag := false, enc := false, bad := false
    changed := false }

/-- Delivered with the SecTAG and ICV removed. -/
def secStrip (f : List Byte) (t : SecTag) (n : Nat) (body : List Byte) (s : State) : SecOut :=
  { st := s, drop := false, data := f.take 12 ++ body.take n, tag := true, enc := t.e, bad := false, changed := true }

/-- Rows 6 to 8 of Table 11.2 for a frame whose SA is `sa` and whose full PN is `pn`. -/
def secIcv (cfg : Word) (p sc : Nat) (f : List Byte) (t : SecTag) (n : Nat) (sa : SA) (pn : Nat) (s : State) : SecOut :=
  let cipher := bits cfg 29 28
  let sci := sciAt s (rxScA (p / 8) sc + 4)
  let body := (f.drop (12 + t.len)).take n
  let icv := (f.drop (12 + t.len + n)).take 16
  let o := if t.e then min (confOffset cfg) n else n
  let r := gcm false sa.key (secIv cipher sa sci pn) (f.take (12 + t.len) ++ body.take o) (body.drop o)
  let plain := body.take o ++ r.1
  let tag := (gcm false sa.key (secIv cipher sa sci pn) (f.take (12 + t.len) ++ body.take o) (body.drop o)).2
  if tag = icv then
    let s1 := addLive (secCnt p (if t.e then 0x08 else 0x00)) n s
    if pn < sa.nextPn then secStrip f t n plain (addLive (secCnt p 0x50) 1 s1)
    else secStrip f t n plain
      (saPut (keyCl s p) false sc t.an { sa with nextPn := pn + 1 } (addLive (secCnt p 0x20) 1 s1))
  else if 2 ≤ bits cfg 25 24 ∨ t.e = true then
    { secStrip f t n plain (addLive (secCnt p 0x44) 1 s) with bad := true }
  else secStrip f t n plain (addLive (secCnt p 0x48) 1 s)

/-- The receive SC and SA that a tagged frame meets: installed and enabled (row 3 of Table 11.2). -/
def rxSaOf (s : State) (p : Nat) (f : List Byte) (t : SecTag) : Option (Nat × SA) :=
  match rxScOf s p f t with
  | none => none
  | some r =>
    if getB s (rxScA (p / 8) r) (4 + t.an) then (saGet s (keyCl s p) false r t.an).map (fun x => (r, x)) else none

/-- The full PN of a frame (R204). -/
def fullPn (cfg : Word) (sa : SA) (t : SecTag) : Nat :=
  if isXpn (bits cfg 29 28) then xpnRecover sa.nextPn t.pn else t.pn

/-- Row 5 of Table 11.2: the PN lies below the replay window. -/
def replayLate (cfg : Word) (s : State) (p : Nat) (sa : SA) (pn : Nat) : Bool :=
  let w0 := (getReg s (secA p (0x0A0 + 4 * (p % 8)))).toNat
  let win := if isXpn (bits cfg 29 28) ∧ 0x3FFFFFFF < w0 then 0x3FFFFFFF else w0
  bit cfg 23 && decide (pn + win < sa.nextPn)

/-- The secure data of a frame, decrypted (`body`: from its first octet on). -/
def secOpen (cfg : Word) (s : State) (p sc : Nat) (t : SecTag) (sa : SA) (pn : Nat) (body : List Byte) : List Byte :=
  let o := if t.e then min (confOffset cfg) body.length else body.length
  body.take o ++ (gcm false sa.key (secIv (bits cfg 29 28) sa (sciAt s (rxScA (p / 8) sc + 4)) pn) [] (body.drop o)).1

/-- The receive verdict of Table 11.2 on frame octets without FCS under SECY_CFG `cfg`; `verdict` is false where Table 6.1
rows 1 to 6 discard or mark the frame: it meets no row from 6 on, and what rows 1 to 5 count is not counted (R205). -/
def secRx (cfg : Word) (p : Nat) (f : List Byte) (verdict : Bool) (s : State) : SecOut :=
  let cl := p / 8
  let strict := decide (2 ≤ bits cfg 25 24)
  if bit cfg 16 = false then secPass f s
  else if beField f 12 2 ≠ 0x88E5 then
    if strict then secDrop 0x34 p s else secPass f (addLive (secCnt p 0x30) 1 s)
  else
    let t := secTagOf f
    if secTagBad f t then secDrop 0x38 p s
    else
      let n := (secureLen f t).getD 0
      let body := (f.drop (12 + t.len)).take n
      match rxSaOf s p f t with
      | none =>
        if strict || t.e then secDrop 0x3C p s else secStrip f t n body (addLive (secCnt p 0x3C) 1 s)
      | some (r, sa) =>
        if bits cfg 25 24 = 0 then
          if t.e then secDrop 0x44 p s else secStrip f t n body (addLive (secCnt p 0x4C) 1 s)
        else
          let pn := fullPn cfg sa t
          if replayLate cfg s p sa pn then
            let d := secDrop 0x40 p s
            { d with st := hwEvent (pgCl cl 2) 5 d.st }
          else if verdict then secIcv cfg p r f t n sa pn s
          else secStrip f t n (secOpen cfg s p r t sa pn body) s

/-- A frame handed over before its end (R119): its first octets `f` as they leave the SecY, with the tag and encryption
flags; none where rows 1 to 5 of Table 11.2 will drop it. -/
def secHead (cfg : Word) (p : Nat) (f : List Byte) (s : State) : Option (List Byte × Bool × Bool) :=
  let strict := decide (2 ≤ bits cfg 25 24)
  if bit cfg 16 = false then some (f, false, false)
  else if beField f 12 2 ≠ 0x88E5 then (if strict then none else some (f, false, false))
  else
    let t := secTagOf f
    let body := f.drop (12 + t.len)
    if t.v || (t.es && t.sc) || (t.sc && t.scb) || decide (t.sl ≠ 0) || decide (t.pn = 0) || (!t.e && t.c) then none
    else
      match rxSaOf s p f t with
      | none => if strict || t.e then none else some (f.take 12 ++ body, true, t.e)
      | some (r, sa) =>
        if bits cfg 25 24 = 0 then (if t.e then none else some (f.take 12 ++ body, true, t.e))
        else
          let pn := fullPn cfg sa t
          if replayLate cfg s p sa pn then none else some (f.take 12 ++ secOpen cfg s p r t sa pn body, true, t.e)

/-! ### Transmit -/

/-- Why a frame cannot be sent (R207), if it cannot: 1 too long, 2 no usable encoding SA, 3 no SC; else the SC that
protects it (`some none`: unprotected). -/
inductive TxSecY
  | plain
  | protect (sc : Nat)
  | discard (reason : Nat)

/-- Is SA `an` of transmit SC `sc` installed and not exhausted? -/
def txSaUsable (s : State) (cl sc an : Nat) : Bool :=
  let w := getReg s (txScA cl sc)
  bit w an && !bit w (4 + an)

/-- The AN that the next frame of an SC is protected with: ENCODING_SA, since a pending switch takes effect at this commit
(R208, R211). -/
def encodingAn (s : State) (cl sc : Nat) : Nat := bits (getReg s (txScA cl sc)) 17 16

/-- The SC_SELECT decision of R207 for a frame of `len` octets without FCS. -/
def txSecDecide (s : State) (p sel len : Nat) : TxSecY :=
  let cfg := secCfg s p
  let cl := p / 8
  if bit cfg 16 = false ∨ bit cfg 22 = false then .plain
  else if sel = 0xFF then (if bit cfg 17 then .plain else .discard 3)
  else if 31 < sel then .discard 3
  else
    let w := getReg s (txScA cl sel)
    if bit w 31 = false ∨ bits w 26 24 ≠ p % 8 then .discard 3
    else if 16383 < len + (if bit cfg 20 then 16 else 8) + 16 + 4 then .discard 1
    else if txSaUsable s cl sel (encodingAn s cl sel) = false then .discard 2
    else .protect sel

/-- OUT_DISCARD and LAST_OUT_DISCARD (R207). -/
def txSecDiscard (p reason : Nat) (s : State) : State :=
  setReg (adr (pgCl (p / 8) 2) 0x0F0) (word (2 ^ 31 + 256 * (p % 8) + reason)) (addLive (secCnt p 0x5C) 1 s)

/-- A pending SA switch takes effect (R211); AN_IN_USE shows the SA that protects from now on. -/
def takeSwitch (cl sc : Nat) (s : State) : State :=
  let a := txScA cl sc
  let s1 := setF a 23 22 (getF s a 17 16) s
  if getB s a 8 then hwEvent (pgCl cl 2) 4 (setB a 8 false s1) else s1

/-- TX_NEXT_PN shows the SA in use. -/
def showPn (cl sc : Nat) (s : State) : State :=
  let an := getF s (txScA cl sc) 23 22
  setPair (txScA cl sc + 0x10) (match saGet s (serving s cl) true sc an with | some x => x.nextPn | none => 0) s

/-- The PN is spent: warning, exhaustion, automatic switch (R208, R209). -/
def spendPn (p cl sc an : Nat) (sa : SA) (s : State) : State :=
  let xpn := isXpn (bits (secCfg s p) 29 28)
  let last := if xpn then 2 ^ 64 - 1 else 2 ^ 32 - 1
  let warn := (getReg s (adr (pgCl cl 2) 0x0E4)).toNat
  let s1 := saPut (serving s cl) true sc an { sa with nextPn := sa.nextPn + 1 } s
  let hit := if xpn then decide (sa.nextPn / 2 ^ 32 < warn ∧ warn ≤ (sa.nextPn + 1) / 2 ^ 32)
    else decide (sa.nextPn + 1 = warn)
  let s2 := if hit then hwEvent (pgCl cl 2) 2 s1 else s1
  if sa.nextPn = last then
    let a := txScA cl sc
    let s3 := setB a (4 + an) true s2
    let nx := getF s3 a 19 18
    if getB s3 a 20 = true ∧ txSaUsable s3 cl sc nx = true ∧ nx ≠ an then
      hwEvent (pgCl cl 2) 4 (setF a 23 22 nx (setF a 17 16 nx (setB a 8 false s3)))
    else hwEvent (pgCl cl 2) 3 s3
  else s2

/-- Commit under SC `sc`: a pending switch takes effect, the SA's PN is spent (R207-R211). -/
def txSpend (p sc : Nat) (s : State) : Option TxSec × State :=
  let cl := p / 8
  let s0 := takeSwitch cl sc s
  let an := getF s0 (txScA cl sc) 23 22
  match saGet s0 (serving s0 cl) true sc an with
  | none => (none, s0)
  | some sa =>
    (some { cfg := secCfg s0 p, sci := sciAt s0 (txScA cl sc + 4), key := sa.key, salt := sa.salt, ssci := sa.ssci
            pn := sa.nextPn, an := an }, showPn cl sc (spendPn p cl sc an sa s0))

/-- The SecTAG, secure data and ICV of a frame's octets without FCS (R207, R208). -/
def secSeal (x : TxSec) (f : List Byte) : List Byte :=
  let conf := bit x.cfg 21
  let inc := bit x.cfg 20
  let body := f.drop 12
  let tci := 64 * flag (bit x.cfg 19) + 32 * flag inc + 16 * flag (bit x.cfg 18) + 12 * flag conf + x.an
  let sl := if body.length < 48 then body.length else 0
  let tag := [0x88, 0xE5] ++ beBytes tci 1 ++ beBytes sl 1 ++ beBytes x.pn 4 ++ (if inc then x.sci else [])
  let o := if conf then min (confOffset x.cfg) body.length else body.length
  let sa : SA := { key := x.key, salt := x.salt, ssci := x.ssci, nextPn := x.pn }
  let y := gcm true x.key (secIv (bits x.cfg 29 28) sa x.sci x.pn) (f.take 12 ++ tag ++ body.take o) (body.drop o)
  f.take 12 ++ tag ++ body.take o ++ y.1 ++ y.2

/-- Counters of a protected frame with `n` octets of user data. -/
def countSealed (p n : Nat) (x : TxSec) (s : State) : State :=
  addLive (secCnt p (if bit x.cfg 21 then 0x18 else 0x10)) n (addLive (secCnt p 0x28) 1 s)

/-! ### Losing keys -/

/-- The page on which the SEC registers of cluster `c` stand: its home cluster's while it stands in; none for a home cluster
that another stands in for (R101). -/
def secHome (s : State) (c : Nat) : Option Nat :=
  if serving s (home s c) = c then some (home s c) else none

/-- SA bits and next PNs of the registers of home cluster `cl` show an empty store. -/
def showNoKeys (cl : Nat) (s : State) : State :=
  let s2 := (List.range 32).foldl (fun x i =>
    let a := txScA cl i
    let w := getReg x a &&& 0xFF3FFE00
    setPair (a + 0x10) 0 (if getReg x a = w then x else setReg a w x)) s
  (List.range 64).foldl (fun x i =>
    let a := rxScA cl i
    let w := getReg x a &&& 0xFFFFFFF0
    if getReg x a = w then x else setReg a w x) s2

/-- Erase every SA of cluster `c` and its SA bits (R213, R215). -/
def clearKeys (c : Nat) (s : State) : State :=
  if s.sec.sas.any (fun x => x.1 / 512 == c) then
    let s1 := { s with sec := { s.sec with sas := tabKeep (fun k => !(k / 512 == c)) s.sec.sas } }
    match secHome s c with
    | some h => showNoKeys h s1
    | none => s1
  else s

/-- DARKSLIDE's clear of a cluster: staging and KEY_CHECK too; a store that reads back as zero is verified, event 6
(R215). -/
def darkClear (ok : Bool) (c : Nat) (s : State) : State :=
  let s1 := clearKeys c s
  match secHome s c with
  | none => s1
  | some h =>
    let s2 := setReg (adr (pgCl h 2) 0x138) 0 (setPair (adr (pgCl h 2) 0x140) 0
      (setWords (adr (pgCl h 2) 0x100) (List.replicate 12 0) s1))
    if ok then hwEvent (pgCl h 2) 6 (setF (adr (pgCl h 2) 0x0E0) 2 1 2 s2) else setF (adr (pgCl h 2) 0x0E0) 2 1 0 s2

/-- The domain of cluster `c` powers down: its SAs are erased (R213). -/
def clusterKeysOff (c : Nat) (s : State) : State :=
  let s1 := clearKeys c s
  { s1 with sec := { s1.sec with lost := setInsert s1.sec.lost c } }

/-- The domain powers up again: KEYS_LOST and event 7 (R213). -/
def clusterKeysOn (c : Nat) (s : State) : State :=
  if s.sec.lost.contains c then
    let s1 := { s with sec := { s.sec with lost := setErase s.sec.lost c } }
    match secHome s1 c with
    | some h => hwEvent (pgCl h 2) 7 (setB (adr (pgCl h 2) 0x0E0) 3 true s1)
    | none => s1
  else s

end Sys2Proof.Machine
end

