-- ==== Sys2Proof/Machine/Access.lean ====
section
/-! DEFINITION. What happens to a register write before its effect: the ordered checks of R410, R411, and what every
write that takes effect does (R42, R153, R325). -/

namespace Sys2Proof.Machine

/-- The island of Table 17.1 that a domain is. -/
def islandOf : Domain → Nat
  | .ao => 74
  | .mg => 72
  | .ti => 73
  | .hd => 71
  | .sr => 70
  | .pq q => 66 + q
  | .cl n => n

/-- The sleep state in force, or the one whose entry is in flight (R30). -/
def sleepNow (s : State) : Sleep :=
  if s.ctl.mode = .still then s.ctl.sleep
  else
    match s.pwr.entering, s.pwr.flight with
    | true, some r => sleepOf r.value
    | _, _ => .none

/-- A register access to the domain wakes the complex, or waits for the entry in flight: every domain but the always-on one
(R30, R43; REG_READ of Table 3.6 in STILL). -/
def asleep (s : State) (d : Domain) : Bool :=
  (decide (s.ctl.mode = .still) || s.pwr.entering) && decide (d ≠ .ao)

/-- Pages of a privileged unit (Table 20.1): time engine, interrupt controller, power controller, NV controller. -/
def privPage (u page : Nat) : Bool :=
  match u with
  | 0 => page == pgTime || page == pgShutter
  | 1 => decide (pgIrq ≤ page) && decide (page < 0x088)
  | 2 => page == pgPower || page == pgRetain
  | 3 => page == pgNv || page == pgCal
  | _ => false

/-- The page belongs to a privileged unit under test: accesses stall until its restore (R358). -/
def privTest (s : State) (page : Nat) : Bool :=
  match s.dark.now with
  | some j => j.unit.type == 3 && privPage j.unit.unit page
  | none => false

/-- The island that an access to a page reaches: for a cluster that has a stand-in, and for the stand-in's own pages, that of
the stand-in (R101). -/
def pageIsland (s : State) (page : Nat) : Nat :=
  match (pageInfo page).domain with
  | .cl n => serving s (home s n)
  | d => islandOf d

/-- The page's domain is one that SAFELIGHT keeps powered down (R22). -/
def safeOff (s : State) (page : Nat) : Bool :=
  decide (s.ctl.mode = .safelight) && s.pwr.off.contains (pageIsland s page)

/-- PERMIT bit of a page for a port (R36). -/
def permits (page : Nat) (p : CmdPort) : Bool := (pageInfo page).permit.testBit (portCode p)

/-- From the end of PROOF step 1 to the end of step 3, or halted with reason 2 or 3 (R411). -/
def earlyProof (s : State) : Bool :=
  decide (s.ctl.mode = .proof) &&
    (decide (s.ctl.proof.step < 3) || (s.ctl.halted && s.ctl.proof.haltReason != 1))

/-- Neither HOLD nor PROOF before the end of step 1: port H answers. -/
def answers (s : State) : Bool :=
  match s.ctl.mode with
  | .hold => false
  | .proof => decide (1 ≤ s.ctl.proof.step)
  | _ => true

/-- The mode check of Table 3.6 on a register write (R62, R365). PG_CMD is no always-on page (Table 2.1), so in PROOF port H
cannot write its mailbox or SHEET_REQ, although the CONTACT_SHEET row of Table 3.6 accepts the command in PROOF: the model
follows the REG_WRITE row (DEDUCED, log 46). -/
def writeModeOk (s : State) (page : Nat) : Bool :=
  match s.ctl.mode with
  | .hold => false
  | .proof => decide ((pageInfo page).domain = .ao)
  | .run => !s.prt.testPages.contains page
  | .test => !s.prt.testPages.contains page
  | _ => true

/-- Where a register lives: a stand-in's pages are its home cluster's (R101), the shared parse configuration lies behind
every pipe page (R142). -/
def aliasOf (s : State) (a : Nat) : Nat :=
  let i := pageInfo (pageOf a)
  let o := offOf a
  match i.kind with
  | .mac => if 0x010 ≤ o then adr (pgCl (home s i.inst) 0) o else a
  | .pcs => if 0x010 ≤ o then adr (pgCl (home s i.inst) 1) o else a
  | .sec => if 0x010 ≤ o then adr (pgCl (home s i.inst) 2) o else a
  | .stat => if 0x010 ≤ o then adr (pgCl (home s i.inst) 3) o else a
  | .pipe => if 0x100 ≤ o ∧ o < 0x180 then adr (pgPipe 0) o else a
  | _ => a

/-- Outcomes of the checks on one register write. -/
inductive Verdict
  /-- HOLD, or PROOF before the end of step 1: nothing answers. -/
  | unanswered
  /-- Answered and discarded without count (R411, R40). -/
  | ignored
  | badAccess
  | denied
  | rejected
  | offDomain
  /-- Waits for the wake of its domain (R29, R41). -/
  | stalled
  | accepted
  deriving DecidableEq, Repr

/-- Can software write a bit of the register at `a`? -/
def writable (a : Nat) : Bool :=
  match rowAt a with
  | some r => decide (r.rw ||| r.wo ≠ 0)
  | none => false

/-- An access of port H waits: the next one is not accepted before it completes, but waits behind it in the host fabric
(R41). -/
def behindStall (s : State) (p : CmdPort) : Bool := decide (p = .H) && s.cmd.stalled.any (fun x => x.port == .H)

/-- The checks of R410 in their order; `ok` is a naturally aligned 32-bit access. In STILL every write of port H that passes
them wakes the complex (REG_WRITE of Table 3.6). -/
def writeVerdict (s : State) (p : CmdPort) (a : Nat) (ok : Bool) : Verdict :=
  if answers s = false then .unanswered
  else if behindStall s p then .stalled
  else if earlyProof s then .ignored
  else if ok = false ∨ (pageInfo (pageOf a)).kind = .reserved then .badAccess
  else if permits (pageOf a) p = false then .denied
  else if p = .H ∧ writeModeOk s (pageOf a) = false then .rejected
  else if safeOff s (pageOf a) then .offDomain
  else if writable a = false then .ignored
  else if decide (s.ctl.mode = .still) || asleep s (pageInfo (pageOf a)).domain || privTest s (pageOf a) then .stalled
  else .accepted

/-- Outcomes of a register read. -/
inductive ReadVerdict
  | unanswered
  /-- Answered with zero. -/
  | zero
  | badAccess
  | off
  | stalled
  | served
  deriving DecidableEq, Repr

/-- How a read of port `p` is answered (R21, R22, R34, R41, R43, R365, R411). -/
def readVerdict (s : State) (p : CmdPort) (a : Nat) (ok : Bool) : ReadVerdict :=
  let d := (pageInfo (pageOf a)).domain
  let r := (pageInfo (pageOf a)).kind == .reserved
  if answers s = false then .unanswered
  else if behindStall s p then .stalled
  else if earlyProof s then (if !r && (d == .ao || decide (offOf a < 0x010)) then .served else .zero)
  else if ok = false ∨ r = true then .badAccess
  else if safeOff s (pageOf a) then .off
  else if decide (offOf a < 0x010) && s.ctl.mode != .safelight then .served
  else if s.prt.testPages.contains (pageOf a) then .off
  else if asleep s d || privTest s (pageOf a) then .stalled
  else .served

/-- BAD_ACCESS, LAST_BAD_ADDR and event 0 (Table 2.3). -/
def recordBad (write : Bool) (a : Nat) (s : State) : State :=
  hwEvent pgBlock 0 (setReg (adr pgBlock 0x08C) (word (a % 2 ^ 22 + 2 ^ 31 * flag write)) (addF (adr pgBlock 0x084) 31 0 1 s))

/-- PERMIT_DENY_x, LAST_DENY and event 1 (R36, Table 2.3). -/
def recordDeny (p : CmdPort) (a : Nat) (s : State) : State :=
  hwEvent pgBlock 1 (setReg (adr pgBlock 0x0A4) (word (2 ^ 31 + portCode p * 2 ^ 24 + a))
    (addF (adr pgBlock (0x090 + 4 * portCode p)) 15 0 1 s))

/-- Key of a port's snapshot and held write on a page. -/
def pageKey (p : CmdPort) (page : Nat) : Nat := portCode p * 1024 + page

/-- A held _LO write is discarded by a write to any register of the page but its _HI (R42). R42 does not say whether a write
that R40 discards (an RO register, a reserved offset) does so too: the model drops the held half only at a write that is
accepted (DESIGN CHOICE, log 45). -/
def dropHeld (p : CmdPort) (a : Nat) (s : State) : State :=
  match tabFind s.win.held (pageKey p (pageOf a)) with
  | some (lo, _) =>
    if a = lo ∨ a = lo + 4 then s
    else { s with win := { s.win with held := tabErase s.win.held (pageKey p (pageOf a)) } }
  | none => s

/-- A register access wakes a switched-off parse quarter without its pipes (R153), and the island of a cluster that is
powered down (R22, R311); not the four registers that the always-on domain serves (R43), and not in SAFELIGHT. -/
def wakeQuarter (a : Nat) (s : State) : State :=
  if offOf a < 0x010 ∨ s.ctl.mode = .safelight then s
  else
    match (pageInfo (pageOf a)).domain with
    | .pq q =>
      if getB s (adr pgSpread 0x08C) q = true then
        setB (adr pgSpread 0x08C) (16 + q) true
          { s with prt := { s.prt with quarterWoken := setInsert s.prt.quarterWoken q }
                   pwr := { s.pwr with off := setErase s.pwr.off (66 + q) } }
      else s
    | .cl _ =>
      if s.pwr.off.contains (pageIsland s (pageOf a)) then
        clusterKeysOn (pageIsland s (pageOf a))
          { s with pwr := { s.pwr with off := setErase s.pwr.off (pageIsland s (pageOf a)) } }
      else s
    | _ => s

/-- What every write that takes effect does beside its own effect. -/
def beforeWrite (p : CmdPort) (a : Nat) (s : State) : State :=
  wakeQuarter a (dropHeld p a (if p = .H then cancelSleep s else s))

/-- A write of `v` at `a` from port `p` with effect `eff` once it passes every check (R410). -/
def gatedWrite (p : CmdPort) (a : Nat) (ok : Bool) (v : Word) (eff : State → State) (s : State) : State :=
  match writeVerdict s p a ok with
  | .unanswered => s
  | .ignored => s
  | .badAccess => recordBad true a s
  | .denied => recordDeny p a s
  | .rejected => rejectByMode p 0xFFFF s
  | .offDomain => addF (adr pgBlock 0x088) 31 0 1 s
  | .stalled =>
    noteWake 3 0xFF { s with cmd := { s.cmd with stalled := s.cmd.stalled ++ [{ port := p, addr := a, data := some v }] } }
  | .accepted => eff (beforeWrite p a s)

/-- A window read at `a` on port `p` with value and effect `eff` once it is served; what it returns goes on record. -/
def gatedRead (p : CmdPort) (a : Nat) (ok : Bool) (eff : State → Word × State) (s : State) : State :=
  match readVerdict s p a ok with
  | .unanswered => s
  | .zero => emit (.regData p a 0) s
  | .badAccess => emit (.regData p a 0) (recordBad false a s)
  | .off => emit (.regData p a 0) (addF (adr pgBlock 0x088) 31 0 1 s)
  | .stalled =>
    noteWake 3 0xFF { s with cmd := { s.cmd with stalled := s.cmd.stalled ++ [{ port := p, addr := a, data := none }] } }
  | .served =>
    let x := eff (wakeQuarter a s)
    emit (.regData p a x.1) x.2

/-- Store the writable bits of a register (RW kept otherwise). -/
def storeRw (a : Nat) (v : Word) (s : State) : State :=
  match rowAt a with
  | some r => setReg a ((getReg s a &&& ~~~r.rw) ||| (v &&& r.rw)) s
  | none => s

end Sys2Proof.Machine
end

