-- ==== Sys2Proof/Machine/Keys.lean ====
section
/-! DEFINITION. The key commands and register writes of the SEC page (11_macsec.md R210-R216). Rows 75 to 80. -/

namespace Sys2Proof.Machine

/-- A register of the SEC page of cluster `cl`. -/
def secPg (cl off : Nat) : Nat := adr (pgCl cl 2) off

/-- Octets of consecutive staging words, octet 0 in bits [31:24] (Table 11.3). -/
def stagedOctets (s : State) (a : Nat) : Nat → List Byte
  | 0 => []
  | n + 1 => beBytes (getReg s a).toNat 4 ++ stagedOctets s (a + 4) n

/-- The staging registers read back as nothing after every command (R210). -/
def clearStaging (cl : Nat) (s : State) : State :=
  setPair (secPg cl 0x140) 0 (setWords (secPg cl 0x100) (List.replicate 12 0) s)

/-- A decoded KEY_CMD (Table 11.3). -/
structure KeyOp where
  op : Nat
  sc : Nat
  an : Nat

def keyOpOf (v : Word) : KeyOp := { op := bits v 30 28, sc := bits v 13 8, an := bits v 1 0 }

/-- The word that spells a key command with GO. -/
def keyWord (op sc an : Nat) : Word := word (2 ^ 31 + op * 2 ^ 28 + sc * 2 ^ 8 + an)

def KeyOp.tx (k : KeyOp) : Bool := k.op == 2 || k.op == 4
def KeyOp.install (k : KeyOp) : Bool := k.op == 1 || k.op == 2

/-- Control register of the SC a key command names. -/
def keyScA (cl : Nat) (k : KeyOp) : Nat := if k.tx then txScA cl k.sc else rxScA cl k.sc

/-- CIPHER of the slot an SC is bound to. -/
def scCipher (s : State) (cl : Nat) (w : Word) : Nat := getF s (secPg cl (0x080 + 4 * bits w 26 24)) 29 28

/-- Reason 1: the encoding SA of a valid transmit SC, or an enabled receive SA (R210). -/
def keyInUse (w : Word) (k : KeyOp) : Bool :=
  if k.tx then bit w 31 && bit w k.an && (bits w 17 16 == k.an || bits w 23 22 == k.an)
  else bit w (4 + k.an)

/-- Why a key command fails; 0 where it does not (R210). -/
def keyRefusal (s : State) (cl : Nat) (k : KeyOp) : Nat :=
  let w := getReg s (keyScA cl k)
  let pn := getPair s (secPg cl 0x140)
  if k.op = 0 ∨ 4 < k.op then 3
  else if (k.tx && decide (31 < k.sc)) || !bit w 31 then 2
  else if keyInUse w k then 1
  else if getB s (secPg cl 0x0E0) 1 then 4
  else if k.install && (decide (pn = 0) || (!isXpn (scCipher s cl w) && decide (2 ^ 32 ≤ pn))) then 5
  else 0

/-- Install the staged SA (R210). -/
def keyInstall (cl : Nat) (k : KeyOp) (s : State) : State :=
  let a := keyScA cl k
  let c := scCipher s cl (getReg s a)
  let key := stagedOctets s (secPg cl 0x100) (if c % 2 = 1 then 8 else 4)
  let sa : SA := { key := key, salt := stagedOctets s (secPg cl 0x120) 3, ssci := (getReg s (secPg cl 0x12C)).toNat
                   nextPn := getPair s (secPg cl 0x140) }
  let kcv := beNat ((aesBlock key (List.replicate 16 0xA5)).take 4)
  let s1 := setB a k.an true (saPut (serving s cl) k.tx k.sc k.an sa s)
  let s2 := if k.tx then showPn cl k.sc (setB a (4 + k.an) false s1) else s1
  setReg (secPg cl 0x138) (word kcv) (setF (secPg cl 0x0E0) 3 2 0 s2)

/-- Remove an SA and erase its key (R210). -/
def keyRemove (cl : Nat) (tx : Bool) (sc an : Nat) (s : State) : State :=
  let a := if tx then txScA cl sc else rxScA cl sc
  let s1 := setB a an false (saErase (serving s cl) tx sc an s)
  if tx then showPn cl sc (setB a (4 + an) false s1) else s1

/-- A write of KEY_CMD (R210). -/
def keyCmd (cl : Nat) (v : Word) (s : State) : State :=
  let k := keyOpOf v
  let st := secPg cl 0x134
  if bit v 31 = false then s
  else if getF s st 1 0 = 1 then setB st 2 true s
  else
    match keyRefusal s cl k with
    | 0 =>
      let s1 := if k.install then keyInstall cl k s else keyRemove cl k.tx k.sc k.an s
      hwEvent (pgCl cl 2) 0 (setReg st 2 (clearStaging cl s1))
    | r => hwEvent (pgCl cl 2) 1 (setReg st (word (r * 256 + 3)) (clearStaging cl s))

/-- A write of SA_RD (R216). -/
def saRead (cl : Nat) (v : Word) (s : State) : State :=
  if bit v 31 = false then s
  else
    let tx := bit v 30
    let sc := bits v 13 8
    let an := bits v 1 0
    match saGet s (serving s cl) tx sc an with
    | none => setReg (secPg cl 0x154) 2 (setPair (secPg cl 0x14C) 0 s)
    | some x =>
      let ex := tx && getB s (txScA cl sc) (4 + an)
      setReg (secPg cl 0x154) (word (flag ex * 32 + 18)) (setPair (secPg cl 0x14C) (x.nextPn % 2 ^ 64) s)

/-- A write of TX_SC_CTRL_s (R211). -/
def txScWrite (cl sc : Nat) (v : Word) (s : State) : State :=
  let a := txScA cl sc
  let old := getF s a 17 16
  let new := bits v 17 16
  let s1 := setF a 17 16 old (storeRw a v s)
  if txSaUsable s1 cl sc new = true then setB a 8 true (setF a 17 16 new s1) else s1

/-- Is an SA of an SC bound to slot `i` installed? -/
def slotHasSa (s : State) (cl i : Nat) : Bool :=
  (List.range 32).any (fun n => let w := getReg s (txScA cl n); bits w 26 24 == i && bits w 3 0 != 0)
    || (List.range 64).any (fun n => let w := getReg s (rxScA cl n); bits w 26 24 == i && bits w 3 0 != 0)

/-- A write of SECY_CFG_i: CIPHER keeps its value while an SA of the slot is installed (R212). -/
def secyCfgWrite (cl i : Nat) (v : Word) (s : State) : State :=
  let a := secPg cl (0x080 + 4 * i)
  if slotHasSa s cl i then setF a 29 28 (getF s a 29 28) (storeRw a v s) else storeRw a v s

/-- Remove the SAs of a list of SCs bound to a slot of `mask`. -/
def dropSlotSas (cl mask : Nat) (tx : Bool) : List Nat → State → State
  | [], s => s
  | n :: r, s =>
    let w := getReg s (if tx then txScA cl n else rxScA cl n)
    let go := mask.testBit (bits w 26 24) && bits w 3 0 != 0
    dropSlotSas cl mask tx r (if go then
      keyRemove cl tx n 0 (keyRemove cl tx n 1 (keyRemove cl tx n 2 (keyRemove cl tx n 3 s))) else s)

/-- The restart of a reconfiguration removes the SAs of the masked slots (R212). -/
def dropMaskSas (cl mask : Nat) (s : State) : State :=
  dropSlotSas cl mask false (List.range 64) (dropSlotSas cl mask true (List.range 32) s)

/-- A key command written from port `p` on the page of cluster `cl`. -/
def keyWrite (p : CmdPort) (cl op sc an : Nat) (s : State) : State :=
  gatedWrite p (secPg cl 0x130) true (keyWord op sc an) (fun x => keyCmd (home x cl) (keyWord op sc an) x) s

/-- INSTALL_RX_SA (R210). -/
def execInstallRxSa (p : CmdPort) (cl : ClusterNo) (sc : Fin 64) (an : Fin 4) (s : State) : Out :=
  .next (keyWrite p cl 1 sc an s)

/-- INSTALL_TX_SA (R210). -/
def execInstallTxSa (p : CmdPort) (cl : ClusterNo) (sc : Fin 64) (an : Fin 4) (s : State) : Out :=
  .next (keyWrite p cl 2 sc an s)

/-- REMOVE_RX_SA (R210). -/
def execRemoveRxSa (p : CmdPort) (cl : ClusterNo) (sc : Fin 64) (an : Fin 4) (s : State) : Out :=
  .next (keyWrite p cl 3 sc an s)

/-- REMOVE_TX_SA (R210). -/
def execRemoveTxSa (p : CmdPort) (cl : ClusterNo) (sc : Fin 64) (an : Fin 4) (s : State) : Out :=
  .next (keyWrite p cl 4 sc an s)

/-- SA_READ (R216): a write of SA_RD from port `p`. -/
def execSaRead (p : CmdPort) (cl : ClusterNo) (v : Word) (s : State) : Out :=
  .next (gatedWrite p (secPg cl 0x148) true v (fun x => saRead (home x cl) v x) s)

/-- ENCODING_SA_WRITE (R211): a write of TX_SC_CTRL_s from port `p`. -/
def execEncodingSaWrite (p : CmdPort) (cl : ClusterNo) (sc : Fin 32) (v : Word) (s : State) : Out :=
  .next (gatedWrite p (txScA cl sc) true v (fun x => txScWrite (home x cl) sc v x) s)

end Sys2Proof.Machine
end

