-- ==== Sys2Proof/Machine/Crc.lean ====
section
/-! DEFINITION. The check codes the spec names: CRC-32 of IEEE 802.3 (R107, R111), CRC-32C (R75, R82) and the
general CRC of the check-value units, bit by bit over byte lists. -/

namespace Sys2Proof.Machine

/-- One bit of a reflected CRC held in a number. -/
def crcBit (poly c : Nat) : Nat := if c % 2 = 1 then (c / 2) ^^^ poly else c / 2

/-- One octet of a reflected CRC, least significant bit first. -/
def crcOctet (poly c : Nat) (b : Byte) : Nat :=
  crcBit poly (crcBit poly (crcBit poly (crcBit poly (crcBit poly (crcBit poly (crcBit poly (crcBit poly
    (c ^^^ b.toNat))))))))

/-- A reflected CRC over octets from a start value. -/
def crcRun (poly : Nat) : Nat → List Byte → Nat
  | c, [] => c
  | c, b :: r => crcRun poly (crcOctet poly c b) r

/-- CRC-32 of IEEE 802.3 (R107). -/
def crc32 (l : List Byte) : Nat := crcRun 0xEDB88320 0xFFFFFFFF l ^^^ 0xFFFFFFFF

/-- CRC-32C (R75, R82, Table 4.7). -/
def crc32c (l : List Byte) : Nat := crcRun 0x82F63B78 0xFFFFFFFF l ^^^ 0xFFFFFFFF

/-- The four FCS octets of a frame, in wire order. -/
def fcsOf (l : List Byte) : List Byte := leBytes (crc32 l) 4

/-- Does a frame end with its FCS? -/
def fcsGood (l : List Byte) : Bool := l.drop (l.length - 4) == fcsOf (l.take (l.length - 4))

/-- Hash bit of a group address in the multicast table (R111). -/
def mcHash (da : List Byte) : Nat := crc32 da % 4096

end Sys2Proof.Machine
end

