-- ==== Sys2Proof/Machine/NvStore.lean ====
section
/-! DEFINITION. The NV store: its bytes, writes and their wear, and the overlay record with its two copies
(21_calibration.md R369-R371, 16_offloads_and_check_values.md R303). -/

namespace Sys2Proof.Machine

/-- Base of copy A or B of the user overlay (Table 21.2). -/
def ovBase (b : Bool) : Nat := if b then 0x28000 else 0x10000

/-- Size of an overlay copy. -/
def ovSize : Nat := 0x18000

/-- An image body closed with its CRC-32C (Table 21.3). -/
def sealImage (body : List Byte) : List Byte := body ++ leBytes (crc32c body) 4

/-- The valid empty overlay with a write sequence (R371). -/
def emptyImage (seq : Nat) : List Byte :=
  sealImage (leBytes 0x4E484331 4 ++ leBytes 20 4 ++ leBytes 0 4 ++ leBytes seq 4)

/-- Copies of the overlay that a part leaves the factory with. -/
def shippedOverlay : List Byte := emptyImage 0

/-- The byte a location holds as shipped (R369); in the repair-map region a free value of read `n`. -/
def shippedByte (n a : Nat) : Byte :=
  if ovBase false ≤ a ∧ a < ovBase false + ovSize then byteAt shippedOverlay (a - ovBase false)
  else if ovBase true ≤ a ∧ a < ovBase true + ovSize then byteAt shippedOverlay (a - ovBase true)
  else if 0x40000 ≤ a ∧ a < 0x44000 then Config.mapByte n a
  else Config.nvByte a

/-- A byte of the store. -/
def nvByte (s : State) (a : Nat) : Byte := tabGet (shippedByte s.freeCount) s.nv.cells a

/-- `n` bytes of the store from `a` on. -/
def nvBytes (s : State) (a : Nat) : Nat → List Byte
  | 0 => []
  | n + 1 => nvByte s a :: nvBytes s (a + 1) n

/-- Store bytes; an address back at its shipped byte is not listed. -/
def putNv : Nat → List Byte → Tab Byte → Tab Byte
  | _, [], t => t
  | a, b :: r, t => putNv (a + 1) r (tabSet (shippedByte 0) t a b)

/-- One write more for `n` lines from line `l` on (R370). -/
def wearLines (l : Nat) : Nat → Tab Nat → Tab Nat
  | 0, t => t
  | n + 1, t => wearLines (l + 1) n (tabSet (fun _ => 0) t l (tabGet (fun _ => 0) t l + 1))

/-- Write bytes to the store. -/
def nvWrite (a : Nat) (d : List Byte) (s : State) : State :=
  { s with nv := { s.nv with
      cells := putNv a d s.nv.cells
      wear := wearLines (a / 64) ((a + d.length + 63) / 64 - a / 64) s.nv.wear } }

/-- Writes to the most-written line (Table 21.8). -/
def worstLine (s : State) : Nat := (s.nv.wear.map (fun x => x.2)).foldl max 0

/-- An overlay image: MAGIC, LENGTH and CRC hold (Table 21.3). -/
def imageWhole (l : List Byte) : Bool :=
  let n := leField l 4 4
  decide (leField l 0 4 = 0x4E484331) && decide (n = l.length) && decide (20 ≤ n) && decide (n ≤ ovSize)
    && decide (leField l (n - 4) 4 = crc32c (l.take (n - 4)))

/-- Copy B or A of the overlay, if it passes its check (R303). -/
def overlayCopy (s : State) (b : Bool) : Option (List Byte) :=
  let n := leField (nvBytes s (ovBase b) 8) 4 4
  let l := nvBytes s (ovBase b) (if n ≤ ovSize then n else 0)
  if imageWhole l then some l else none

/-- Write sequence of an image. -/
def imageSeq (l : List Byte) : Nat := leField l 12 4

/-- An image filled up with zeros to whole lines. -/
def wholeLines (l : List Byte) : List Byte := l ++ List.replicate ((64 - l.length % 64) % 64) 0

/-- Rewrite copy `b` from the copy used: PG_NV counts it (R303, R376). -/
def repairCopy (b : Bool) (l : List Byte) (s : State) : State :=
  hwEvent pgNv 0 (addF (adr pgNv 0x084) 15 0 1 (nvWrite (ovBase b) (wholeLines l) s))

/-- Read the overlay record; `okA` and `okB`: the media gave the copy undamaged (R303). -/
def readOverlay (okA okB : Bool) (s : State) : State × Option (List Byte) :=
  match (if okA then overlayCopy s false else none), (if okB then overlayCopy s true else none) with
  | some x, some y =>
    if imageSeq x = imageSeq y then (s, some x)
    else if imageSeq y < imageSeq x then (repairCopy true x s, some x)
    else (repairCopy false y s, some y)
  | some x, none => (repairCopy true x s, some x)
  | none, some y => (repairCopy false y s, some y)
  | none, none => (hwEvent pgNv 1 (addF (adr pgNv 0x088) 15 0 1 s), none)

/-- The next write sequence of the overlay: above that of both copies. -/
def nextSeq (s : State) : Nat :=
  1 + max (match overlayCopy s false with | some l => imageSeq l | none => 0)
    (match overlayCopy s true with | some l => imageSeq l | none => 0)

/-- An image with the write sequence of a copy (Table 21.3). -/
def stampSeq (seq : Nat) (l : List Byte) : List Byte :=
  sealImage (l.take 12 ++ leBytes seq 4 ++ (l.take (l.length - 4)).drop 16)

/-- Write copy A and then copy B with the next sequence (R303, R372). -/
def writeOverlay (l : List Byte) (s : State) : State :=
  let x := wholeLines (stampSeq (nextSeq s) l)
  nvWrite (ovBase true) x (nvWrite (ovBase false) x s)

/-- An empty overlay in both copies, every other line of them zero (R373). -/
def eraseOverlay (s : State) : State :=
  let x := emptyImage (nextSeq s)
  let z := x ++ List.replicate (ovSize - x.length) 0
  nvWrite (ovBase true) z (nvWrite (ovBase false) z s)

end Sys2Proof.Machine
end

