-- ==== Sys2Proof/Machine/RxPath.lean ====
section
/-! DEFINITION. MAC receive: outcomes, filters, flow control, merge reassembly, wake matching, and the hand-over to the
spreader queue (06_mac_receive.md R105-R124, R143, R145). -/

namespace Sys2Proof.Machine

/-- Key of an indirect table entry (Table 6.3). -/
def tblKey (cl table slot idx : Nat) : Nat := cl * 8192 + table * 1024 + (if 3 ≤ table then 0 else slot) * 128 + idx

def tblGet (s : State) (cl table slot idx : Nat) : DWord := tabGet (fun _ => 0) s.rx.tables (tblKey cl table slot idx)

/-- Bits of an entry that Table 6.3 gives as 0. -/
def tblMask : Nat → DWord
  | 0 => 0x8000FFFFFFFFFFFF
  | 5 => 0x1FF
  | _ => 0xFFFFFFFFFFFFFFFF

def tblPut (cl table slot idx : Nat) (v : DWord) (s : State) : State :=
  { s with rx := { s.rx with
      tables := tabSet (fun _ => 0) s.rx.tables (tblKey cl table slot idx) (v &&& tblMask table) } }

/-- Number of entries of a table (Table 6.3). -/
def tblSize : Nat → Nat
  | 0 => 64
  | 1 => 64
  | 2 => 64
  | 3 => 128
  | 4 => 16
  | 5 => 8
  | _ => 0

/-- The six octets of exact entry `i` of a port. -/
def exactAddr (s : State) (p i : Nat) : List Byte :=
  beBytes ((tblGet s (p / 8) 0 (p % 8) i).toNat % 2 ^ 48) 6

/-- A valid exact entry equals the address (R110). -/
def exactHit (s : State) (p : Nat) (da : List Byte) : Bool :=
  (List.range 64).any (fun i => (tblGet s (p / 8) 0 (p % 8) i).getLsbD 63 && exactAddr s p i == da)

def isBcast (da : List Byte) : Bool := da == List.replicate 6 0xFF
def isGroup (da : List Byte) : Bool := (byteAt da 0).getLsbD 0

/-- The address filter (R110). -/
def addrPass (s : State) (p : Nat) (f : List Byte) : Bool :=
  let w := rxCfg s p
  let da := slice f 0 6
  bit w 3 ||
    (if isBcast da then bit w 4
     else if isGroup da then
       bit w 5 || (tblGet s (p / 8) 1 (p % 8) (mcHash da / 64)).getLsbD (mcHash da % 64) || exactHit s p da
     else exactHit s p da)

/-- The VLAN filter (R112). -/
def vlanPass (s : State) (p : Nat) (f : List Byte) : Bool :=
  let w := rxCfg s p
  if bit w 6 = false then true
  else
    let tpid := beField f 12 2
    let vid := beField f 14 2 % 4096
    let tagged := tpid == 0x8100 || tpid == 0x88A8
    (tagged && (tblGet s (p / 8) 2 (p % 8) (vid / 64)).getLsbD (vid % 64)) || ((!tagged || vid == 0) && bit w 7)

/-- A MAC Control frame (R114). -/
def isMacCtrl (s : State) (p : Nat) (f : List Byte) : Bool :=
  decide (beField f 12 2 = 0x8808) &&
    (slice f 0 6 == [0x01, 0x80, 0xC2, 0x00, 0x00, 0x01] ||
      (bit (rxCfg s p) 13 && exactAddr s p 0 == slice f 0 6))

/-- Pause timer in quanta; key 16·port + priority, +8 for PAUSE. -/
def pauseOf (s : State) (k : Nat) : Nat := tabGet (fun _ => 0) s.rx.pause k

/-- TX_STATUS of a port (Table 10.5). -/
def txStA (p : Nat) : Nat := macA p (0x260 + 4 * (p % 8))

/-- The pause of a priority (8: the whole port) no longer runs: its watchdog trip clears (R196). -/
def untrip (p i : Nat) (s : State) : State :=
  if i = 8 then (if getF s (txStA p) 23 16 = 0 then s else setF (txStA p) 23 16 0 s)
  else if getB s (txStA p) (16 + i) then setB (txStA p) (16 + i) false s else s

/-- The pause state of a port: bits 0-7 the priorities, bit 8 PAUSE (R115). -/
def pauseBits (s : State) (p : Nat) : Nat :=
  ((List.range 9).map (fun i => if pauseOf s (16 * p + i) = 0 then 0 else 2 ^ i)).sum

/-- Set a pause timer: event 0 where one starts from 0 (R115, R123). The switch core sees every change of the state. -/
def setPause (p i q : Nat) (s : State) : State :=
  let k := 16 * p + i
  let s1 := { s with rx := { s.rx with pause := tabSet (fun _ => 0) s.rx.pause k q } }
  let s2 := if pauseBits s1 p = pauseBits s p then s1 else emit (.pause p (pauseBits s1 p)) s1
  if q = 0 then untrip p i s2
  else if pauseOf s k = 0 then hwEvent (pgCl (p / 8) 0) 0 s2 else s2

/-- End the timers of a list of keys. -/
def endPauses : List Nat → State → State
  | [], s => s
  | k :: r, s => endPauses r (setPause (k / 16) (k % 16) 0 s)

/-- Clear the pause timers that `q` selects by port (R116); a trip ends with its pause (R196). -/
def clearPauses (q : Nat → Bool) (s : State) : State :=
  endPauses ((s.rx.pause.map (fun x => x.1)).filter (fun k => q (k / 16))) s

/-- PFC: the enabled priorities of the vector at 16, times from 18 on (R114, R115). -/
def pfcRx (p : Nat) (f : List Byte) (act : Bool) : List Nat → State → State
  | [], s => s
  | i :: r, s =>
    pfcRx p f act r
      (if (byteAt f 17).getLsbD i then
         let s1 := addLive (rxCnt p (0xC0 + 4 * i)) 1 s
         if act then setPause p i (beField f (18 + 2 * i) 2) s1 else s1
       else s)

/-- A MAC Control frame of row 7 is consumed (R114, R115). -/
def macCtrlRx (p : Nat) (f : List Byte) (s : State) : State :=
  let mode := bits (rxCfg s p) 9 8
  match beField f 14 2 with
  | 0x0001 =>
    let s1 := addLive (rxCnt p 0xB8) 1 s
    if mode = 1 then setPause p 8 (beField f 16 2) s1 else s1
  | 0x0101 => pfcRx p f (mode == 2) (List.range 8) s
  | _ => addLive (rxCnt p 0xBC) 1 s

/-! ### Occupancy and the spreader queue -/

/-- Cells of a delivered frame. -/
def cellsOf (f : RxFrm) : Nat := (f.data.length + f.fcs.length + 255) / 256

def sumCells (cl : Nat) : List RxFrm → Nat
  | [] => 0
  | f :: r => (if f.port / 8 = cl then cellsOf f else 0) + sumCells cl r

def queueOf (s : State) (cl : Nat) : List RxFrm := tabGet (fun _ => []) s.dp.queues cl

/-- Cells of the 512-cell receive buffer in use (R13). -/
def rxUsed (s : State) (cl : Nat) : Nat :=
  sumCells cl (queueOf s cl) + sumCells cl (s.dp.dealt.map (fun d => d.frm))
    + sumCells cl (s.dp.held.map (fun h => h.frm)) + sumCells cl (s.dp.opened.map (fun x => x.2.frm))
    + (tabGet (fun _ => []) s.dp.cells cl).length

/-- R13: at least 64 cells are free. -/
def admits (s : State) (cl : Nat) : Bool := decide (rxUsed s cl + 64 ≤ 512)

/-- The shared parse configuration words 0x100 to 0x14C (R142). -/
def parseCfgWords (s : State) : List Word := (List.range 20).map (fun i => getReg s (adr (pgPipe 0) (0x100 + 4 * i)))

/-- A frame arrives at its spreader queue: taken, or shed (R143, R145, R58). -/
def spreadIn (f : RxFrm) (s : State) : State × Bool :=
  let cl := f.port / 8
  let q := queueOf s cl
  if q.length < 32 then
    let n := q.length + 1
    let s1 := { s with dp := { s.dp with queues := tabPut s.dp.queues cl (q ++ [f]) } }
    (if getF s1 (adr pgSpread 0x0C0) 5 0 < n then
       setF (adr pgSpread 0x0C0) 13 8 cl (setF (adr pgSpread 0x0C0) 5 0 n s1) else s1, true)
  else
    let s1 := addLive (adr pgSpread 0x0B8) 1 (addLive (adr pgSpread (0x800 + 4 * f.port)) 1 s)
    let s2 := { s1 with dp := { s1.dp with shedNs := some s1.tim.powered } }
    let s3 := if s2.ctl.mode = .safelight then
      { s2 with ctl := { s2.ctl with safe := { s2.ctl.safe with shedding := true } } } else s2
    (loupe 1 f.port 3 1 (hwEvent pgSpread 0 s3), false)

/-! ### Timestamps (R237, R238) -/

/-- Signed field of a TS_PORT word in 2^-16 ns. -/
def tsOffset (w : Word) (hi lo : Nat) : Int := signed 12 (bits w hi lo) * 4096

/-- The slice or cluster that serves a lane: 0 home, 8 slice 8, 64 or 65 a spare cluster (R100). -/
def serverOf (s : State) (lane : Nat) : Nat :=
  match s.prt.standIn.find? (fun x => x.2 == lane / 8) with
  | some (sp, _) => sp
  | none => if getB s (laneStA lane) 5 then 8 else 0

/-- A time in 2^-16 ns as seconds, nanoseconds and fraction. -/
def stampOf (t : Nat) : Stamp :=
  { sec := t / 2 ^ 16 / 1000000000 % 2 ^ 48, ns := t / 2 ^ 16 % 1000000000, frac := t % 2 ^ 16 }

/-- The word in force at a cluster is not LOCKED, or the cluster has no time word (R233, R234). -/
def unlockedAt (s : State) (cl : Nat) : Bool :=
  !(s.tim.vstate == 1) || !s.tim.on || !s.tim.acq.contains cl

/-- The lane of port `p`'s span at which a start block crosses the lane interface. -/
def startLane (s : State) (p k : Nat) : Nat :=
  match portShape s p with
  | some x => p + k % x.width
  | none => p

/-- T_rx of a frame whose start block crossed lane `l` of port `p` `age` units of 2^-16 ns ago (R237). -/
def stampRx (s : State) (p l age : Nat) : Stamp :=
  stampOf (((now16 s : Int) - age - tsOffset (getReg s (adr pgShutter (0x800 + 4 * p))) 31 20
    - Config.residual l (serverOf s l)).toNat)

/-- What the start of a frame on port `p` fixes: its stamp at the serving cluster (R237, R238), its SECY_CFG (R212). -/
def rxStart (s : State) (p k age : Nat) : RxStart :=
  { ts := stampRx s p (startLane s p k) age, unlocked := unlockedAt s (serving s (p / 8)), secy := secCfg s p }

/-! ### Wake frames (R120-R122) -/

/-- A magic frame for the port's exact entry 0. The synchronisation stream stands exactly at octet 12: R121 says 'from octet
12 on' and no search behind it (DEDUCED, log 47). -/
def isMagic (s : State) (p : Nat) (f : List Byte) : Bool :=
  let a := exactAddr s p 0
  let want := List.replicate 6 0xFF ++ (List.replicate 16 a).flatten
  bit (rxCfg s p) 11 && (tblGet s (p / 8) 0 (p % 8) 0).getLsbD 63
    && decide (12 + 102 ≤ f.length) && ((f.drop 12).take 102 == want)

/-- Wake pattern `k` of the port's cluster matches (Table 6.3). -/
def patternHit (s : State) (p : Nat) (f : List Byte) (k : Nat) : Bool :=
  let cl := p / 8
  let c := tblGet s cl 5 0 k
  c.getLsbD 8 && c.getLsbD (p % 8) &&
    (List.range 128).all (fun j =>
      !(tblGet s cl 4 0 (2 * k + j / 64)).getLsbD (j % 64) ||
        (decide (j < f.length) && byteAt f j ==
          BitVec.ofNat 8 ((tblGet s cl 3 0 (16 * k + j / 8)).toNat / 2 ^ (8 * (j % 8)))))

/-- The way a frame wakes, if it does: none for a magic frame, else the pattern. -/
def wakeMatch (s : State) (p : Nat) (f : List Byte) : Option (Option Nat) :=
  if isMagic s p f then some none
  else ((List.range 8).find? (patternHit s p f)).map some

/-- A command frame on a federation port (R78): wake source 6 instead of 4 (Table 18.6). -/
def isCommandFrame (s : State) (p : Nat) (f : List Byte) : Bool :=
  decide (beField f 12 2 = getF s (adr pgFed 0x080) 31 16) && (byteAt f 14 == 0x02)
    && (tabGet (fun _ => 0) s.nv.roles p).testBit 0

/-- The wake in progress began in this always-on cycle. -/
def wakeNow (s : State) : Bool :=
  s.pwr.wake.isSome && decide (getPair s (adr pgPower 0x098) / 20 = s.tim.powered / 20)

/-- A frame that matches (R121, R122): it wakes the complex and is held; of frames that match in one always-on cycle the first
of every cluster is held. One that comes while a wake is under way, whatever its source, is counted and not held: R122 speaks
of the match alone (DESIGN CHOICE, log 47). -/
def wakeFrame (p : Nat) (f got : List Byte) (m : Option Nat) (x : RxStart) (s : State) : State :=
  let cl := p / 8
  if s.pwr.wake.isSome ∧ (wakeNow s = false ∨ (tabFind s.rx.wakeHeld cl).isSome = true) then addLive (rxCnt p 0xB4) 1 s
  else
    let st := setReg (adr (pgCl cl 0) 0x0DC) (word (match m with
      | none => 256 * (p % 8) + 128 + 64
      | some k => 256 * (p % 8) + 128 + k)) (addLive (rxCnt p 0xF4) 1 s)
    let s1 := hwEvent (pgCl cl 0) 5 (noteWake (if isCommandFrame s p f then 6 else 4) cl st)
    { s1 with rx := { s1.rx with wakeHeld := tabPut s1.rx.wakeHeld cl { port := p, start := x, data := f, fcs := got } } }

/-! ### From the MAC to the spreader -/

/-- SAFELIGHT has stopped the port (Table 3.4 order 2). -/
def safeStopped (s : State) (p : Nat) : Bool := decide (s.ctl.mode = .safelight) && !s.nv.safeList.contains p

/-- FCS octets delivered (R107): as received, or computed over a frame that MACsec changed, bad where marked. -/
def fcsOut (s : State) (p : Nat) (f got : List Byte) (changed bad : Bool) : List Byte :=
  if bit (rxCfg s p) 2 = false then []
  else if bad then leBytes (crc32 f ^^^ 0xFFFFFFFF) 4
  else if changed then fcsOf f else got

/-- A frame ends whose place was taken when its first 208 octets were in (R119): `x` takes the place, or the number is
released as discarded (R108, R155). -/
def endOpen (p : Nat) (x : Option RxFrm) (s : State) : State :=
  let mine := fun (f : RxFrm) => f.pend && f.port == p
  let after := fun (f : RxFrm) => match x with
    | some y => y
    | none => { f with data := [], fcs := [], macDiscard := true, pend := false }
  let one := fun (f : RxFrm) => if mine f then after f else f
  let rec_ := fun (h : Held) =>
    if mine h.frm then
      (if (after h.frm).macDiscard then { h with fate := .discard, frm := { after h.frm with data := [], fcs := [] } }
       else { h with frm := after h.frm })
    else h
  { s with dp := { s.dp with
      queues := s.dp.queues.map (fun q => (q.1, q.2.map one))
      dealt := s.dp.dealt.map (fun d => { d with frm := one d.frm })
      held := s.dp.held.map rec_
      opened := s.dp.opened.map (fun o => (o.1, rec_ o.2)) } }

/-- Has the first cell of the port's open frame left: is its record released (R108)? -/
def openLeft (s : State) (p : Nat) : Bool :=
  match tabFind s.dp.opened p with
  | some h => h.frm.pend
  | none => false

/-- A frame enters its spreader queue, or takes the place that `slot` says it has there. -/
def enterQueue (slot : Bool) (f : RxFrm) (s : State) : State × Bool :=
  if slot then (endOpen f.port (some f) s, true) else spreadIn f s

/-- SAFELIGHT, SecY, VLAN filter and spreader queue for a frame of octets `f` that has passed the address filter (R122 lets a
held wake frame enter here). -/
def enterSecY (p : Nat) (f got : List Byte) (mark : Nat) (discard headLeft : Bool) (x : RxStart) (slot : Bool) (s : State) :
    State × Bool :=
  let row7 := decide (mark = 0) && !discard
  if safeStopped s p then (addLive (rxCnt p 0xB0) 1 s, false)
  else
    let o := secRx x.secy p f row7 s
    let st := if row7 then o.st else s
    if o.drop then (st, false)
    else if vlanPass st p o.data = false then (addLive (rxCnt p 0xA8) 1 st, false)
    else
      let late := o.bad && headLeft && decide (208 < f.length + 4)
      let s1 := if late then addLive (secCnt p 0x54) 1 st else st
      enterQueue slot { port := p, data := o.data
                        fcs := fcsOut s1 p o.data got (o.changed && mark != 8 && mark != 2) o.bad, secTag := o.tag
                        encrypted := o.enc, endMarks := if late then 8 else mark
                        macDiscard := discard || (o.bad && !late), ts := x.ts, unlocked := x.unlocked
                        cfg := parseCfgWords s1, pend := false } s1

/-- A listening cluster receives a frame in DIM that has passed the address filter (R121, R122). -/
def wakeIntake (p : Nat) (f got : List Byte) (row7 : Bool) (x : RxStart) (s : State) : State :=
  match (if row7 then wakeMatch s p f else none) with
  | none => if s.pwr.wake.isSome then addLive (rxCnt p 0xB4) 1 s else s
  | some m => wakeFrame p f got m x s

/-- Admission, MAC Control, address filter, and what lies behind it, for a frame of octets `f` (FCS removed, `got` its FCS
octets). `mark` is the end mark of a frame whose head has left, `discard` an error found in time. A MAC Control frame is taken
out before the filter and acted on in row 7 only (R110, R114). Answers whether the frame entered the spreader. -/
def intake (p : Nat) (f got : List Byte) (mark : Nat) (discard headLeft : Bool) (x : RxStart) (slot : Bool) (s : State) :
    State × Bool :=
  let row7 := decide (mark = 0) && !discard
  if s.ctl.mode ≠ .still ∧ slot = false ∧ admits s (p / 8) = false then (addLive (rxCnt p 0xAC) 1 s, false)
  else if isMacCtrl s p f then (if row7 then macCtrlRx p f s else s, false)
  else if addrPass s p f = false then (addLive (rxCnt p 0xA4) 1 s, false)
  else if s.ctl.mode = .still then (wakeIntake p f got row7 x s, false)
  else enterSecY p f got mark discard headLeft x slot s

/-- Index of the size counter of a frame length (Table 6.6). -/
def sizeBin (n : Nat) : Nat :=
  if n ≤ 64 then 0 else if n ≤ 127 then 1 else if n ≤ 255 then 2 else if n ≤ 511 then 3 else if n ≤ 1023 then 4
  else if n ≤ 1518 then 5 else if n ≤ 2047 then 6 else if n ≤ 4095 then 7 else if n ≤ 9216 then 8 else 9

/-- Octets of a frame and its bandwidth share (R109, R398). -/
def countOctets (p n : Nat) (s : State) : State :=
  let t := tabSet (fun _ => 0) s.loupe.rxSum p (tabGet (fun _ => 0) s.loupe.rxSum p + n + 20)
  addLive (rxCnt p 0x00) n { s with loupe := { s.loupe with rxSum := t } }

/-- A frame of rows 2, 3, 4 or 6: its error counter, and the frame itself where it is longer than 208 octets. -/
def errorFrame (p : Nat) (o : List Byte) (cnt late mark : Nat) (headLeft : Bool) (x : RxStart) (slot : Bool) (s : State) :
    State :=
  let s1 := loupe 1 p 2 1 (addLive (rxCnt p cnt) 1 s)
  if o.length ≤ 208 then s1
  else
    let f := o.take (o.length - 4)
    let r := intake p f (o.drop (o.length - 4)) (if headLeft then mark else 0) (!headLeft) headLeft x slot s1
    if headLeft && r.2 && decide (late ≠ 0) then addLive (rxCnt p late) 1 r.1 else r.1

/-- The outcome of Table 6.1 for a complete frame of octets `o`, FCS included (rows 2 to 7). -/
def rowsRx (p : Nat) (o : List Byte) (codeErr mergeErr headLeft : Bool) (x : RxStart) (slot : Bool) (s : State) : State :=
  let n := o.length
  let left := headLeft && bit (rxCfg s p) 1
  let o1 := o.take 16383
  let s0 := countOctets p o1.length s
  if codeErr then errorFrame p o1 0x9C 0xA0 4 left x slot s0
  else if 16383 < n then errorFrame p o1 0x8C 0 2 left x slot (hwEvent (pgCl (p / 8) 0) 2 s0)
  else if mergeErr then errorFrame p o1 0xE4 0 1 left x slot (hwEvent (pgCl (p / 8) 0) 1 s0)
  else if n < 64 then
    loupe 1 p 2 1 (addLive (rxCnt p (if fcsGood o1 then 0x80 else 0x84)) 1 s0)
  else
    let s1 := addLive (rxCnt p (0x30 + 8 * sizeBin n)) 1 s0
    if fcsGood o1 = false then errorFrame p o1 0x90 0x94 8 left x slot s1
    else
      let da := slice o1 0 6
      let s2 := addLive (rxCnt p (if isBcast da then 0x28 else if isGroup da then 0x20 else 0x18)) 1
        (addLive (rxCnt p 0x10) 1 (addLive (rxCnt p 0x08) n s1))
      let s3 := if bits (rxCfg s2 p) 29 16 < n then addLive (rxCnt p 0x88) 1 s2 else s2
      let s4 := loupe 1 p 1 n (loupe 1 p 0 1 s3)
      (intake p (o1.take (n - 4)) (o1.drop (n - 4)) 0 false left x slot s4).1

/-- A frame ends: its row, and the release of a place taken before its end that no delivery filled (R109, R119). -/
def finishRx (p : Nat) (o : List Byte) (codeErr mergeErr headLeft : Bool) (x : RxStart) (slot : Bool) (s : State) : State :=
  let s1 := rowsRx p o codeErr mergeErr headLeft x slot s
  if slot then endOpen p none s1 else s1

/-! ### MAC merge (R117, R118) -/

/-- MERGE_EN holds and the port is not faster than 400G. -/
def mergeOn (s : State) (p : Nat) : Bool :=
  bit (rxCfg s p) 10 && mergeSpeed s p

/-- Frame number of an SMD-S or SMD-C, fragment count of its octet (Table 6.4). -/
def smdS : Nat → Option Nat
  | 0xE6 => some 0
  | 0x4C => some 1
  | 0x7F => some 2
  | 0xB3 => some 3
  | _ => none

def smdC : Nat → Option Nat
  | 0x61 => some 0
  | 0x52 => some 1
  | 0x9E => some 2
  | 0x2A => some 3
  | _ => none

/-- SMD-S`n`, and the fragment count `n`, as sent (Table 6.4). -/
def smdOctet (n : Nat) : Byte :=
  match n % 4 with
  | 0 => 0xE6
  | 1 => 0x4C
  | 2 => 0x7F
  | _ => 0xB3

/-- SMD-C`n` as sent (Table 6.4). -/
def contOctet (n : Nat) : Byte :=
  match n % 4 with
  | 0 => 0x61
  | 1 => 0x52
  | 2 => 0x9E
  | _ => 0x2A

/-- A fragment ends with its mCRC: the CRC of the fragment XOR 0x0000_FFFF. -/
def mcrcGood (o : List Byte) : Bool :=
  o.drop (o.length - 4) == leBytes (crc32 (o.take (o.length - 4)) ^^^ 0x0000FFFF) 4

def setMerge (p : Nat) (m : Option MergeRx) (s : State) : State :=
  let t := match m with
    | some x => tabPut s.rx.merge p x
    | none => tabErase s.rx.merge p
  { s with rx := { s.rx with merge := t } }

/-- The open frame of a port is errored: row 4 (R118), or row 2 where a code error ends it. Where it was handed over, its head
has left once its record is released. -/
def mergeError (p : Nat) (extra : List Byte) (codeErr headLeft : Bool) (s : State) : State :=
  match tabFind s.rx.merge p with
  | none => s
  | some m =>
    finishRx p (m.octets ++ extra) codeErr true (if m.handed then openLeft s p else headLeft) m.start m.handed
      (setMerge p none s)

/-- The first 208 octets of an open frame are in (R119): a frame that admission, the filters and the SecY would pass takes its
place in the spreader queue, where its end is awaited, or is shed there. What stands behind the octets received is not yet known: one octet
stands for it, which the parse window does not reach. -/
def handOver (p : Nat) (m : MergeRx) (s : State) : MergeRx × State :=
  if m.handed ∨ m.octets.length < 208 ∨ s.ctl.mode = .still then (m, s)
  else if admits s (p / 8) = false ∨ isMacCtrl s p m.octets = true ∨ addrPass s p m.octets = false ∨ safeStopped s p = true then
    (m, s)
  else
    match secHead m.start.secy p m.octets s with
    | none => (m, s)
    | some (d, tag, enc) =>
      if vlanPass s p d = false then (m, s)
      else
        let r := spreadIn { port := p, data := d ++ [0], fcs := [], secTag := tag, encrypted := enc, endMarks := 0
                            macDiscard := false, ts := m.start.ts, unlocked := m.start.unlocked, cfg := parseCfgWords s
                            pend := true } s
        ({ m with handed := true }, r.1)

/-- A fragment joins octets `so far`: it closes the frame with a valid FCS, keeps it open with a valid mCRC, or errs it. -/
def mergeStep (p : Nat) (m : MergeRx) (o : List Byte) (codeErr headLeft : Bool) (s : State) : State :=
  let left := if m.handed then openLeft s p else headLeft
  let all := m.octets ++ o
  if codeErr then finishRx p all true false left m.start m.handed (setMerge p none s)
  else if fcsGood all then
    finishRx p all false false left m.start m.handed
      (setMerge p none (if 2 ≤ m.fragments then addLive (rxCnt p 0xE0) 1 s else s))
  else if mcrcGood o then
    let r := handOver p { m with octets := m.octets ++ o.take (o.length - 4) } s
    setMerge p (some r.1) r.2
  else finishRx p all false true left m.start m.handed (setMerge p none s)

/-- An SMD-S opens a preemptable frame; an open one is errored first. -/
def mergeStart (p num : Nat) (o : List Byte) (codeErr headLeft : Bool) (x : RxStart) (s : State) : State :=
  mergeStep p { number := num, nextCount := 0, octets := [], fragments := 1, start := x, handed := false } o codeErr headLeft
    (mergeError p [] false headLeft s)

/-- An SMD-C continues the open frame. An SMD-C with no frame open is counted, and event 1 MERGE_ERR latched for it as for a
reassembly error: R123 names the event and no cause (DESIGN CHOICE, log 47). -/
def mergeCont (p num count : Nat) (o : List Byte) (codeErr headLeft : Bool) (s : State) : State :=
  let s1 := addLive (rxCnt p 0xEC) 1 s
  match tabFind s.rx.merge p with
  | none => hwEvent (pgCl (p / 8) 0) 1 (addLive (rxCnt p 0xE8) 1 s1)
  | some m =>
    if m.number = num ∧ m.nextCount = count then
      mergeStep p { m with nextCount := (count + 1) % 4, fragments := m.fragments + 1 } o codeErr headLeft s1
    else mergeError p o codeErr headLeft s1

end Sys2Proof.Machine
end

