-- ==== Sys2Proof/Machine/MemOps.lean ====
section
/-! DEFINITION. The die memory port: regions, records, requests and their answers (23_loupe_and_memory.md R400-R402,
13_timestamps_and_shutter.md R247, 01_boundary_and_pins.md R19). Users: 0 LOUPE archive, 1 timestamp log, 2 federation
journal. -/

namespace Sys2Proof.Machine

/-- RECORD_LEN of the archive (R399). -/
def archLen (s : State) : Nat :=
  let w := getReg s (adr pgLoupe 0x088)
  64 + 1024 * ((List.range 8).filter (fun b => bit w (16 + b))).length + 2048 * flag (bit w 30)

/-- Bytes of one record of a user. -/
def recordLen (s : State) (u : Nat) : Nat := if u = 0 then s.loupe.recLen else 32

def regionBase (s : State) (r : Nat) : Nat := getPair s (adr pgMem (0x090 + 16 * r))
def regionSize (s : State) (r : Nat) : Nat := getPair s (adr pgMem (0x098 + 16 * r))

/-- REGION_CTRL.VALID of a region. -/
def regionValid (s : State) (r : Nat) : Bool := getB s (adr pgMem 0x088) r

/-- Records a region holds. -/
def ringSize (s : State) (u : Nat) : Nat := regionSize s u / recordLen s u

/-- The WR and RD registers of a user's ring. -/
def wrA (u : Nat) : Nat := match u with | 0 => adr pgLoupe 0x08C | 1 => adr pgShutter 0x0A4 | _ => adr pgFed 0x120
def rdA (u : Nat) : Nat := match u with | 0 => adr pgLoupe 0x090 | 1 => adr pgShutter 0x0A8 | _ => adr pgFed 0x124

/-- A record of a user is lost: its drop counter and event (R247, R391, R399). -/
def recordDrop (u : Nat) (s : State) : State :=
  match u with
  | 0 => hwEvent pgLoupe 1 (addF (adr pgLoupe 0x094) 31 0 1 s)
  | 1 => hwEvent pgShutter 17 (addLive (adr pgShutter 0x094) 1 s)
  | _ => hwEvent pgFed 8 (addF (adr pgFed 0x128) 31 0 1 s)

def nextIndex (s : State) (u : Nat) : Nat := tabGet (fun _ => 0) s.mem.next u

/-- The lowest index of a user among records not yet answered. -/
def lowestRec (u : Nat) : List MemRec → Option Nat
  | [] => none
  | m :: r =>
    match (if m.user = u then some m.index else none), lowestRec u r with
    | some a, some b => some (min a b)
    | some a, none => some a
    | none, x => x

/-- WR follows the answers; each advance latches the user's event (R247, R399). -/
def advanceWr (u : Nat) (s : State) : State :=
  let w := word ((lowestRec u s.mem.recs).getD (nextIndex s u))
  if getReg s (wrA u) = w then s
  else
    let s1 := setReg (wrA u) w s
    match u with
    | 0 => hwEvent pgLoupe 0 s1
    | 1 => hwEvent pgShutter 18 s1
    | _ => s1

/-- Largest write: 512 bytes, and never across a boundary of the interleave grain (R400). -/
def memChunk : Nat := max 64 (min 512 (2 ^ Config.grain.toNat))

/-- The requests of a record at `addr`. -/
def splitWrites (u i : Nat) : Nat → Nat → List Byte → List MemReq
  | 0, _, _ => []
  | f + 1, addr, d =>
    if d = [] then []
    else
      let n := memChunk - addr % memChunk
      { user := u, index := i, addr := addr, data := d.take n } :: splitWrites u i f (addr + n) (d.drop n)

/-- The request that writes `d` at `addr`: whole 64-byte lines under a byte mask (R400). -/
def lineWrite (addr : Nat) (d : List Byte) : Emit :=
  .memWrite (addr - addr % 64) (addr % 64) d ((64 - (addr + d.length) % 64) % 64)

/-- Issue requests while fewer than 64 are outstanding, in issue order (R400). -/
def memPump : Nat → State → State
  | 0, s => s
  | f + 1, s =>
    if 64 ≤ s.mem.outstanding.length then s
    else
      match s.mem.queue with
      | [] => s
      | [] :: r => memPump f { s with mem := { s.mem with queue := r } }
      | (q :: qs) :: r =>
        memPump f (emit (lineWrite q.addr q.data) { s with mem := { s.mem with
          queue := if qs = [] then r else qs :: r, outstanding := s.mem.outstanding ++ [q] } })

/-- All that can be issued now. -/
def memGo (s : State) : State := memPump (65 + s.mem.queue.length) s

/-- Address of record `i` of a user (R247, R399, Table 23.4). -/
def recordAddr (s : State) (u i : Nat) : Nat :=
  let j := if u = 0 then i - s.loupe.ringBase else i
  regionBase s u + recordLen s u * (j % ringSize s u)

/-- A user's record is issued under the ring rules of R247; `mk` lays it out for its index. -/
def issueRecord (u : Nat) (mk : Nat → List Byte) (s : State) : State :=
  let i := nextIndex s u
  if regionValid s u = false ∨ s.mem.closing.contains u = true
      ∨ ringSize s u < (i + 1 + 2 ^ 32 - (getReg s (rdA u)).toNat) % 2 ^ 32 then recordDrop u s
  else if 256 ≤ s.mem.queue.length then hwEvent pgMem 3 (recordDrop u s)
  else
    let d := mk i
    let reqs := splitWrites u i (d.length + 1) (recordAddr s u i) d
    memGo { s with mem := { s.mem with
      queue := s.mem.queue ++ [reqs]
      recs := s.mem.recs ++ [{ user := u, index := i, left := reqs.length, bad := false }]
      next := tabSet (fun _ => 0) s.mem.next u ((i + 1) % 2 ^ 64) } }

/-- One write of a record is over. -/
def countAnswer (q : MemReq) (bad : Bool) : List MemRec → List MemRec
  | [] => []
  | m :: r =>
    if m.user = q.user ∧ m.index = q.index then
      (if m.left ≤ 1 then r else { m with left := m.left - 1, bad := m.bad || bad } :: r)
    else m :: countAnswer q bad r

/-- Was the record of this request already lost? -/
def wasBad (q : MemReq) (l : List MemRec) : Bool := l.any (fun m => m.user == q.user && m.index == q.index && m.bad)

/-- Requests of a user that are queued or outstanding. -/
def userBusy (s : State) (u : Nat) : Bool :=
  s.mem.outstanding.any (fun q => q.user == u) || s.mem.queue.any (fun l => l.any (fun q => q.user == u))

/-- An invalidation takes effect once the region's writes are answered (R401). -/
def settleRegion (u : Nat) (s : State) : State :=
  if s.mem.closing.contains u = true ∧ userBusy s u = false then
    setB (adr pgMem 0x088) u false { s with mem := { s.mem with closing := setErase s.mem.closing u } }
  else s

/-- An outstanding request ends; `ok` is an answer without error. -/
def endRequest (i : Nat) (q : MemReq) (ok : Bool) (s : State) : State :=
  let lost := !ok && !wasBad q s.mem.recs
  let s1 := { s with mem := { s.mem with
    outstanding := s.mem.outstanding.eraseIdx i, recs := countAnswer q (!ok) s.mem.recs } }
  let s2 := if lost then recordDrop q.user s1 else s1
  memGo (settleRegion q.user (advanceWr q.user s2))

/-! ### Regions (R401) -/

/-- Why region `r` cannot be validated, if it cannot: 1 ALIGN, 2 SIZE, 3 OVERLAP. -/
def regionRefusal (s : State) (r : Nat) : Option Nat :=
  let b := regionBase s r
  let z := regionSize s r
  let g := 2 ^ Config.grain.toNat
  if b % g ≠ 0 ∨ z % g ≠ 0 then some 1
  else if z < (if r = 0 then archLen s else 32) then some 2
  else if (List.range 3).any (fun q => q != r && regionValid s q
      && decide (b < regionBase s q + regionSize s q) && decide (regionBase s q < b + z)) then some 3
  else none

/-- A 1 or 0 written to one VALID bit. -/
def regionBit (r : Nat) (v : Bool) (s : State) : State :=
  if v then
    if regionValid s r then s
    else
      match regionRefusal s r with
      | some k => hwEvent pgMem 2 (setReg (adr pgMem 0x08C) (word (k * 16 + r)) s)
      | none =>
        setB (adr pgMem 0x088) r true s
  else if regionValid s r then
    settleRegion r { s with mem := { s.mem with closing := setInsert s.mem.closing r } }
  else s

/-- A write of REGION_CTRL (R401). -/
def regionWrite (v : Word) (s : State) : State := regionBit 2 (bit v 2) (regionBit 1 (bit v 1) (regionBit 0 (bit v 0) s))

/-- A write to a ring read index takes effect only within range (R247). -/
def ringRdWrite (u : Nat) (v : Word) (s : State) : State :=
  if ((getReg s (wrA u)).toNat + 2 ^ 32 - v.toNat) % 2 ^ 32 ≤ ringSize s u then setReg (rdA u) v s else s

end Sys2Proof.Machine
end

