-- ==== Sys2Proof/Machine/RegStore.lean ====
section
/-! DEFINITION. Storing a written register: plain registers, write-only staging, and the 64-bit pairs of R42. -/

namespace Sys2Proof.Machine

/-- The pair code of the register at `a`: 1 _LO, 2 _HI, 0 neither. -/
def pairCode (a : Nat) : Nat :=
  match rowAt a with
  | some r => r.pair
  | none => 0

/-- Store every bit software can write, write-only staging included. -/
def storeAny (a : Nat) (v : Word) (s : State) : State :=
  match rowAt a with
  | some r => setReg a ((getReg s a &&& ~~~(r.rw ||| r.wo)) ||| (v &&& (r.rw ||| r.wo))) s
  | none => s

/-- The low half that a write of the _HI at `w` from port `p` commits: the held one, else `cur` (R42). -/
def heldLow (s : State) (p : CmdPort) (w : Nat) (cur : Word) : Word :=
  match tabFind s.win.held (pageKey p (pageOf w)) with
  | some (lo, v) => if lo + 4 = w then v else cur
  | none => cur

/-- A write of a _LO is held (R42). -/
def holdLow (p : CmdPort) (a : Nat) (v : Word) (s : State) : State :=
  { s with win := { s.win with held := tabPut s.win.held (pageKey p (pageOf a)) (a, v) } }

/-- Forget the held _LO of a port on a page. -/
def releaseLow (p : CmdPort) (page : Nat) (s : State) : State :=
  { s with win := { s.win with held := tabErase s.win.held (pageKey p page) } }

/-- A write of a plain register: a _LO is held, a _HI commits both halves, others are stored (R42). `w` is the address
as written, `a` where the register lives. -/
def storePair (p : CmdPort) (w a : Nat) (v : Word) (s : State) : State :=
  match pairCode a with
  | 1 => holdLow p w v s
  | 2 =>
    let lo := heldLow s p w (getReg s (a - 4))
    storeAny a v (storeAny (a - 4) lo (releaseLow p (pageOf w) s))
  | _ => storeAny a v s

end Sys2Proof.Machine
end

