-- ==== Sys2Proof/Machine/FedWatch.lean ====
section
/-! DEFINITION. What the federation agent watches: the disagreements of Table 22.4, withdrawal and the time source, with
the federation journal (22_federation.md R377, R387, R390, R391), and UNCERT (12_time_engine.md R222). -/

namespace Sys2Proof.Machine

def fedA (off : Nat) : Nat := adr pgFed off

/-- MEMBER_ID and FED_SIZE. -/
def ownId (s : State) : Nat := getF s (fedA 0x080) 9 0
def fedSize (s : State) : Nat := getF s (fedA 0x084) 10 0

/-- The federation is enabled (R377). -/
def fedEnabled (s : State) : Bool := decide (1 < fedSize s) && decide (ownId s < fedSize s)

/-- Modes in which the agent acts (R380). -/
def fedActive (s : State) : Bool := s.ctl.mode == .run || s.ctl.mode == .test || s.ctl.mode == .safelight

/-- One record of the federation journal (Table 22.5). -/
def fjRecord (s : State) (event member detail i : Nat) : List Byte :=
  leBytes s.tim.powered 8 ++ leBytes event 2 ++ leBytes member 2 ++ leBytes detail 4 ++ leBytes i 8 ++ leBytes 0 8

/-- Write a journal record (R391). -/
def fjWrite (event member detail : Nat) (s : State) : State := issueRecord 2 (fjRecord s event member detail) s

/-- Other members that are present. -/
def presentOthers (s : State) : Tab Member := s.fed.members.filter (fun x => x.2.present && x.1 != ownId s)

/-- VERSION_ID and CONFIG_DIGEST of a heartbeat body (Table 22.2). -/
def bodyVersion (b : List Byte) : Nat := beField b 16 4 % 2 ^ 28
def bodyDigest (b : List Byte) : Nat := beField b 28 8

/-- Own VERSION_ID: that of the CURRENT slot (Table 9.1). -/
def ownVersion (s : State) : Nat :=
  match (List.range 4).find? (fun x => getF s (adr pgVersion (0x080 + 4 * x)) 29 28 = 2) with
  | some x => getF s (adr pgVersion (0x080 + 4 * x)) 27 0
  | none => 0

/-- Own CONFIG_DIGEST. -/
def ownDigest (s : State) : Nat := getPair s (fedA 0x09C)

/-- Members whose value differs from the own one. -/
def differing (value : List Byte → Nat) (own : Nat) (s : State) : List Nat :=
  ((presentOthers s).filter (fun x => value x.2.body != own)).map (fun x => x.1)

/-- A member's value for a journal record: that of its latest body. -/
def memberValue (s : State) (value : List Byte → Nat) (m : Nat) : Nat :=
  match tabFind s.fed.members m with
  | some x => value x.body
  | none => 0

/-- Journal every member of a list under one event. -/
def fjEach (event : Nat) (value : List Byte → Nat) : List Nat → State → State
  | [], s => s
  | m :: r, s => fjEach event value r (fjWrite event m (memberValue s value m % 2 ^ 32) s)

/-- Onsets and clearings between two lists of members (Table 22.4): journal records, and the page's event when the
count rises from 0. -/
def disagree (onset evt : Nat) (value : List Byte → Nat) (old new : List Nat) (s : State) : State :=
  let s1 := fjEach onset value (new.filter (fun m => !old.contains m)) s
  let s2 := fjEach (onset + 1) value (old.filter (fun m => !new.contains m)) s1
  if old.isEmpty && !new.isEmpty then hwEvent pgFed evt s2 else s2

/-- Version and digest of every present member are compared (R387). -/
def fedCompare (s : State) : State :=
  let v := differing bodyVersion (ownVersion s) s
  let d := differing bodyDigest (ownDigest s) s
  let s1 := disagree 3 2 bodyVersion s.fed.versionOn v { s with fed := { s.fed with versionOn := v } }
  disagree 5 3 bodyDigest s.fed.digestOn d { s1 with fed := { s1.fed with digestOn := d } }

/-- UNCERT in ns (R222): whole ns. -/
def uncert (s : State) : Nat :=
  if s.tim.vstate = 0 then 2 ^ 32 - 1
  else
    let t := (s.tim.powered + 2 ^ 64 - s.tim.measNs) % 2 ^ 64
    let drift := (t - s.tim.offNs) * getF s (adr pgTime 0x08C) 23 0 + s.tim.offNs * 5000000
    min (2 ^ 32 - 1) (max 1 (getF s (adr pgTime 0x084) 23 0) + s.tim.e.natAbs / 2 ^ 48 + drift / 10 ^ 9)

/-- Own time is beyond bound (R390). -/
def mustWithdraw (s : State) : Bool :=
  s.tim.vstate != 1 || s.tim.disjoint || s.fed.overBound || decide ((getReg s (fedA 0x090)).toNat < uncert s)

/-- Withdrawal as a time source, and its end (R390). -/
def fedWithdraw (s : State) : State :=
  let w := mustWithdraw s
  if s.fed.withdrawn = w then s
  else
    let s1 := fjWrite (if w then 7 else 8) (ownId s) 0 { s with fed := { s.fed with withdrawn := w } }
    if w then hwEvent pgFed 4 s1 else s1

/-- The member named in TIME_SOURCE is absent after it was heard, has withdrawn, or is the own number (R390). -/
def sourceGone (s : State) : Bool :=
  let m := getF s (fedA 0x094) 15 0
  if m = 0xFFFF then false
  else if m = ownId s then true
  else
    match tabFind s.fed.members m with
    | some x => !x.present || (byteAt x.body 12).getLsbD 5
    | none => false

/-- SOURCE_LOST and its end (R390). -/
def fedSource (s : State) : State :=
  let g := sourceGone s
  let s1 := { s with fed := { s.fed with sourceLost := g } }
  if g = true ∧ s.fed.sourceLost = false then
    fjWrite 12 (getF s (fedA 0x094) 15 0) 0 (hwEvent pgFed 7 s1)
  else s1

/-- The agent's watch. -/
def fedWatch (s : State) : State := if fedActive s then fedSource (fedWithdraw (fedCompare s)) else s

end Sys2Proof.Machine
end

