-- ==== Sys2Proof/Machine/ShutterOps.lean ====
section
/-! DEFINITION. SHUTTER channels: the grid of leading edges, pulses, and what corrections do to them
(13_timestamps_and_shutter.md R249-R253). Times are in 2^-16 ns. -/

namespace Sys2Proof.Machine

/-- A register of channel `c` (Table 13.6). -/
def chA (c off : Nat) : Nat := adr pgShutter (0x100 + 0x40 * c + off)

def sec16 : Nat := 10 ^ 9 * 2 ^ 16

def Chan.periodic (x : Chan) : Bool := bits x.cfg 1 0 == 2
def Chan.align (x : Chan) : Bool := bit x.cfg 3
def Chan.freeRun (x : Chan) : Bool := bit x.cfg 2
def Chan.wakes (x : Chan) : Bool := bit x.cfg 4

/-- Edges of one second of an aligned grid: k × PERIOD ≤ 10^9 ns − PERIOD ÷ 2 (R250). -/
def perSecond (x : Chan) : Nat := (2 * sec16 - x.period) / (2 * x.period) + 1

/-- Number of grid edges that lie before `t`, from an origin common to every `t` (R250). -/
def edgesBefore (x : Chan) (t : Nat) : Int :=
  if x.align then
    if t ≤ x.start then 0
    else
      let d := t - x.start
      ((d / sec16 * perSecond x + min (perSecond x) ((d % sec16 + x.period - 1) / x.period) : Nat) : Int)
  else -(((x.start : Int) - t) / (x.period : Int))

/-- The first grid edge at or after `t` (R250). -/
def firstEdge (x : Chan) (t : Nat) : Nat :=
  let j := edgesBefore x t
  if x.align then x.start + j.toNat / perSecond x * sec16 + j.toNat % perSecond x * x.period
  else ((x.start : Int) + j * x.period).toNat

/-- The edge placed to the nearest 0.125 ns (R250). -/
def placeEdge (t : Nat) : Nat := (t + 2 ^ 12) / 2 ^ 13 * 2 ^ 13

def chanOf (s : State) (c : Nat) : Option Chan := tabFind s.shut.chans c

def setChan (c : Nat) (x : Chan) (s : State) : State := { s with shut := { s.shut with chans := tabPut s.shut.chans c x } }

def dropChan (c : Nat) (s : State) : State := { s with shut := { s.shut with chans := tabErase s.shut.chans c } }

/-- A channel's state in CH_STATUS. -/
def chState (c v : Nat) (s : State) : State := setF (chA c 0x08) 1 0 v s

def chHigh (s : State) (c : Nat) : Bool := getB s (chA c 0x08) 8

/-- The levels that the pulses in progress give the balls. -/
def pulseLevels (s : State) : BitVec 8 :=
  BitVec.ofNat 8 ((List.range 8).foldl (fun n c => n + flag (chHigh s c) * 2 ^ c) 0)

/-- The balls follow the pulses unless held (R28, R251). -/
def driveShutter (s : State) : State :=
  if s.ctl.pins.timeHeld then s
  else { s with ctl := { s.ctl with pins := { s.ctl.pins with shutter := pulseLevels s } } }

/-- A pulse of channel `c` begins or ends. -/
def setPulse (c : Nat) (b : Bool) (s : State) : State := driveShutter (setB (chA c 0x08) 8 b s)

/-- Edges that were not issued: skipped count and event 8 + c (R252). -/
def skipEdges (c n : Nat) (s : State) : State :=
  if n = 0 then s else hwEvent pgShutter (8 + c) (addF (chA c 0x2C) 31 0 n s)

/-- A jump of time of day from `t0` to `t1` for channel `c` (R252). -/
def jumpChan (t0 t1 c : Nat) (s : State) : State :=
  match chanOf s c with
  | none => s
  | some x =>
    match x.next with
    | none => s
    | some e =>
      if x.periodic then
        let n := if t0 < t1 ∧ e < t1 then (edgesBefore x t1 - edgesBefore x e).toNat else 0
        let e1 := if t1 < t0 then firstEdge x t1 else if e < t1 then firstEdge x t1 else e
        skipEdges c (n + x.missed) (setChan c { x with next := some e1, missed := 0 } s)
      else if e < t1 ∨ x.missed ≠ 0 then skipEdges c 1 (chState c 2 (setChan c { x with next := none, missed := 0 } s))
      else s

/-- Every channel follows a jump of time of day (R252, R253). -/
def shutterJump (t0 t1 : Nat) (s : State) : State :=
  [0, 1, 2, 3, 4, 5, 6, 7].foldl (fun x c => jumpChan t0 t1 c x) s

end Sys2Proof.Machine
end

