-- ==== Sys2Proof/Machine/TimeOps.lean ====
section
/-! DEFINITION. The time engine: validity, measurements, steps, slews, references (12_time_engine.md R218-R232). -/

namespace Sys2Proof.Machine

def timA (off : Nat) : Nat := adr pgTime off

/-- 1 ns in the engine's units of 2^-48 ns (R218). -/
def nsUnit : Nat := 2 ^ 48

/-- Time of day counts 2^48 seconds. -/
def todSpan : Nat := 2 ^ 48 * 10 ^ 9 * 2 ^ 48

/-- LOCK_BOUND; 0 acts as 1 ns. -/
def lockBound (s : State) : Nat := max 1 (getF s (timA 0x084) 23 0) * nsUnit

/-- 10 ms (R231). -/
def disjointBound : Nat := 10000000 * nsUnit

/-- REF_SEL; 3 acts as 0 (Table 12.2). -/
def refSel (s : State) : Nat := let v := getF s (timA 0x080) 1 0; if v = 3 then 0 else v

def pllSrc (s : State) : Bool := getB s (timA 0x080) 2

/-- Change of time of day by a slew or a step. -/
def addTod (m : Int) (s : State) : State :=
  { s with tim := { s.tim with tod := (((s.tim.tod : Int) + m) % (todSpan : Int)).toNat } }

/-- Slewed by `m`: R and E change by the same signed amount (R228). -/
def slewBy (m : Int) (s : State) : State :=
  let s1 := addTod m s
  { s1 with tim := { s1.tim with e := s1.tim.e - m, r := s1.tim.r - m } }

/-- Slew per time-island cycle: SLEW_PPM × 10^-6 ns to the nearest 2^-48 ns (R229, log entry 20). -/
def slewStep (s : State) : Nat :=
  let p := getF s (timA 0x080) 14 8
  ((if p = 0 then 1 else min p 100) * nsUnit + 500000) / 1000000

/-- Whole nanoseconds of a signed value in 2^-48 ns, toward zero. -/
def wholeNs (m : Int) : Int := if 0 ≤ m then m / (nsUnit : Int) else -((-m) / (nsUnit : Int))

/-- A signed value held to 32 bits. -/
def satSigned (m : Int) : Nat := unsigned 32 (max (-(2 ^ 31)) (min (2 ^ 31 - 1) m))

/-! ### Validity (R221, R230, R231) -/

/-- The state that Table 12.1 gives now. -/
def validityOf (s : State) : Nat :=
  if s.tim.set = false then 0
  else if s.tim.refOk && s.tim.measured && decide (s.tim.e.natAbs ≤ lockBound s) then 1
  else 2

/-- Entry to LOCKED: LOCK_NS, SLEPT cleared, the forward arm set (R221, R230, R232). -/
def enterLocked (s : State) : State :=
  let s1 := setPair (timA 0x0F8) s.tim.powered s
  { s1 with tim := { s1.tim with slept := false, stepArmed := true } }

/-- STEP_ARMED as it reads: 0 in UNSET, where a step needs no arm (R230). -/
def stepShown (s : State) : Bool := s.tim.stepArmed && decide (s.tim.vstate ≠ 0)

/-- A change of validity state (R221). -/
def setValidity (v : Nat) (s : State) : State :=
  if s.tim.vstate = v then s
  else
    let s1 := hwEvent pgTime 0 { s with tim := { s.tim with vstate := v } }
    let s2 := if s.tim.vstate = 1 then addF (timA 0x0EC) 15 0 1 s1 else s1
    if v = 1 then enterLocked s2 else s2

/-- TIME_DISJOINT follows |E| (R231). -/
def setDisjoint (d : Bool) (s : State) : State :=
  let s1 := { s with tim := { s.tim with disjoint := d }
                     ctl := { s.ctl with faults := { s.ctl.faults with disjoint := d } } }
  if s.tim.disjoint = false ∧ d = true then hwEvent pgTime 3 (addF (timA 0x0F0) 15 0 1 s1) else s1

/-- The evaluation of R221 and R231 at a time-island cycle; the federation agent follows it (R390). -/
def timeEval (s : State) : State :=
  if s.tim.on = false then s
  else
    let s1 := setValidity (validityOf s) s
    fedWatch (setDisjoint (s1.tim.vstate != 0 && decide (disjointBound < s1.tim.e.natAbs)) s1)

/-! ### References (R223-R225) -/

/-- A fall of REF_OK latches event 5. -/
def refFall (s : State) : State :=
  if s.tim.refOk then hwEvent pgTime 5 { s with tim := { s.tim with refOk := false } } else s

/-- The reference edge is given up: the next edge is a starting edge (R224). -/
def dropEdge (s : State) : State := { s with tim := { s.tim with ppsRef := none, ppsGood := 0 } }

/-- The PLL leaves TIME_REF_IN (R225). -/
def pllLoss (s : State) : State :=
  let s1 := { s with tim := { s.tim with pllLocked := false, pllFallback := true } }
  let s2 := if s.tim.pllLocked then hwEvent pgTime 6 s1 else s1
  if refSel s = 1 then refFall s2 else s2

/-- The PLL takes the source that PLL_SRC selects, after a changeover (R225). -/
def pllReturn (s : State) : State := { s with tim := { s.tim with pllLocked := true, pllFallback := false } }

/-! ### Corrections (R226-R228) -/

/-- A measurement: LAST_MEAS, and the time it was made (R222, R228). -/
def measure (m : Int) (s : State) : State :=
  let s1 := setReg (timA 0x0D0) (word (satSigned (wholeNs m))) s
  { s1 with tim := { s1.tim with measured := true, measNs := s1.tim.powered, offNs := 0 }
            fed := { s1.fed with overBound := false } }

/-- The due time of a timed commit in 2^-48 ns (R177). -/
def commitDue (s : State) : Nat :=
  (getPair s (adr pgVersion 0x0A8) % 2 ^ 48 * 1000000000 + getF s (adr pgVersion 0x0B0) 29 0) * nsUnit

/-- A forward step from time of day `t` has passed the due time of a timed commit: it is in force at the next dealing boundary,
LATE (Table 12.4). -/
def stepPast (t : Nat) (s : State) : State :=
  match s.cls.commit with
  | some c =>
    if c.now = none ∧ t < commitDue s ∧ commitDue s ≤ s.tim.tod then
      { s with cls := { s.cls with commit := some { c with late := true } } }
    else s
  | none => s

/-- A step that is taken (R228); SHUTTER channels follow it (R252). -/
def takeStep (m : Int) (s : State) : State :=
  let s0 := stepPast s.tim.tod (addTod m s)
  let s1 := shutterJump (now16 s) (now16 s0) s0
  let s2 := { s1 with tim := { s1.tim with e := 0, r := 0, set := true, stepArmed := false, armM := false } }
  hwEvent pgTime 1 (setB (timA 0x0BC) 9 (decide (m < 0)) (addF (timA 0x0E0) 15 0 1 s2))

/-- OP 2 (R228). -/
def startSlew (m : Int) (s : State) : State := { s with tim := { s.tim with e := m, r := m } }

/-- The step decision of Table 12.3. -/
def stepTaken (s : State) (m : Int) : Bool :=
  !s.tim.set || !s.tim.stepOnce || (s.tim.stepArmed && (decide (0 < m) || s.tim.armM))

/-- OP 1 (and OP 4 at its edge): the state, and OUTCOME. -/
def opStep (m : Int) (s : State) : State × Nat :=
  let s1 := measure m s
  if stepTaken s1 m then (takeStep m s1, 1)
  else (startSlew m (addF (timA 0x0E4) 15 0 1 s1), 2)

/-- OP 2. In UNSET it only records M. -/
def opSlew (m : Int) (s : State) : State × Nat :=
  let s1 := measure m s
  if s1.tim.set then (startSlew m s1, 3) else (s1, 4)

/-- OP 3. In UNSET it only records M. -/
def opReport (m : Int) (s : State) : State × Nat :=
  let s1 := measure m s
  (if s1.tim.set then { s1 with tim := { s1.tim with e := m } } else s1, 4)

/-- A command completes: OUTCOME, event 7, the state evaluated (R236). -/
def adjDone (x : State × Nat) : State :=
  timeEval (hwEvent pgTime 7 (setF (timA 0x0BC) 7 4 x.2 (setF (timA 0x0BC) 1 0 2 x.1)))

/-- ADJ_OFFSET as a signed value in 2^-48 ns. -/
def adjOffset (s : State) : Int := signed 64 (getPair s (timA 0x0B0)) * 2 ^ 32

/-- An accepted ADJ_CMD of OP 1 to 3 makes the software reference good (Table 12.2). -/
def softRef (s : State) : State :=
  if refSel s = 2 then { s with tim := { s.tim with refOk := true } } else s

/-- A write of ADJ_CMD (R228, Table 12.4). -/
def adjCmd (v : Word) (s : State) : State :=
  let op := bits v 2 0
  if bit v 31 = false ∨ op = 0 ∨ 4 < op then s
  else if s.tim.setAtPps.isSome then setB (timA 0x0BC) 8 true s
  else
    let s1 := setB (timA 0x0BC) 8 false s
    if op = 4 then
      if refSel s1 ≠ 1 ∨ s1.tim.ppsPresent = false then adjDone (s1, 6)
      else
        setF (timA 0x0BC) 7 4 0 (setF (timA 0x0BC) 1 0 1
          { s1 with tim := { s1.tim with setAtPps := some (getPair s1 (timA 0x0B0) % 2 ^ 48) } })
    else
      let s2 := softRef s1
      if op = 1 then adjDone (opStep (adjOffset s2) s2)
      else if op = 2 then adjDone (opSlew (adjOffset s2) s2)
      else adjDone (opReport (adjOffset s2) s2)

/-- A committed TICK_INCR: clamped to its range (R227). -/
def clampIncr (v : Nat) : Nat := max (2 ^ 32 - 2 ^ 22) (min (2 ^ 32 + 2 ^ 22) v)

/-- The commit of TICK_INCR by the write `v` of _HI from port `p` (R42, R227). -/
def tickCommit (p : CmdPort) (v : Word) (s : State) : State :=
  let lo := heldLow s p (timA 0x0AC) (getReg s (timA 0x0A8))
  let x := flag (bit v 0) * 2 ^ 32 + lo.toNat
  let s1 := setPair (timA 0x0A8) (clampIncr x) (releaseLow p pgTime s)
  { s1 with tim := { s1.tim with clamped := decide (x ≠ clampIncr x) } }

/-- TIME_CFG of `s` has become that of `s1`, by a write or from a calibration (R223-R225): a new REF_SEL is not yet good; a new
PLL_SRC or REF_FREQ changes over. -/
def cfgMoved (s s1 : State) : State :=
  let a := timA 0x080
  let s2 :=
    if refSel s1 = refSel s then s1
    else refFall (if refSel s1 = 1 then dropEdge s1 else s1)
  if getF s1 a 3 2 = getF s a 3 2 then s2
  else if pllSrc s1 = false then pllReturn s2
  else
    let x := { s2 with tim := { s2.tim with pllLocked := false, pllFallback := true } }
    let y := if pllSrc s = true ∧ s.tim.pllLocked = true then hwEvent pgTime 6 x else x
    if s.tim.pllLocked = true ∧ refSel y = 1 then refFall y else y

/-- A write of TIME_CFG. -/
def timeCfgWrite (v : Word) (s : State) : State := timeEval (cfgMoved s (storeRw (timA 0x080) v s))

/-! ### The PPS input (R224) -/

/-- PPS_DELAY in 2^-48 ns. -/
def ppsDelay (s : State) : Nat := getF s (timA 0x0D8) 23 0 * 2 ^ 40

/-- Time of day at an edge `phase` eighths of a nanosecond into the cycle. -/
def edgeTime (s : State) (phase : Nat) : Nat := s.tim.tod / 2 ^ 45 * 2 ^ 45 + phase * 2 ^ 45

/-- One second in 2^-48 ns. -/
def secUnit : Nat := 10 ^ 9 * nsUnit

/-- The measurement M of a good edge at `t` (R224). -/
def ppsMeasure (s : State) (t : Nat) : Int :=
  let x : Int := (t : Int) - ppsDelay s
  (x + (secUnit / 2 : Nat)) / (secUnit : Int) * secUnit + ppsDelay s - t

/-- PPS_LAST: signed, 2^-8 ns, saturating. -/
def ppsLast (m : Int) : Nat :=
  satSigned (if 0 ≤ m then m / (2 ^ 40 : Nat) else -((-m) / (2 ^ 40 : Nat)))

/-- A good edge: the step of SET_AT_PPS first, then the measurement (R224, R228, Table 12.4). -/
def goodEdge (phase : Nat) (s : State) : State :=
  let s1 := { s with tim := { s.tim with
    ppsRef := some s.tim.powered, ppsGood := min 3 (s.tim.ppsGood + 1), ppsPresent := true } }
  let s2 := if refSel s1 = 1 ∧ 3 ≤ s1.tim.ppsGood ∧ (pllSrc s1 = false ∨ s1.tim.pllLocked = true) then
      { s1 with tim := { s1.tim with refOk := true } } else s1
  let s3 := match s2.tim.setAtPps with
    | some sec =>
      let m : Int := (sec * secUnit + ppsDelay s2 : Nat) - (edgeTime s2 phase : Int)
      adjDone (opStep m { s2 with tim := { s2.tim with setAtPps := none } })
    | none => s2
  if refSel s3 = 1 then
    let m := ppsMeasure s3 (edgeTime s3 phase)
    timeEval (opReport m (setReg (timA 0x0DC) (word (ppsLast m)) s3)).1
  else timeEval s3

/-- A bad edge (R224). -/
def badEdge (s : State) : State :=
  let s1 := dropEdge (hwEvent pgTime 4 (addF (timA 0x0E8) 15 0 1 s))
  timeEval (if refSel s1 = 1 then refFall s1 else s1)

/-- A rising edge of TIME_PPS_IN (R224). -/
def ppsEdge (phase : Nat) (s : State) : State :=
  if s.tim.on = false then s
  else
    match s.tim.ppsRef with
    | none => { s with tim := { s.tim with ppsRef := some s.tim.powered, ppsGood := 0 } }
    | some t =>
      let d := s.tim.powered - t
      if 999999000 ≤ d ∧ d ≤ 1000001000 then goodEdge phase s else badEdge s

/-! ### Passage of time (R218, R219, R229) -/

/-- One always-on or time-island cycle passes. -/
def timeTick (s : State) : State :=
  if s.tim.on then
    let s0 := { s with tim := { s.tim with powered := (s.tim.powered + 1) % 2 ^ 64 } }
    let s1 := addTod ((getPair s0 (timA 0x0A8) : Int) * 2 ^ 16) s0
    if s1.tim.r = 0 then timeEval s1
    else
      let m : Int := min s1.tim.r.natAbs (slewStep s1)
      let s2 := slewBy (if 0 < s1.tim.r then m else -m) s1
      timeEval (if s2.tim.r = 0 then hwEvent pgTime 2 s2 else s2)
  else
    let s0 := { s with tim := { s.tim with powered := (s.tim.powered + 20) % 2 ^ 64, offNs := s.tim.offNs + 20 } }
    addTod ((getPair s0 (timA 0x0A8) : Int) * 20 * 2 ^ 16) s0

/-! ### The island powers down and up (R232) -/

def timeIslandOff (s : State) : State :=
  let s1 := dropEdge s
  let s2 := { s1 with tim := { s1.tim with on := false, acq := [], setAtPps := none } }
  if s.tim.setAtPps.isSome then
    hwEvent pgTime 7 (setF (timA 0x0BC) 7 4 6 (setF (timA 0x0BC) 1 0 2 s2))
  else s2

/-- The island runs again: the edges that fell due meanwhile are skipped (R232, R253). The PLL has to lock to TIME_REF_IN anew,
and REF_OK falls with it, or where a failed bank leaves no reference (R223, Table 12.2). -/
def timeIslandOn (s : State) : State :=
  let s0 := shutterJump 0 (now16 s) s
  let s1 := { s0 with tim := { s0.tim with on := true, slept := true, measured := false } }
  let s2 := if pllSrc s1 then { s1 with tim := { s1.tim with pllLocked := false, pllFallback := true } } else pllReturn s1
  timeEval (if refSel s1 = 0 ∨ (refSel s1 = 1 ∧ pllSrc s1 = true) then refFall s2 else s2)

end Sys2Proof.Machine
end

