-- ==== Sys2Proof/Machine/FixQueue.lean ====
section
/-! DEFINITION. The decision queue of FIXER (19_fixer_repair.md R342, Table 19.6). -/

namespace Sys2Proof.Machine

/-- Urgent, then forced, then planned (R342). -/
def kindRank : Nat → Nat
  | 1 => 2
  | 2 => 1
  | _ => 0

/-- Is a decision for this unit waiting? -/
def queuedUnit (s : State) (u : UnitId) : Bool := s.fix.queue.any (fun d => d.unit == u)

/-- Two decisions for one unit: the more urgent kind is kept, with what a FORCE_REPAIR asked for (R342). -/
def mergeTwo (x d : Decision) : Decision :=
  let w := if kindRank x.kind < kindRank d.kind then d else x
  let f := if d.forced then d else x
  { w with op := f.op, spare := f.spare, forced := x.forced || d.forced, testOnly := x.testOnly && d.testOnly }

/-- A second decision for a queued unit is merged with it (R342). -/
def mergeDecision (d : Decision) : List Decision → List Decision
  | [] => []
  | x :: r => if x.unit = d.unit then mergeTwo x d :: r else x :: mergeDecision d r

/-- A decision that no FORCE_REPAIR asked for. -/
def newDecision (u : UnitId) (kind cause : Nat) : Decision :=
  { unit := u, kind := kind, cause := cause, op := 0, spare := 0xFF, shadow := kind == 0, testOnly := false
    forced := false, detail := 0 }

/-- The queue without its newest planned entry. -/
def dropPlanned : List Decision → List Decision
  | [] => []
  | x :: r => if x.kind = 0 ∧ r.any (fun y => y.kind == 0) = false then r else x :: dropPlanned r

/-- A decision joins the queue of 16; a full queue drops a planned one and gives an urgent one the newest planned
entry's place (Table 19.6). -/
def queueDecision (d : Decision) (s : State) : State :=
  let q := s.fix.queue
  let q1 :=
    if queuedUnit s d.unit then mergeDecision d q
    else if q.length < 16 then q ++ [d]
    else if d.kind = 1 ∧ q.any (fun y => y.kind == 0) = true then dropPlanned q ++ [d]
    else q
  { s with fix := { s.fix with queue := q1 } }

end Sys2Proof.Machine
end

