-- ==== Sys2Proof/Machine/RxQueue.lean ====
section
/-! DEFINITION. Queue contexts of the host DMA island, and what a receive queue answers to a frame: its posted buffers, the
refusals of Table 14.4 and the overflow queue (14_host_rings.md R255-R257, R263, R264, R269, R270). -/

namespace Sys2Proof.Machine

/-! ### Contexts -/

/-- A queue as HOLD leaves it: LOG2_SIZE 6, all else 0 (Table 14.8). -/
def queue0 : Queue :=
  { base := 0, word2 := 0x00600000, pi := 0, ci := 0, stable := 0, reason := 0, errIndex := 0, frozen := false
    next := 0, fetches := [], pre := [], chain := [], frames := [], held := [] }

def ring0 : Ring := { base := 0, word2 := 0x00600000, wbAddr := 0, pi := 0, ci := 0, wb := 0 }

/-- A transmit (`rx` false) or receive queue. -/
def getQ (s : State) (rx : Bool) (q : Nat) : Queue := tabGet (fun _ => queue0) (if rx then s.dma.rxq else s.dma.txq) q

def setQ (rx : Bool) (q : Nat) (x : Queue) (s : State) : State :=
  if rx then { s with dma := { s.dma with rxq := tabSet (fun _ => queue0) s.dma.rxq q x } }
  else { s with dma := { s.dma with txq := tabSet (fun _ => queue0) s.dma.txq q x } }

def getR (s : State) (c : Nat) : Ring := tabGet (fun _ => ring0) s.dma.cq c

def setR (c : Nat) (x : Ring) (s : State) : State :=
  { s with dma := { s.dma with cq := tabSet (fun _ => ring0) s.dma.cq c x } }

/-- Fields of CTX_DATA_2. -/
def ctxOn (w : Word) : Bool := bit w 31
def ctxSafe (w : Word) : Bool := bit w 30
def ctxLife (w : Word) : Bool := bit w 29
def ctxK (w : Word) : Nat := bits w 24 20
def ctxRing (w : Word) : Nat := bits w 19 8
def ctxFn (w : Word) : Nat := bits w 7 0

/-- RESET_STATUS.IN_RESET of a function. -/
def inReset (s : State) (f : Nat) : Bool := getB s (adr (pgFn f) 0x084) 0

/-- An index modulo 2^(k+1) (R256). -/
def wrap (k i : Nat) : Nat := i % 2 ^ (k + 1)

/-- Does entry `i` belong to the complex (R257)? -/
def owned (x : Queue) (i : Nat) : Bool := decide (ringDist (ctxK x.word2) x.ci i < ringDist (ctxK x.word2) x.ci x.pi)

/-- Counter `n` of a function's page, in the order of Table 14.11. -/
def fnCount (f n : Nat) (s : State) : State := addF (adr (pgFn f) (0x180 + 4 * n)) 31 0 1 s

/-- State of a queue (Table 14.9). -/
def queueState (s : State) (rx : Bool) (q : Nat) : Nat :=
  let x := getQ s rx q
  if ctxOn x.word2 && inReset s (ctxFn x.word2) then 6
  else if ctxOn x.word2 = false then 0
  else if x.reason ≠ 0 then 4
  else if x.frozen then 5
  else if !rx && decide (64 ≤ x.held.length + x.frames.length) then 3
  else if x.pi ≠ x.ci then 2
  else 1

/-- State of a completion ring. -/
def ringState (s : State) (c : Nat) : Nat :=
  let x := getR s c
  if ctxOn x.word2 && inReset s (ctxFn x.word2) then 6 else if ctxOn x.word2 then 1 else 0

/-- Does the host DMA island serve its queues: a mode that runs it (Table 3.1), and not itself under test (R61)? -/
def dmaRuns (s : State) : Bool :=
  islandOn s 71 && match s.ctl.mode with
    | .run => true
    | .test => true
    | .safelight => true
    | _ => false

/-- May the queue fetch and take descriptors? -/
def queueRuns (s : State) (x : Queue) : Bool :=
  dmaRuns s && ctxOn x.word2 && !inReset s (ctxFn x.word2) && decide (x.reason = 0) && !x.frozen

/-- A queue enters ERROR (R270). -/
def queueError (rx : Bool) (q reason idx : Nat) (s : State) : State :=
  let x := getQ s rx q
  if x.reason ≠ 0 ∨ inReset s (ctxFn x.word2) = true then s
  else
    hwEvent (pgDma 0) 0 (hwEvent (pgFn (ctxFn x.word2)) 0
      (setQ rx q { x with reason := reason, errIndex := idx, chain := [], pre := [] } s))

def ringRoom (x : Ring) : Bool := decide (ringDist (ctxK x.word2) x.ci x.pi < 2 ^ ctxK x.word2)

/-! ### Receive refusals (R263, R264, R269) -/

/-- Is a receive descriptor good (R263, R270)? Its error reason otherwise. -/
def rxDescError (d : List Byte) : Option Nat :=
  let len := leField d 8 2
  if leField d 10 1 ≠ 0x10 then some 2
  else if len % 64 ≠ 0 ∨ len < 256 ∨ 16384 < len ∨ leField d 0 8 % 64 ≠ 0 then some 3
  else if leField d 11 1 ≠ 0 ∨ leField d 12 8 ≠ 0 ∨ leField d 24 8 ≠ 0 then some 5
  else none

/-- What the posted buffers of a queue are to a frame of `n` bytes. -/
inductive Fit
  /-- Entries used, first to last. -/
  | fits (l : List (List Byte))
  | small
  /-- An owned entry is not held yet. -/
  | waiting
  | bad (idx reason : Nat)

/-- Walk the posted entries from `i` until they hold `n` bytes. -/
def fitFrom (x : Queue) : Nat → Nat → Nat → List (List Byte) → Fit
  | 0, _, _, _ => .small
  | f + 1, i, n, acc =>
    if owned x i = false then .small
    else
      match tabFind x.pre i with
      | none => .waiting
      | some e =>
        if e.usable = false then .waiting
        else
          match rxDescError e.bytes with
          | some r => .bad i r
          | none =>
            let l := leField e.bytes 8 2
            if n ≤ l then .fits (acc ++ [e.bytes]) else fitFrom x f (wrap (ctxK x.word2) (i + 1)) (n - l) (acc ++ [e.bytes])

/-- Rows 1 to 4 of Table 14.4 for queue `q`: none where the frame can be delivered, or must wait for its entries. -/
def rxRefusal (s : State) (q n : Nat) : Option Nat :=
  let x := getQ s true q
  if ctxOn x.word2 = false then some 1
  else if x.reason ≠ 0 ∨ x.frozen = true ∨ inReset s (ctxFn x.word2) = true then some 2
  else
    match fitFrom x 128 x.next n [] with
    | .small => some 3
    | .bad _ _ => some 2
    | _ => if ringRoom (getR s (ctxRing x.word2)) then none else some 4

/-- A punt or copy is refused: PUNT_DROP and event 0 of PG_CLASS (R171). -/
def puntDrop (s : State) : State := hwEvent pgClass 0 (addLive (adr pgClass 0x0C4) 1 s)

/-- Must the frame wait for descriptors that are posted and not yet read? -/
def rxWaits (s : State) (q n : Nat) : Bool :=
  let x := getQ s true q
  match fitFrom x 128 x.next n [] with
  | .waiting => queueRuns s x
  | _ => false

/-- The counter of a refusal (Table 14.4). -/
def countRefusal (q row : Nat) (s : State) : State :=
  let f := ctxFn (getQ s true q).word2
  match row with
  | 1 => addF (adr (pgDma 0) 0x098) 31 0 1 s
  | 2 => fnCount f 6 s
  | 3 => fnCount f 4 s
  | _ => fnCount f 5 s

/-- A frame that is not delivered (R269, R171). -/
def rxDrop (q row : Nat) (s : State) : State :=
  puntDrop (hwEvent (pgFn (ctxFn (getQ s true q).word2)) 2 (countRefusal q row s))

/-- The overflow queue that takes a refused frame of queue `q` (R269). -/
def overflowOf (s : State) (q row n : Nat) : Option Nat :=
  let x := getQ s true q
  let f := ctxFn x.word2
  let w := getReg s (adr (pgDma 13) (0x800 + 4 * f))
  let o := bits w 11 0
  if row ≠ 1 ∧ ctxLife x.word2 = true ∧ inReset s f = false ∧ bit w 16 = true ∧ ctxFn (getQ s true o).word2 = f
      ∧ rxRefusal s o n = none ∧ rxWaits s o n = false then some o else none

/-- A bad descriptor puts the queue in ERROR first (R270). -/
def rxCheck (q n : Nat) (s : State) : State :=
  let x := getQ s true q
  match fitFrom x 128 x.next n [] with
  | .bad i r => if queueRuns s x then queueError true q r i s else s
  | _ => s

end Sys2Proof.Machine
end

