-- ==== Sys2Proof/Machine/DpOps.lean ====
section
/-! DEFINITION. The rotation, the reorder store, drain counts and the flow-key channels
(08_spreading_and_reorder.md R146-R159, 09_classifier_and_versions.md R164, 01_boundary_and_pins.md R10-R16). -/

namespace Sys2Proof.Machine

/-! ### Pipes and the ring -/

/-- PIPE_STATE of a pipe. -/
def pipeSt (p : Nat) : Nat := adr (pgPipe p) 0x080

/-- PIPE_STATE.STATE: 0 powered down, 1 in rotation, 2 spare, 3 under test, 4 condemned (Table 7.9). -/
def pipeState (s : State) (p : Nat) : Nat := getF s (pipeSt p) 2 0

/-- Change PIPE_STATE.STATE; event 1 of the pipe's page (R141). -/
def setPipe (p v : Nat) (s : State) : State :=
  if pipeState s p = v then s else hwEvent (pgPipe p) 1 (setF (pipeSt p) 2 0 v s)

/-- Home pipe of ring position `k` (R146). -/
def homePipe (k : Nat) : Nat := 12 * (k % 4) + k / 4

/-- Ring position of a home pipe. -/
def homePos (p : Nat) : Nat := 4 * (p % 12) + p / 12

/-- The ring at PROOF (R146). -/
def ringHome : List (Option Nat) := (List.range 48).map (fun k => some (homePipe k))

/-- The pipe at ring position `k`. -/
def ringAt (s : State) (k : Nat) : Option Nat := s.dp.ring.getD k none

def setRing (k : Nat) (x : Option Nat) (s : State) : State := { s with dp := { s.dp with ring := s.dp.ring.set k x } }

/-- The ring position that pipe `p` holds. -/
def posOf (s : State) (p : Nat) : Option Nat := (List.range 48).find? (fun k => ringAt s k == some p)

/-- Is parse quarter `q` powered (QUARTER_CTRL.POWERED)? -/
def quarterOn (s : State) (q : Nat) : Bool := getB s (adr pgSpread 0x08C) (16 + q)

/-- The spare pipe that a migration has taken (R343). -/
def takenPipe (s : State) (p : Nat) : Bool :=
  match s.fix.mig with
  | some m => m.dec.unit.type == 2 && m.spare == p
  | none => false

/-- Free spares in powered quarters, rising (R149). -/
def freeSpares (s : State) : List Nat :=
  (List.range 48).filter (fun p => pipeState s p == 2 && quarterOn s (p / 12) && !takenPipe s p)

/-- Pipes in rotation, rising. -/
def inRotation (s : State) : List Nat := (List.range 48).filter (fun p => pipeState s p == 1)

/-- Pipes of PP04-PP11 used as substitutes since the SAFELIGHT entry. -/
def safeUsed (s : State) : List Nat :=
  match s.dp.before with
  | some b => b.used
  | none => []

/-- Pipes that may take a position in SAFELIGHT, first choice first (R150): its home pipe `home` where that is a free spare,
then PP04-PP11 but the condemned and those already used in this way. -/
def safePicks (s : State) (home : Nat) (used : List Nat) : List Nat :=
  (if pipeState s home = 2 then [home] else [])
    ++ ((List.range 8).map (fun i => i + 4)).filter (fun p =>
      decide (pipeState s p ≠ 4) && decide (pipeState s p ≠ 1) && !used.contains p)

/-- The pipes that may replace pipe `p`, first choice first (R149, R150). -/
def substitutes (s : State) (p : Nat) : List Nat :=
  match s.ctl.mode with
  | .safelight => safePicks s (match posOf s p with | some k => homePipe k | none => 48) (safeUsed s)
  | _ => freeSpares s

/-- The substitute for a pipe that leaves the rotation. -/
def substitute (s : State) (p : Nat) : Option Nat := (substitutes s p).head?

/-- The rotation has changed (R147). -/
def rotationChanged (s : State) : State := hwEvent pgSpread 1 s

/-- A pipe used as a substitute in SAFELIGHT is noted (R150). -/
def noteUsed (x : Nat) (s : State) : State :=
  match s.dp.before with
  | some b => { s with dp := { s.dp with before := some { b with used := setInsert b.used x } } }
  | none => s

/-- Put pipe `x` in rotation at position `k`. -/
def joinAt (k x : Nat) (s : State) : State := setPipe x 1 (setRing k (some x) (noteUsed x s))

/-- Replace pipe `p` by a substitute, if there is one, at one dealing boundary; `v` is the state `p` takes. -/
def replacePipe (p v : Nat) (sub : Option Nat) (s : State) : State :=
  let s1 := match posOf s p, sub with
    | some k, some x => joinAt k x s
    | _, _ => s
  rotationChanged (setPipe p v s1)

/-- The first position after `k`, within 48, whose pipe is in rotation (R146). -/
def nextPos (s : State) : Nat → Nat → Option (Nat × Nat)
  | 0, _ => none
  | f + 1, k =>
    match ringAt s (k % 48) with
    | some p => if pipeState s p = 1 then some (k % 48, p) else nextPos s f (k + 1)
    | none => nextPos s f (k + 1)

/-- Frames in a pipe (PIPE_STATE.IN_FLIGHT). -/
def inFlight (s : State) (p : Nat) : Nat := (s.dp.dealt.filter (fun d => d.pipe == p)).length

/-! ### Drain counts (R164) -/

def drainA (slot : Nat) : Nat := adr pgVersion (0x090 + 4 * slot)
def slotA (slot : Nat) : Nat := adr pgVersion (0x080 + 4 * slot)

/-- SLOT_s.STATE: 0 FREE, 1 LOADED, 2 CURRENT, 3 DRAINING. -/
def slotState (s : State) (slot : Nat) : Nat := getF s (slotA slot) 29 28

def setSlot (slot v : Nat) (s : State) : State := setF (slotA slot) 29 28 v s

/-- The CURRENT slot. -/
def currentSlot (s : State) : Option Nat := (List.range 4).find? (fun x => slotState s x == 2)

/-- VERSION_TAG of a slot (Table 9.1). -/
def slotTag (s : State) (slot : Nat) : Word := getReg s (slotA slot) &&& 0xCFFFFFFF

/-- VERSION_TAG of the CURRENT slot. -/
def currentTag (s : State) : Word :=
  match currentSlot s with
  | some x => slotTag s x
  | none => 0

def drainUp (slot : Nat) (s : State) : State := addF (drainA slot) 23 0 1 s

def drainDown (slot : Nat) (s : State) : State := setF (drainA slot) 23 0 (getF s (drainA slot) 23 0 - 1) s

/-! ### Sequence numbers and the reorder store -/

/-- How far number `b` lies ahead of `a`, modulo 2^24 (R144). -/
def seqDist (a b : Nat) : Nat := (b + 2 ^ 24 - a % 2 ^ 24) % 2 ^ 24

/-- Sequence `x` lies below `e` (R144). -/
def seqBelow (x e : Nat) : Bool := decide (2 ^ 23 ≤ seqDist e x)

def expectOf (s : State) (p : Nat) : Nat := tabGet (fun _ => 0) s.dp.expect p

def setExpect (p n : Nat) (s : State) : State :=
  { s with dp := { s.dp with expect := tabSet (fun _ => 0) s.dp.expect p (n % 2 ^ 24) } }

/-- Does an entry hold a record (a frame that will be released), not only a resolved number? -/
def isRecord (h : Held) : Bool :=
  match h.fate with
  | .forward _ => true
  | .punt _ _ => true
  | _ => false

/-- STORE_FILL_q: records held in the store of quarter `q`. -/
def storeFill (s : State) (q : Nat) : Nat := (s.dp.held.filter (fun h => isRecord h && h.quarter == q)).length

/-- The entry of a port's number. -/
def heldAt (s : State) (p n : Nat) : Option Held := s.dp.held.find? (fun h => h.port == p && h.seq == n)

def dropHeldAt (p n : Nat) (s : State) : State :=
  { s with dp := { s.dp with held := s.dp.held.filter (fun h => !(h.port == p && h.seq == n)) } }

/-- A frame whose octets are freed. -/
def freedFrm (f : RxFrm) : RxFrm := { f with data := [], fcs := [], pend := false }

/-- A number is resolved without a record. -/
def resolveNumber (d : Dealt) (fate : Fate) (s : State) : State :=
  let h : Held := { port := d.frm.port, seq := d.seq, quarter := d.pipe / 12, fate := fate, side := []
                    frm := freedFrm d.frm }
  { s with dp := { s.dp with held := s.dp.held ++ [h] } }

/-- The lowest number of a port, of those `p` picks, in a list of entries; distances count from `e`. -/
def lowestHeld (e port : Nat) : List Held → Option Nat
  | [] => none
  | h :: r =>
    let rest := lowestHeld e port r
    if h.port = port ∧ isRecord h = true then
      match rest with
      | none => some h.seq
      | some n => if seqDist e h.seq < seqDist e n then some h.seq else some n
    else rest

/-- Count `n` numbers of a port as lost (R156). -/
def countLost (p n : Nat) (s : State) : State :=
  loupe 1 p 4 n (addLive (adr pgReorder 0x0A0) n (addLive (adr pgReorder (0x800 + 4 * p)) n s))

/-- LAST_LOST_PORT, LAST_LOST_SEQ and event 0 of a declaration (R156, Table 8.3). -/
def latchLost (cause p n run : Nat) (s : State) : State :=
  hwEvent pgReorder 0
    (setReg (adr pgReorder 0x0BC) (word (n + 2 ^ 24 * (if run ≤ 255 then run else 255)))
      (setReg (adr pgReorder 0x0B8) (word (2 ^ 31 + cause * 2 ^ 16 + p)) s))

/-- The first number from `n` on that has no entry. -/
def firstOpen (s : State) (p : Nat) : Nat → Nat → Nat
  | 0, n => n
  | f + 1, n => if (heldAt s p n).isSome then firstOpen s p f ((n + 1) % 2 ^ 24) else n

/-- Entries of a port below number `l`. -/
def belowOf (s : State) (p l : Nat) : List Held :=
  s.dp.held.filter (fun h => h.port == p && decide (seqDist (expectOf s p) h.seq < seqDist (expectOf s p) l))

/-- Outstanding numbers of port `p` below its lowest held frame, with that frame's number. -/
def gapOf (s : State) (p : Nat) : Option (Nat × Nat) :=
  match lowestHeld (expectOf s p) p s.dp.held with
  | none => none
  | some l =>
    let n := seqDist (expectOf s p) l - (belowOf s p l).length
    if n = 0 then none else some (n, l)

/-- Frames still in pipes whose number is declared lost: their records will be late (R158). -/
def markLost (p e l : Nat) : List Dealt → List Dealt
  | [] => []
  | d :: r =>
    (if d.frm.port = p ∧ seqDist e d.seq < seqDist e l then { d with lost := true } else d) :: markLost p e l r

/-- The declaration of R156 on a port: every outstanding number below its lowest held frame is lost. Numbers already
released as discarded below it are released with them. -/
def declareGap (cause p : Nat) (s : State) : State :=
  match gapOf s p with
  | none => s
  | some (n, l) =>
    let e := expectOf s p
    let low := firstOpen s p (s.dp.held.length + 1) e
    let gone := (belowOf s p l).filter (fun h => h.fate == .discard)
    let s1 := { s with dp := { s.dp with
      held := s.dp.held.filter (fun h => !(h.port == p && decide (seqDist e h.seq < seqDist e l)))
      dealt := markLost p e l s.dp.dealt } }
    latchLost cause p low n (countLost p n
      (addLive (adr pgReorder 0x0B0) gone.length (setExpect p l s1)))

/-- Frames of a stalled pipe are declared lost: their numbers are resolved and their drain counts taken down (R149). -/
def loseDealt : List Dealt → State → State
  | [], s => s
  | d :: r, s =>
    let s1 := drainDown (d.tag.toNat / 2 ^ 30) s
    loseDealt r (if d.lost then s1 else countLost d.frm.port 1 (resolveNumber d .lost s1))

/-- The lowest port of a list of frames, with its first number and how many it lost. -/
def lowestLoss (l : List Dealt) : Option (Nat × Nat × Nat) :=
  match (l.map (fun d => d.frm.port)).min? with
  | none => none
  | some p =>
    match l.filter (fun d => d.frm.port == p) with
    | [] => none
    | d :: r => some (p, d.seq, r.length + 1)

/-- Every frame in pipe `p` is lost with cause 3 (R149, R345); records that still come are late (R158). -/
def losePipe (p : Nat) (s : State) : State :=
  let mine := s.dp.dealt.filter (fun d => d.pipe == p)
  let s1 := loseDealt mine { s with dp := { s.dp with
    dealt := s.dp.dealt.filter (fun d => !(d.pipe == p))
    overdue := tabSet (fun _ => 0) s.dp.overdue p (tabGet (fun _ => 0) s.dp.overdue p + mine.length) } }
  match lowestLoss (mine.filter (fun d => !d.lost)) with
  | some (q, n, m) => latchLost 3 q n m s1
  | none => s1

/-! ### The packet interface (R10-R12) -/

/-- Cell sideband (Table 1.2). -/
def cellSide (sof eof : Bool) (last p marks : Nat) : Word :=
  word (flag sof * 2 ^ 31 + flag eof * 2 ^ 30 + last * 2 ^ 22 + p * 2 ^ 13 + marks * 2 ^ 9)

/-- Cells of a frame: up to 256 octets each, the first with the first-cell sideband. -/
def cutCells (p marks : Nat) (first : List Byte) : Nat → List Byte → List RxCell
  | 0, _ => []
  | f + 1, d =>
    if d.length ≤ 256 then [{ side := cellSide (!first.isEmpty) true (d.length - 1) p marks, first := first, data := d }]
    else { side := cellSide (!first.isEmpty) false 255 p 0, first := first, data := d.take 256 }
      :: cutCells p marks [] f (d.drop 256)

def cellsAt (s : State) (cl : Nat) : List RxCell := tabGet (fun _ => []) s.dp.cells cl

def creditsOf (s : State) (cl : Nat) : Nat := tabGet (fun _ => 0) s.rx.credits cl

/-- Send waiting cells while credits last (R10). -/
def sendCells (cl : Nat) : List RxCell → State → State
  | [], s => { s with dp := { s.dp with cells := tabErase s.dp.cells cl } }
  | c :: r, s =>
    if creditsOf s cl = 0 then { s with dp := { s.dp with cells := tabPut s.dp.cells cl (c :: r) } }
    else
      sendCells cl r (emit (.rxCell cl c.side c.first c.data)
        { s with rx := { s.rx with credits := tabSet (fun _ => 0) s.rx.credits cl (creditsOf s cl - 1) } })

/-- A frame enters the packet interface of its cluster. -/
def putCells (f : RxFrm) (side : List Byte) (s : State) : State :=
  let cl := f.port / 8
  let d := f.data ++ f.fcs
  sendCells cl (cellsAt s cl ++ cutCells f.port f.endMarks (side ++ [0, 0]) 65 d) s

/-! ### The receive staging buffer of the host DMA island (R264, R171) -/

/-- Bytes staged. -/
def stagedBytes (s : State) : Nat := (s.dma.staging.map (fun x => x.data.length)).sum

/-- A frame joins the staging buffer. -/
def addStaged (x : Staged) (s : State) : State := { s with dma := { s.dma with staging := s.dma.staging ++ [x] } }

/-- A punt or copy enters the 4 MiB staging buffer. It is refused at its release where the buffer is full, or where its queue,
with no frame ahead of it, refuses it under Table 14.4 and no overflow queue takes it (R171, R264, R269); behind a staged frame
its turn decides (DEDUCED, log 54). -/
def stage (x : Staged) (s : State) : State × Bool :=
  let n := x.data.length
  if 4 * 2 ^ 20 < stagedBytes s + n then (puntDrop s, false)
  else if s.dma.staging.any (fun y => y.queue == x.queue) then (addStaged x s, true)
  else
    let s1 := rxCheck x.queue n s
    match rxRefusal s1 x.queue n with
    | none => (addStaged x s1, true)
    | some row => if (overflowOf s1 x.queue row n).isSome then (addStaged x s1, true) else (rxDrop x.queue row s1, false)

/-! ### Release (R154, R171) -/

/-- A record is released in its place. -/
def releaseRecord (h : Held) (s : State) : State :=
  match h.fate with
  | .forward mirror =>
    let s1 := match mirror with
      | some q =>
        if s.ctl.mode = .safelight then s
        else
          let r := stage { queue := q, reason := 1, port := h.port, data := (h.frm.data ++ h.frm.fcs).take 256
                           side := h.side } s
          if r.2 then addLive (adr pgClass 0x0C0) 1 r.1 else r.1
      | none => s
    if safeStopped s1 h.port then addLive (rxCnt h.port 0xB0) 1 s1 else putCells h.frm h.side s1
  | .punt q reason =>
    if safeStopped s h.port then addLive (rxCnt h.port 0xB0) 1 (addLive (adr pgReorder 0x0B0) 1 s) else
    (stage { queue := q, reason := reason, port := h.port, data := h.frm.data ++ h.frm.fcs, side := h.side }
      (addLive (adr pgReorder 0x0B0) 1 s)).1
  | .discard => addLive (adr pgReorder 0x0B0) 1 s
  | .lost => s

/-- A record is released in its place; the cells of a frame whose end is still to come follow at its end, and other frames may
leave before (R119). -/
def releaseHeld (h : Held) (s : State) : State :=
  if h.frm.pend then { s with dp := { s.dp with opened := tabPut s.dp.opened h.port h } } else releaseRecord h s

/-- A released frame of port `p` has ended: it leaves, or its number counts as released as discarded (R119). -/
def flushOpen (p : Nat) (s : State) : State :=
  match tabFind s.dp.opened p with
  | some h => if h.frm.pend then s else releaseRecord h { s with dp := { s.dp with opened := tabErase s.dp.opened p } }
  | none => s

/-- Release resolved numbers of port `p` in order, up to and with one record. -/
def releaseNext (p : Nat) : Nat → State → State
  | 0, s => s
  | f + 1, s =>
    match heldAt s p (expectOf s p) with
    | none => s
    | some h =>
      let s1 := releaseHeld h (setExpect p (expectOf s p + 1) (dropHeldAt p h.seq s))
      if isRecord h then s1 else releaseNext p f s1

/-- The port with the most records in the store of quarter `q`, the lowest on a tie (R157). -/
def fullestPort (s : State) (q : Nat) : Nat :=
  let n := fun p => (s.dp.held.filter (fun h => isRecord h && h.quarter == q && h.port == p)).length
  (s.dp.held.map (fun h => h.port)).foldl (fun b p => if n b < n p ∨ (n b = n p ∧ p < b) then p else b) 0

/-- Release every resolved number of port `p` up to its next open one. -/
def releaseAll (p : Nat) : Nat → State → State
  | 0, s => s
  | f + 1, s => if (heldAt s p (expectOf s p)).isSome then releaseAll p f (releaseNext p 1 s) else s

/-- Room in the store of quarter `q` (R157): while it is full, the port with the most records there has its gap declared, where
it has one, and releases what then may leave. A released record may lie in another store, so this goes on until there is room
(DEDUCED, log 50: no record is ever refused). -/
def makeRoom (q : Nat) : Nat → State → State
  | 0, s => s
  | f + 1, s =>
    if storeFill s q < 8192 then s
    else
      let p := fullestPort s q
      let s1 := match gapOf s p with
        | some _ => declareGap 2 p (hwEvent pgReorder 1 (addLive (adr pgReorder 0x0A8) 1 s))
        | none => s
      makeRoom q f (releaseAll p (s1.dp.held.length + 1) s1)

/-- A record arrives at the store of its quarter (R157). -/
def storeRecord (h : Held) (s : State) : State :=
  let q := h.quarter
  let s1 := makeRoom q (s.dp.held.length + 1) s
  let s3 := { s1 with dp := { s1.dp with held := s1.dp.held ++ [h] } }
  loupe 4 q 0 1 (peakF (adr pgReorder (0x090 + 4 * q)) 13 0 (storeFill s3 q) s3)

/-! ### Flow-key channels (R15, R16) -/

def fkReady (s : State) (q : Nat) : Bool := getB s (adr pgFlow 0x090) q

def fifoOf (s : State) (q : Nat) : List (List Byte) := tabGet (fun _ => []) s.dp.fifo q

/-- FK_WORDS is live (Table 9.11). -/
def countKey (s : State) : State :=
  setPair (adr pgFlow 0x088) (satAdd (2 ^ 64 - 1) (getPair s (adr pgFlow 0x088)) 1) s

/-- A key word is produced for channel `q`: sent, held, or discarded (R16). Answers whether it was lost. -/
def putKey (q : Nat) (k : List Byte) (s : State) : State × Bool :=
  if fkReady s q = true ∧ fifoOf s q = [] then (emit (.keyWord q k) (countKey s), false)
  else if (fifoOf s q).length < 512 then
    let s1 := countKey { s with dp := { s.dp with fifo := tabPut s.dp.fifo q (fifoOf s q ++ [k]) } }
    (peakF (adr pgFlow (0x0B0 + 4 * q)) 9 0 (fifoOf s1 q).length s1, false)
  else (hwEvent pgFlow 0 (addF (adr pgFlow 0x084) 31 0 1 s), true)

/-- Words held in a FIFO leave first, in order (R16). -/
def sendKeys (q : Nat) : List (List Byte) → State → State
  | [], s => { s with dp := { s.dp with fifo := tabErase s.dp.fifo q } }
  | k :: r, s => sendKeys q r (emit (.keyWord q k) s)

/-- HASH_SEED is cleared (R174). -/
def clearSeed (s : State) : State :=
  hwEvent pgFlow 1 (setB (adr pgFlow 0x090) 8 false (setReg (adr pgFlow 0x080) 0 s))

end Sys2Proof.Machine
end

