-- ==== Sys2Proof/Machine/Parse.lean ====
section
/-! DEFINITION. The parse array's fixed logic: the headers of Table 7.1 in wire order, the malformed reasons of
Table 7.3, the stop codes of Table 7.5 and the 64-byte parse record (07_parse_array.md R126-R138). -/

namespace Sys2Proof.Machine

/-- The shared parse configuration and the federation EtherType (Table 7.10, R129). -/
structure ParseCfg where
  tpidExtra : Nat
  tpidOn : Bool
  ptpUdp : Bool
  csum : Bool
  geneve : Nat
  vxlan : Nat
  rtp : List Nat
  fedType : Nat

/-- What a pipe has found so far (Tables 7.4 and 7.6). -/
structure Px where
  stop : Nat
  malf : Nat
  malfOff : Nat
  window : Bool
  frag : Bool
  fragFirst : Bool
  fedTag : Bool
  control : Option Nat
  rtp : Bool
  ptp : Bool
  options : Bool
  v4seen : Bool
  inner : Bool
  v6 : Bool
  l4Valid : Bool
  vlans : Nat
  vlansIn : Nat
  labels : Nat
  exts : Nat
  outerL3 : Nat
  tunnel : Nat
  innerL3 : Nat
  l4Proto : Nat
  tos : Nat
  ttl : Nat
  l3Off : Nat
  l4Off : Nat
  inL2Off : Nat
  inL3Off : Nat
  inL4Off : Nat
  tunnelId : Nat
  etherType : Nat
  vlan0 : Nat
  vlan1 : Nat
  l4Src : Nat
  l4Dst : Nat
  fedMember : Nat
  fedVersion : Nat
  da : List Byte
  sa : List Byte
  mpls0 : Nat
  src4 : List Byte
  dst4 : List Byte
  src6 : List Byte
  dst6 : List Byte
  ssrc : Nat
  rtpInfo : Nat
  last : Nat

/-- Nothing recognised yet. -/
def pxZero : Px :=
  { stop := 0, malf := 0, malfOff := 0, window := false, frag := false, fragFirst := false, fedTag := false
    control := none, rtp := false, ptp := false, options := false, v4seen := false, inner := false, v6 := false
    l4Valid := false, vlans := 0, vlansIn := 0, labels := 0, exts := 0, outerL3 := 0, tunnel := 0, innerL3 := 0
    l4Proto := 0xFF, tos := 0, ttl := 0, l3Off := 0xFF, l4Off := 0xFF, inL2Off := 0xFF, inL3Off := 0xFF
    inL4Off := 0xFF, tunnelId := 0, etherType := 0, vlan0 := 0, vlan1 := 0, l4Src := 0, l4Dst := 0
    fedMember := 0xFFFF, fedVersion := 0, da := List.replicate 6 0, sa := List.replicate 6 0, mpls0 := 0
    src4 := List.replicate 4 0, dst4 := List.replicate 4 0, src6 := List.replicate 16 0
    dst6 := List.replicate 16 0, ssrc := 0, rtpInfo := 0, last := 0 }

/-- Where parsing goes on. Offsets are window offsets; `ipEnd` is the end of the IP payload around a header. -/
inductive PNext
  | done
  /-- The type field before `off` names the next header. -/
  | typed (et off : Nat) (inner : Bool) (ipEnd : Nat)
  | mpls (off : Nat)
  | ip4 (off : Nat) (inner : Bool) (ipEnd : Nat)
  | ip6 (off : Nat) (inner : Bool) (ipEnd : Nat)
  | next6 (nh off : Nat) (inner : Bool) (ipEnd : Nat)
  | l4 (proto off : Nat) (inner six : Bool) (ipEnd : Nat)
  | vxlan (off ipEnd : Nat)
  | geneve (off ipEnd : Nat)
  | ether (off ipEnd : Nat)
  | ptp (off : Nat)
  | rtp (off : Nat)

/-- Stop with a code (Table 7.5). -/
def pStop (code : Nat) (x : Px) : Px × PNext := ({ x with stop := code }, .done)

/-- Malformed with reason `r` in the header at `off` (R135). -/
def pMalf (r off : Nat) (x : Px) : Px × PNext := ({ x with stop := 5, malf := r, malfOff := off }, .done)

/-- The header at `off` needs `n` octets up to `off + n`: past the window of a long frame parsing stops with code 3,
past the end of a short frame the header is truncated (R133). -/
def pNeed (len off n : Nat) (x : Px) (k : Px × PNext) : Px × PNext :=
  if off + n ≤ len ∧ off + n ≤ 192 then k
  else if 192 < len then ({ x with stop := 3, window := true }, .done)
  else pMalf 2 off x

/-- The recorded IP and L4 fields start afresh behind a tunnel (R138). -/
def pEnter (x : Px) : Px :=
  { x with inner := true, v6 := false, l4Valid := false, l4Proto := 0xFF, l4Src := 0, l4Dst := 0, tos := 0, ttl := 0
           exts := 0, options := false, src4 := List.replicate 4 0, dst4 := List.replicate 4 0 }

/-- The ones'-complement sum of 16-bit words, folded. -/
def sum16 : List Byte → Nat
  | [] => 0
  | [a] => a.toNat * 256
  | a :: b :: r => a.toNat * 256 + b.toNat + sum16 r

def fold16 (n : Nat) : Nat :=
  let a := n % 65536 + n / 65536
  let b := a % 65536 + a / 65536
  b % 65536 + b / 65536

/-- An IPv4 header checksum is good when the folded sum is all ones. -/
def ip4SumGood (h : List Byte) : Bool := fold16 (sum16 h) == 0xFFFF

def isTpid (c : ParseCfg) (et : Nat) : Bool :=
  et == 0x8100 || et == 0x88A8 || (c.tpidOn && et == c.tpidExtra)

/-- The header named by a type field (Table 7.1). A tag's first octet is that of its own type field, two before `off`. -/
def pTyped (c : ParseCfg) (w : List Byte) (len et off : Nat) (inner : Bool) (ipEnd : Nat) (x : Px) : Px × PNext :=
  if isTpid c et then
    if (if inner then x.vlansIn = 2 else x.vlans = 3) then pMalf 6 (off - 2) x
    else
      pNeed len (off - 2) 6 x
        (let tci := beField w off 2
         let x1 := if inner then { x with vlansIn := x.vlansIn + 1 }
           else { x with vlans := x.vlans + 1
                         vlan0 := if x.vlans = 0 then tci else x.vlan0
                         vlan1 := if x.vlans = 1 then tci else x.vlan1 }
         ({ x1 with last := off + 4 }, .typed (beField w (off + 2) 2) (off + 4) inner ipEnd))
  else if inner then
    if et = 0x0800 then (x, .ip4 off true ipEnd)
    else if et = 0x86DD then (x, .ip6 off true ipEnd)
    else if et = 0x0806 then
      pNeed len off 8 x
        (let x1 := { x with innerL3 := 3, inL3Off := off, last := off }
         if beField w off 2 = 1 ∧ beField w (off + 2) 2 = 0x0800 ∧ beField w (off + 4) 2 = 0x0604 then
           pNeed len off 28 x
             ({ x1 with src4 := slice w (off + 14) 4, dst4 := slice w (off + 24) 4
                        rtpInfo := (byteAt w (off + 7)).toNat * 256, last := off + 28 }, .done)
         else (x1, .done))
    else pStop 1 { x with innerL3 := 3 }
  else
    let xe := { x with etherType := et }
    if et = c.fedType then
      if x.fedTag then pStop 1 { xe with outerL3 := 6 }
      else
        pNeed len (off - 2) 12 xe
          (let msg := (byteAt w off).toNat
           if msg = 1 then
             ({ x with fedTag := true, fedMember := beField w (off + 2) 2, fedVersion := beField w (off + 4) 4
                       last := off + 10 }, .typed (beField w (off + 8) 2) (off + 10) false ipEnd)
           else if 2 ≤ msg ∧ msg ≤ 15 then ({ xe with control := some msg, last := off - 2 }, .done)
           else pStop 6 { xe with outerL3 := 6 })
    else if et = 0x8847 ∨ et = 0x8848 then (xe, .mpls off)
    else if et = 0x0800 then (xe, .ip4 off false ipEnd)
    else if et = 0x86DD then (xe, .ip6 off false ipEnd)
    else if et = 0x0806 then
      pNeed len off 8 xe
        (let x1 := { xe with outerL3 := 3, l3Off := off, last := off }
         if beField w off 2 = 1 ∧ beField w (off + 2) 2 = 0x0800 ∧ beField w (off + 4) 2 = 0x0604 then
           pNeed len off 28 xe
             ({ x1 with src4 := slice w (off + 14) 4, dst4 := slice w (off + 24) 4
                        rtpInfo := (byteAt w (off + 7)).toNat * 256, last := off + 28 }, .done)
         else (x1, .done))
    else if et = 0x88F7 then
      pNeed len off 2 xe
        (if (byteAt w (off + 1)).toNat % 16 = 2 then
           pNeed len off 34 xe ({ xe with outerL3 := 5, l3Off := off }, .ptp off)
         else pStop 1 { xe with outerL3 := 6 })
    else pStop 1 { xe with outerL3 := 6 }

/-- The next MPLS label (R131, Table 7.3 reason 7). Outer L3 is 'MPLS non-IP payload' where the label with bottom of stack shows
a payload that is not IP and is no fault; a fault leaves it 0 (DEDUCED, log 49). The fifth label's fault comes before its own
checks, so it is taken where that label's octets lie past the window or the frame too (DESIGN CHOICE, log 49). -/
def pMpls (w : List Byte) (len off : Nat) (x : Px) : Px × PNext :=
  if x.labels = 4 then pMalf 7 off x
  else
    pNeed len off 4 x
      (let e := beField w off 4
       let x1 := { x with labels := x.labels + 1, mpls0 := if x.labels = 0 then e else x.mpls0, last := off + 4 }
       if e / 256 % 2 = 1 then
         pNeed len (off + 4) 1 x1
           (match (byteAt w (off + 4)).toNat / 16 with
            | 4 => (x1, .ip4 (off + 4) false 0)
            | 6 => (x1, .ip6 (off + 4) false 0)
            | 0 => pStop 8 { x1 with outerL3 := 4 }
            | _ => pMalf 8 (off + 4) x1)
       else (x1, .mpls (off + 4)))

/-- An IPv4 header: VERSION, IHL, TRUNCATED, LENGTH, IPV4_CSUM in that order (R130, R135). -/
def pIp4 (c : ParseCfg) (w : List Byte) (len off : Nat) (inner : Bool) (ipEnd : Nat) (x : Px) : Px × PNext :=
  pNeed len off 1 x
    (let b := (byteAt w off).toNat
     let h := b % 16 * 4
     let total := beField w (off + 2) 2
     if b / 16 ≠ 4 then pMalf 8 off x
     else if b % 16 < 5 then pMalf 4 off x
     else
       pNeed len off h x
         (if total < h ∨ (inner = true ∧ ipEnd < off + total) ∨ (len ≤ 192 ∧ len < off + total) then pMalf 1 off x
          else if c.csum = true ∧ ip4SumGood (slice w off h) = false then pMalf 3 off x
          else
            let x1 := { x with tos := (byteAt w (off + 1)).toNat, ttl := (byteAt w (off + 8)).toNat
                               src4 := slice w (off + 12) 4, dst4 := slice w (off + 16) 4
                               options := decide (5 < b % 16), v4seen := true, v6 := false, exts := 0
                               last := off + h }
            let x2 := if inner then { x1 with innerL3 := 1, inL3Off := off }
              else { x1 with outerL3 := 1, l3Off := off }
            let fo := beField w (off + 6) 2
            let proto := (byteAt w (off + 9)).toNat
            if fo / 0x2000 % 2 = 1 ∨ fo % 0x2000 ≠ 0 then
              pStop 4 { x2 with frag := true, fragFirst := decide (fo % 0x2000 = 0), l4Proto := proto }
            else (x2, .l4 proto (off + h) inner false (off + total))))

/-- An IPv6 header (R131). -/
def pIp6 (w : List Byte) (len off : Nat) (inner : Bool) (ipEnd : Nat) (x : Px) : Px × PNext :=
  pNeed len off 1 x
    (let plen := beField w (off + 4) 2
     if (byteAt w off).toNat / 16 ≠ 6 then pMalf 8 off x
     else
       pNeed len off 40 x
         (if plen = 0 ∨ (inner = true ∧ ipEnd < off + 40 + plen) ∨ (len ≤ 192 ∧ len < off + 40 + plen) then
            pMalf 1 off x
          else
            let x1 := { x with tos := beField w off 2 / 16 % 256, ttl := (byteAt w (off + 7)).toNat
                               src6 := slice w (off + 8) 16, dst6 := slice w (off + 24) 16, v6 := true, exts := 0
                               options := false, last := off + 40 }
            let x2 := if inner then { x1 with innerL3 := 2, inL3Off := off }
              else { x1 with outerL3 := 2, l3Off := off }
            (x2, .next6 (byteAt w (off + 6)).toNat (off + 40) inner (off + 40 + plen))))

/-- The next header behind an IPv6 header or extension header (R131, R132). The third extension header's fault stands before its
own checks (R135), so it is taken where that header lies past octet 191 or past the frame too; R133 would give code 3 or
TRUNCATED there, and the spec does not say which wins (DESIGN CHOICE, log 49). -/
def pNext6 (w : List Byte) (len nh off : Nat) (inner : Bool) (ipEnd : Nat) (x : Px) : Px × PNext :=
  if nh = 0 ∨ nh = 43 ∨ nh = 60 ∨ nh = 44 then
    if x.exts = 2 then pMalf 5 off x
    else if nh = 44 then
      pNeed len off 8 x
        (let fo := beField w (off + 2) 2
         pStop 4 { x with frag := true, fragFirst := decide (fo / 8 = 0), exts := x.exts + 1
                          l4Proto := (byteAt w off).toNat, last := off + 8 })
    else
      pNeed len off 2 x
        (let n := ((byteAt w (off + 1)).toNat + 1) * 8
         pNeed len off n x
           ({ x with exts := x.exts + 1, last := off + n }, .next6 (byteAt w off).toNat (off + n) inner ipEnd))
  else if nh = 59 then (x, .done)
  else (x, .l4 nh off inner true ipEnd)

/-- Record an L4 header. -/
def pL4 (proto off src dst : Nat) (inner : Bool) (n : Nat) (x : Px) : Px :=
  let x1 := { x with l4Proto := proto, l4Valid := true, l4Src := src, l4Dst := dst, last := off + n }
  if inner then { x1 with inL4Off := off } else { x1 with l4Off := off }

/-- Behind a UDP header the destination port decides (R128). With PTP_UDP_EN 0, ports 319 and 320 are compared with the RTP list
like any other; R128 does not say that the comparison ends there (DESIGN CHOICE, log 49). -/
def pUdpNext (c : ParseCfg) (dst off : Nat) (inner : Bool) (ipEnd : Nat) (x : Px) : Px × PNext :=
  if dst = c.vxlan then (if inner then pStop 9 x else (x, .vxlan off ipEnd))
  else if dst = c.geneve then (if inner then pStop 9 x else (x, .geneve off ipEnd))
  else if c.ptpUdp = true ∧ (dst = 319 ∨ dst = 320) then (x, .ptp off)
  else if c.rtp.contains dst then (x, .rtp off)
  else (x, .done)

/-- An L4 header or GRE (Table 7.1). The payload that a UDP Length is held against is what remains of the IP payload behind the
extension headers, not the whole Payload Length (DESIGN CHOICE, log 49). -/
def pTransport (c : ParseCfg) (w : List Byte) (len proto off : Nat) (inner six : Bool) (ipEnd : Nat)
    (x : Px) : Px × PNext :=
  if proto = 17 then
    pNeed len off 8 x
      (let ulen := beField w (off + 4) 2
       if ulen < 8 ∨ ipEnd < off + ulen then pMalf 1 off x
       else
         let dst := beField w (off + 2) 2
         pUdpNext c dst (off + 8) inner ipEnd (pL4 17 off (beField w off 2) dst inner 8 x))
  else if proto = 6 then
    pNeed len off 13 x
      (let n := (byteAt w (off + 12)).toNat / 16 * 4
       pNeed len off n x
         (if n < 20 then pMalf 1 off x
          else (pL4 6 off (beField w off 2) (beField w (off + 2) 2) inner n x, .done)))
  else if (proto = 1 ∧ six = false) ∨ (proto = 58 ∧ six = true) then
    pNeed len off 4 x (pL4 proto off (beField w off 2) 0 inner 4 x, .done)
  else if proto = 47 then
    if inner then pStop 9 x
    else
      pNeed len off 2 x
        (let f := (byteAt w off).toNat
         let n := 4 + 4 * (f / 128 % 2) + 4 * (f / 32 % 2) + 4 * (f / 16 % 2)
         if (byteAt w (off + 1)).toNat % 8 ≠ 0 ∨ f / 64 % 2 = 1 then pStop 7 x
         else
           pNeed len off n x
             (let et := beField w (off + 2) 2
              let key := if f / 32 % 2 = 1 then beField w (off + 4 + 4 * (f / 128 % 2)) 4 % 2 ^ 24 else 0
              let x1 := { pL4 47 off 0 0 false n x with tunnel := 3, tunnelId := key }
              if et = 0x6558 then (pEnter x1, .ether (off + n) ipEnd)
              else if et = 0x0800 ∨ et = 0x86DD then (pEnter x1, .typed et (off + n) true ipEnd)
              else pStop 10 x1))
  else pStop 2 x

/-- A VXLAN header (Table 7.1). -/
def pVxlan (w : List Byte) (len off ipEnd : Nat) (x : Px) : Px × PNext :=
  pNeed len off 8 x
    (if (byteAt w off).toNat / 8 % 2 = 1 then
       (pEnter { x with tunnel := 1, tunnelId := beField w (off + 4) 3, last := off + 8 }, .ether (off + 8) ipEnd)
     else pStop 10 x)

/-- A GENEVE header (Table 7.1). -/
def pGeneve (w : List Byte) (len off ipEnd : Nat) (x : Px) : Px × PNext :=
  pNeed len off 1 x
    (let b := (byteAt w off).toNat
     let n := 8 + b % 64 * 4
     if b / 64 ≠ 0 then pStop 10 x
     else
       pNeed len off n x
         (let et := beField w (off + 2) 2
          let x1 := { x with tunnel := 2, tunnelId := beField w (off + 4) 3, last := off + n }
          if et = 0x6558 then (pEnter x1, .ether (off + n) ipEnd)
          else if et = 0x0800 ∨ et = 0x86DD then (pEnter x1, .typed et (off + n) true ipEnd)
          else pStop 10 x1))

/-- An inner Ethernet header (Table 7.1). -/
def pEther (w : List Byte) (len off ipEnd : Nat) (x : Px) : Px × PNext :=
  pNeed len off 14 x
    ({ x with inL2Off := off, last := off + 14 }, .typed (beField w (off + 12) 2) (off + 14) true ipEnd)

/-- A PTP header: versionPTP 2 (Table 7.1). -/
def pPtp (w : List Byte) (len off : Nat) (x : Px) : Px × PNext :=
  pNeed len off 2 x
    (if (byteAt w (off + 1)).toNat % 16 = 2 then
       pNeed len off 34 x
         ({ x with ptp := true, last := off
                   rtpInfo := (byteAt w off).toNat % 16 + 256 * (byteAt w (off + 4)).toNat }, .done)
     else (x, .done))

/-- An RTP header: version 2 (Table 7.1). -/
def pRtp (w : List Byte) (len off : Nat) (x : Px) : Px × PNext :=
  pNeed len off 1 x
    (if (byteAt w off).toNat / 64 = 2 then
       pNeed len off 12 x
         ({ x with rtp := true, last := off, ssrc := beField w (off + 8) 4
                   rtpInfo := (byteAt w (off + 1)).toNat }, .done)
     else (x, .done))

/-- One header. -/
def pStep (c : ParseCfg) (w : List Byte) (len : Nat) (n : PNext) (x : Px) : Px × PNext :=
  match n with
  | .done => (x, .done)
  | .typed et off inner e => pTyped c w len et off inner e x
  | .mpls off => pMpls w len off x
  | .ip4 off inner e => pIp4 c w len off inner e x
  | .ip6 off inner e => pIp6 w len off inner e x
  | .next6 nh off inner e => pNext6 w len nh off inner e x
  | .l4 proto off inner six e => pTransport c w len proto off inner six e x
  | .vxlan off e => pVxlan w len off e x
  | .geneve off e => pGeneve w len off e x
  | .ether off e => pEther w len off e x
  | .ptp off => pPtp w len off x
  | .rtp off => pRtp w len off x

/-- Header by header in wire order; no frame holds more than `fuel` headers in its window. -/
def pRun (c : ParseCfg) (w : List Byte) (len : Nat) : Nat → PNext → Px → Px
  | 0, _, x => x
  | f + 1, n, x =>
    match pStep c w len n x with
    | (x1, .done) => x1
    | (x1, n1) => pRun c w len f n1 x1

/-- Parse the window of frame data `d` (FCS excluded, after decryption): R126, R127. -/
def parseFrame (c : ParseCfg) (d : List Byte) : Px :=
  let w := d.take 192
  let len := d.length
  match pNeed len 0 14 pxZero
    (let et := beField w 12 2
     if et < 0x0600 then pStop 1 pxZero
     else ({ pxZero with da := slice w 0 6, sa := slice w 6 6, last := 14 }, .typed et 14 false 0)) with
  | (x, .done) => x
  | (x, n) => pRun c w len 48 n x

/-- FLAGS of the record (Table 7.4); SECTAG and ENCRYPTED come from the SecY. -/
def pxFlags (csum secTag encrypted : Bool) (len : Nat) (x : Px) : Nat :=
  flag secTag + 2 * flag encrypted + 4 * flag x.window + 8 * flag x.frag + 16 * flag x.fragFirst
    + 32 * flag x.fedTag + 64 * flag x.rtp + 128 * flag x.ptp + 256 * flag (decide (len ≤ 192))
    + 512 * flag (x.options && !x.v6) + 1024 * flag (csum && x.v4seen && !(x.malf == 3))
    + 2048 * flag x.inner + 4096 * flag x.v6 + 8192 * flag x.l4Valid + 16384 * flag (x.malf != 0)

/-- PAYLOAD_OFF: the RTP or PTP header, else the first octet after the last header recognised (Table 7.4); 0 where no header
has been recognised at all, which Table 7.4 leaves open (DESIGN CHOICE, log 49). -/
def pxPayOff (x : Px) : Nat := if x.last < 192 then x.last else 0xFF

/-- The 64-byte parse record (Tables 7.4 and 7.6). -/
def parseRecord (csum secTag encrypted : Bool) (len : Nat) (x : Px) : List Byte :=
  leBytes 1 1 ++ leBytes (x.stop * 16 + x.malf) 1 ++ leBytes (pxFlags csum secTag encrypted len x) 2
    ++ leBytes (x.vlans + 4 * x.labels + 32 * x.exts) 1
    ++ leBytes (x.outerL3 + 8 * x.tunnel + 32 * x.innerL3) 1
    ++ leBytes x.l4Proto 1 ++ leBytes x.tos 1 ++ leBytes x.l3Off 1 ++ leBytes x.l4Off 1 ++ leBytes x.inL2Off 1
    ++ leBytes x.inL3Off 1 ++ leBytes x.inL4Off 1 ++ leBytes (pxPayOff x) 1 ++ leBytes x.tunnelId 3
    ++ leBytes x.ttl 1 ++ leBytes x.etherType 2 ++ leBytes x.vlan0 2 ++ leBytes x.l4Src 2 ++ leBytes x.l4Dst 2
    ++ leBytes x.fedMember 2 ++ leBytes x.fedVersion 4
    ++ (if x.v6 then x.src6 ++ x.dst6
        else x.da ++ x.sa ++ leBytes x.vlan1 2 ++ leBytes x.mpls0 4 ++ x.src4 ++ x.dst4 ++ leBytes x.ssrc 4
          ++ leBytes x.rtpInfo 2)

end Sys2Proof.Machine
end

