-- ==== Sys2Proof/Machine/Class.lean ====
section
/-! DEFINITION. The classifier: keys, lookups, resolution of a frame and its key word
(09_classifier_and_versions.md R165-R173, Table 9.4). -/

namespace Sys2Proof.Machine

/-- Value of selector `code` for a frame (Table 9.2); class and version are 0 in lookup keys (R166). -/
def fieldOf (record : List Byte) (port cls version code : Nat) : Nat :=
  if code < 32 then leField record (2 * code) 2
  else if code = 32 then port
  else if code = 33 then cls
  else if code = 34 then version % 2 ^ 16
  else if code = 35 then version / 2 ^ 16 % 2 ^ 12
  else 0

/-- The bytes of consecutive selector words. -/
def selectors (s : State) (a : Nat) : Nat → List Nat
  | 0 => []
  | n + 1 => ((leBytes (getReg s a).toNat 4).map (fun b => b.toNat)) ++ selectors s (a + 4) n

/-- A key: field i in bits [16i+15:16i]. -/
def keyOf (record : List Byte) (port cls version : Nat) : List Nat → Nat
  | [] => 0
  | c :: r => fieldOf record port cls version c + 2 ^ 16 * keyOf record port cls version r

/-- The ternary and exact keys under slot `v` (R166). -/
def ternKey (s : State) (v port : Nat) (record : List Byte) : Nat :=
  keyOf record port 0 0 (selectors s (adr pgKeys (0x080 + 0x20 * v)) 5)

def exactKey (s : State) (v port : Nat) (record : List Byte) : Nat :=
  keyOf record port 0 0 (selectors s (adr pgKeys (0x094 + 0x20 * v)) 1)

/-- The lowest matching row of version slot `v` (R167); rows are listed in rising order. -/
def ternLookup (v key : Nat) : Tab TernRow → Option Word
  | [] => none
  | (_, x) :: r => if x.valid.testBit v ∧ key &&& x.mask = x.value &&& x.mask then some x.action else ternLookup v key r

/-- The lowest matching exact entry of the port (R167). -/
def exactLookup (v port key : Nat) : Tab ExactEntry → Option Word
  | [] => none
  | (k, x) :: r =>
    if k / 64 = port ∧ x.valid.testBit v ∧ x.key = key then some x.action else exactLookup v port key r

/-- A frame's result before the disposition takes effect (Table 9.4). `disp`: 0 forward, 1 drop, 2 punt. -/
structure Resolved where
  cls : Nat
  disp : Nat
  queue : Nat
  reason : Nat
  template : Nat
  mirror : Option Nat
  mm : Nat
  malfFwd : Bool
  mismatch : Bool
  /-- Dropped at step 1. -/
  early : Bool
  /-- Dropped at step 5. -/
  dropped : Bool

/-- The parts of an action word (Table 9.3). -/
def ofAction (w : Word) : Resolved :=
  let d := bits w 9 8
  { cls := bits w 7 0, disp := if d = 3 then 1 else d, queue := bits w 27 16, reason := 0, template := bits w 13 11
    mirror := if bit w 10 then some (bits w 27 16) else none, mm := bits w 15 14, malfFwd := false
    mismatch := false, early := false, dropped := false }

/-- PORT_CFG_p of the classifier (Table 9.8). -/
def clsCfg (s : State) (p : Nat) : Word := getReg s (adr pgClass (0x800 + 4 * p))

/-- Step 1: the action of MALF_ACTION on malformed reason `r` (R136). -/
def ofMalformed (s : State) (d : Dealt) (r : Nat) : Resolved :=
  let base : Resolved :=
    { cls := 0, disp := 1, queue := bits (clsCfg s d.frm.port) 19 8, reason := 2
      template := bits (clsCfg s d.frm.port) 4 2, mirror := none, mm := 0, malfFwd := false, mismatch := false
      early := false, dropped := false }
  match bits (d.frm.cfg.getD 2 0) (2 * r - 1) (2 * r - 2) with
  | 1 => { base with disp := 2 }
  | 2 => { base with disp := 0, malfFwd := true }
  | _ => { base with early := true }

/-- Steps 2 to 4, with the counter of the step that decided. -/
def lookup (d : Dealt) (record : List Byte) (s : State) : Resolved × State :=
  let v := d.tag.toNat / 2 ^ 30
  match exactLookup v d.frm.port (exactKey s v d.frm.port record) s.cls.exact with
  | some w => (ofAction w, addLive (adr pgClass 0x098) 1 s)
  | none =>
    match ternLookup v (ternKey s v d.frm.port record) s.cls.tern with
    | some w => (ofAction w, addLive (adr pgClass 0x0A0) 1 s)
    | none => (ofAction (getReg s (adr pgKeys (0x098 + 0x20 * v))), addLive (adr pgClass 0x0A8) 1 s)

/-- Step 5: a data tag of another version (R170). -/
def mismatchStep (d : Dealt) (x : Px) (r : Resolved) (s : State) : Resolved × State :=
  if x.fedTag = false ∨ r.early = true ∨ x.fedVersion % 2 ^ 28 = d.tag.toNat % 2 ^ 28 then (r, s)
  else
    let p := d.frm.port
    let s1 := hwEvent pgVersion 5
      (setReg (adr pgVersion 0x0EC) (word (x.fedVersion % 2 ^ 28))
        (setReg (adr pgVersion 0x0E8) (word (2 ^ 31 + x.fedMember % 2 ^ 10 * 2 ^ 16 + p))
          (addLive (adr pgVersion 0x0E0) 1 (addLive (adr pgVersion (0x800 + 4 * p)) 1 s))))
    let port := match bits (clsCfg s p) 1 0 with
      | 0 => 1
      | 1 => 2
      | _ => 3
    match (if r.mm = 0 then port else r.mm) with
    | 1 => ({ r with mismatch := true }, s1)
    | 2 => ({ r with mismatch := true, disp := 2, queue := bits (clsCfg s p) 19 8, reason := 3 }, s1)
    | _ => ({ r with disp := 1, dropped := true }, s1)

/-- Steps 6 and 7: the LIFE-only rule of SAFELIGHT and the classifier's counters; DROP counts what step 5 or 7 drops. Answers
whether the frame is dropped. -/
def finalStep (d : Dealt) (malf : Bool) (r : Resolved) (s : State) : Bool × State :=
  let p := d.frm.port
  let safe := decide (s.ctl.mode = .safelight) && (malf || decide (r.cls ≠ 1))
  let s1 := if safe then addF (adr pgKeys (0x800 + 4 * p)) 31 0 1 s else s
  if r.early then (true, s1)
  else if r.dropped then (true, addLive (adr pgClass 0x0B8) 1 s1)
  else if safe then (true, s1)
  else if r.disp = 1 then (true, addLive (adr pgClass 0x0B8) 1 s1)
  else
    let s2 := if r.cls = 1 then addLive (adr pgClass 0x0B0) 1 s1 else s1
    if r.disp = 2 then (false, addLive (adr pgClass 0x0BC) 1 s2)
    else (false, if r.malfFwd then addLive (adr pgClass 0x0C8) 1 s2 else s2)

/-- The 64 key bytes of a template (R172). -/
def keyBytes (s : State) (t : Nat) (record : List Byte) (port cls version : Nat) : List Byte :=
  leBytes (keyOf record port cls version (selectors s (adr pgFlow (0x100 + 0x20 * t)) 8)) 64

/-- HASH of key bytes (R172). -/
def keyHash (s : State) (k : List Byte) : Nat :=
  crcRun 0x82F63B78 (getReg s (adr pgFlow 0x080)).toNat k ^^^ 0xFFFFFFFF

/-- FRAME_HANDLE (Table 1.3). -/
def handleOf (d : Dealt) : Nat := d.frm.port * 2 ^ 23 + d.seq % 2 ^ 23

/-- The 608-bit key word (Table 1.5). -/
def keyWordOf (k : List Byte) (hash handle template slot : Nat) : List Byte :=
  k ++ leBytes hash 4 ++ leBytes handle 4 ++ leBytes (template + 8 * slot) 4

/-- Bytes 0-93 of the first-cell sideband (Table 1.3). -/
def sideOf (d : Dealt) (record : List Byte) (hash cls marks : Nat) : List Byte :=
  record ++ leBytes d.frm.ts.sec 6 ++ leBytes d.frm.ts.ns 4 ++ leBytes d.frm.ts.frac 2 ++ leBytes d.tag.toNat 4
    ++ leBytes hash 4 ++ leBytes (handleOf d) 4 ++ leBytes d.seq 3 ++ leBytes cls 1 ++ leBytes marks 1
    ++ leBytes d.pipe 1

/-- Marks of the sideband but FLOWKEY_LOST (Table 1.3). -/
def marksOf (d : Dealt) (x : Px) (r : Resolved) : Nat :=
  flag d.frm.unlocked + 2 * flag r.malfFwd + 4 * flag r.mismatch + 16 * flag x.frag + 32 * flag x.window

/-- The frame leaves the classifier: its drain count goes down once (R164). -/
def leaveClassifier (d : Dealt) (s : State) : State := drainDown (d.tag.toNat / 2 ^ 30) s

/-- A record or a release reaches the reorder engine: late where its number is lost (R158). -/
def arrive (d : Dealt) (f : State → State) (s : State) : State :=
  if d.lost ∨ seqBelow d.seq (expectOf s d.frm.port) = true ∨ (heldAt s d.frm.port d.seq).isSome = true then
    hwEvent pgReorder 2 (addLive (adr pgReorder 0x0AC) 1 s)
  else f s

/-- A forwarded frame: its key word and its record (R171, R173). -/
def forwardFrame (d : Dealt) (x : Px) (record : List Byte) (r : Resolved) (s : State) : State :=
  let ver := d.tag.toNat % 2 ^ 28
  let k := keyBytes s r.template record d.frm.port r.cls ver
  let hash := keyHash s k
  let o := putKey (d.pipe / 12) (keyWordOf k hash (handleOf d) r.template (d.tag.toNat / 2 ^ 30)) s
  let side := sideOf d record hash r.cls (marksOf d x r + 8 * flag o.2)
  arrive d (storeRecord { port := d.frm.port, seq := d.seq, quarter := d.pipe / 12, fate := .forward r.mirror
                          side := side, frm := d.frm }) o.1

/-- A frame that reaches the classifier (Table 9.4). -/
def classify (d : Dealt) (x : Px) (record : List Byte) (s : State) : State :=
  let s0 := leaveClassifier d (addLive (adr pgClass 0x090) 1 s)
  let a := if x.malf = 0 then lookup d record s0 else (ofMalformed s0 d x.malf, s0)
  let b := mismatchStep d x a.1 a.2
  let c := finalStep d (decide (x.malf ≠ 0)) b.1 b.2
  if c.1 then arrive d (resolveNumber d .discard) c.2
  else if b.1.disp = 2 then
    arrive d (storeRecord { port := d.frm.port, seq := d.seq, quarter := d.pipe / 12
                            fate := .punt b.1.queue b.1.reason, side := sideOf d record 0 b.1.cls (marksOf d x b.1)
                            frm := d.frm }) c.2
  else forwardFrame d x record b.1 c.2

/-! ### The pipe -/

/-- The parse configuration a frame entered the spreader under. -/
def cfgOf (s : State) (d : Dealt) : ParseCfg :=
  let w := fun i => d.frm.cfg.getD i 0
  { tpidExtra := bits (w 0) 31 16, tpidOn := bit (w 0) 2, ptpUdp := bit (w 0) 1, csum := bit (w 0) 0
    geneve := bits (w 1) 31 16, vxlan := bits (w 1) 15 0
    rtp := ((d.frm.cfg.drop 4).filter (fun x => bit x 16)).map (fun x => bits x 15 0)
    fedType := getF s (adr pgFed 0x080) 31 16 }

/-- Counters of the pipe's page for a parsed frame (Table 7.9, R137). -/
def pipeCounts (d : Dealt) (x : Px) (s : State) : State :=
  let c := fun o => adr (pgPipe d.pipe) o
  let add := fun (b : Bool) (o : Nat) (y : State) => if b then addLive (c o) 1 y else y
  let s1 := loupe 3 d.pipe 0 1 (addLive (c 0x090) 1 s)
  let s2 := add x.inner 0x0AC (add x.rtp 0x0A8 (add x.fedTag 0x0A0 (add x.frag 0x09C
    (add x.window 0x098 s1))))
  if x.malf = 0 then s2
  else
    loupe 3 d.pipe 1 1 (hwEvent (pgPipe d.pipe) 0
      (setReg (adr (pgPipe 0) 0x150) (word (2 ^ 31 + d.frm.port * 2 ^ 16 + x.malf * 2 ^ 8 + x.malfOff))
        (addF (adr (pgPipe 0) (0x160 + 4 * (x.malf - 1))) 31 0 1
          (addLive (c (0x0B0 + 4 * (x.malf - 1))) 1 s2))))

/-- A control frame goes to the management core, counted and its number released as discarded (R129). A command frame on a
port without a role is dropped there (R79), and a reserved MSG is counted in HB_BAD (R379). -/
def controlFrame (d : Dealt) (msg : Nat) (s : State) : State :=
  let s1 := leaveClassifier d (addLive (adr (pgPipe d.pipe) 0x0A4) 1 s)
  let s2 := if (msg = 2 ∨ msg = 3) ∧ tabGet (fun _ => 0) s1.nv.roles d.frm.port % 4 = 0 then
      hwEvent pgCmd 3 (addF (adr pgCmd 0x0D0) 15 0 1 s1)
    else if 7 ≤ msg then addF (adr pgFed 0x10C) 31 0 1 s1
    else s1
  arrive d (resolveNumber d .discard) s2

/-- What a pipe hands to the management core: MSG, the frame's source address, its octets from the tag's EtherType on. -/
structure ControlFrm where
  port : Nat
  msg : Nat
  src : Nat
  body : List Byte

/-- The control frame that a frame in a pipe is, if it is one and the MAC has not discarded it. -/
def controlOf (s : State) (d : Dealt) : Option ControlFrm :=
  let x := parseFrame (cfgOf s d) d.frm.data
  match x.control with
  | some msg =>
    if d.frm.macDiscard then none
    else some { port := d.frm.port, msg := msg, src := beField d.frm.data 6 6, body := d.frm.data.drop x.last }
  | none => none

/-- The shadow comparison of the record of a frame that was dealt to both pipes (R151). -/
def shadowCompare (d : Dealt) (differs : Bool) (s : State) : State :=
  if d.shadow = false then s
  else
    let s1 := addF (adr pgFixer 0x088) 31 0 1 (addLive (adr pgSpread 0x09C) 1 s)
    if differs then
      hwEvent pgFixer 2 (addF (adr pgFixer 0x08C) 31 0 1 (hwEvent pgSpread 3 (addLive (adr pgSpread 0x0A0) 1 s1)))
    else s1

/-- A pipe completes the record of frame `d` (R169). -/
def recordDone (d : Dealt) (differs : Bool) (s : State) : State :=
  let c := cfgOf s d
  let x := parseFrame c d.frm.data
  let record := parseRecord c.csum d.frm.secTag d.frm.encrypted d.frm.data.length x
  let s1 := shadowCompare d differs (pipeCounts d x s)
  if d.frm.macDiscard then arrive d (resolveNumber d .discard) (leaveClassifier d s1)
  else
    match x.control with
    | some msg => controlFrame d msg s1
    | none => classify d x record s1

end Sys2Proof.Machine
end

