-- ==== Sys2Proof/Machine/VerOps.lean ====
section
/-! DEFINITION. Rule versions: loading an image, committing, draining and retiring a slot
(09_classifier_and_versions.md R175-R181). -/

namespace Sys2Proof.Machine

/-- FN_CFG channel of a function that is in force (R17, R275). -/
def fnChan (s : State) (f : Nat) : Nat :=
  tabGet (fun i => getF s (adr (pgDma 13) (0x800 + 4 * i)) 24 24) s.dma.chan f

/-- Read requests outstanding on a channel (R17). -/
def readsOut (s : State) (ch : Nat) : Nat := tabGet (fun _ => 0) s.dma.reads ch

/-- Requests of a channel that wait. -/
def readsHeld (s : State) (ch : Nat) : List (Nat × Nat) := tabGet (fun _ => []) s.dma.readQ ch

/-- Send waiting requests while fewer than 512 are outstanding (R17). -/
def sendReads (ch : Nat) : List (Nat × Nat) → State → State
  | [], s => { s with dma := { s.dma with readQ := tabErase s.dma.readQ ch } }
  | (a, n) :: r, s =>
    if 512 ≤ readsOut s ch then { s with dma := { s.dma with readQ := tabPut s.dma.readQ ch ((a, n) :: r) } }
    else
      sendReads ch r (emit (.fabricRead ch a n)
        { s with dma := { s.dma with reads := tabSet (fun _ => 0) s.dma.reads ch (readsOut s ch + 1) } })

/-- One more request of a channel. -/
def askRead (ch addr len : Nat) (s : State) : State := sendReads ch (readsHeld s ch ++ [(addr, len)]) s

/-- `n` requests of a channel have returned. -/
def endReads (ch n : Nat) (s : State) : State :=
  sendReads ch (readsHeld s ch)
    { s with dma := { s.dma with reads := tabSet (fun _ => 0) s.dma.reads ch (readsOut s ch - n) } }

/-- Read requests that cover `len` bytes from `addr` on: none crosses a 512-byte boundary (R17). -/
def readReqs : Nat → Nat → Nat → List (Nat × Nat)
  | 0, _, _ => []
  | f + 1, addr, len =>
    if len = 0 then []
    else
      let n := min len (512 - addr % 512)
      (addr, n) :: readReqs f (addr + n) (len - n)

/-- The requests of a range. -/
def rangeReqs (addr len : Nat) : List (Nat × Nat) := readReqs (len / 512 + 2) addr len

/-- All the reads of a range. -/
def readRange (ch addr len : Nat) (s : State) : State := sendReads ch (readsHeld s ch ++ rangeReqs addr len) s

/-! ### Clearing a slot -/

def clearTern (v : Nat) : Tab TernRow → Tab TernRow
  | [] => []
  | (k, x) :: r =>
    let m := if x.valid.testBit v then x.valid - 2 ^ v else x.valid
    if m = 0 then clearTern v r else (k, { x with valid := m }) :: clearTern v r

def clearExact (v : Nat) : Tab ExactEntry → Tab ExactEntry
  | [] => []
  | (k, x) :: r =>
    let m := if x.valid.testBit v then x.valid - 2 ^ v else x.valid
    if m = 0 then clearExact v r else (k, { x with valid := m }) :: clearExact v r

/-- The slot's bit is cleared from every row and entry and it reads FREE with VERSION_ID 0 (R179). -/
def freeSlot (v : Nat) (s : State) : State :=
  setReg (slotA v) (word (v * 2 ^ 30))
    { s with cls := { s.cls with tern := clearTern v s.cls.tern, exact := clearExact v s.cls.exact } }

/-! ### Loading (R176) -/

/-- Tables while an image is being written. -/
structure Tables where
  tern : Tab TernRow
  exact : Tab ExactEntry

/-- Are all bytes zero? -/
def allZero (l : List Byte) : Bool := l.all (fun b => b == 0)

/-- One ternary record of 96 bytes: the new tables, or the reason of Table 9.7. -/
def writeTern (v : Nat) (r : List Byte) (t : Tables) : Tables ⊕ Nat :=
  let row := leField r 0 2
  let act := word (leField r 4 4)
  let val := leField r 8 40
  let mask := leField r 48 40
  if 2048 ≤ row ∨ leField r 2 2 ≠ 0 ∨ allZero (slice r 88 8) = false ∨ val &&& mask ≠ val then .inr 0x15
  else
    match tabFind t.tern row with
    | none =>
      .inl { t with tern := tabPut t.tern row { value := val, mask := mask, action := act, valid := 2 ^ v } }
    | some x =>
      if x.valid.testBit v then .inr 0x15
      else if x.value = val ∧ x.mask = mask ∧ x.action = act then
        .inl { t with tern := tabPut t.tern row { x with valid := x.valid + 2 ^ v } }
      else .inr 0x16

/-- One exact record of 16 bytes. -/
def writeExact (v : Nat) (r : List Byte) (t : Tables) : Tables ⊕ Nat :=
  let port := leField r 0 2
  let idx := leField r 2 1
  let act := word (leField r 4 4)
  let key := leField r 8 8
  if 512 ≤ port ∨ 64 ≤ idx ∨ leField r 3 1 ≠ 0 then .inr 0x15
  else
    match tabFind t.exact (64 * port + idx) with
    | none => .inl { t with exact := tabPut t.exact (64 * port + idx) { key := key, action := act, valid := 2 ^ v } }
    | some x =>
      if x.valid.testBit v then .inr 0x15
      else if x.key = key ∧ x.action = act then
        .inl { t with exact := tabPut t.exact (64 * port + idx) { x with valid := x.valid + 2 ^ v } }
      else .inr 0x16

/-- Write records in order; the first that fails gives its index and reason. -/
def writeRecords (w : List Byte → Tables → Tables ⊕ Nat) (size : Nat) :
    Nat → Nat → List Byte → Tables → Tables ⊕ (Nat × Nat)
  | 0, _, _, t => .inl t
  | n + 1, i, l, t =>
    match w (slice l 0 size) t with
    | .inl t1 => writeRecords w size n (i + 1) (l.drop size) t1
    | .inr k => .inr (i, k)

/-- The header check of Table 9.5: a reason of Table 9.7. -/
def headerBad (s : State) (len : Nat) (img : List Byte) : Option Nat :=
  let t := leField img 12 2
  let e := leField img 14 2
  let id := leField img 8 4
  if leField img 0 4 ≠ 0x4E485649 ∨ leField img 4 2 ≠ 1 ∨ leField img 6 2 ≠ 64 ∨ 2048 < t ∨ 32768 < e
      ∨ leField img 16 4 ≠ len ∨ len ≠ 64 + 96 * t + 16 * e + 4 ∨ 2 ^ 28 ≤ id ∨ allZero (slice img 56 8) = false then
    some 0x13
  else if id = 0 ∨ (List.range 4).any (fun v => slotState s v != 0 && getF s (slotA v) 27 0 == id) then some 0x14
  else none

/-- Check an image and write its records under slot `v`: the new tables, or (record, reason). -/
def loadImage (s : State) (v len : Nat) (img : List Byte) : Tables ⊕ (Nat × Nat) :=
  match headerBad s len img with
  | some k => .inr (0xFFFF, k)
  | none =>
    let t := leField img 12 2
    let e := leField img 14 2
    match writeRecords (writeTern v) 96 t 0 (img.drop 64) { tern := s.cls.tern, exact := s.cls.exact } with
    | .inr x => .inr x
    | .inl a =>
      match writeRecords (writeExact v) 16 e t (img.drop (64 + 96 * t)) a with
      | .inr x => .inr x
      | .inl b => if leField img (len - 4) 4 = crc32c (img.take (len - 4)) then .inl b else .inr (0xFFFF, 0x17)

/-- Selectors and MISS_ACTION of a slot take effect in PG_CLASS_KEYS, its BUILD_TAG in PG_VERSION. -/
def setSlotKeys (v : Nat) (sel miss tag : List Byte) (s : State) : State :=
  setPair (adr pgVersion (0x0C0 + 8 * v)) (leField tag 0 8)
    (setReg (adr pgKeys (0x098 + 0x20 * v)) (word (leField miss 0 4))
      (setWords (adr pgKeys (0x080 + 0x20 * v)) (wordsOf sel 0 6) s))

/-- LOAD_STATUS (Table 9.10). -/
def loadStatus (rec_ reason slot state : Nat) : Word := word (rec_ * 2 ^ 16 + reason * 2 ^ 8 + slot * 4 + state)

/-- A load ends without success: its effects are undone (R176). -/
def loadFail (l : Load) (rec_ reason : Nat) (s : State) : State :=
  finishCmd l.port rFailed [BitVec.ofNat 8 reason]
    (hwEvent pgVersion 1 (setReg (adr pgVersion 0x0A0) (loadStatus rec_ reason l.slot 3)
      { s with cls := { s.cls with load := none } }))

/-- The whole image has been read, or a read of it answered with an error (R176). -/
def loadDone (l : Load) (img : Option (List Byte)) (s : State) : State :=
  match img with
  | none => loadFail l 0xFFFF 0x12 s
  | some d =>
    match loadImage s l.slot l.len (slice d 0 l.len) with
    | .inr (i, k) => loadFail l i k s
    | .inl t =>
      let s1 := { s with cls := { s.cls with tern := t.tern, exact := t.exact, load := none } }
      let s2 := setReg (slotA l.slot) (word (l.slot * 2 ^ 30 + 2 ^ 28 + leField d 8 4)) s1
      let s3 := setSlotKeys l.slot (slice d 20 24) (slice d 44 4) (slice d 48 8) s2
      finishCmd l.port rOk []
        (hwEvent pgVersion 0 (setReg (adr pgVersion 0x0A0) (loadStatus 0 0 l.slot 2) s3))

/-- The boot rule set as an image body: selectors, MISS_ACTION, BUILD_TAG and ternary records (R181). -/
def loadBoot (sel miss tag : List Byte) (recs : List Byte) (n : Nat) (s : State) : Option State :=
  match writeRecords (writeTern 0) 96 n 0 recs { tern := [], exact := [] } with
  | .inr _ => none
  | .inl t =>
    some (setSlotKeys 0 sel miss tag
      (setReg (slotA 0) (word (2 * 2 ^ 28)) { s with cls := { s.cls with tern := t.tern, exact := t.exact } }))

/-! ### Committing (R177, R178, R180) -/

/-- Slots that are DRAINING. -/
def draining (s : State) : Nat := ((List.range 4).filter (fun v => slotState s v == 3)).length

/-- The first failing condition of a commit (R177). -/
def commitRefusal (s : State) (v : Nat) (pending timed : Bool) : Option Nat :=
  if slotState s v ≠ 1 then some 0x20
  else if pending then some 0x22
  else if 2 ≤ draining s ∧ (currentSlot s).isSome = true then some 0x21
  else if timed ∧ s.tim.vstate ≠ 1 then some 0x23
  else none

/-- COMMIT_STATUS (Table 9.10). -/
def commitStatus (reason : Nat) (late : Bool) (slot state : Nat) : Word :=
  word (reason * 2 ^ 8 + flag late * 16 + slot * 4 + state)

/-- The commit boundary: slot `v` becomes CURRENT, the CURRENT one DRAINING (R178). -/
def commitNow (v : Nat) (late : Bool) (s : State) : State :=
  let s1 := match currentSlot s with
    | some c => setSlot c 3 s
    | none => s
  hwEvent pgVersion 2 (setPair (adr pgVersion 0x0B8) s.tim.powered
    (setReg (adr pgVersion 0x0A4) (commitStatus 0 late v 2) (setSlot v 2 s1)))

/-- A commit ends without effect: COMMIT_STATUS abandoned, event 3 (R178, R180). -/
def abandonCommit (v reason : Nat) (s : State) : State :=
  hwEvent pgVersion 3 (setReg (adr pgVersion 0x0A4) (commitStatus reason false v 3) s)

/-- A timed commit that is due: in force where time is LOCKED, else abandoned (R178). -/
def decideTimed (c : Commit) (late : Bool) (s : State) : State :=
  let s1 := { s with cls := { s.cls with commit := none } }
  if s1.tim.vstate = 1 then commitNow c.slot late s1 else abandonCommit c.slot 1 s1

/-- A dealing boundary with a pending commit (R177, R178, R180). -/
def commitBoundary (s : State) : State :=
  match s.cls.commit with
  | none => s
  | some c =>
    match c.now with
    | some p =>
      let s1 := { s with cls := { s.cls with commit := none } }
      match commitRefusal s1 c.slot false false with
      | some k => finishCmd p rFailed [BitVec.ofNat 8 k] (setReg (adr pgVersion 0x0A4) c.before s1)
      | none => finishCmd p rOk [] (commitNow c.slot false s1)
    | none => if c.late then decideTimed c true s else s

/-- SAFELIGHT entry ends a load and a commit that is not in force (R180). -/
def versionsToSafe (s : State) : State :=
  let s1 := match s.cls.load with
    | some l => loadFail l 0xFFFF 0x18 (endReads (fnChan s l.fn) 1 s)
    | none => s
  match s1.cls.commit with
  | none => s1
  | some c =>
    let s2 := abandonCommit c.slot 2 { s1 with cls := { s1.cls with commit := none } }
    match c.now with
    | some p => finishCmd p rFailed [0x24] s2
    | none => s2

/-- A DRAINING slot with nothing left retires (R179). -/
def retireSlot (v : Nat) (s : State) : State :=
  if slotState s v = 3 ∧ getF s (drainA v) 23 0 = 0 then
    hwEvent pgVersion 4 (if getB s (adr pgVersion 0x010) 1 then setSlot v 1 s else freeSlot v s)
  else s

end Sys2Proof.Machine
end

