-- ==== Sys2Proof/Machine/Overlay.lean ====
section
/-! DEFINITION. The user overlay: its entries, their checks, and the values that PROOF takes from it or from the
factory calibration (21_calibration.md R367, R368, R371-R373; Tables 21.3 to 21.5). -/

namespace Sys2Proof.Machine

/-- One entry of an image (R371). -/
structure Entry where
  idx : Nat
  type : Nat
  rsv : Nat
  key : Nat
  data : List Byte

/-- The entries of an image body: `n` of them from offset `off` on; none where one runs past the image or bytes are left
over. -/
def entriesFrom (body : List Byte) (i : Nat) : Nat → Nat → Option (List Entry)
  | off, 0 => if off = body.length then some [] else none
  | off, n + 1 =>
    let len := leField body (off + 2) 2
    if body.length < off + 8 + len then none
    else
      match entriesFrom body (i + 1) (off + 8 + (len + 3) / 4 * 4) n with
      | none => none
      | some r =>
        some ({ idx := i, type := leField body off 1, rsv := leField body (off + 1) 1, key := leField body (off + 4) 4
                data := slice body (off + 8) len } :: r)

/-- The entries of a whole image. -/
def entriesOf (l : List Byte) : Option (List Entry) :=
  let n := leField l 8 4
  if l.length < 20 + 8 * n then none else entriesFrom (l.take (l.length - 4)) 0 16 n

/-- What an overlay gives (Table 21.4). -/
structure Overlay where
  regs : Tab Word
  tables : Tab DWord
  /-- TS_PORT words by 16·port + speed code. -/
  ts : Tab Word
  safe : Option (List Nat)
  boot : Option (List Byte)
  settings : Option Word
  roles : Tab Nat

/-- The overlay that gives nothing. -/
def overlay0 : Overlay :=
  { regs := [], tables := [], ts := [], safe := none, boot := none, settings := none, roles := [] }

/-- Is `o` one of the offsets `lo`, `lo + 4`, … below `hi`? -/
def inWords (o lo hi : Nat) : Bool := decide (lo ≤ o) && decide (o < hi)

/-- Does PROOF step 6 load the register from the user calibration (R86, R113, R142, R183, R200, R216, R236, R353, R393)? -/
def calLoaded (a : Nat) : Bool :=
  let i := pageInfo (pageOf a)
  let o := offOf a
  decide (a % 4 = 0) &&
    match i.kind with
    | .mac => decide (i.inst < 64) && (inWords o 0x080 0x0A0 || inWords o 0x200 0x240 || inWords o 0x2A0 0x2A8)
    | .pcs => decide (i.inst < 64) && inWords o 0x080 0x0A0
    | .sec => decide (i.inst < 64) && (inWords o 0x080 0x0C0 || o == 0x0E4
        || (inWords o 0x200 0x600 && decide (o % 32 < 12)) || (inWords o 0x600 0xA00 && decide (o % 16 < 12)))
    | .pipe => inWords o 0x100 0x10C || inWords o 0x110 0x150
    | .cls => inWords o 0x800 0x1000
    | .flowkey => inWords o 0x100 0x200
    | .time => inWords o 0x080 0x090 || o == 0x0D8
    | .fixer => o == 0x010 || inWords o 0x0A0 0x0AC
    | .fed => o == 0x010 || o == 0x080 || inWords o 0x088 0x09C || inWords o 0x800 0x1000
    | _ => false

/-- Where a loaded register lives: the shared parse configuration lies behind every pipe page (R142). -/
def calHome (a : Nat) : Nat := if (pageInfo (pageOf a)).kind = .pipe then adr (pgPipe 0) (offOf a) else a

/-- The factory port map: eight enabled 200G single-lane ports with RS(544,514) per cluster (R368). -/
def factoryPort : Word := 0xC4C0

/-- Is `a` a PORT_CFG register of C00-C63? -/
def isPortCfg (a : Nat) : Bool :=
  let i := pageInfo (pageOf a)
  i.kind == .pcs && decide (i.inst < 64) && inWords (offOf a) 0x080 0x0A0

/-- Factory value of a register that the overlay can set (R368). -/
def factoryReg (a : Nat) : Word := if isPortCfg a then factoryPort else regReset a

/-- The value that PROOF loads into a register. -/
def calReg (o : Overlay) (a : Nat) : Word := (tabFind o.regs a).getD (factoryReg a)

/-! ### Entry checks (Table 21.5, reason 4) -/

/-- Is a value out of its register's range: RX_CFG_i.MAX_LEN, 64-16,383? A field whose table says what a value outside its
range acts as takes every value (DEDUCED, log 57). -/
def valueBad (h : Nat) (w : Word) : Bool :=
  (pageInfo (pageOf h)).kind == .mac && inWords (offOf h) 0x080 0x0A0 && decide (bits w 29 16 < 64)

/-- A REGISTERS entry: every word from `a` on. -/
def addRegs (a : Nat) : List Word → Overlay → Option Overlay
  | [], o => some o
  | w :: r, o =>
    let h := calHome a
    if calLoaded a = false ∨ (tabFind o.regs h).isSome = true ∨ valueBad h w = true
        ∨ w &&& ~~~((rowAt h).map (fun x => x.rw)).getD 0 ≠ 0 then none
    else addRegs (a + 4) r { o with regs := tabPut o.regs h w }

/-- A MAC_TABLE entry: consecutive entries from an index on. -/
def addTable (cl t sl : Nat) (i : Nat) : List DWord → Overlay → Option Overlay
  | [], o => some o
  | w :: r, o =>
    let k := tblKey cl t sl i
    if tblSize t ≤ i ∨ (tabFind o.tables k).isSome = true ∨ w &&& ~~~(tblMask t) ≠ 0 then none
    else addTable cl t sl (i + 1) r { o with tables := tabPut o.tables k w }

/-- Pairs of words as 64-bit entries. -/
def dwordsOf (l : List Byte) : Nat → Nat → List DWord
  | _, 0 => []
  | off, n + 1 => BitVec.ofNat 64 (leField l off 8) :: dwordsOf l (off + 8) n

/-- 16-bit numbers of a byte block. -/
def halvesOf (l : List Byte) : Nat → Nat → List Nat
  | _, 0 => []
  | off, n + 1 => leField l off 2 :: halvesOf l (off + 2) n

/-- A boot rule set passes the checks of R176 and the limits of R181. -/
def bootOk (d : List Byte) : Bool :=
  let t := leField d 12 2
  decide (leField d 0 4 = 0x4E485649) && decide (leField d 4 2 = 1) && decide (leField d 6 2 = 64)
    && decide (leField d 8 4 = 0) && decide (t ≤ 64) && decide (leField d 14 2 = 0)
    && decide (leField d 16 4 = d.length) && decide (d.length = 64 + 96 * t + 4) && allZero (slice d 56 8)
    && (match writeRecords (writeTern 0) 96 t 0 (d.drop 64) { tern := [], exact := [] } with
        | .inl _ => true
        | .inr _ => false)
    && decide (leField d (d.length - 4) 4 = crc32c (d.take (d.length - 4)))

/-- One entry joins the overlay; none where it fails (Table 21.5, reason 4). -/
def addEntry (boot : Bool) (e : Entry) (o : Overlay) : Option Overlay :=
  let n := e.data.length
  if e.rsv ≠ 0 then none
  else
    match e.type with
    | 1 => if n % 4 ≠ 0 ∨ n = 0 ∨ 2 ^ 22 ≤ e.key then none else addRegs e.key (wordsOf e.data 0 (n / 4)) o
    | 2 =>
      let w := word (leField e.data 0 4)
      let cl := e.key / 2 ^ 16
      if n < 4 ∨ (n - 4) % 8 ≠ 0 ∨ 64 ≤ cl ∨ e.key % 2 ^ 16 ≠ 0 ∨ w &&& 0xF8F8FF80 ≠ 0 ∨ 6 ≤ bits w 26 24 then none
      else addTable cl (bits w 26 24) (bits w 18 16) (bits w 6 0) (dwordsOf e.data 4 ((n - 4) / 8)) o
    | 3 =>
      let p := e.key % 512
      let sp := e.key / 2 ^ 16
      let w := word (leField e.data 0 4)
      if n ≠ 4 ∨ 8 ≤ sp ∨ e.key % 2 ^ 16 ≠ p ∨ bits w 7 0 ≠ 0 ∨ (tabFind o.ts (16 * p + sp)).isSome = true then none
      else some { o with ts := tabPut o.ts (16 * p + sp) w }
    | 4 =>
      let l := halvesOf e.data 0 (n / 2)
      if n % 2 ≠ 0 ∨ n = 0 ∨ 64 < n ∨ e.key ≠ 0 ∨ l.any (fun p => decide (512 ≤ p)) = true ∨ o.safe.isSome = true then none
      else some { o with safe := some l }
    | 5 =>
      if e.key ≠ 0 ∨ o.boot.isSome = true ∨ (boot = true ∧ bootOk e.data = false) then none
      else some { o with boot := some e.data }
    | 6 =>
      let w := word (leField e.data 0 4)
      if n ≠ 4 ∨ e.key ≠ 0 ∨ w &&& 0xF800FFE0 ≠ 0 ∨ bits w 26 16 = 0 ∨ 1024 < bits w 26 16 ∨ o.settings.isSome = true then
        none
      else some { o with settings := some w }
    | 7 =>
      if n ≠ 1 ∨ 512 ≤ e.key ∨ 3 < leField e.data 0 1 ∨ (tabFind o.roles e.key).isSome = true then none
      else some { o with roles := tabPut o.roles e.key (leField e.data 0 1) }
    | _ => none

/-- All entries in order: the overlay, or the index of the first that fails. -/
def addEntries (boot : Bool) : List Entry → Overlay → Overlay ⊕ Nat
  | [], o => .inl o
  | e :: r, o =>
    match addEntry boot e o with
    | some x => addEntries boot r x
    | none => .inr e.idx

/-- The PORT_CFG words of a cluster under an overlay. -/
def calMap (o : Overlay) (cl : Nat) : List Word := (List.range 8).map (fun i => calReg o (adr (pgCl cl 1) (0x080 + 4 * i)))

/-- Spans of a map: (slot, width) of every HEAD. -/
def spansOf (m : List Word) : List (Nat × Nat) :=
  (List.range 8).filterMap (fun i => let x := shapeOf (m.getD i 0); if x.head then some (i, x.width) else none)

/-- Check 1 of Table 5.3: the lowest HEAD slot that is not a multiple of its width. -/
def alignBad (m : List Word) : Option Nat := ((spansOf m).find? (fun x => decide (x.1 % x.2 ≠ 0))).map (fun x => x.1)

/-- Check 2: the lowest HEAD inside another span, or whose span runs past slot 7. -/
def overlapBad (m : List Word) : Option Nat :=
  ((spansOf m).find? (fun x => decide (8 < x.1 + x.2)
    || (spansOf m).any (fun y => decide (y.1 < x.1) && decide (x.1 < y.1 + y.2)))).map (fun x => x.1)

/-- Check 3: the lowest HEAD whose SPEED, WIDTH and FEC are no row of Table 5.1. -/
def combinationBad (m : List Word) : Option Nat :=
  (List.range 8).find? (fun i => let x := shapeOf (m.getD i 0); x.head && !combinationOk x)

/-- Check 8: a span of a map lies partly, but not wholly, in the mask: the lowest lane of the part inside. -/
def maskBad (mask : Nat) (m : List Word) : Option Nat :=
  ((spansOf m).findSome? (fun x =>
    let l := (List.range x.2).map (fun k => x.1 + k)
    if l.any (fun i => mask.testBit i) && !l.all (fun i => mask.testBit i) then l.find? (fun i => mask.testBit i)
    else none))

/-- Lanes of a cluster whose PORT_CFG an overlay names. -/
def namedMask (o : Overlay) (cl : Nat) : Nat :=
  ((List.range 8).filter (fun i => (tabFind o.regs (adr (pgCl cl 1) (0x080 + 4 * i))).isSome)).foldl
    (fun m i => m + 2 ^ i) 0

/-- The cluster's PORT_CFG words under the overlay fail checks 1 to 3 or 8 of Table 5.3. -/
def calMapBad (o : Overlay) (cl : Nat) : Bool :=
  let m := calMap o cl
  let k := namedMask o cl
  decide (k ≠ 0) && ((alignBad m).isSome || (overlapBad m).isSome || (combinationBad m).isSome
    || (maskBad k m).isSome)

/-- Does the entry name a PORT_CFG register of cluster `cl`? -/
def namesPort (cl : Nat) (e : Entry) : Bool :=
  e.type == 1 && (List.range (e.data.length / 4)).any (fun i =>
    isPortCfg (e.key + 4 * i) && (pageInfo (pageOf (e.key + 4 * i))).inst == cl)

/-! ### The SAFELIGHT list (R57) -/

/-- The factory SAFELIGHT list (R368). -/
def factoryList : List Nat := [0, 8, 16, 24, 32, 40, 48, 56]

/-- The list of an overlay, else the factory list. -/
def calList (o : Overlay) : List Nat := o.safe.getD factoryList

/-- R57: a list combined with the maps `m` of the clusters. -/
def safeListOk (m : Nat → List Word) (l : List Nat) : Bool :=
  let sh := fun p => shapeOf ((m (p / 8)).getD (p % 8) 0)
  let cls := (List.range 64).filter (fun n => l.any (fun p => p / 8 == n))
  decide (l.length ≤ 32) && decide (cls.length ≤ 8)
    && l.all (fun p => !((sh p).head && (sh p).enable) || decide ((sh p).speed ≤ 5))
    && cls.all (fun n => decide (sumLoad (((List.range 8).filter (fun i => l.contains (8 * n + i))).map
        (fun i => sh (8 * n + i))) ≤ 640 * 514))

/-! ### The checks of an overlay write (Table 21.5) -/

/-- Reasons 3 to 5 for an image that was read: none, or (reason, BAD_ENTRY). -/
def imageRefusal (l : List Byte) : Option (Nat × Nat) :=
  if imageWhole l = false ∨ imageSeq l ≠ 0 then some (3, 0xFFFF)
  else
    match entriesOf l with
    | none => some (3, 0xFFFF)
    | some es =>
      match addEntries true es overlay0 with
      | .inr i => some (4, i)
      | .inl o =>
        match (List.range 64).find? (calMapBad o) with
        | some cl => some (4, ((es.find? (namesPort cl)).map (fun e => e.idx)).getD 0xFFFF)
        | none =>
          if safeListOk (calMap o) (calList o) then none
          else some (5, ((es.find? (fun e => e.type == 4)).map (fun e => e.idx)).getD 0xFFFF)

/-- What a stored image gives; a boot rule set that fails its check is left to PROOF (R52). -/
def overlayOf (l : Option (List Byte)) : Overlay :=
  match l with
  | none => overlay0
  | some x =>
    match entriesOf x with
    | none => overlay0
    | some es =>
      match addEntries false es overlay0 with
      | .inl o => o
      | .inr _ => overlay0

/-! ### Loading (R50, R86, R113, R240, R373) -/

/-- The cluster of a register that belongs to one. -/
def clusterOf (a : Nat) : Option Nat :=
  match (pageInfo (pageOf a)).domain with
  | .cl n => some n
  | _ => none

/-- Store a table of registers where `sel` selects the address. -/
def setSelected (sel : Nat → Bool) : Tab Word → State → State
  | [], s => s
  | (a, w) :: r, s => setSelected sel r (if sel a then setReg a w s else s)

/-- PORT_CFG and PORT_LIVE of a cluster take a map. -/
def setMap (cl : Nat) (m : List Word) (s : State) : State :=
  setWords (adr (pgCl cl 1) 0x0E0) m (setWords (adr (pgCl cl 1) 0x080) m s)

def setMaps (o : Overlay) : List Nat → State → State
  | [], s => s
  | n :: r, s => setMaps o r (setMap n (calMap o n) s)

/-- TS_PORT_p: the offsets of the port's speed; INSERT_EN and LOG_ALL stay (R240). -/
def tsWord (o : Overlay) (p speed : Nat) : Word :=
  (tabFind o.ts (16 * p + speed)).getD (Config.portOffset p speed) &&& 0xFFFFFF00

def tsA (p : Nat) : Nat := adr pgShutter (0x800 + 4 * p)

def setTs (o : Overlay) : List Nat → State → State
  | [], s => s
  | p :: r, s =>
    setTs o r (match portShape s p with
      | some x => setReg (tsA p) ((getReg s (tsA p) &&& 0xFF) ||| tsWord o p x.speed) s
      | none => s)

/-- Every loaded register and indirect table of the clusters `cls`, and where `rest` the registers of no cluster, take
the value of the calibration. -/
def loadCal (o : Overlay) (cls : List Nat) (rest live : Bool) (s : State) : State :=
  let sel := fun a => match clusterOf a with
    | some n => cls.contains n
    | none => rest
  let s1 := { s with
    win := { s.win with regs := tabKeep (fun a => !(calLoaded a && sel a)) s.win.regs }
    rx := { s.rx with tables := tabKeep (fun k => !cls.contains (k / 8192)) s.rx.tables } }
  let s2 := setSelected (fun a => sel a && !isPortCfg a) o.regs s1
  let tb := (tabKeep (fun k => cls.contains (k / 8192)) o.tables).filter (fun x => x.2 ≠ 0)
  let s3 := { s2 with rx := { s2.rx with tables := tb.foldl (fun t x => tabPut t x.1 x.2) s2.rx.tables } }
  if live then setTs o (((cls.map (fun n => (List.range 8).map (fun i => 8 * n + i))).flatten)) (setMaps o cls s3) else s3

/-- The calibration in force at PROOF. -/
def calInForce (s : State) : Overlay := overlayOf s.nv.user

/-- PROOF settings of a calibration; the factory word is PL1, no LBIST, no watchdog, STEP_ONCE, size 1 (R368). -/
def calSettings (o : Overlay) : Word := o.settings.getD 0x00010001

end Sys2Proof.Machine
end

