-- ==== Sys2Proof/Machine/DmaOps.lean ====
section
/-! DEFINITION. The host DMA island: contexts, indices, doorbells, prefetch, descriptors, completions
(14_host_rings.md R255-R275). -/

namespace Sys2Proof.Machine

/-! ### Completion rings -/

/-- Posted writes of a byte range: none crosses a 512-byte boundary (R17). -/
def fabricWrites (ch : Nat) : Nat → Nat → List Byte → State → State
  | 0, _, _, s => s
  | f + 1, addr, d, s =>
    if d = [] then s
    else
      let n := 512 - addr % 512
      fabricWrites ch f (addr + n) (d.drop n) (emit (.fabricWrite ch addr (d.take n)) s)

def writeHost (ch addr : Nat) (d : List Byte) (s : State) : State := fabricWrites ch (d.length + 1) addr d s

/-- The ring's source has an edge (R266). -/
def ringEdge (x : Ring) (s : State) : State := if ctxRing x.word2 = 0 then s else irqEdge (ctxRing x.word2) s

/-- Write a completion and write PI back (R266). -/
def pushCompletion (c : Nat) (r : List Byte) (s : State) : State :=
  let x := getR s c
  let k := ctxK x.word2
  let ch := fnChan s (ctxFn x.word2)
  let pi := wrap k (x.pi + 1)
  let y := { x with pi := pi, wb := pi }
  let s1 := emit (.fabricWrite ch x.wbAddr (leBytes pi 4))
    (emit (.fabricWrite ch (x.base + 32 * (x.pi % 2 ^ k)) r) (setR c y s))
  if x.wb = x.ci ∧ pi ≠ x.ci then ringEdge y s1 else s1

/-- Index after the entries that a completion record covers. -/
def afterRecord (k : Nat) (r : List Byte) : Nat := wrap k (leField r 4 4 % 2 ^ 17 + leField r 7 1)

/-- Write held completions while the ring has room (R268). -/
def flushHeld (q : Nat) : Nat → State → State
  | 0, s => s
  | f + 1, s =>
    let x := getQ s false q
    match x.held with
    | [] => s
    | r :: rest =>
      if ringRoom (getR s (ctxRing x.word2)) = true ∧ x.frozen = false then
        flushHeld q f (loupe 5 (ctxFn x.word2) 0 1 (pushCompletion (ctxRing x.word2) r
          (setQ false q { x with held := rest, ci := afterRecord (ctxK x.word2) r } s)))
      else s

/-- Completions of a transmit queue leave in the order of its frames (R262, R266). -/
def flushFrames (q : Nat) : Nat → State → State
  | 0, s => s
  | f + 1, s =>
    let x := getQ s false q
    match x.frames with
    | h :: rest =>
      if h.phase = 3 then
        flushFrames q f (flushHeld q 65 (setQ false q { x with frames := rest, held := x.held ++ [h.done] } s))
      else flushHeld q 65 s
    | [] => flushHeld q 65 s

/-! ### Prefetch (R259) -/

/-- Entries held or being read by a queue. -/
def fetchedCount (x : Queue) : Nat := x.pre.length + (x.fetches.map (fun f => if f.single then 1 else 16)).sum

/-- Entries taken from the shared store of the prefetcher (R259). -/
def storeUsed (s : State) : Nat := ((s.dma.txq ++ s.dma.rxq).map (fun e => fetchedCount e.2)).sum

/-- Has the shared store of 16,384 entries no room for a block (R259)? -/
def storeFull (s : State) : Bool := decide (16384 < storeUsed s + 16)

/-- Is entry `i` held, or its read in flight with it owned at the issue or as a single read? -/
def isCovered (x : Queue) (i : Nat) : Bool :=
  let k := ctxK x.word2
  (match tabFind x.pre i with | some e => e.usable | none => false)
    || x.fetches.any (fun f =>
      if f.single then f.idx == i
      else decide (ringDist k f.idx i < 16) && decide (ringDist k f.ci i < ringDist k f.ci f.pi))

/-- Is entry `i` held, or in any read in flight? -/
def isTouched (x : Queue) (i : Nat) : Bool :=
  let k := ctxK x.word2
  (tabFind x.pre i).isSome || x.fetches.any (fun f => if f.single then f.idx == i else decide (ringDist k f.idx i < 16))

/-- Start a read of a block, or of one entry again, with the indices of its issue. -/
def issueFetch (rx : Bool) (q i : Nat) (single : Bool) (s : State) : State :=
  let x := getQ s rx q
  let k := ctxK x.word2
  let first := if single then i else i - i % 16
  let f : Fetch := { idx := first, ci := x.ci, pi := x.pi, stable := x.stable, single := single }
  askRead (fnChan s (ctxFn x.word2)) (x.base + 32 * (first % 2 ^ k)) (if single then 32 else 512)
    (setQ rx q { x with fetches := x.fetches ++ [f], pre := if single then tabErase x.pre i else x.pre } s)

/-- Walk the owned entries from `i` on: one not held is read with its block, one held without the mark is read again
(counted in REFETCH); at most 32 entries of a queue are held, and 16,384 of all. -/
def prefetchFrom (rx : Bool) (q : Nat) : Nat → Nat → State → State
  | 0, _, s => s
  | f + 1, i, s =>
    let x := getQ s rx q
    let k := ctxK x.word2
    if owned x i = false then s
    else if isCovered x i then prefetchFrom rx q f (wrap k (i + 1)) s
    else if (tabFind x.pre i).isSome then
      prefetchFrom rx q f (wrap k (i + 1)) (fnCount (ctxFn x.word2) 3 (issueFetch rx q i true s))
    else if isTouched x i then prefetchFrom rx q f (wrap k (i + 1)) s
    else if 32 < fetchedCount x + 16 ∨ storeFull s = true then s
    else prefetchFrom rx q f (wrap k (i + 1)) (issueFetch rx q i false s)

/-- The prefetcher of a queue acts; transmit queues stop fetching in quiescence (R324). -/
def prefetch (rx : Bool) (q : Nat) (s : State) : State :=
  let x := getQ s rx q
  if queueRuns s x && (rx || !quiescing s) then prefetchFrom rx q 48 x.next s else s

/-- The entries of a block as they return (R259, Table 14.6). -/
def markEntries (x : Queue) (f : Fetch) (d : List Byte) : Nat → Tab Pre → Tab Pre
  | 0, t => t
  | n + 1, t =>
    let k := ctxK x.word2
    let t1 := markEntries x f d n t
    let i := wrap k (f.idx + n)
    if 2 ^ k ≤ ringDist k x.next i ∨ 2 ^ k ≤ ringDist k x.ci i then t1
    else
      let own := decide (ringDist k f.ci i < ringDist k f.ci f.pi)
      let mark := decide (ringDist k f.ci i < ringDist k f.ci f.stable) && decide (ringDist k f.ci f.stable ≤ 2 ^ k)
      if (tabFind t1 i).isSome then t1
      else tabPut t1 i { bytes := slice d (32 * n) 32, usable := own || mark || f.single }

/-! ### Taking transmit descriptors (R261, R262, R270, R295) -/

/-- The error of a transmit descriptor, if it has one: `n` descriptors and `total` bytes of its frame came before. -/
def txDescError (n total : Nat) (d : List Byte) : Option Nat :=
  let len := leField d 8 2
  let flags := leField d 11 1
  if leField d 10 1 ≠ 1 then some 2
  else if len = 0 ∨ 16383 < total + len then some 3
  else if 16 ≤ flags then some 5
  else if n = 0 ∧ (512 ≤ leField d 12 2 ∨ 3 < leField d 14 1 ∨ leField d 17 3 ≠ 0 ∨ leField d 28 4 ≠ 0
      ∨ 8 ≤ leField d 24 1 ∨ leField d 27 1 ≠ 0) then some 5
  else if n = 15 ∧ flags % 2 = 0 then some 4
  else none

/-- Bytes named by a chain of descriptors. -/
def chainBytes (l : List (List Byte)) : Nat := (l.map (fun d => leField d 8 2)).sum

/-- The reads of a frame's buffers. -/
def readBufs (ch : Nat) : List (Nat × Nat) → State → State
  | [], s => s
  | (a, n) :: r, s => readBufs ch r (readRange ch a n s)

/-- Take usable descriptors of a transmit queue; a complete frame's buffers are read (R262, R268). -/
def takeTx (q : Nat) : Nat → State → State
  | 0, s => s
  | f + 1, s =>
    let x := getQ s false q
    let k := ctxK x.word2
    if queueRuns s x = false ∨ quiescing s = true ∨ owned x x.next = false ∨ (x.chain = [] ∧ 64 ≤ x.held.length + x.frames.length) then s
    else
      match tabFind x.pre x.next with
      | none => s
      | some e =>
        if e.usable = false then s
        else
          match txDescError x.chain.length (chainBytes x.chain) e.bytes with
          | some r => queueError false q r x.next s
          | none =>
            let chain := x.chain ++ [e.bytes]
            let y := { x with next := wrap k (x.next + 1), pre := tabErase x.pre x.next }
            if (leField e.bytes 11 1) % 2 = 1 then
              let h : HostTx := { first := wrap k (x.next + 2 ^ (k + 1) - x.chain.length), count := chain.length
                                  desc := chain.headD [], bufs := chain.map (fun d => (leField d 0 8, leField d 8 2))
                                  phase := 0, data := [], done := [] }
              takeTx q f (readBufs (fnChan s (ctxFn x.word2)) h.bufs
                (setQ false q { y with chain := [], frames := x.frames ++ [h] } s))
            else takeTx q f (setQ false q { y with chain := chain } s)

/-- Queues that wait for room in the shared store fetch (R259). -/
def prefetchAll (rx : Bool) : List Nat → State → State
  | [], s => s
  | q :: r, s => prefetchAll rx r (prefetch rx q s)

/-- A queue goes on: descriptors are taken and more are fetched; where the shared store was full, the other queues take the
room that this leaves. -/
def runQueue (rx : Bool) (q : Nat) (s : State) : State :=
  let s1 := prefetch rx q s
  let s2 := if rx then s1 else prefetch false q (takeTx q 64 s1)
  if storeFull s then
    prefetchAll true (s2.dma.rxq.map (fun e => e.1)) (prefetchAll false (s2.dma.txq.map (fun e => e.1)) s2)
  else s2

/-- Queues listed in a table. -/
def runListed (rx : Bool) : List Nat → State → State
  | [], s => s
  | q :: r, s => runListed rx r (runQueue rx q s)

/-! ### Completion of transmit frames -/

/-- A transmit completion record (Table 14.3). -/
def txRecord (q : Nat) (h : HostTx) (status reason len : Nat) (ts : Option (Stamp × Bool)) : List Byte :=
  let want := decide (leField h.desc 14 1 ≠ 0) || (leField h.desc 11 1).testBit 3
  let t := match ts with | some x => x.1 | none => { sec := 0, ns := 0, frac := 0 }
  leBytes q 2 ++ leBytes status 1 ++ leBytes reason 1 ++ leBytes (h.first + h.count * 2 ^ 24) 4 ++ slice h.desc 20 4
    ++ leBytes len 2 ++ leBytes (leField h.desc 12 2) 2 ++ leBytes t.sec 6 ++ leBytes t.ns 4 ++ leBytes t.frac 2
    ++ leBytes 0 3 ++ leBytes (match ts with | some x => flag want + 2 * flag x.2 | none => 0) 1

/-- Put a completion record on the frame whose first descriptor is `first`. -/
def markDone (first : Nat) (mk : HostTx → List Byte) : List HostTx → List HostTx
  | [] => []
  | h :: r => if h.first = first ∧ h.phase = 2 then { h with phase := 3, done := mk h } :: r else h :: markDone first mk r

/-- A host frame is over: its completion joins the queue's order (R266). A frame that a reset withdrew has none. -/
def txDone (q first status reason len : Nat) (ts : Option (Stamp × Bool)) (s : State) : State :=
  let x := getQ s false q
  let y := { x with frames := markDone first (fun h => txRecord q h status reason len ts) x.frames }
  runQueue false q (flushFrames q 65 (setQ false q y s))

end Sys2Proof.Machine
end

