-- ==== Sys2Proof/Machine/TxOps.lean ====
section
/-! DEFINITION. MAC transmit: queues, outcomes of Table 10.2, data tags, one-step insertion and the timestamp log, flow
control, the commit (10_mac_transmit.md, 13_timestamps_and_shutter.md R237-R247, 09_classifier_and_versions.md R182). -/

namespace Sys2Proof.Machine

/-! ### Ports and queues -/

def txCfg (s : State) (p : Nat) : Word := getReg s (macA p (0x200 + 4 * (p % 8)))

/-- TAIL_NS of a port speed in units of 2^-4 ns (Table 10.3). -/
def tailOf (speed : Nat) : Nat := if speed = 7 then 0x0124 else if speed = 6 then 0x0197 else 0x0352

def txQueue (s : State) (p : Nat) : List TxFrm := tabGet (fun _ => []) s.tx.queues p

def setTxQueue (p : Nat) (l : List TxFrm) (s : State) : State :=
  { s with tx := { s.tx with queues := if l.isEmpty then tabErase s.tx.queues p else tabPut s.tx.queues p l } }

/-- Transmit cells of a cluster in its 128-cell buffer (R10). -/
def txUsed (s : State) (cl : Nat) : Nat := tabGet (fun _ => 0) s.tx.used cl

/-- Return `n` credits of a cluster (R10, R185). -/
def freeCells (cl n : Nat) (s : State) : State :=
  if n = 0 then s
  else emit (.credit cl n) { s with tx := { s.tx with used := tabSet (fun _ => 0) s.tx.used cl (txUsed s cl - n) } }

/-- Modes in which a port may send. -/
def txMode (s : State) : Bool :=
  match s.ctl.mode with
  | .run => true
  | .test => true
  | .safelight => true
  | _ => false

/-- Row 2 of Table 10.2 (R93): 1 down, receiving remote fault, or reconfiguring, 2 stopped by SAFELIGHT; none while the port sends frames. -/
def portStop (s : State) (p : Nat) : Option Nat :=
  if safeStopped s p then some 2
  else if portUp s p = false ∨ s.prt.stopped.contains p = true ∨ s.prt.remote.contains p = true ∨ quiescing s = true then some 1
  else none

/-- Is the priority (or the whole port) paused (R195)? -/
def txPaused (s : State) (p prio : Nat) : Bool := decide (0 < pauseOf s (16 * p + 8)) || decide (0 < pauseOf s (16 * p + prio))

/-- Is the priority tripped by the watchdog (R196)? -/
def tripped (s : State) (p prio : Nat) : Bool := getB s (txStA p) (16 + prio)

/-- Federation EtherType (Table 22.7). -/
def fedType (s : State) : Nat := getF s (adr pgFed 0x080) 31 16

/-- Priority of a transmit frame (R194). -/
def txPriority (s : State) (p : Nat) (f : List Byte) : Nat :=
  let t := if beField f 12 2 = fedType s then 22 else 12
  if beField f t 2 = 0x8100 ∨ beField f t 2 = 0x88A8 then beField f (t + 2) 1 / 32 else bits (txCfg s p) 11 9

/-- A federation control frame (R188): the federation EtherType and, as R182 says of it, any MSG but 0x01 (DEDUCED, log 52). -/
def isFedCtrl (s : State) (f : List Byte) : Bool :=
  decide (14 < f.length) && decide (beField f 12 2 = fedType s) && decide (beField f 14 1 ≠ 1)

/-- A MAC Control frame (R114): never paused (R195), always express (R199). -/
def isCtrlFrm (f : TxFrm) : Bool := decide (beField f.data 12 2 = 0x8808)

/-- Does a pause hold the frame (R195)? -/
def pausedFrm (s : State) (p : Nat) (f : TxFrm) : Bool := !isCtrlFrm f && txPaused s p f.prio

/-- Is the frame express while preemption is active (R199)? -/
def isExpress (f : TxFrm) : Bool := f.express || isCtrlFrm f

/-- A frame of the management core, which enters past the check of R188. -/
def isOwn : TxSrc → Bool
  | .own _ => true
  | _ => false

/-- A host frame's completion without a timestamp (discarded before commit); a relay of the agent counts in RX_OVERLOAD
(R392). -/
def hostDone (src : TxSrc) (reason : Nat) (s : State) : State :=
  match src with
  | .host q first => txDone q first 2 reason 0 none s
  | .switch => s
  | .own relay => if relay then addF (adr pgFed 0x114) 31 0 1 s else s

/-- A frame is discarded before its commit: its cells are freed and its completion is issued. What remains of it up to
EOF is dropped as it comes. Answers what stays in the queue. -/
def discardFrm (p reason : Nat) (f : TxFrm) (s : State) : List TxFrm × State :=
  let s1 := hostDone f.src reason (freeCells (p / 8) f.cells s)
  (if f.eof then [] else [{ f with data := [], cells := 0, dropping := true }], s1)

/-- A frame of rows 1 to 4 is counted. -/
def countDiscard (p cnt : Nat) (s : State) : State := loupe 2 p 2 1 (addLive (txCnt p cnt) 1 s)

/-- Row 1: no port (Table 10.2). -/
def badPort (p : Nat) (s : State) : State :=
  loupe 2 p 2 1 (hwEvent (pgCl (p / 8) 0) 9 (addF (adr (pgCl (p / 8) 0) 0x2A8) 31 0 1 s))

/-- Why a queued frame is discarded now, if it is: its counter and completion reason (R188, rows 2 to 4). -/
def discardOf (s : State) (p : Nat) (f : TxFrm) : Option (Nat × Nat) :=
  if isFedCtrl s f.data && !isOwn f.src then some (0xD4, 0x20)
  else
    match portStop s p with
    | some 2 => some (0xB4, 2)
    | some _ => some (0xB0, 2)
    | none =>
      if f.fcsSupplied = true ∧ f.eof = true ∧ f.data.length < 64 then some (0xA8, 3)
      else if tripped s p f.prio then some (0xB8, 4)
      else none

/-- Is frame `f` the first of its priority among those before it? -/
def isHead (before : List TxFrm) (f : TxFrm) : Bool := before.all (fun x => x.dropping || x.prio != f.prio)

/-- Discard the queued frames that meet R188 or rows 2 to 4 at the head of their priority queue. -/
def discardHeads (p : Nat) : List TxFrm → List TxFrm → State → List TxFrm × State
  | kept, [], s => (kept, s)
  | kept, f :: r, s =>
    if f.dropping = true ∨ isHead kept f = false then discardHeads p (kept ++ [f]) r s
    else
      match discardOf s p f with
      | none => discardHeads p (kept ++ [f]) r s
      | some (cnt, reason) =>
        let s1 := if cnt = 0xD4 then addLive (txCnt p cnt) 1 s else countDiscard p cnt s
        let x := discardFrm p reason f s1
        discardHeads p (kept ++ x.1) r x.2

/-- Sweep a port's queues. -/
def sweep (p : Nat) (s : State) : State :=
  match txQueue s p with
  | [] => s
  | l =>
    let x := discardHeads p [] l s
    setTxQueue p x.1 x.2

/-- A frame joins the queue of its port, which sheds what its state does not let wait (rows 2 and 4 of Table 10.2). -/
def joinQueue (p : Nat) (f : TxFrm) (s : State) : State :=
  let s1 := setTxQueue p (txQueue s p ++ [f]) s
  if (portStop s1 p).isSome || tripped s1 p f.prio then sweep p s1 else s1

/-- Sweep the queues of the ports of a list. -/
def sweepAll : List Nat → State → State
  | [], s => s
  | p :: r, s => sweepAll r (sweep p s)

/-- Ports with waiting frames. -/
def waitingPorts (s : State) : List Nat := s.tx.queues.map (fun e => e.1)

/-! ### Gaps (R190) -/

/-- Octets between start positions: two in a 66-bit block, one on a 256B/257B port, whose FEC is RS(528,514) or RS(544,514). -/
def startStep (s : State) (p : Nat) : Nat :=
  match portShape s p with
  | some x => if 2 ≤ x.fec then 8 else 4
  | none => 4

/-- IPG as it acts (Table 10.5). -/
def ipgOf (s : State) (p : Nat) : Nat := max 12 (bits (txCfg s p) 25 20)

/-- The gap from octet `pos` of a block to a start position `step` octets apart, and the deficit it leaves: the deficit idle
count of IEEE 802.3. On a 256B/257B port a gap can exceed IPG + 3, since R190's start positions lie 8 octets apart there
(DESIGN CHOICE, log 53). -/
def gapFrom (step ipg pos d : Nat) : Nat × Nat :=
  let r := (pos + ipg) % step
  if d + r ≤ 3 then (ipg - r, d + r) else (ipg + step - r, d - (step - r))

/-- Octets of port `p`'s line in `n` nanoseconds. -/
def lineOctets (s : State) (p n : Nat) : Nat :=
  match portShape s p with
  | some x => n * speedGb x.speed / 8
  | none => 0

/-- Something starts on port `p`: the gap before it where the last one has just ended; else the line has been idle. -/
def openGap (p : Nat) (s : State) : State :=
  let late : Gap := { pos := if startStep s p = 4 ∧ Config.lateStart p s.tim.powered = true then 4 else 0, deficit := 0, ended := 0 }
  match tabFind s.tx.gaps p with
  | none => { s with tx := { s.tx with gaps := tabPut s.tx.gaps p late } }
  | some g =>
    if ipgOf s p + 4 ≤ lineOctets s p (s.tim.powered - g.ended) then
      { s with tx := { s.tx with gaps := tabPut s.tx.gaps p late } }
    else
      let x := gapFrom (startStep s p) (ipgOf s p) g.pos g.deficit
      emit (.gap p x.1)
        { s with tx := { s.tx with gaps := tabPut s.tx.gaps p { g with pos := (g.pos + x.1) % 8, deficit := x.2 } } }

/-- It ends `n` octets behind its preamble. -/
def closeGap (p n : Nat) (s : State) : State :=
  let g := tabGet (fun _ => { pos := 0, deficit := 0, ended := 0 }) s.tx.gaps p
  { s with tx := { s.tx with gaps := tabPut s.tx.gaps p { g with pos := (g.pos + n) % 8, ended := s.tim.powered } } }

/-- May the frame be committed (R189, R241)? -/
def ready (f : TxFrm) : Bool :=
  f.eof || decide (16 ≤ f.cells) || (f.cutThrough && !(f.ptpAction == 1 || f.ptpAction == 2))

/-! ### Data tags (R182) -/

/-- Add the data tag after the source address, or rewrite one in place; with whether the frame is sent untagged. -/
def dataTag (s : State) (p : Nat) (f : List Byte) : List Byte × Bool × Nat :=
  if getB s (adr pgClass (0x800 + 4 * p)) 5 = false then (f, false, 0)
  else
    let member := getF s (adr pgFed 0x080) 9 0
    let tail := beBytes member 2 ++ beBytes (currentTag s).toNat 4
    if beField f 12 2 = fedType s ∧ beField f 14 1 = 1 then (f.take 16 ++ tail ++ f.drop 22, false, 0)
    else if 16383 < f.length + 10 + 4 then (f, true, 0)
    else (f.take 12 ++ beBytes (fedType s) 2 ++ [0x01, 0x00] ++ tail ++ f.drop 12, false, 10)

/-! ### One-step insertion (R241-R244) -/

/-- Octet of the EtherType behind VLAN tags and a data tag (R243). -/
def encapAt (s : State) (f : List Byte) : Nat → Nat → Nat
  | 0, e => e
  | n + 1, e =>
    let t := beField f e 2
    let w := getReg s (adr (pgPipe 0) 0x100)
    if t = 0x8100 ∨ t = 0x88A8 ∨ (bit w 2 = true ∧ t = bits w 31 16) then encapAt s f n (e + 4) else e

/-- The EtherType octet: up to three VLAN tags and a data tag are passed over. -/
def encapType (s : State) (f : List Byte) : Nat :=
  let a := if beField f 12 2 = fedType s ∧ beField f 14 1 = 1 then 22 else 12
  encapAt s f 3 a

/-- Replace octets from `off` on. -/
def patch (f : List Byte) (off : Nat) (d : List Byte) : List Byte := f.take off ++ d ++ f.drop (off + d.length)

/-- Compensation octets of an IPv6 frame (R243): where they lie, if usable. -/
def compAt (f : List Byte) (h : Nat) : Option Nat :=
  let l := beField f (h - 4) 2
  if l % 2 = 0 ∧ 8 + beField f (h + 2) 2 + 2 ≤ l ∧ h - 8 + l ≤ f.length then some (h - 8 + l - 2) else none

/-- Reasons 1 to 6 of Table 13.2 for a frame with its PTP header at `h`. -/
def insertRefusal (s : State) (p act h : Nat) (f : List Byte) : Nat :=
  let need := if act = 1 then 44 else 16
  let mt := beField f h 1 % 16
  let e := encapType s f
  let t := beField f e 2
  let udp := beField f (h - 6) 2 == 319 || beField f (h - 6) 2 == 320
  if getB s (adr pgShutter (0x800 + 4 * p)) 0 = false then 1
  else if s.tim.vstate = 0 then 2
  else if h < 14 ∨ f.length < h + need then 3
  else if beField f (h + 1) 1 % 16 ≠ 2 ∨ (if act = 1 then 1 < mt else 3 < mt) ∨ f.length < h + beField f (h + 2) 2 then 4
  else if t = 0x88F7 then (if h = e + 2 then 0 else 5)
  else if t = 0x0800 ∨ t = 0x86DD then
    (if udp = false then 5 else if t = 0x86DD ∧ (compAt f h).isNone then 6 else 0)
  else 5

/-- The octets written for a departure at `t` (2^-16 ns) (R241). -/
def insertPtp (act h t : Nat) (f : List Byte) : List Byte :=
  let ns := t / 2 ^ 16
  let corr := beField f (h + 8) 8
  if act = 1 then
    patch (patch f (h + 34) (beBytes (ns / 1000000000) 6 ++ beBytes (ns % 1000000000) 4)) (h + 8)
      (beBytes ((corr + t % 2 ^ 16) % 2 ^ 64) 8)
  else patch f (h + 8) (beBytes ((corr + ns % 2 ^ 48 * 2 ^ 16 + t % 2 ^ 16) % 2 ^ 64) 8)

/-- The checksum repair of R243 after `f` became `g`. -/
def repairSum (s : State) (h : Nat) (f g : List Byte) : List Byte :=
  let t := beField f (encapType s f) 2
  if t = 0x0800 then patch g (h - 2) [0x00, 0x00]
  else if t = 0x86DD then
    match compAt f h with
    | none => g
    | some c =>
      let old := sum16 (slice f h 44)
      let new := sum16 (slice g h 44)
      patch g c (beBytes (fold16 (beField f c 2 + (65535 - fold16 new) + fold16 old)) 2)
  else g

/-- The log record of Table 13.3. -/
def tsRecord (cap p kind : Nat) (unlocked : Bool) (skip : Nat) (t : Stamp) (i : Nat) : List Byte :=
  leBytes cap 2 ++ leBytes p 2 ++ leBytes kind 1
    ++ leBytes (flag unlocked + 2 * flag (decide (skip ≠ 0)) + 16 * skip) 1 ++ leBytes 0 2
    ++ leBytes t.sec 6 ++ leBytes t.ns 4 ++ leBytes t.frac 2 ++ leBytes 0 4 ++ leBytes i 8

/-- Log a frame of the switch core (R246, R247). -/
def logTs (f : TxFrm) (p kind skip : Nat) (unlocked : Bool) (t : Stamp) (s : State) : State :=
  match f.src with
  | .switch => issueRecord 1 (tsRecord f.captureId p kind unlocked skip t) s
  | .host _ _ => s
  | .own _ => s

/-- T_dep in 2^-16 ns for a commit now, the start block on lane `lane` (R241); `inStream` is the offset of the start block after the commit octet. -/
def departure (s : State) (p lane inStream : Nat) : Nat :=
  let sp := match portShape s p with | some x => x.speed | none => 0
  ((now16 s : Int) + tailOf sp * 4096 + inStream + tsOffset (getReg s (adr pgShutter (0x800 + 4 * p))) 19 8
    + Config.residual lane (serverOf s lane)).toNat

/-- Insertion, capture and logging at the commit of a frame whose octets are `f` (`shift`: octets the data tag added). -/
def ptpStage (p shift t : Nat) (x : TxFrm) (unlocked : Bool) (f : List Byte) (s : State) : List Byte × State :=
  let st := stampOf t
  let logAll := getB s (adr pgShutter (0x800 + 4 * p)) 1
  if x.ptpAction = 0 then (f, s)
  else if x.ptpAction = 3 then (f, logTs x p 3 0 unlocked st (addLive (adr pgShutter 0x090) 1 s))
  else
    let h := 2 * x.ptpOffset + shift
    let r := if x.eof && !x.long then insertRefusal s p x.ptpAction h f else 7
    if r = 0 then
      let g := repairSum s h f (insertPtp x.ptpAction h t f)
      let s1 := addLive (adr pgShutter 0x088) 1 s
      (g, if logAll then logTs x p x.ptpAction 0 unlocked st s1 else s1)
    else
      let s1 := hwEvent pgShutter 16 (setReg (adr pgShutter 0x098) (word (2 ^ 31 + r * 2 ^ 24 + p))
        (addLive (adr pgShutter (0x0B0 + 4 * (r - 1))) 1 s))
      (f, if logAll then logTs x p x.ptpAction r unlocked st s1 else s1)

/-! ### Flow-control frames (R197) -/

/-- The XOFF request used (R197). -/
def xoffReq (s : State) (p : Nat) : Nat :=
  (tabGet (fun _ => 0) s.tx.xoff p) ||| getF s (macA p (0x240 + 4 * (p % 8))) 7 0

def fcGen (s : State) (p : Nat) : Nat := bits (txCfg s p) 7 6

/-- A flow-control frame of 60 octets. -/
def fcFrame (s : State) (p : Nat) (body : List Byte) : List Byte :=
  slice ([0x01, 0x80, 0xC2, 0x00, 0x00, 0x01] ++ exactAddr s p 0 ++ [0x88, 0x08] ++ body) 0 60

/-- Send octets of a frame of the complex's own: counted in TX_OCTETS and the bandwidth window. -/
def sendOwn (p : Nat) (f : List Byte) (s : State) : State :=
  let n := f.length + 4
  let t := tabSet (fun _ => 0) s.loupe.txSum p (tabGet (fun _ => 0) s.loupe.txSum p + n + 20)
  closeGap p n (emit (.lineFrame p (f ++ fcsOf f) false) (openGap p
    (loupe 2 p 1 n (addLive (txCnt p 0x00) n { s with loupe := { s.loupe with txSum := t } }))))

/-- Send a verification or response mPacket, 60 octets and mCRC (R198). -/
def sendSmd (p kind : Nat) (s : State) : State :=
  closeGap p 64 (emit (.smd p kind) (openGap p (addLive (txCnt p 0xCC) 1 s)))

/-- A PFC frame for the classes of `mask`: QUANTA for those requested, 0 for the others. -/
def sendPfc (p mask : Nat) (s : State) : State :=
  let req := xoffReq s p
  let q := getF s (macA p (0x220 + 4 * (p % 8))) 31 16
  let times := ((List.range 8).map (fun i => beBytes (if mask.testBit i && req.testBit i then q else 0) 2)).flatten
  let s1 := sendOwn p (fcFrame s p (beBytes 0x0101 2 ++ beBytes mask 2 ++ times)) s
  let s2 := (List.range 8).foldl (fun x i => if mask.testBit i then addLive (txCnt p (0x7C + 4 * i)) 1 x else x) s1
  setF (txStA p) 31 24 req s2

/-- A PAUSE frame for the OR of the request. -/
def sendPause (p : Nat) (s : State) : State :=
  let on := decide (xoffReq s p ≠ 0)
  let q := if on then getF s (macA p (0x220 + 4 * (p % 8))) 31 16 else 0
  setF (txStA p) 31 24 (if on then 0xFF else 0)
    (addLive (txCnt p 0x78) 1 (sendOwn p (fcFrame s p (beBytes 0x0001 2 ++ beBytes q 2)) s))

/-- Changed request bits that wait for the line are sent (R197). -/
def flushFc (p : Nat) (s : State) : State :=
  let m := tabGet (fun _ => 0) s.tx.fcPend p
  if m = 0 then s
  else
    let s1 := { s with tx := { s.tx with fcPend := tabErase s.tx.fcPend p } }
    if (portStop s p).isSome ∨ txMode s = false then s1
    else if fcGen s p = 2 then sendPfc p m s1
    else if fcGen s p = 1 then sendPause p s1
    else s1

/-- The request has changed in the bits of `m`; `or` tells whether its OR changed. -/
def fcChange (p m : Nat) (or : Bool) (s : State) : State :=
  if m = 0 ∨ (fcGen s p ≠ 2 ∧ !(fcGen s p == 1 && or)) then s
  else
    let s1 := { s with tx := { s.tx with fcPend := tabPut s.tx.fcPend p (tabGet (fun _ => 0) s.tx.fcPend p ||| m) } }
    if (tabFind s1.tx.flight p).isSome then s1 else flushFc p s1

/-- An update of the request from `old` to what it is now. -/
def xoffMoved (p old : Nat) (s : State) : State :=
  fcChange p (old ^^^ xoffReq s p) (decide (old = 0) != decide (xoffReq s p = 0)) s

/-! ### Merge verification (R198) -/

/-- MERGE_TX_EN on a port of 400G or below. -/
def mergeTx (s : State) (p : Nat) : Bool :=
  bit (txCfg s p) 14 && mergeSpeed s p

/-- VERIFY and PREEMPT_ACTIVE of TX_STATUS. -/
def setVerify (p v : Nat) (s : State) : State := setB (txStA p) 3 (decide (v = 2)) (setF (txStA p) 5 4 v s)

/-- Verification (re)starts: the port has come up, or MERGE_TX_EN was written (R198). -/
def startVerify (p : Nat) (s : State) : State :=
  let s1 := { s with tx := { s.tx with verify := tabErase s.tx.verify p } }
  setVerify p (if mergeTx s p && portUp s p then (if bit (txCfg s p) 15 then 2 else 1) else 0) s1

def preemptActive (s : State) (p : Nat) : Bool := getB s (txStA p) 3

/-! ### Handing host frames over (R185, R262) -/

/-- Cells of frames of a port that have not begun (R186). -/
def unstarted (s : State) (p : Nat) : Nat := ((txQueue s p).map (fun f => f.cells)).sum

/-- A port's transmit frame from a host frame (R185, Table 14.1). -/
def hostFrm (s : State) (q : Nat) (h : HostTx) : TxFrm :=
  let d := h.desc
  let p := leField d 12 2
  { src := .host q h.first, prio := txPriority s p h.data, express := (leField d 11 1).testBit 1
    fcsSupplied := (leField d 11 1).testBit 2, cutThrough := false, ptpAction := leField d 14 1
    ptpOffset := leField d 15 1, sc := leField d 16 1, captureId := 0, data := h.data, cells := 0, eof := true
    endMarks := 0, long := false, waited := false, dropping := false }

/-- A frame enters its port's queue, or meets row 1. -/
def enqueue (p : Nat) (f : TxFrm) (s : State) : State :=
  if (portShape s p).isSome then joinQueue p f s else hostDone f.src 1 (badPort p s)

/-- Set the phase of a queue's frame. -/
def setPhase (first v : Nat) : List HostTx → List HostTx
  | [] => []
  | h :: r => if h.first = first then { h with phase := v } :: r else h :: setPhase first v r

/-- Hand the fetched frames of one queue to their ports, in descriptor order; a port at its limit holds its frame back. -/
def handQueue (q : Nat) : Nat → State → State
  | 0, s => s
  | n + 1, s =>
    let x := getQ s false q
    match x.frames.find? (fun h => h.phase == 0 || h.phase == 1) with
    | none => s
    | some h =>
      let p := leField h.desc 12 2
      if h.phase = 0 ∨ 16 ≤ unstarted s p then s
      else handQueue q n (enqueue p (hostFrm s q h) (setQ false q { x with frames := setPhase h.first 2 x.frames } s))

/-- Hand over what the ports can take now. -/
def handAll : List Nat → State → State
  | [], s => s
  | q :: r, s => handAll r (handQueue q 64 s)

def handHosts (s : State) : State :=
  handAll ((s.dma.txq.filter (fun e => e.2.frames.any (fun h => h.phase == 1))).map (fun e => e.1)) s

end Sys2Proof.Machine
end

