-- ==== Sys2Proof/Machine/Receive.lean ====
section
/-! DEFINITION. Commands of MAC receive: RX_FRAME, PAUSE_TIMER_EXPIRY, MAC_TABLE_WRITE, MAC_TABLE_READ. -/

namespace Sys2Proof.Machine

/-- Send the SMD-R responses a port owes, at a frame boundary (R198). -/
def sendSmdR (p : Nat) : Nat → State → State
  | 0, s => { s with tx := { s.tx with smdR := tabErase s.tx.smdR p } }
  | n + 1, s => sendSmdR p n (sendSmd p 0x19 s)

/-- An SMD-V or SMD-R mPacket is consumed and reported to transmit verification (R117, R198). -/
def verifyRx (p : Nat) (isV : Bool) (s : State) : State :=
  let s1 := addLive (rxCnt p 0xF0) 1 s
  let st := macA p (0x0A0 + 4 * (p % 8))
  if isV then
    let s2 := setB st 11 true s1
    if s2.ctl.mode = .still then s2
    else if (tabFind s2.tx.flight p).isSome then
      { s2 with tx := { s2.tx with smdR := tabPut s2.tx.smdR p (tabGet (fun _ => 0) s2.tx.smdR p + 1) } }
    else sendSmdR p 1 s2
  else
    let s2 := setB st 10 true s1
    if getF s2 (txStA p) 5 4 = 1 then setB (txStA p) 3 true (setF (txStA p) 5 4 2 s2) else s2

/-- A frame with an invalid start octet: row 1 (R105, R109). -/
def alignRx (p : Nat) (s : State) : State := loupe 1 p 2 1 (addLive (rxCnt p 0x98) 1 s)

/-- A frame at the MAC of a port that is up and admits frames (R105, R117). On a merge port a start octet that Table 6.4 does
not list is row 1 and an unknown SMD; event 1 MERGE_ERR is latched for it (DESIGN CHOICE, log 47). -/
def rxLive (p : Nat) (start frag : Byte) (o : List Byte) (codeErr headLeft : Bool) (x : RxStart) (s : State) : State :=
  if start = 0xD5 then finishRx p o codeErr false headLeft x false s
  else if mergeOn s p then
    if start = 0x07 then verifyRx p true s
    else if start = 0x19 then verifyRx p false s
    else
      match smdS start.toNat, smdC start.toNat, smdS frag.toNat with
      | some n, _, _ => mergeStart p n o codeErr headLeft x s
      | none, some n, some c => mergeCont p n c o codeErr headLeft s
      | none, some n, none => mergeCont p n 4 o codeErr headLeft s
      | none, none, _ => hwEvent (pgCl (p / 8) 0) 1 (addLive (rxCnt p 0xE8) 1 (alignRx p s))
  else alignRx p s

/-- Did the frame whose start block came `age` units of 2^-16 ns ago begin at POWERED_NS `t` or later? -/
def begunAt (s : State) (t age : Nat) : Bool := decide (t * 65536 + age ≤ s.tim.powered * 65536)

/-- The port admits no new frame: a sleep request quiesces, or a reconfiguration has stopped it (R89, R324). A frame begun
before that is completed, and so is an open preemptable one that a fragment continues. -/
def refuses (s : State) (p : Nat) (start : Byte) (age : Nat) : Bool :=
  !((smdC start.toNat).isSome && (tabFind s.rx.merge p).isSome) &&
    ((quiescing s && begunAt s s.pwr.since age) ||
      (s.prt.stopped.contains p &&
        match tabFind s.prt.reconf (p / 8) with
        | some r => begunAt s r.since age
        | none => true))

/-- A frame reaches the MAC of port `p`: of a port that is down only one that was in progress at its fall, which ends with a
code error (R93). Its first fragment errs an open preemptable frame at the fall itself (R118). -/
def rxAt (p : Nat) (start frag : Byte) (o : List Byte) (codeErr headLeft : Bool) (x : RxStart) (age : Nat) (s : State) : State :=
  if portUp s p then (if refuses s p start age then s else rxLive p start frag o codeErr headLeft x s)
  else
    match tabFind s.prt.fell p with
    | some t =>
      if begunAt s t age ∨ (smdC start.toNat).isSome = true then s else rxLive p start frag o true headLeft x s
    | none => s

/-- RX_FRAME (R105-R122): a frame, or on a merge port an mPacket, ends at the MAC of port `p`. `o` runs from the
destination address to the FCS or mCRC; `frag` is the fragment-count octet behind an SMD-C; `codeErr` a code error inside
it; `headLeft` whether its first cell had left when its end was found bad; `block` its start block. In DIM the listening ports alone receive (R120). -/
def execRxFrame (p : PortNo) (start frag : Byte) (o : List Byte) (codeErr headLeft : Bool) (block : RxBlock) (s : State) :
    Out :=
  .next (
    match s.ctl.mode with
    | .hold => s
    | .proof => s
    | .still =>
      if s.ctl.sleep = .dim ∧ (portShape s p).isSome = true ∧ bit (rxCfg s p) 12 = true then
        flushOpen p (rxAt p start frag o codeErr headLeft (rxStart s p block.lane block.age) block.age s)
      else s
    | _ => flushOpen p (rxAt p start frag o codeErr headLeft (rxStart s p block.lane block.age) block.age s))

/-- PAUSE_TIMER_EXPIRY (R115): timer `i` of a port (8: PAUSE) runs out. -/
def execPauseTimerExpiry (p : PortNo) (i : Fin 9) (s : State) : Out :=
  .next (if pauseOf s (16 * p + i) = 0 then s else setPause p i 0 s)

/-- The entry that TBL_ADDR names, if there is one: table, slot, index (Table 6.2, Table 6.3). -/
def tblNamed (s : State) (cl : Nat) : Option (Nat × Nat × Nat) :=
  let w := getReg s (adr (pgCl cl 0) 0x0C0)
  let t := bits w 26 24
  let i := bits w 6 0
  if i < tblSize t then some (t, bits w 18 16, i) else none

/-- A table command ends: STATE 2 and event 3, or STATE 3 with BAD_INDEX and event 4 (R113, R123). -/
def tblEnd (cl : Nat) (ok : Bool) (s : State) : State :=
  hwEvent (pgCl cl 0) (if ok then 3 else 4) (setReg (adr (pgCl cl 0) 0x0D8) (if ok then 2 else 11) s)

/-- TBL_CMD OP 1: write one entry (R113). -/
def tblWrite (cl : Nat) (s : State) : State :=
  match tblNamed s cl with
  | none => tblEnd cl false s
  | some (t, sl, i) =>
    tblEnd cl true (tblPut cl t sl i (BitVec.ofNat 64 (getPair s (adr (pgCl cl 0) 0x0C4))) s)

/-- TBL_CMD OP 2: read one entry (R113). -/
def tblRead (cl : Nat) (s : State) : State :=
  match tblNamed s cl with
  | none => tblEnd cl false s
  | some (t, sl, i) => tblEnd cl true (setPair (adr (pgCl cl 0) 0x0D0) (tblGet s cl t sl i).toNat s)

/-- MAC_TABLE_WRITE (R113): a write of TBL_CMD := 1 from port `p`. -/
def execMacTableWrite (p : CmdPort) (cl : ClusterNo) (s : State) : Out :=
  .next (gatedWrite p (adr (pgCl cl 0) 0x0CC) true 1 (fun x => tblWrite (home x cl) x) s)

/-- MAC_TABLE_READ (R113): a write of TBL_CMD := 2 from port `p`. -/
def execMacTableRead (p : CmdPort) (cl : ClusterNo) (s : State) : Out :=
  .next (gatedWrite p (adr (pgCl cl 0) 0x0CC) true 2 (fun x => tblRead (home x cl) x) s)

end Sys2Proof.Machine
end

