-- ==== Sys2Proof/Machine/LaneOps.lean ====
section
/-! DEFINITION. Lane sampling, port state and live reconfiguration (01_boundary_and_pins.md R9,
05_lanes_ports_fec.md R89-R93). -/

namespace Sys2Proof.Machine

/-- Is the cluster that serves home cluster `n` powered and sampling? -/
def clusterOn (s : State) (n : Nat) : Bool :=
  match s.ctl.mode with
  | .hold => false
  | .still => decide (s.ctl.sleep = .dim) && wakeCluster s n
  | _ => islandOn s (serving s n)

/-! ### A port goes down (R93) -/

/-- Port `p` goes down: an open preemptable frame is errored (R118), UP falls (R93). -/
def downPort (p : Nat) (s : State) : State :=
  let s1 := if portUp s p then { s with prt := { s.prt with fell := tabPut s.prt.fell p s.tim.powered } } else s
  sweep p (portDown p (flushOpen p (mergeError p [] false false s1)))

def downAll : List Nat → State → State
  | [], s => s
  | p :: r, s => downAll r (downPort p s)

/-! ### Lane inputs (R9) -/

/-- Levels of a lane's inputs. -/
def laneLevels (s : State) (l : Nat) : BitVec 3 := tabGet (fun _ => 0) s.prt.laneIn l

/-- The last sample of a lane's inputs. -/
def laneSample (s : State) (l : Nat) : BitVec 3 := BitVec.ofNat 3 (getF s (laneStA l) 2 0)

/-- LANE_CHG_i counts the inputs that differ (R104): LINK_UP [29:20], SIG_DET [19:10], ALIGN_OK [9:0]. -/
def countChanges (l : Nat) (d : BitVec 3) (s : State) : State :=
  let a := adr (pgCl (l / 8) 3) (0x080 + 4 * (l % 8))
  let s1 := if d.getLsbD 0 then addF a 29 20 1 s else s
  let s2 := if d.getLsbD 1 then addF a 19 10 1 s1 else s1
  if d.getLsbD 2 then addF a 9 0 1 s2 else s2

/-- A lane has lost lock: its lock bits clear, its port counts the loss and goes down (R9, R93). -/
def laneUnlock (l : Nat) (s : State) : State :=
  let was := getF s (laneStA l) 7 6
  let s1 := setF (laneStA l) 7 6 0 s
  match portOfLane s l with
  | none => s1
  | some p =>
    let s2 := if was = 0 then s1 else hwEvent (pgCl (l / 8) 1) 5 (addLive (pcsCnt p 0x28) 1 s1)
    downPort p s2

/-- Sample the inputs of a lane whose cluster is powered. -/
def sampleLane (l : Nat) (s : State) : State :=
  let v := laneLevels s l
  let d := v ^^^ laneSample s l
  if d = 0 then s
  else
    let s1 := countChanges l d (setF (laneStA l) 2 0 v.toNat s)
    if (v.getLsbD 1 && v.getLsbD 2) then s1 else laneUnlock l s1

def sampleLanes : List Nat → State → State
  | [], s => s
  | l :: r, s => sampleLanes r (sampleLane l s)

/-- The lanes of home cluster `n`. -/
def clusterLanes (n : Nat) : List Nat := (List.range 8).map (fun i => 8 * n + i)

/-! ### Reconfiguration (R89, R90, Table 5.3) -/

/-- The level a map is judged against: the target of a level change in flight, else the level in force. -/
def judgedLevel (s : State) : Nat :=
  match s.pwr.flight with
  | some r => if r.sleep then s.ctl.pl.toNat else r.value.toNat
  | none => s.ctl.pl.toNat

/-- A FIXER shadow or switchover is in progress in the cluster (reason 6): from the choice of the spare to the switchover, since
no command marks the start of the shadow feed (DESIGN CHOICE, log 48). -/
def clusterMoving (s : State) (cl : Nat) : Bool :=
  getB s (adr (pgCl cl 1) 0x0A8) 12 ||
    (match s.fix.mig with
     | some m => decide (m.dec.unit.type ≤ 1) && decide (home s m.dec.unit.unit = cl) && decide (m.step ≤ 3)
     | none => false)

/-- Lanes of a span. -/
def spanLanes (x : Nat × Nat) : List Nat := (List.range x.2).map (fun k => x.1 + k)

/-- Does the resulting map alter, remove or overlap the listed port at slot `h` (reason 7)? -/
def listedChanged (old new : List Word) (h : Nat) : Bool :=
  let x := shapeOf (old.getD h 0)
  let sp := spanLanes (h, x.width)
  sp.any (fun i => old.getD i 0 != new.getD i 0)
    || (spansOf new).any (fun y => y.1 != h && (spanLanes y).any (fun i => sp.contains i))

/-- The check of Table 5.3 that fails first for a resulting map: (reason, lane). For reasons 5 and 6, which concern the whole
cluster, LANE is the lowest masked lane: Table 5.2 names 'the lowest lane slot concerned' and no more (DESIGN CHOICE, log
48). -/
def reconfRefusal (s : State) (cl mask : Nat) (w : List Word) (factory : Bool) : Option (Nat × Nat) :=
  let old := (List.range 8).map (fun i => getReg s (adr (pgCl cl 1) (0x0E0 + 4 * i)))
  let new := resultWords s cl mask w
  let pl := judgedLevel s
  let low := ((List.range 8).find? (fun i => mask.testBit i)).getD 0
  let sh := new.map shapeOf
  match alignBad new, overlapBad new, combinationBad new with
  | some l, _, _ => some (1, l)
  | none, some l, _ => some (2, l)
  | none, none, some l => some (3, l)
  | none, none, none =>
    match (List.range 8).find? (fun i => match sh[i]? with
        | some x => x.head && x.enable && decide (largestPort pl < x.speed)
        | none => false) with
    | some l => some (4, l)
    | none =>
      if capGb pl * 514 < sumLoad sh then some (5, low)
      else if factory = false ∧ clusterMoving s cl = true then some (6, low)
      else
        match (if factory then none else (List.range 8).find? (fun h =>
            s.nv.safeList.contains (8 * cl + h) && (shapeOf (old.getD h 0)).head && listedChanged old new h)) with
        | some l => some (7, l)
        | none =>
          match maskBad mask old, maskBad mask new with
          | some l, some k => some (8, min l k)
          | some l, none => some (8, l)
          | none, some k => some (8, k)
          | none, none => none

/-- RECONFIG_STATUS (Table 5.2). -/
def recStA (cl : Nat) : Nat := adr (pgCl cl 1) 0x0A4

def recStatus (lane reason state : Nat) : Word := word (lane * 2 ^ 16 + reason * 2 ^ 8 + state)

/-- Live enabled ports whose spans meet a mask. -/
def maskPorts (s : State) (cl mask : Nat) : List Nat :=
  ((List.range 8).filter (fun h =>
    match portShape s (8 * cl + h) with
    | some x => (spanLanes (h, x.width)).any (fun i => mask.testBit i)
    | none => false)).map (fun h => 8 * cl + h)

/-- Apply the words `w` to the lanes of `mask` of home cluster `cl`, where the checks pass (R89). -/
def reconfStart (cl mask : Nat) (w : List Word) (factory : Bool) (s : State) : State × Bool :=
  match reconfRefusal s cl mask w factory with
  | some (r, l) => (hwEvent (pgCl cl 1) 1 (setReg (recStA cl) (recStatus l r 3) s), false)
  | none =>
    let s1 := setReg (recStA cl) (recStatus 0 0 1) s
    let l := maskPorts s cl mask
    (sweepAll l { s1 with prt := { s1.prt with
        reconf := tabPut s1.prt.reconf cl { mask := mask, restarted := false, words := w, factory := factory
                                            since := s1.tim.powered }
        stopped := l.foldl setInsert s1.prt.stopped } }, true)

/-- A write of RECONFIG (R89, R90). -/
def reconfGo (cl : Nat) (v : Word) (s : State) : State :=
  if bit v 31 = false then s
  else if getF s (recStA cl) 1 0 = 1 then setB (recStA cl) 2 true s
  else (reconfStart cl (bits v 7 0) ((List.range 8).map (fun i => getReg s (adr (pgCl cl 1) (0x080 + 4 * i)))) false s).1

/-- Clear table `t` (exact, multicast, VLAN) of the masked slots (R113). -/
def clearTables (cl mask : Nat) (s : State) : State :=
  { s with rx := { s.rx with
      tables := tabKeep (fun k => !(decide (k / 8192 = cl) && decide (k % 8192 / 1024 < 3)
        && mask.testBit (k % 1024 / 128))) s.rx.tables } }

/-- Slots of a mask as ports. -/
def slotPorts (cl mask : Nat) : List Nat := ((List.range 8).filter (fun i => mask.testBit i)).map (fun i => 8 * cl + i)

/-- Is a committed frame or a preempted one of the port still on the line? -/
def lineBusy (s : State) (p : Nat) : Bool := (tabFind s.tx.flight p).isSome || (tabFind s.tx.open_ p).isSome

/-- An enabled port starts in the lanes of the mask. -/
def maskEnabled (s : State) (cl mask : Nat) : List Nat := (slotPorts cl mask).filter (fun p => (portShape s p).isSome)

/-- A reconfiguration ends: STATE 2 and event 0 (R89). -/
def reconfDone (cl : Nat) (s : State) : State :=
  hwEvent (pgCl cl 1) 0 (setReg (recStA cl) (recStatus 0 0 2 ||| (getReg s (recStA cl) &&& 4))
    { s with prt := { s.prt with reconf := tabErase s.prt.reconf cl } })

/-- PORT_LIVE of the masked lanes takes the words sampled at the GO. -/
def liveWords (cl : Nat) (r : Reconf) : List Nat → State → State
  | [], s => s
  | i :: t, s => liveWords cl r t (setReg (adr (pgCl cl 1) (0x0E0 + 4 * i)) (r.words.getD i 0) s)

/-- Lock bits, DEGRADE and per-lane counters of lanes that restart. -/
def restartLanes : List Nat → State → State
  | [], s => s
  | l :: r, s => restartLanes r (setB (pcsA l 0x0B0) (8 + l % 8) false (setF (laneStA l) 8 6 0 s))

/-- The restart of a reconfiguration (R89, R113, R116, R124, R212, R240). -/
def reconfRestart (cl : Nat) (r : Reconf) (s : State) : State :=
  let lanes := (List.range 8).filter (fun i => r.mask.testBit i)
  let slots := slotPorts cl r.mask
  let s1 := downAll (maskPorts s cl r.mask) s
  let s2 := restartLanes slots (liveWords cl r lanes s1)
  let s3 := clearLive (fun a => slots.any (fun p => slotCounters p a)) s2
  let s4 := clearPauses (fun p => slots.contains p) (clearTables cl r.mask s3)
  let s5 := dropMaskSas cl r.mask { s4 with
    rx := { s4.rx with merge := tabKeep (fun p => !slots.contains p) s4.rx.merge }
    prt := { s4.prt with
      stopped := s4.prt.stopped.filter (fun p => decide (p / 8 ≠ cl))
      fell := tabKeep (fun p => !slots.contains p) s4.prt.fell
      remote := s4.prt.remote.filter (fun p => !slots.contains p)
      reconf := tabPut s4.prt.reconf cl { r with restarted := true } } }
  let s6 := setTs (calInForce s5) slots s5
  if (maskEnabled s6 cl r.mask).isEmpty then reconfDone cl s6 else s6

end Sys2Proof.Machine
end

