-- ==== Sys2Proof/Machine/Journal.lean ====
section
/-! DEFINITION. The repair map and the FIXER journal with its hourly limit (19_fixer_repair.md R339, R349, R350). -/

namespace Sys2Proof.Machine

/-- The key of a unit in FIXER's tables. -/
def unitKey (u : UnitId) : Nat := u.type * 65536 + u.unit * 256 + u.slice

def sliceId (n i : Nat) : UnitId := { type := 0, unit := n, slice := i }
def clusterId (n : Nat) : UnitId := { type := 1, unit := n, slice := 0xFF }
def pipeId (p : Nat) : UnitId := { type := 2, unit := p, slice := 0xFF }

/-- The map entry of a unit as manufactured: slice 8 and the spare clusters are spares. -/
def shippedMap (k : Nat) : UnitMap :=
  let spare := (decide (k / 65536 = 0) && decide (k % 256 = 8))
    || (decide (k / 65536 = 1) && decide (64 ≤ k / 256 % 256))
  { state := flag spare, standsFor := none, retired := 0, hardBefore := false }

def unitMap (s : State) (u : UnitId) : UnitMap := tabGet shippedMap s.fix.map (unitKey u)

/-- SLICE_HEALTH.STATE codes of a slice or cluster: 0 in service, 1 spare, 2 shadow, 3 under test, 4 condemned, 5 standby,
6 awaiting test. -/
def unitState (s : State) (u : UnitId) : Nat := (unitMap s u).state

def putMap (u : UnitId) (m : UnitMap) (s : State) : State :=
  { s with fix := { s.fix with map := tabSet shippedMap s.fix.map (unitKey u) m } }

def setUnit (u : UnitId) (v : Nat) (s : State) : State := putMap u { unitMap s u with state := v } s

def setStands (u : UnitId) (f : Option Nat) (s : State) : State := putMap u { unitMap s u with standsFor := f } s

/-! ### What the NV record holds (R339) -/

/-- The states that the record knows: in service, spare, standby, condemned. -/
def settledState (k v : Nat) : Nat :=
  let spare := (shippedMap k).state = 1
  match v with
  | 2 => if spare then 1 else 5
  | 3 => if spare then 1 else 5
  | 6 => if spare then 1 else 5
  | n => n

/-- The ring that the record describes: in SAFELIGHT the one of before its entry (R150). -/
def mapRing (s : State) : List (Option Nat) :=
  match s.dp.before with
  | some b => b.ring
  | none => s.dp.ring

/-- The position of a pipe that carries traffic or will at the next PROOF. -/
def mapPos (s : State) (p : Nat) : Option Nat :=
  (List.range 48).find? (fun k => (mapRing s).getD k none == some p)

/-- A pipe's entry: its state and the home pipe of the position it holds. -/
def pipeEntry (s : State) (p : Nat) : UnitMap :=
  let m := unitMap s (pipeId p)
  let k := mapPos s p
  let st := if pipeState s p = 4 then 4
    else match k with
      | some _ => if pipeState s p = 2 then 1 else 0
      | none => 1
  { m with state := st, standsFor := if st = 0 then k.map homePipe else none }

/-- The map entry of pipe `p` as manufactured: PP44-PP47 are spares, the others hold their own positions. -/
def shippedPipe (p : Nat) : UnitMap :=
  { state := flag (decide (44 ≤ p)), standsFor := if 44 ≤ p then none else some p, retired := 0, hardBefore := false }

/-- The whole map, transient states settled. -/
def mapRecord (s : State) : Tab UnitMap :=
  let t := (tabKeep (fun k => decide (k / 65536 < 2)) s.fix.map).map
    (fun x => (x.1, { x.2 with state := settledState x.1 x.2.state }))
  t ++ (List.range 48).filterMap (fun p =>
    let e := pipeEntry s p
    if e = shippedPipe p then none else some (unitKey (pipeId p), e))

/-- The repair map is written to both its copies (R339). -/
def storeMap (s : State) : State :=
  { s with
    fix := { s.fix with stored := mapRecord s, storedL2 := s.fix.l2Pending, storedRows := s.fix.l2Repairs }
    nv := { s.nv with wear := wearLines 0x1080 128 (wearLines 0x1000 128 s.nv.wear) } }

/-! ### The journal -/

/-- JOURNAL (Table 19.7). -/
def jrnlA : Nat := adr pgFixer 0x0AC

/-- The NV controller is under test: NV writes wait (R358). -/
def nvUnderTest (s : State) : Bool :=
  match s.dark.now with
  | some j => j.unit.type == 3 && j.unit.unit == 3
  | none => false

/-- Bytes 4-27 of an entry (Table 19.5). -/
def entryBody (s : State) (event how : Nat) (u : UnitId) (spare detail : Nat) : List Byte :=
  leBytes s.tim.powered 8 ++ leBytes (if s.tim.vstate = 0 then 0 else s.tim.tod / secUnit) 6 ++ leBytes event 1
    ++ leBytes how 1 ++ leBytes u.type 1 ++ leBytes u.unit 1 ++ leBytes u.slice 1 ++ leBytes spare 1
    ++ leBytes (min detail 65535) 2 ++ leBytes 0 2

/-- A repair of an entry: EVENT 1 or 2 (REPAIRS_TOTAL). -/
def isRepair (body : List Byte) : Bool := leField body 14 1 == 1 || leField body 14 1 == 2

/-- Copy A or B of entry `i`. -/
def jrnlAddr (b : Bool) (i : Nat) : Nat := (if b then 0x54000 else 0x44000) + 32 * i

/-- One journal write: the entry in both copies, with the repair map where the entry carries an update (R349). -/
def writeEntry (e : HeldEntry) (s : State) : State :=
  let n := s.fix.jseq
  let x := leBytes n 4 ++ e.body
  let d := x ++ leBytes (crc32c x) 4
  let s1 := nvWrite (jrnlAddr true (n % 2048)) d (nvWrite (jrnlAddr false (n % 2048)) d s)
  let s2 := addF jrnlA 6 0 1 { s1 with fix := { s1.fix with
    jseq := (n + 1) % 2 ^ 32
    repairs := satAdd (2 ^ 32 - 1) s1.fix.repairs (flag (isRepair e.body)) } }
  if e.map then storeMap s2 else s2

/-- May an entry be written now (R350, R358)? -/
def mayWrite (s : State) : Bool := decide (getF s jrnlA 6 0 < 64) && !nvUnderTest s

/-- Held entries are written in order while the hour allows (R350). -/
def flushEntries : List HeldEntry → State → State
  | [], s => { s with
      fix := { s.fix with heldJrnl := [] }
      ctl := { s.ctl with faults := { s.ctl.faults with journal := false } } }
  | e :: r, s =>
    if mayWrite s then flushEntries r (writeEntry e s) else { s with fix := { s.fix with heldJrnl := e :: r } }

/-- What is held is written, the report of dropped entries first (R350). -/
def flushJournal (s : State) : State :=
  if s.fix.heldJrnl = [] ∨ mayWrite s = false then s
  else
    let s1 :=
      if s.fix.dropReport = 0 then s
      else
        writeEntry { body := entryBody s 9 0 { type := 0, unit := 0, slice := 0xFF } 0xFF s.fix.dropReport, map := false }
          { s with fix := { s.fix with dropReport := 0 } }
    flushEntries s1.fix.heldJrnl s1

/-- An hour of POWERED_NS in nanoseconds. -/
def hourNs : Nat := 3600000000000

/-- The hourly count starts again where POWERED_NS has passed a whole hour (R350). -/
def journalHour (s : State) : State :=
  if s.tim.powered / hourNs = s.fix.hour then s
  else flushJournal (setF jrnlA 6 0 0 { s with fix := { s.fix with hour := s.tim.powered / hourNs } })

/-- Map updates stand ahead of the other entries held (R350). -/
def holdEntry (e : HeldEntry) : List HeldEntry → List HeldEntry
  | [] => [e]
  | x :: r => if e.map && !x.map then e :: x :: r else x :: holdEntry e r

/-- An entry is written, held or dropped (R350). -/
def journalEntry (e : HeldEntry) (s : State) : State :=
  let s0 := journalHour s
  if s0.fix.heldJrnl = [] ∧ mayWrite s0 = true then writeEntry e s0
  else if s0.fix.heldJrnl.length < 64 then
    hwEvent pgFixer 6 { s0 with
      fix := { s0.fix with heldJrnl := holdEntry e s0.fix.heldJrnl }
      ctl := { s0.ctl with faults := { s0.ctl.faults with journal := true } } }
  else
    hwEvent pgFixer 6 (addF jrnlA 31 24 1 { s0 with fix := { s0.fix with dropReport := s0.fix.dropReport + 1 } })

/-- HOW of an entry: CAUSE and KIND (Table 19.5). -/
def howOf (d : Decision) : Nat := d.cause + 8 * d.kind

/-- Does the EVENT carry an update of the repair map: all but 5 abandoned, 6 miscompare and 9 dropped (R349)? -/
def mapEvent (event : Nat) : Bool := event != 5 && event != 6 && event != 9

/-- Journal a happening of decision `d` about unit `u`. -/
def journal (event : Nat) (d : Decision) (u : UnitId) (spare detail : Nat) (s : State) : State :=
  journalEntry { body := entryBody s event (howOf d) u spare detail, map := mapEvent event } s

/-- Journal a happening for which Table 19.5 has no EVENT: its code is a free value. -/
def journalOther (d : Decision) (u : UnitId) (spare detail : Nat) (s : State) : State :=
  journalEntry { body := entryBody s (Config.journalEvent s.freeCount).toNat (howOf d) u spare detail, map := true }
    (nextFree s)

/-! ### Reading an entry (R349, R303) -/

/-- A copy of an entry, where its CRC holds. -/
def entryCopy (s : State) (b : Bool) (i : Nat) : Option (List Byte) :=
  let d := nvBytes s (jrnlAddr b i) 32
  if leField d 28 4 = crc32c (d.take 28) then some d else none

/-- One copy is rewritten from the other: PG_NV counts it (R303). -/
def repairEntry (b : Bool) (i : Nat) (d : List Byte) (s : State) : State :=
  hwEvent pgNv 0 (addF (adr pgNv 0x084) 15 0 1 (nvWrite (jrnlAddr b i) d s))

/-- Read entry `i`: the valid copy with the higher sequence. -/
def readEntry (i : Nat) (s : State) : State × Option (List Byte) :=
  match entryCopy s false i, entryCopy s true i with
  | some x, some y =>
    if leField x 0 4 = leField y 0 4 then (s, some x)
    else if leField y 0 4 < leField x 0 4 then (repairEntry true i x s, some x)
    else (repairEntry false i y s, some y)
  | some x, none => (repairEntry true i x s, some x)
  | none, some y => (repairEntry false i y s, some y)
  | none, none => (hwEvent pgNv 1 (addF (adr pgNv 0x088) 15 0 1 s), none)

/-- A write of JRNL_RD (R349). -/
def jrnlRead (v : Word) (s : State) : State :=
  if bit v 31 = false then s
  else
    match readEntry (bits v 10 0) s with
    | (s1, some d) => setReg (adr pgFixer 0x0C4) 2 (setWords (adr pgFixer 0x0E0) (wordsOf d 0 8) s1)
    | (s1, none) => setReg (adr pgFixer 0x0C4) 3 s1

end Sys2Proof.Machine
end

