-- ==== Sys2Proof/Machine/Cal.lean ====
section
/-! DEFINITION. Calibration and the NV store: CAL_WRITE_OVERLAY, CAL_WRITE_DONE and NV_RD (21_calibration.md R369-R376). -/

namespace Sys2Proof.Machine

def calA (off : Nat) : Nat := adr pgCal off

/-- CAL_CMD_STATUS (Table 21.7). -/
def calStatus (entry reason state : Nat) : Word := word (entry * 2 ^ 16 + reason * 2 ^ 8 + state)

/-- Overlay writes made in the hour that POWERED_NS is in (R372). -/
def overlayHour (s : State) : Nat := if s.tim.powered / hourNs = s.nv.hour then s.nv.hourCount else 0

/-- One more overlay write in this hour. -/
def countOverlay (s : State) : State :=
  { s with nv := { s.nv with hour := s.tim.powered / hourNs, hourCount := min (overlayHour s + 1) 15 } }

/-- An overlay write fails: nothing changes in the store (R372). -/
def calFail (entry reason : Nat) (s : State) : State :=
  hwEvent pgCal 1 (setReg (calA 0x08C) (calStatus entry reason 3) s)

/-- The checks of Table 21.5 on the image read, and the start of its writing. -/
def calCheck (img : Option (List Byte)) (s : State) : State :=
  match img with
  | none => calFail 0xFFFF 2 s
  | some d =>
    let l := slice d 0 (getF s (calA 0x098) 16 0)
    match imageRefusal l with
    | some (k, e) => calFail e k s
    | none =>
      countOverlay (setReg (calA 0x08C) (calStatus 0 0 1) { s with nv := { s.nv with write := some l } })

/-- CAL_CMD: OP 1 of GO (R372); `img` gives the host memory that is read. -/
def calCmd (v : Word) (img : State → State × Option (List Byte)) (s : State) : State :=
  if bit v 31 = false ∨ bits v 30 28 ≠ 1 then s
  else if getF s (calA 0x08C) 1 0 = 1 ∨ s.nv.restore.isSome = true then setB (calA 0x08C) 2 true s
  else if 8 ≤ overlayHour s then calFail 0xFFFF 1 s
  else
    let ch := fnChan s (bits v 7 0)
    let a := getPair s (calA 0x090)
    let n := getF s (calA 0x098) 16 0
    let s1 := endReads ch (rangeReqs a n).length (readRange ch a n s)
    match img s1 with
    | (s2, d) => calCheck d s2

/-- Host memory that no command carries: free bytes of one read. -/
def freeImage (s : State) : State × Option (List Byte) :=
  (nextFree s, some ((List.range (getF s (calA 0x098) 16 0)).map (Config.hostByte s.freeCount)))

/-- CAL_WRITE_OVERLAY (R372): a write of CAL_CMD with GO, OP 1 and FUNCTION `fn` from port `p`; `img`: the bytes read at
SRC_ADDR, none where a read was answered with an error. -/
def execCalWriteOverlay (p : CmdPort) (fn : FnNo) (img : Option (List Byte)) (s : State) : Out :=
  let v := word (0x90000000 + fn)
  .next (gatedWrite p (calA 0x088) true v (calCmd v (fun x => (x, img))) s)

/-- The overlay in both copies is `l`: CHANGED, USER_SEQ. -/
def overlayWritten (s : State) : State :=
  let q := nextSeq s - 1
  setReg (calA 0x084) (word q) (setB (calA 0x080) 4 true s)

/-- CAL_WRITE_DONE (R372): copy B is written. -/
def execCalWriteDone (s : State) : Out :=
  .next (
    match s.nv.write with
    | none => s
    | some l =>
      if nvUnderTest s then s
      else
        hwEvent pgCal 0 (setF (calA 0x08C) 1 0 2 (overlayWritten (writeOverlay l { s with nv := { s.nv with write := none } }))))

/-! ### NV_RD (R375) -/

/-- Does line `l` belong to the user overlay? -/
def overlayLine (l : Nat) : Bool := decide (0x10000 ≤ 64 * l) && decide (64 * l < 0x40000)

/-- The journal entry pair that line `l` belongs to, if it is one. -/
def journalLine (l : Nat) : Option Nat :=
  let a := 64 * l
  if 0x44000 ≤ a ∧ a < 0x64000 then some ((a - 0x44000) % 0x10000 / 32) else none

/-- The records that a line belongs to are read under R303. -/
def readRecords (l : Nat) (s : State) : State :=
  if overlayLine l then (readOverlay true true s).1
  else
    match journalLine l with
    | some i => (readEntry (i + 1) (readEntry i s).1).1
    | none => s

/-- A write of NV_RD. -/
def nvRead (v : Word) (s : State) : State :=
  if bit v 31 = false then s
  else
    let l := bits v 12 0
    let s1 := readRecords l s
    let d := nvBytes s1 (64 * l) 64
    setReg (calA 0x0A4) 2 (setWords (calA 0x0C0) (wordsOf d 0 16) (nextFree s1))

/-- NV_RD (R375): a write of NV_RD from port `p`. -/
def execNvRd (p : CmdPort) (v : Word) (s : State) : Out := .next (gatedWrite p (calA 0x0A0) true v (nvRead v) s)

/-! ### Loss of power (R374) -/

/-- An overlay write that loss of power cuts: its copy A may already be whole. -/
def cutOverlay (s : State) : State :=
  match s.nv.write with
  | none => s
  | some l =>
    let s1 := nextFree { s with nv := { s.nv with write := none } }
    if Config.cutWrite s.freeCount then nvWrite (ovBase false) (wholeLines (stampSeq (nextSeq s) l)) s1 else s1

end Sys2Proof.Machine
end

