-- ==== Sys2Proof/Machine/Counters.lean ====
section
/-! DEFINITION. Counters that a page captures with SNAP and clears with CNT_CLR (R102, R124, R141, R160, R161, R183,
R217, R254, R302). Rows 49 and 50. -/

namespace Sys2Proof.Machine

/-- Offset of SNAP on a kind of page that has one; CNT_CLR stands 4 above it. LOUPE's SNAP is its own (R396). -/
def snapOff : PageKind → Option Nat
  | .pcs => some 0x0B8
  | .stat => some 0x0A0
  | .sec => some 0x0E8
  | .pipe => some 0x0D0
  | .spread => some 0x0C8
  | .reorder => some 0x0C0
  | .cls => some 0x0D0
  | .version => some 0x0F0
  | .shutter => some 0x09C
  | .offload => some 0x0B0
  | _ => none

/-- Is the register at offset `o` one of the page's captured counters? -/
def isCounter (k : PageKind) (o : Nat) : Bool :=
  match k with
  | .pcs => inBlock 0x100 0x440 o
  | .stat => inBlock 0x100 0xF00 o
  | .sec => inBlock 0xA00 0x300 o
  | .pipe => inBlock 0x090 0x040 o
  | .spread => inBlock 0x09C 0x008 o || inBlock 0x0B0 0x010 o || inBlock 0x800 0x800 o
  | .reorder => inBlock 0x0A0 0x018 o || inBlock 0x800 0x800 o
  | .cls => inBlock 0x090 0x040 o
  | .version => inBlock 0x0E0 0x008 o || inBlock 0x800 0x800 o
  | .shutter => inBlock 0x088 0x010 o || inBlock 0x0B0 0x01C o
  | .offload => inBlock 0x088 0x024 o
  | _ => false

/-- Is `a` a captured counter of `page`? -/
def pageCounter (page a : Nat) : Bool := decide (pageOf a = page) && isCounter (pageInfo page).kind (offOf a)

/-- SNAP.GO: every counter of the page is captured at once. -/
def snapPage (page : Nat) (s : State) : State :=
  captureLive (pageCounter page) s.win.live
    { s with win := { s.win with regs := tabKeep (fun a => !pageCounter page a) s.win.regs } }

/-- The counters that a CNT_CLR word names. -/
def clearNamed (page : Nat) (v : Word) (a : Nat) : Bool :=
  let k := (pageInfo page).kind
  let o := offOf a
  pageCounter page a &&
    match k with
    | .pcs => if o < 0x500 then v.getLsbD ((o - 0x100) / 0x80) else v.getLsbD (8 + (o - 0x500) / 8)
    | .stat => if o < 0x900 then v.getLsbD ((o - 0x100) / 0x100) else v.getLsbD ((o - 0x900) / 0xE0)
    | .sec => v.getLsbD ((o - 0xA00) / 0x60)
    | _ => v.getLsbD 0

/-- A write of SNAP on `page`. -/
def snapWrite (page : Nat) (v : Word) (s : State) : State := if bit v 0 then snapPage page s else s

/-- A write of CNT_CLR on `page`. -/
def clearWrite (page : Nat) (v : Word) (s : State) : State := clearLive (clearNamed page v) s

/-- COUNTER_SNAP (R102, R160): a write of SNAP.GO on `page` from port `p`. -/
def execCounterSnap (p : CmdPort) (page : Fin 1024) (s : State) : Out :=
  .next (match snapOff (pageInfo page).kind with
    | some o => gatedWrite p (adr page o) true 1 (fun x => snapWrite (pageOf (aliasOf x (adr page o))) 1 x) s
    | none => s)

/-- COUNTER_CLEAR (R102, R160): a write of CNT_CLR on `page` from port `p`. -/
def execCounterClear (p : CmdPort) (page : Fin 1024) (v : Word) (s : State) : Out :=
  .next (match snapOff (pageInfo page).kind with
    | some o => gatedWrite p (adr page (o + 4)) true v (fun x => clearWrite (pageOf (aliasOf x (adr page o))) v x) s
    | none => s)

end Sys2Proof.Machine
end

