-- ==== Sys2Proof/Machine/FixOps.lean ====
section
/-! DEFINITION. What FIXER's commands share: free spares, the choice of a spare, retiring, degrading, condemning and the
end of a migration (19_fixer_repair.md R338-R348). -/

namespace Sys2Proof.Machine

/-! ### Units and spares -/

/-- The key of slice 8 that cluster `n` itself holds. -/
def slice8 (n : Nat) : UnitId := sliceId n 8

/-- SUBST on the page of a cluster (Table 5.2): PARTNER is a view. -/
def substA (s : State) (n : Nat) : Nat := adr (pgCl (home s n) 1) 0x0A8

/-- Does slice 8 stand in for a slice of the cluster that carries the traffic of `n`'s home? -/
def slice8Active (s : State) (n : Nat) : Bool := getB s (substA s n) 8

/-- Does cluster `n` carry traffic: a home cluster in service, or a spare that stands in? -/
def carries (s : State) (n : Nat) : Bool :=
  (tabFind s.prt.standIn n).isSome || (decide (n < 64) && serving s n == n && decide (unitState s (clusterId n) = 0))

/-- Is the unit in service? -/
def inService (s : State) (u : UnitId) : Bool :=
  match u.type with
  | 0 =>
    carries s u.unit &&
      (if u.slice = 8 then slice8Active s u.unit
       else decide (unitState s u = 0) && !(slice8Active s u.unit && getF s (substA s u.unit) 2 0 == u.slice))
  | 1 => carries s u.unit
  | 2 => pipeState s u.unit == 1
  | _ => false

/-- Is the unit condemned? -/
def condemned (s : State) (u : UnitId) : Bool :=
  if u.type = 2 then pipeState s u.unit == 4 else unitState s u == 4

/-- Slices 8 that are free spares (R338). -/
def freeSlice (s : State) (n : Nat) : Bool := unitState s (slice8 n) == 1 && unitState s (clusterId n) != 4

/-- A free spare cluster. -/
def freeCluster (s : State) (n : Nat) : Bool := unitState s (clusterId n) == 1

/-- A pipe that holds no position and could take one: a spare of SPARES. -/
def freePipe (s : State) (p : Nat) : Bool := (pipeEntry s p).state == 1 && !takenPipe s p && pipeState s p != 3

def sparePipes (s : State) : Nat := ((List.range 48).filter (freePipe s)).length
def spareClusters (s : State) : Nat := ((List.range 2).filter (fun i => freeCluster s (64 + i))).length
def spareSlices (s : State) : Nat := ((List.range 66).filter (freeSlice s)).length

/-- Condemned units. -/
def condemnedCount (s : State) : Nat :=
  ((List.range 66).filter (fun n => condemned s (clusterId n))).length
    + ((List.range 66).map (fun n => ((List.range 9).filter (fun i => condemned s (sliceId n i))).length)).sum
    + ((List.range 48).filter (fun p => condemned s (pipeId p))).length

/-- SPARES (Table 19.7). -/
def sparesWord (s : State) : Word :=
  word (min (condemnedCount s) 255 * 2 ^ 24 + spareSlices s * 2 ^ 16 + spareClusters s * 2 ^ 8 + sparePipes s)

/-- A spare cluster is already powered in SAFELIGHT (R351, Table 19.6). -/
def safeBudget (s : State) (c : Nat) : Bool :=
  decide (s.ctl.mode ≠ .safelight) || !islandOn s (if c = 64 then 65 else 64)

/-- The outcome of looking for a spare. -/
inductive Choice
  /-- The unit that moves and its spare. -/
  | use (unit : UnitId) (spare : Nat)
  | none
  /-- The named spare is not free. -/
  | notFree
  /-- A second spare cluster would be powered in SAFELIGHT. -/
  | budget

/-- A spare cluster for cluster `n` (Table 19.1). -/
def chooseCluster (s : State) (n : Nat) (d : Decision) (failed : List Nat) : Choice :=
  match [64, 65].find? (fun c => c != n && freeCluster s c && !failed.contains c
      && (d.spare == 0xFF || d.spare == c || d.unit.type == 0)) with
  | some c => if safeBudget s c then .use (clusterId n) c else .budget
  | none => if d.unit.type = 1 ∧ d.spare ≠ 0xFF then .notFree else .none

/-- The spare of a decision (R338, Table 19.1); `failed` are spares that a test has just condemned. -/
def chooseSpare (s : State) (d : Decision) (failed : List Nat) : Choice :=
  let u := d.unit
  match u.type with
  | 0 =>
    if u.slice < 8 ∧ freeSlice s u.unit = true ∧ failed.contains 8 = false then .use u 8
    else if d.spare ≠ 0xFF then .notFree
    else chooseCluster s u.unit d failed
  | 1 => chooseCluster s u.unit d failed
  | _ =>
    match (substitutes s u.unit).find? (fun p => !failed.contains p && (d.spare == 0xFF || d.spare == p)) with
    | some p => .use u p
    | none => if d.spare = 0xFF then .none else .notFree

/-- The spare of a migration as a unit. -/
def spareUnit (u : UnitId) (spare : Nat) : UnitId :=
  match u.type with
  | 0 => slice8 u.unit
  | 1 => clusterId spare
  | _ => pipeId spare

/-! ### Words of ACTIVITY and LAST_REPAIR -/

/-- Bits [28:4] of ACTIVITY for a decision and a spare (Table 19.7); no spare reads 0x7F. -/
def activityBits (d : Decision) (spare : Nat) : Nat :=
  d.kind * 2 ^ 27 + d.cause * 2 ^ 24 + d.unit.type * 2 ^ 22 + d.unit.unit * 2 ^ 15
    + (if d.unit.type = 0 then d.unit.slice else 0) * 2 ^ 11 + min spare 0x7F * 2 ^ 4

/-- ACTIVITY: a return shows STATE 5. -/
def activityWord (s : State) : Word :=
  let q := min s.fix.queue.length 15
  match s.fix.mig with
  | none => word q
  | some m =>
    let st := if m.dec.op = 2 ∧ m.step ≤ 3 then 5 else m.step
    word (st * 2 ^ 29 + activityBits m.dec m.spare + q)

/-- LAST_REPAIR and LAST_REPAIR_NS: 1 switched, 2 returned, 3 condemned, 4 degraded, 5 abandoned. -/
def lastRepair (outcome : Nat) (d : Decision) (spare : Nat) (s : State) : State :=
  setPair (adr pgFixer 0x094) s.tim.powered
    (setReg (adr pgFixer 0x090) (word (outcome * 2 ^ 29 + activityBits d spare)) s)

/-- The command FORCE_REPAIR behind a decision ends. -/
def endForced (d : Decision) (res : Byte) (reason : Nat) (s : State) : State :=
  if d.forced then finishCmd .M res (if res = rFailed then leBytes reason 1 else []) s else s

/-- The migration under way is over. -/
def endMig (s : State) : State := { s with fix := { s.fix with mig := none } }

def setStep (v : Nat) (m : Migration) (s : State) : State := { s with fix := { s.fix with mig := some { m with step := v } } }

/-! ### Ports of a unit -/

/-- Ports that use a slice or a cluster of home cluster `h`: for a slice those that hold its lane. -/
def unitPorts (s : State) (u : UnitId) : List Nat :=
  let h := home s u.unit
  let i := if u.slice = 8 then getF s (adr (pgCl h 1) 0x0A8) 2 0 else u.slice
  (List.range 8).filterMap (fun k =>
    match portShape s (8 * h + k) with
    | some x => if u.type = 1 ∨ (k ≤ i ∧ i < k + x.width) then some (8 * h + k) else none
    | none => none)

/-- HELD_DOWN bits of a list of ports (Table 19.4). -/
def holdPorts (v : Bool) : List Nat → State → State
  | [], s => s
  | p :: r, s => holdPorts v r (setB (adr pgFixer (0x100 + 4 * (p / 32))) (p % 32) v s)

/-- Does an affected port hold an open preemptable frame (R118)? -/
def openFrames (s : State) (u : UnitId) : Bool :=
  (unitPorts s u).any (fun p => match tabFind s.rx.merge p with | some _ => true | none => false)

/-- The supply of a cluster; one that loses it is without time word (R234). -/
def powerCluster (n : Nat) (v : Bool) (s : State) : State :=
  { s with
    pwr := { s.pwr with off := if v then setErase s.pwr.off n else setInsert s.pwr.off n }
    tim := if v then s.tim else { s.tim with acq := setErase s.tim.acq n } }

/-- Cluster `n` powers down: its SAs are erased (R213). -/
def clusterDown (n : Nat) (s : State) : State := clusterKeysOff n (powerCluster n false s)

/-- Cluster `n` powers up: lost keys are reported (R213). -/
def clusterUp (n : Nat) (s : State) : State := if islandOn s n then s else clusterKeysOn n (powerCluster n true s)

/-! ### Degradation and condemnation (R348) -/

/-- No spare: FAULT_N with cause 1, and event 4. -/
def noSpare (s : State) : State :=
  hwEvent pgFixer 4 { s with ctl := { s.ctl with faults := { s.ctl.faults with spares := true } } }

/-- A pipe leaves the rotation for good or until a test: the frames in it are lost (R149, R345). -/
def pipeOut (p : Nat) (sub : Option Nat) (s : State) : State := losePipe p (replacePipe p 3 sub s)

/-- The degraded state of Table 19.4. -/
def degradeUnit (u : UnitId) (s : State) : State :=
  match u.type with
  | 0 => downAll (unitPorts s u) (holdPorts true (unitPorts s u) s)
  | 1 =>
    let l := unitPorts s u
    clusterDown u.unit (downAll l (holdPorts true l s))
  | _ =>
    queueDecision { newDecision u 1 4 with testOnly := true } (pipeOut u.unit none s)

/-- A hard fault with no free spare (R348). -/
def degrade (d : Decision) (s : State) : State :=
  let s1 := degradeUnit d.unit s
  let s2 := { s1 with fix := { s1.fix with degraded := tabPut s1.fix.degraded (unitKey d.unit) d.cause } }
  journal 4 d d.unit 0xFF d.detail (lastRepair 4 d 0xFF (noSpare s2))

/-- Set the state of a unit: a pipe's stands in PIPE_STATE. -/
def setAny (u : UnitId) (v : Nat) (s : State) : State :=
  if u.type = 2 then
    setPipe u.unit (match v with | 4 => 4 | 1 => (if quarterOn s (u.unit / 12) then 2 else 0) | _ => 3) s
  else setUnit u v s

/-- A retirement's count and what it was for (R347). -/
def countRetired (u : UnitId) (cause : Nat) (s : State) : State :=
  let m := unitMap s u
  putMap u { m with retired := m.retired + 1, hardBefore := m.hardBefore || !(cause == 0 || cause == 1 || cause == 2) } s

/-- Condemnation: event 5, the journal (R347). -/
def condemn (d : Decision) (u : UnitId) (spare : Nat) (s : State) : State :=
  journal 3 d u spare d.detail
    (lastRepair 3 { d with unit := u } spare (hwEvent pgFixer 5 (setStands u none (setAny u 4 s))))

/-- Units degraded for want of a spare are decided again (R348). -/
def requeueDegraded : Tab Nat → State → State
  | [], s => s
  | (k, c) :: r, s =>
    requeueDegraded r (queueDecision (newDecision { type := k / 65536, unit := k / 256 % 256, slice := k % 256 } 1 c) s)

/-- A spare is installed by RETURN or REINSTATE: the cause of FAULT_N ends, but for pending L2 faults (R346, R348). -/
def spareBack (s : State) : State :=
  requeueDegraded s.fix.degraded
    { s with ctl := { s.ctl with faults := { s.ctl.faults with spares := !s.fix.l2Pending.isEmpty } } }

/-! ### Tests asked for by FIXER (R347) -/

/-- Ask DARKSLIDE to test a unit. -/
def askTest (u : UnitId) (s : State) : State :=
  { s with dark := { s.dark with wait := s.dark.wait ++ [{ unit := u, tests := 3, origin := 2 }] } }

/-- A unit is retired: it stays powered down until its test (R347). -/
def retire (u : UnitId) (cause : Nat) (s : State) : State :=
  let s1 := { s with fix := { s.fix with causes := tabPut s.fix.causes (unitKey u) cause } }
  if u.type = 2 then s1
  else setStands u none (setUnit u 6 (if u.type = 1 then clusterDown u.unit s1 else s1))

/-- What follows the retirement of unit `u` under migration `m` (R347, R351). -/
def afterRetired (m : Migration) (u : UnitId) (s : State) : State :=
  if m.dec.op = 3 then
    endMig (endForced m.dec rOk 0 (condemn m.dec u m.spare (countRetired u m.dec.cause s)))
  else if m.dec.op = 5 then endMig s
  else
    match s.ctl.mode with
    | .safelight => endMig (endForced m.dec rOk 0 s)
    | _ => askTest u (setStep 4 m (endForced m.dec rOk 0 s))

/-! ### The start of a migration -/

/-- SUBST.SHADOW or PG_SPREAD.SHADOW of a migration's shadow (R343). -/
def shadowFlag (m : Migration) (v : Bool) (s : State) : State :=
  match m.dec.unit.type with
  | 0 =>
    let a := substA s m.dec.unit.unit
    if v then setB a 12 true (setF a 2 0 m.dec.unit.slice s)
    else setB a 12 false s
  | 1 => setB (substA s m.dec.unit.unit) 12 v s
  | _ =>
    setReg (adr pgSpread 0x098)
      (if v then word (2 ^ 31 + m.spare * 2 ^ 8 + m.dec.unit.unit) else 0) s

/-- The last free spare of a kind has been taken: event 3. -/
def lastSpare (u : UnitId) (s : State) : State :=
  let left := match u.type with
    | 0 => spareSlices s
    | 1 => spareClusters s
    | _ => sparePipes s
  if left = 0 then hwEvent pgFixer 3 s else s

/-- Step 1: the spare is taken and powered (R343). No command marks the start of the shadow feed of step 3, so SUBST.SHADOW
reads 1 from here (DESIGN CHOICE, log 48). A cluster that powers up reports lost keys, and copies the live key store (R213,
R214). -/
def takeSpare (d : Decision) (u : UnitId) (spare : Nat) (failed : List Nat) (s : State) : State :=
  let m : Migration := { dec := { d with unit := u }, spare := spare, step := 1, failed := failed }
  let s1 := { s with fix := { s.fix with mig := some m } }
  let s2 := match u.type with
    | 0 => setUnit (slice8 u.unit) 2 s1
    | 1 => copyKeys (serving s (home s u.unit)) spare (clusterUp spare (setUnit (clusterId spare) 2 s1))
    | _ => s1
  lastSpare u (if u.type < 2 then shadowFlag m true s2 else s2)

/-- No spare can be had for a decision (R348, R351). -/
def withoutSpare (d : Decision) (failed : List Nat) (c : Choice) (s : State) : State :=
  let s1 := endMig s
  match d.kind with
  | 0 => noSpare s1
  | 1 => endForced d rFailed 0x30 (degrade d s1)
  | _ =>
    match c with
    | .notFree => endForced d rFailed 0x32 s1
    | .budget => endForced d rFailed 0x35 s1
    | _ => if failed = [] then endForced d rFailed 0x30 (noSpare s1) else endForced d rFailed 0x33 s1

/-- Start or restart a migration at step 1 (R338, R343, R344). -/
def beginMig (d : Decision) (failed : List Nat) (s : State) : State :=
  match chooseSpare s d failed with
  | .use u spare =>
    takeSpare d u spare failed (setReg (adr pgFixer 0x08C) 0 (setReg (adr pgFixer 0x088) 0 s))
  | c => withoutSpare d failed c s

/-- A return to a home unit (R347, R351): the source is the unit that stands in for it. -/
def beginReturn (d : Decision) (s : State) : State :=
  let u := d.unit
  let src := if u.type = 0 then 8 else serving s u.unit
  let m : Migration := { dec := d, spare := src, step := 1, failed := [] }
  let s1 := setUnit u 2 { s with fix := { s.fix with mig := some m } }
  let s2 := if u.type = 1 then copyKeys src u.unit (clusterUp u.unit s1) else s1
  if u.type < 2 then shadowFlag m true s2 else s2

/-- Can the unit return: a standby home slice or cluster whose stand-in carries its traffic? -/
def mayReturn (s : State) (u : UnitId) : Bool :=
  match u.type with
  | 0 => decide (u.slice < 8) && unitState s u == 5 && slice8Active s u.unit && getF s (substA s u.unit) 2 0 == u.slice
  | 1 => decide (u.unit < 64) && unitState s u == 5 && serving s u.unit != u.unit
  | _ => false

/-! ### Ends of a shadow -/

/-- The taken spare, or the home unit of a return, goes back to what it was. -/
def freeTaken (m : Migration) (s : State) : State :=
  if m.dec.op = 2 then
    let s1 := setUnit m.dec.unit 5 s
    if m.dec.unit.type = 1 then clusterDown m.dec.unit.unit s1 else s1
  else
    match m.dec.unit.type with
    | 0 => setUnit (slice8 m.dec.unit.unit) 1 s
    | 1 => clusterDown m.spare (setUnit (clusterId m.spare) 1 s)
    | _ => s

/-- A migration is abandoned (Table 19.6): EVENT 5, and a forced one returns ABANDONED. -/
def abandonMig (m : Migration) (s : State) : State :=
  let s1 := endMig (freeTaken m (shadowFlag m false s))
  endForced m.dec rFailed 0x34 (journal 5 m.dec m.dec.unit m.spare 0 (lastRepair 5 m.dec m.spare s1))

/-- The taken spare fails: it is condemned and the next one is tried (R344). -/
def spareFails (m : Migration) (s : State) : State :=
  if m.dec.op = 2 then
    let u := m.dec.unit
    let s1 := condemn m.dec u m.spare (countRetired u 7 (if u.type = 1 then clusterDown u.unit s else s))
    endForced m.dec rFailed 0x33 (endMig s1)
  else
    let u := spareUnit m.dec.unit m.spare
    let s1 := if u.type = 1 then clusterDown u.unit s else s
    beginMig m.dec (m.spare :: m.failed) (endMig (condemn { m.dec with cause := 7 } u 0xFF (countRetired u 7 s1)))

/-- A comparison found `n` differences: the shadow ends and the spare is tested (R343, R344). -/
def miscompare (m : Migration) (s : State) : State :=
  let u := if m.dec.op = 2 then m.dec.unit else spareUnit m.dec.unit m.spare
  let n := (getReg s (adr pgFixer 0x08C)).toNat
  askTest u (setStep 6 m (shadowFlag m false (journal 6 m.dec m.dec.unit m.spare n s)))

/-- A hard fault of a unit (R341, R345, Table 19.6). -/
def hardFault (u : UnitId) (cause : Nat) (s : State) : State :=
  match s.fix.mig with
  | some m =>
    if m.dec.unit = u ∧ m.step ≤ 2 ∧ m.dec.op ≠ 2 then
      let m1 := { m with dec := { m.dec with kind := 1, cause := cause } }
      setStep (if m.step = 2 then 3 else 1) m1 (shadowFlag m false s)
    else if m.step ≤ 2 ∧ m.dec.op ≠ 2 ∧ spareUnit m.dec.unit m.spare = u then
      let s1 := setAny u 6 (retire u cause (shadowFlag m false s))
      beginMig m.dec (m.spare :: m.failed) (queueDecision { newDecision u 1 cause with testOnly := true } (endMig s1))
    else if inService s u then queueDecision (newDecision u 1 cause) s
    else s
  | none => if inService s u then queueDecision (newDecision u 1 cause) s else s

end Sys2Proof.Machine
end

