-- ==== Sys2Proof/Machine/DarkOps.lean ====
section
/-! DEFINITION. What DARKSLIDE's commands share: the start and the end of a unit's test, its log entry, and the tests that
are cut short (20_darkslide_self_test.md R354-R366). -/

namespace Sys2Proof.Machine

def darkA (off : Nat) : Nat := adr pgDark off

/-- Is the unit a privileged one? -/
def isPriv (u : UnitId) : Bool := u.type == 3

/-! ### Pages (R365) -/

/-- Pages of a unit that answer nothing while it is under test; a cluster stood in for has its pages at its spare. -/
def unitPages (s : State) (u : UnitId) : List Nat :=
  match u.type with
  | 1 => if serving s u.unit = u.unit ∨ 64 ≤ u.unit then (List.range 4).map (fun k => pgCl u.unit k) else []
  | 2 => [pgPipe u.unit]
  | 4 =>
    if u.unit = 70 then (List.range 6).map (fun i => pgSpread + i)
    else (List.range 9).map (fun i => pgOffload + i) ++ (List.range 16).map pgDma ++ (List.range 256).map pgFn
  | _ => []

def addPages (u : UnitId) (s : State) : State :=
  { s with prt := { s.prt with testPages := s.prt.testPages ++ unitPages s u } }

def dropPages (u : UnitId) (s : State) : State :=
  let l := unitPages s u
  { s with prt := { s.prt with testPages := s.prt.testPages.filter (fun p => !l.contains p) } }

/-! ### The result log (Table 20.5) -/

/-- STATUS of an entry: outcome, reason, patterns. -/
def resStatus (outcome reason patterns : Nat) : Nat := outcome + reason * 16 + patterns * 256

/-- One result entry. -/
def resEntry (s : State) (j : TestJob) (outcome reason patterns sig mask rows : Nat) : List Byte :=
  leBytes j.unit.type 1 ++ leBytes j.unit.unit 1 ++ leBytes j.unit.slice 1
    ++ leBytes (j.tests + (if j.origin = 0 ∧ s.dark.scan = true then 4 else 0) + j.origin * 16) 1
    ++ leBytes (resStatus outcome reason patterns) 4 ++ leBytes sig 8 ++ leBytes s.tim.powered 8
    ++ leBytes mask 2 ++ leBytes rows 2 ++ leBytes 0 4

/-- Events of an outcome (R366): 0 a test has run to its end, 1 it failed, 2 it was cut short, 3 its clear failed. -/
def outcomeEvents (outcome : Nat) (s : State) : State :=
  match outcome with
  | 0 => hwEvent pgDark 0 s
  | 4 => hwEvent pgDark 2 s
  | 5 => hwEvent pgDark 3 s
  | 6 => s
  | _ => hwEvent pgDark 1 (hwEvent pgDark 0 s)

/-- RESULT_COUNTS. -/
def countOutcome (outcome : Nat) (s : State) : State :=
  match outcome with
  | 0 => addF (darkA 0x08C) 15 0 1 s
  | 4 => addF (darkA 0x08C) 31 24 1 s
  | 6 => s
  | _ => addF (darkA 0x08C) 23 16 1 s

/-- Log a result; a result of the TEST list counts in LIST_STATUS. -/
def logResult (j : TestJob) (outcome reason patterns sig mask rows : Nat) (s : State) : State :=
  let n := (getReg s (darkA 0x090)).toNat
  let s1 := setWords (darkA (0x400 + 32 * (n % 32))) (wordsOf (resEntry s j outcome reason patterns sig mask rows) 0 8) s
  let s2 := countOutcome outcome (addF (darkA 0x090) 31 0 1 s1)
  outcomeEvents outcome (if j.origin = 0 then
    addF (darkA 0x084) 4 0 1 { s2 with dark := { s2.dark with results := s2.dark.results ++ [(j.unit, outcome)] } }
  else s2)

/-- RUN_STATUS (Table 20.4). -/
def runStatus (state : Nat) (j : TestJob) : Word :=
  word (state * 2 ^ 29 + j.origin * 2 ^ 27 + j.unit.type * 2 ^ 24 + j.unit.unit * 2 ^ 17)

/-! ### The start of a test -/

/-- The secrets of a unit are cleared and verified (R215, R359): those of its cluster for a slice or cluster, HASH_SEED for
island 70. A cluster stood in for clears its own copy, which no page shows; `ok`: every store reads back as zero. -/
def clearSecrets (ok : Bool) (u : UnitId) (s : State) : State :=
  match u.type with
  | 0 => darkClear ok u.unit s
  | 1 => darkClear ok u.unit s
  | 4 => if u.unit = 70 then clearSeed s else s
  | _ => s

/-- A privileged unit's state goes into the save area, and the unit leaves service (R358). -/
def savePriv (k : Nat) (s : State) : State :=
  let s1 := { s with dark := { s.dark with
    saved := s.win.regs.filter (fun x => privPage k (pageOf x.1)), edges := [] } }
  if k = 0 then timeIslandOff { s1 with ctl := { s1.ctl with pins := { s1.ctl.pins with timeHeld := true } } } else s1

/-- The unit is under test: a slice, cluster or pipe shows so, a cluster out of service is powered for it, and a pipe loses
what it held. -/
def enterTest (j : TestJob) (s : State) : State :=
  let u := j.unit
  let s1 := addPages u (if u.type < 3 then setAny u 3 s else s)
  if u.type = 1 then clusterUp u.unit s1
  else if u.type = 2 then { s1 with dp := { s1.dp with overdue := tabErase s1.dp.overdue u.unit } }
  else s1

/-- The MBIST or LBIST of job `j` starts. -/
def runTest (j : TestJob) (s : State) : State :=
  let s1 := enterTest j (setReg (darkA 0x080) (runStatus (if j.tests % 2 = 1 then 2 else 3) j)
    { s with dark := { s.dark with now := some j } })
  if isPriv j.unit then savePriv j.unit.unit s1 else s1

/-! ### The end of a test -/

/-- Reset values of a privileged unit whose restore failed (R358). -/
def resetPriv (k : Nat) (s : State) : State :=
  let s1 := { s with
    win := { s.win with regs := tabKeep (fun a => !privPage k (pageOf a)) s.win.regs }
    ctl := { s.ctl with faults := { s.ctl.faults with proof := true } } }
  match k with
  | 0 => { s1 with tim := { s1.tim with set := false, e := 0, r := 0, refOk := false } }
  | 1 =>
    { s1 with irq := { pending := [], route := [], edgeNs := [], hwSet := [], waiting := [], unrouted := [], service := []
                       req := [], wb := [] } }
  | _ => s1

/-- Collected edges are applied, each as one (R358). -/
def applyEdges : List Nat → State → State
  | [], s => s
  | n :: r, s => applyEdges r (irqEdge n s)

/-- A privileged unit is restored and returns to service; `bad`: the check fails (R358). -/
def restorePriv (k : Nat) (bad : Bool) (s : State) : State :=
  let s1 := if bad then resetPriv k s else setSelected (fun _ => true) s.dark.saved s
  let l := s.dark.edges
  let s2 := { s1 with dark := { s1.dark with now := none, saved := [], edges := [] } }
  match k with
  | 0 => timeIslandOn s2
  | 1 => irqSettle (applyEdges l s2)
  | 2 => startSlot s2
  | _ => flushJournal s2

/-- No unit is under test. -/
def idleDark (s : State) : State :=
  setReg (darkA 0x080) 0 { s with dark := { s.dark with now := none } }

/-- FIXER hears of a test it or a background cycle asked for (R344, R347). -/
def reportFixer (u : UnitId) (pass : Bool) (s : State) : State :=
  match s.fix.mig with
  | some m =>
    if m.step = 6 then
      if pass then setStep 3 m (if u.type = 2 then setPipe u.unit 2 s else setUnit u 2 s) else spareFails m s
    else { s with fix := { s.fix with tested := s.fix.tested ++ [(u, pass)] } }
  | none => { s with fix := { s.fix with tested := s.fix.tested ++ [(u, pass)] } }

/-- A unit that nobody had retired fails its test: FIXER takes it as a failing unit (R152, R364). -/
def reportFailing (u : UnitId) (s : State) : State :=
  { s with fix := { s.fix with
    causes := tabPut s.fix.causes (unitKey u) 7, tested := s.fix.tested ++ [(u, false)] } }

/-- PIPE_TEST_STATUS: STATE 2, PASS and event 2 (R152). -/
def pipeTestEnds (pass : Bool) (s : State) : State :=
  hwEvent pgSpread 2 (setB (adr pgSpread 0x094) 2 pass (setF (adr pgSpread 0x094) 1 0 2 s))

/-- A spare cluster is powered only for its test. -/
def restCluster (u : UnitId) (s : State) : State := if u.type = 1 then clusterDown u.unit s else s

/-- What a test that ran means for its unit, by who asked for it (R347, R363). -/
def afterTest (j : TestJob) (pass : Bool) (s : State) : State :=
  match j.origin with
  | 1 => pipeTestEnds pass (if pass then setAny j.unit 1 s else reportFailing j.unit s)
  | 2 => reportFixer j.unit pass (restCluster j.unit s)
  | 3 =>
    let s1 := restCluster j.unit s
    if pass then setAny j.unit 1 s1 else reportFailing j.unit s1
  | _ => s

/-- What MBIST repaired goes into the repair map and the journal as one write (R356). -/
def noteRows (j : TestJob) (r : TestReport) (s : State) : State :=
  if 0 < r.rows ∧ j.tests % 2 = 1 then
    journalOther (newDecision j.unit 0 0) j.unit 0xFF r.rows { s with fix := { s.fix with l2Repairs := s.fix.l2Repairs + 1 } }
  else s

/-- Rows and columns that a result reports (R356): of an MBIST only. -/
def mbistRows (j : TestJob) (r : TestReport) : Nat := if j.tests % 2 = 1 then r.rows else 0

/-- The test of the unit under test ends with a logged result; units of a TEST list stay out of service. -/
def finishTest (j : TestJob) (outcome reason : Nat) (r : TestReport) (s : State) : State :=
  let s1 := logResult j outcome reason (min r.patterns 65536) r.signature.toNat r.failMask.toNat (mbistRows j r) s
  let s2 := idleDark (if isPriv j.unit then restorePriv j.unit.unit (outcome == 3) s1 else s1)
  let s3 := noteRows j r s2
  afterTest j (outcome == 0) (if j.origin = 0 then s3 else dropPages j.unit s3)

/-! ### Tests cut short (Table 20.3) -/

/-- What a cut-short test leaves of its unit: unproven, so awaiting test again, or a spare once more. -/
def leaveUnit (j : TestJob) (s : State) : State :=
  let u := j.unit
  match j.origin with
  | 1 => pipeTestEnds false (setPipe u.unit 0 s)
  | 3 => setAny u 1 (restCluster u s)
  | 2 =>
    match s.fix.mig with
    | some m =>
      if m.dec.op = 4 ∧ m.dec.unit = u then endForced m.dec rFailed 0x34 (endMig (setAny u 4 (restCluster u s)))
      else if m.step = 6 then (if u.type = 2 then setPipe u.unit 2 s else setUnit u 2 s)
      else endMig (setAny u 6 (restCluster u s))
    | none => setAny u 6 (restCluster u s)
  | _ => s

/-- The test under way stops INCOMPLETE with a reason; its pattern count and MISR are free values. -/
def cutTest (reason : Nat) (s : State) : State :=
  match s.dark.now with
  | none => s
  | some j =>
    let n := if 2 ≤ j.tests then (Config.patterns s.freeCount).val else 0
    let s1 := logResult j 4 reason n (Config.misr s.freeCount).toNat 0 0 (nextFree s)
    let s2 := idleDark (if isPriv j.unit then restorePriv j.unit.unit false s1 else s1)
    leaveUnit j (if j.origin = 0 then s2 else dropPages j.unit s2)

/-- Tests that were asked for in service and have not started do not start. -/
def dropWaiting (s : State) : State :=
  let l := s.dark.wait.filter (fun j => j.origin != 0)
  l.foldl (fun x j => leaveUnit j x) { s with dark := { s.dark with wait := s.dark.wait.filter (fun j => j.origin == 0) } }

/-- A pipe that was in rotation and is under an in-service test becomes the spare a hard fault needs (Table 20.3). -/
def reclaim (d : Decision) (s : State) : State :=
  match s.dark.now with
  | some j =>
    if d.unit.type = 2 ∧ d.kind = 1 ∧ d.testOnly = false ∧ freeSpares s = [] ∧ j.unit.type = 2
        ∧ (j.origin = 1 ∨ j.origin = 3) then
      setPipe j.unit.unit 2 (cutTest 3 s)
    else s
  | none => s

/-! ### Scan (R360) -/

/-- Every cluster's key store and HASH_SEED are cleared. -/
def clearAllSecrets (ok : Bool) (s : State) : State := clearSeed ((List.range 66).foldl (fun x n => darkClear ok n x) s)

/-- The gate opens: every clear has verified (R360, R362). -/
def openGate (s : State) : State :=
  let s1 := clearAllSecrets true s
  hwEvent pgDark 4 (setReg (darkA 0x080) (word (4 * 2 ^ 29))
    (setB (darkA 0x088) 1 true { s1 with ctl := { s1.ctl with pins := { s1.ctl.pins with scanGate := true } } }))

/-- The gate closes and stays closed until the next die reset (R360). A gate that was never opened stays usable: R55 closes
'scan access', and R360 bars it 'once it has closed' (DEDUCED, log 51). -/
def closeGate (s : State) : State :=
  if s.ctl.pins.scanGate then
    let s1 := { s with ctl := { s.ctl with pins := { s.ctl.pins with scanGate := false } } }
    setReg (darkA 0x080) 0 (setB (darkA 0x088) 2 true (setB (darkA 0x088) 1 false s1))
  else s

/-- Units that are only scanned are logged SCANNED when the gate has opened (Table 20.5). -/
def logScanned : List TestJob → State → State
  | [], s => s
  | j :: r, s => logScanned r (logResult j 6 0 0 0 0 0 s)

/-- TEST ends: the transition to PROOF is in flight (R47, R362); a SAFELIGHT entry under way is the transition shown. -/
def endTest (s : State) : State :=
  { s with
    dark := { s.dark with ending := true }
    ctl := { s.ctl with target := match s.ctl.entry with
      | some _ => s.ctl.target
      | none => some .proof } }

/-- The list's tests are over: with SCAN the gate opens, else TEST may end (R362). -/
def listOver (s : State) : State :=
  if s.ctl.mode = .test ∧ s.dark.now = none ∧ s.dark.wait = [] ∧ s.dark.ending = false then
    if s.dark.scan then
      if s.ctl.pins.scanGate then s
      else logScanned (s.dark.list.filter (fun j => j.tests == 0)) (openGate s)
    else endTest s
  else s

end Sys2Proof.Machine
end

