-- ==== Sys2Proof/Machine/ModeOps.lean ====
section
/-! DEFINITION. What starts a change of mode: SAFELIGHT triggers and what they end, and HOLD (03_operating_modes.md R47,
R49, R53, R54, R59; 01_boundary_and_pins.md R20, R26). -/

namespace Sys2Proof.Machine

/-- The request in the pending slot ends at a SAFELIGHT trigger (R54, Table 18.3 reason 5). -/
def dropSlot (s : State) : State :=
  match s.pwr.slot with
  | none => s
  | some r => endReq r rFailed 5 (showSlot { s with pwr := { s.pwr with slot := none } })

/-- A run of TEST_START that never began is logged cut short with pattern count 0 (R54). -/
def logAbandoned : List TestJob → State → State
  | [], s => s
  | j :: r, s => logAbandoned r (logResult j 4 1 0 (Config.misr s.freeCount).toNat 0 0 (nextFree s))

/-- TEST_START that is not yet in force is abandoned (R54). The result its command returns is a free value. -/
def abandonTest (s : State) : State :=
  if s.ctl.target = some .test then
    let s1 := nextFree (logAbandoned s.dark.list s)
    let s2 := match s1.dark.testPort with
      | some p => finishCmd p (Config.abandonedTest s.freeCount) [] s1
      | none => s1
    { s2 with
      dark := { s2.dark with list := [], scan := false, testPort := none, results := [] }
      ctl := { s2.ctl with target := none } }
  else s

/-- RESTORE_FACTORY whose overlay is erased is cut short: what it has still to apply waits for the exit (Table 21.6). -/
def deferRestore (s : State) : State :=
  match s.nv.restore with
  | some p =>
    if s.nv.restoring then
      finishCmd p rFailed [0x51] { s with nv := { s.nv with
        restore := none, restoring := false, restoreBad := false, restoreDeferred := true } }
    else s
  | none => s

/-- A trigger in SAFELIGHT cancels an exit that is executing, and does nothing else (R54, R59). -/
def cancelExit (s : State) : State :=
  match s.ctl.exit with
  | some _ =>
    finishCmd .M rFailed [0x02] { s with ctl := { s.ctl with exit := none, target := none } }
  | none => s

/-- A SAFELIGHT trigger of cause 1 ALARM_IN, 2 port M, 3 federation (R53, R54); asleep it wakes the complex and is recorded
as wake source `code` at `loc` (R327). -/
def safeTrigger (cause code loc : Nat) (s : State) : State :=
  match s.ctl.mode with
  | .hold => s
  | .safelight => cancelExit s
  | m =>
    if s.ctl.entry.isSome ∨ s.ctl.halted = true then s
    else
      let s1 := deferRestore (abandonTest (cancelSleep (dropSlot s)))
      let s2 := noteWake code loc
        { s1 with ctl := { s1.ctl with entry := some { cause := cause, fromMode := modeCode m } } }
      if s2.pwr.entering = true ∨ m = .still then s2 else { s2 with ctl := { s2.ctl with target := some .safelight } }

/-! ### HOLD (R20, R26, R45, R49) -/

/-- The complex enters HOLD with the given input levels. What stays is the NV store, POWERED_NS, the hourly write counts, the
journal entries held, and what the surroundings present. -/
def holdState (pins : Pins) (s : State) : State :=
  let c := cutOverlay s
  let h := { State.reset with
    ctl := { Ctl.start with mode := .hold, pins := pins
                            faults := { Ctl.start.faults with journal := s.ctl.faults.journal } }
    tim := { Tim.start with powered := s.tim.powered, refIn := s.tim.refIn }
    prt := { Prt.empty with laneIn := s.prt.laneIn }
    fix := { Fix.start s.fix.stored s.fix.storedL2 s.fix.storedRows s.fix.jseq s.fix.repairs with
      heldJrnl := s.fix.heldJrnl, dropReport := s.fix.dropReport, hour := s.fix.hour }
    nv := { Nv.start c.nv.cells c.nv.wear c.nv.startTag with hour := c.nv.hour, hourCount := c.nv.hourCount }
    out := c.out
    freeCount := c.freeCount
    pending := s.pending }
  setReg (adr pgCmd 0x0A0) (word (flag pins.strap))
    (setReg (adr pgMem 0x084) (getReg s (adr pgMem 0x084))
      (setF (adr pgFlow 0x090) 3 0 (getF s (adr pgFlow 0x090) 3 0)
        (setF jrnlA 6 0 (getF s jrnlA 6 0) h)))

/-- Levels in HOLD: the inputs are what they were, nothing is driven (R26). -/
def holdPins (x : Pins) : Pins :=
  { Pins.start with
    dieResetLow := x.dieResetLow, corePgLow := x.corePgLow, vddioLow := x.vddioLow, strap := x.strap
    alarmIn := x.alarmIn, csLow := x.csLow }

end Sys2Proof.Machine
end

