-- ==== Sys2Proof/Machine/Offload.lean ====
section
/-! DEFINITION. Checksum offloads and the check-value units: receive verification, transmit generation, CV_JOB_START,
CV_JOB_ABORT, CV_JOB_DONE (16_offloads_and_check_values.md). -/

namespace Sys2Proof.Machine

/-! ### Sums -/

/-- Ones'-complement checksum of octets. -/
def inetSum (d : List Byte) : Nat := 65535 - fold16 (sum16 d)

/-- End of the IP datagram whose header lies at `l3` (R296). -/
def datagramEnd (f : List Byte) (l3 : Nat) : Nat :=
  if beField f l3 1 / 16 = 4 then l3 + beField f (l3 + 2) 2 else l3 + 40 + beField f (l3 + 4) 2

/-- The pseudo-header of RFC 768, 793 and 8200 for `n` upper-layer octets. -/
def pseudoHeader (f : List Byte) (l3 proto n : Nat) : List Byte :=
  if beField f l3 1 / 16 = 4 then slice f (l3 + 12) 8 ++ beBytes proto 2 ++ beBytes n 2
  else slice f (l3 + 8) 32 ++ beBytes n 4 ++ beBytes proto 4

/-- The L4 sum of a datagram as it stands: all ones when it is good. -/
def l4Sum (f : List Byte) (l3 l4 proto : Nat) : Nat :=
  let e := datagramEnd f l3
  let body := slice f l4 (e - l4)
  fold16 (sum16 (pseudoHeader f l3 proto (e - l4)) + sum16 body)

/-! ### Receive (R294) -/

/-- One IPv4 header's share of the IPV4 field: none, good or bad. -/
def ip4At (f : List Byte) (isV4 : Bool) (off : Nat) : Option Bool :=
  if isV4 then some (ip4SumGood (slice f off (beField f off 1 % 16 * 4))) else none

/-- The IPV4 field of Table 16.1. -/
def ip4Field (f rec_ : List Byte) : Nat :=
  let types := leField rec_ 5 1
  let o := ip4At f (decide (types % 8 = 1)) (leField rec_ 8 1)
  let i := ip4At f (decide (types / 32 % 4 = 1)) (leField rec_ 11 1)
  match o, i with
  | none, none => 0
  | some a, none => if a then 1 else 2
  | none, some b => if b then 1 else 2
  | some a, some b => if a && b then 1 else 2

/-- The L4 field and TRUNCATED of Table 16.1, as (L4, truncated). -/
def l4Field (f rec_ : List Byte) : Nat × Bool :=
  let flags := leField rec_ 2 2
  let proto := leField rec_ 6 1
  let inner := flags.testBit 11
  let l3 := leField rec_ (if inner then 11 else 8) 1
  let l4 := leField rec_ (if inner then 12 else 9) 1
  if flags.testBit 13 = false ∨ flags.testBit 14 = true ∨ (proto ≠ 6 ∧ proto ≠ 17) then (0, false)
  else if f.length < datagramEnd f l3 then (0, true)
  else if proto = 17 ∧ beField f l3 1 / 16 = 4 ∧ beField f (l4 + 6) 2 = 0 then (3, false)
  else (if l4Sum f l3 l4 proto = 65535 then 1 else 2, false)

/-- CSUM_STATUS of a delivered frame (Table 16.1). -/
def csumStatus (f rec_ : List Byte) : Nat :=
  let l := l4Field f rec_
  ip4Field f rec_ + 4 * l.1 + 16 * flag (decide (l.1 ≠ 0) && (leField rec_ 2 2).testBit 11) + 32 * flag l.2

/-- Verify a frame as it is delivered: CSUM_STATUS and the counters of Table 16.6. -/
def rxVerify (f rec_ : List Byte) (s : State) : Nat × State :=
  if getB s (adr pgOffload 0x080) 0 = false then (0, s)
  else
    let v := csumStatus f rec_
    let ip := v % 4
    let l4 := v / 4 % 4
    let add := fun (b : Bool) (o : Nat) (x : State) => if b then addLive (adr pgOffload o) 1 x else x
    let s1 := add (v.testBit 5) 0x098 (add (l4 == 2) 0x094 (add (ip == 2) 0x090 (add (ip != 0 || l4 != 0) 0x088 s)))
    (v, if ip = 2 ∨ l4 = 2 then hwEvent pgOffload 1 s1 else s1)

/-! ### Transmit (R295-R297) -/

/-- The first reason of Table 16.3 that applies; 0 for none. -/
def genRefusal (s : State) (f : List Byte) (req l3 l4 : Nat) : Nat :=
  let v := beField f l3 1 / 16
  let hl := if v = 4 then beField f l3 1 % 16 * 4 else 40
  let e := datagramEnd f l3
  let need := if req.testBit 2 then 20 else 8
  if getB s (adr pgOffload 0x080) 1 = false then 1
  else if (v ≠ 4 ∧ v ≠ 6) ∨ (req.testBit 0 = true ∧ v = 6) then 2
  else if l3 < 14 ∨ f.length < l3 + hl ∨ (req.testBit 1 = true ∧ (l4 < l3 + hl ∨ e < l4 + need)) then 3
  else if req.testBit 1 = true ∧ v = 4 ∧ beField f (l3 + 6) 2 % 2 ^ 14 ≠ 0 then 4
  else if f.length < e then 5
  else 0

/-- GEN_IPV4. -/
def genIp4 (f : List Byte) (l3 : Nat) : List Byte :=
  let n := beField f l3 1 % 16 * 4
  let z := patch f (l3 + 10) [0, 0]
  patch z (l3 + 10) (beBytes (inetSum (slice z l3 n)) 2)

/-- GEN_L4. -/
def genL4 (f : List Byte) (l3 l4 : Nat) (tcp : Bool) : List Byte :=
  let c := l4 + (if tcp then 16 else 6)
  let z := patch f c [0, 0]
  let v := 65535 - l4Sum z l3 l4 (if tcp then 6 else 17)
  patch z c (beBytes (if v = 0 ∧ tcp = false then 65535 else v) 2)

/-- Carry out the request of a host frame's first descriptor, or skip it (R297). -/
def txGenerate (q : Nat) (desc f : List Byte) (s : State) : List Byte × State :=
  let req := leField desc 24 1
  let l3 := leField desc 25 1
  let l4 := leField desc 26 1
  if req % 4 = 0 then (f, s)
  else
    let r := genRefusal s f req l3 l4
    if r = 0 then
      let g := if req.testBit 0 then genIp4 f l3 else f
      (if req.testBit 1 then genL4 g l3 l4 (req.testBit 2) else g, addLive (adr pgOffload 0x0A0) 1 s)
    else
      (f, hwEvent pgOffload 0 (setReg (adr pgOffload 0x0AC) (word (2 ^ 31 + r * 2 ^ 16 + q))
        (addLive (adr pgOffload 0x0A8) 1 s)))

/-! ### Check-value units (R298-R301) -/

/-- Reverse the low `w` bits of a number. -/
def reverseBits : Nat → Nat → Nat
  | 0, _ => 0
  | w + 1, n => n % 2 * 2 ^ w + reverseBits w (n / 2)

/-- One bit of the procedure of R298. -/
def cvBit (w poly r b : Nat) : Nat :=
  let fb := r.testBit (w - 1) != decide (b % 2 = 1)
  let x := r * 2 % 2 ^ w
  if fb then x ^^^ poly else x

/-- The eight bits of a byte, most significant first. -/
def cvByte (w poly r b : Nat) : Nat :=
  [7, 6, 5, 4, 3, 2, 1, 0].foldl (fun x i => cvBit w poly x (b / 2 ^ i)) r

/-- The check value of R298. -/
def cvRun (x : CvJob) (d : List Byte) : Nat :=
  let w := bits x.cfg 6 0
  let m := 2 ^ w
  let r := d.foldl (fun a b => cvByte w (x.poly % m) a (if bit x.cfg 7 then reverseBits 8 b.toNat else b.toNat)) (x.init % m)
  ((if bit x.cfg 8 then reverseBits w r else r) ^^^ x.xorout) % m

def cvA (u off : Nat) : Nat := adr (pgCv u) off

/-- The job of unit `u` is over, its reads with it. -/
def cvEnd (u : Nat) (s : State) : State :=
  match tabFind s.dma.jobs u with
  | some j => endReads j.chan j.reads { s with dma := { s.dma with jobs := tabErase s.dma.jobs u } }
  | none => s

/-- A job of unit `u` ends without success (R300). -/
def cvFail (u reason : Nat) (s : State) : State :=
  hwEvent (pgCv u) 1 (setPair (cvA u 0x0B4) 0
    (setF (cvA u 0x0B0) 11 8 reason (setF (cvA u 0x0B0) 1 0 3 (cvEnd u s))))

/-- OP 1 with GO: the configuration is sampled and the reads are issued (R299). -/
def cvStart (u : Nat) (s : State) : State :=
  if getF s (cvA u 0x0B0) 1 0 = 1 then
    hwEvent (pgCv u) 2 (addF (cvA u 0x0BC) 15 0 1 (setB (cvA u 0x0B0) 2 true s))
  else
    let s1 := setReg (cvA u 0x0B0) 0 s
    let w := getF s1 (cvA u 0x080) 6 0
    let len := getF s1 (cvA u 0x0A4) 27 0
    let fn := getF s1 (cvA u 0x0A8) 7 0
    if w = 0 ∨ 64 < w then cvFail u 1 s1
    else if len = 0 then cvFail u 2 s1
    else if s1.ctl.mode = .safelight then cvFail u 6 s1
    else
      let src := getPair s1 (cvA u 0x09C)
      let job : CvJob := { cfg := getReg s1 (cvA u 0x080), poly := getPair s1 (cvA u 0x084), init := getPair s1 (cvA u 0x08C)
                           xorout := getPair s1 (cvA u 0x094), fn := fn
                           reads := (rangeReqs src len).length, chan := fnChan s1 fn }
      readRange (fnChan s1 fn) src len
        (setF (cvA u 0x0B0) 1 0 1 { s1 with dma := { s1.dma with jobs := tabPut s1.dma.jobs u job } })

/-- OP 2 with GO (R300). -/
def cvAbort (u : Nat) (s : State) : State := if getF s (cvA u 0x0B0) 1 0 = 1 then cvFail u 5 s else s

/-- A write of JOB_CMD. -/
def jobCmd (u : Nat) (v : Word) (s : State) : State :=
  if bit v 31 = false then s
  else
    match bits v 1 0 with
    | 1 => cvStart u s
    | 2 => cvAbort u s
    | _ => s

/-- CV_JOB_START (R299): a write of JOB_CMD := GO, OP 1 from port `p`. -/
def execCvJobStart (p : CmdPort) (u : Fin 8) (s : State) : Out :=
  .next (gatedWrite p (cvA u 0x0AC) true 0x80000001 (cvStart u) s)

/-- CV_JOB_ABORT (R300): a write of JOB_CMD := GO, OP 2 from port `p`. -/
def execCvJobAbort (p : CmdPort) (u : Fin 8) (s : State) : Out :=
  .next (gatedWrite p (cvA u 0x0AC) true 0x80000002 (cvAbort u) s)

/-- CV_JOB_DONE (R299, R300): all the data of the job of unit `u` is read, or a read answered with an error (none). -/
def execCvJobDone (u : Fin 8) (data : Option (List Byte)) (s : State) : Out :=
  .next (
    match tabFind s.dma.jobs u, data with
    | none, _ => s
    | some _, none => cvFail u 3 s
    | some x, some d =>
      hwEvent (pgCv u) 0 (setPair (cvA u 0x0B4) (cvRun x d)
        (setF (cvA u 0x0B0) 1 0 2 (cvEnd u s))))

end Sys2Proof.Machine
end

