-- ==== Sys2Proof/Machine/Dma.lean ====
section
/-! DEFINITION. Commands of the host rings: DB_TX to CTX_WRITE (14_host_rings.md R255-R276). -/

namespace Sys2Proof.Machine

/-! ### Doorbells (R258, R259, R267) -/

/-- Steps 1 and 2 of R258: does the doorbell of function `f` reach its target? -/
def doorbellRefusal (s : State) (f : Nat) (w2 : Word) (err : Bool) : Option Nat :=
  if ctxFn w2 ≠ f then some 1 else if ctxOn w2 = false ∨ err = true ∨ inReset s f = true then some 2 else none

/-- A discarded doorbell (R258). -/
def doorbellDiscard (f n : Nat) (s : State) : State :=
  if n = 2 then hwEvent (pgFn f) 3 (fnCount f 2 s) else fnCount f n s

/-- A DB_TX or DB_RX write (R258). -/
def doorbell (f : Nat) (rx : Bool) (v : Word) (s : State) : State :=
  let q := bits v 28 17
  let x := getQ s rx q
  let k := ctxK x.word2
  let n := wrap k (bits v 16 0)
  match doorbellRefusal s f x.word2 (decide (x.reason ≠ 0)) with
  | some c => doorbellDiscard f c s
  | none =>
    let a := ringDist k x.pi n
    if a = 0 then s
    else if 2 ^ k < a then fnCount f 0 s
    else if 2 ^ k < ringDist k x.ci n then queueError rx q 1 n s
    else runQueue rx q (loupe 5 f 2 1 (setQ rx q { x with pi := n } s))

/-- A DB_STABLE write (R259, R260). -/
def stableWrite (f : Nat) (rx : Bool) (v : Word) (s : State) : State :=
  let q := bits v 28 17
  let x := getQ s rx q
  match doorbellRefusal s f x.word2 (decide (x.reason ≠ 0)) with
  | some c => doorbellDiscard f c s
  | none => setQ rx q { x with stable := wrap (ctxK x.word2) (bits v 16 0) } s

/-- Held completions of the queues of a ring are written as room appears (R268). -/
def flushRing (c : Nat) : List Nat → State → State
  | [], s => s
  | q :: r, s =>
    if ctxRing (getQ s false q).word2 = c ∧ (getQ s false q).held ≠ [] then
      flushRing c r (runQueue false q (flushFrames q 65 s))
    else flushRing c r s

/-- A DB_CQ write (R267). -/
def doorbellCq (f : Nat) (v : Word) (s : State) : State :=
  let c := bits v 28 17
  let x := getR s c
  let k := ctxK x.word2
  let n := wrap k (bits v 16 0)
  match doorbellRefusal s f x.word2 false with
  | some e => doorbellDiscard f e s
  | none =>
    if ringDist k x.ci n ≤ ringDist k x.ci x.wb then
      let s1 := loupe 5 f 2 1 (setR c { x with ci := n } s)
      let s2 := if n = x.wb then s1 else ringEdge x s1
      flushRing c (s2.dma.txq.map (fun e => e.1)) s2
    else fnCount f 9 s

/-- DB_TX (R258): a transmit (`rx` false) or receive doorbell `v` in the page of function `f`, from port `p`. -/
def execDbTx (p : CmdPort) (f : FnNo) (rx : Bool) (v : Word) (s : State) : Out :=
  .next (gatedWrite p (adr (pgFn f) (if rx then 0x104 else 0x100)) true v (doorbell f rx v) s)

/-- DB_CQ (R267): doorbell `v` in the page of function `f`, from port `p`. -/
def execDbCq (p : CmdPort) (f : FnNo) (v : Word) (s : State) : Out :=
  .next (gatedWrite p (adr (pgFn f) 0x108) true v (doorbellCq f v) s)

/-- DB_STABLE_TX (R259): a transmit (`rx` false) or receive stable mark `v`, from port `p`. -/
def execDbStableTx (p : CmdPort) (f : FnNo) (rx : Bool) (v : Word) (s : State) : Out :=
  .next (gatedWrite p (adr (pgFn f) (if rx then 0x110 else 0x10C)) true v (stableWrite f rx v) s)

/-! ### Reads that return -/

/-- DESCRIPTOR_FETCH_DONE (R259, R270): read `i` of queue `q` returns 512 bytes (32 for a single entry), or an error. -/
def execDescriptorFetchDone (rx : Bool) (q : QueueNo) (i : Nat) (data : Option (List Byte)) (s : State) : Out :=
  .next (
    let x := getQ s rx q
    match x.fetches[i]? with
    | none => s
    | some f =>
      let y := { x with fetches := x.fetches.eraseIdx i }
      let s1 := endReads (fnChan s (ctxFn x.word2)) 1 s
      if ctxOn x.word2 = false ∨ inReset s (ctxFn x.word2) = true ∨ x.reason ≠ 0 then setQ rx q y s1
      else
        match data with
        | none => queueError rx q 6 f.idx (setQ rx q y s1)
        | some d => runQueue rx q (setQ rx q { y with pre := markEntries y f d (if f.single then 1 else 16) y.pre } s1))

/-- The first frame of a queue that is still being read. -/
def readingFrame (x : Queue) : Option HostTx := x.frames.find? (fun h => h.phase == 0)

/-- Put the fetched octets on a frame. -/
def storeData (first : Nat) (d : List Byte) : List HostTx → List HostTx
  | [] => []
  | h :: r => if h.first = first ∧ h.phase = 0 then { h with phase := 1, data := d } :: r else h :: storeData first d r

/-- Read requests of a frame's buffers. -/
def bufReads (h : HostTx) : Nat := (h.bufs.map (fun b => (rangeReqs b.1 b.2).length)).sum

/-- TX_HOST_FRAME_FETCHED (R262, R296): the buffers of the oldest frame being read have returned, or a read answered
with an error, which ends the frames behind it too (R270). -/
def execTxHostFrameFetched (q : QueueNo) (data : Option (List Byte)) (s0 : State) : Out :=
  .next (
    let x := getQ s0 false q
    match readingFrame x with
    | none => s0
    | some h =>
      let ch := fnChan s0 (ctxFn x.word2)
      let s := endReads ch (bufReads h) s0
      let gone := { x with frames := x.frames.filter (fun y => !(y.first == h.first && y.phase == 0)) }
      if inReset s (ctxFn x.word2) then setQ false q gone s
      else
        match data with
        | none =>
          let later := gone.frames.filter (fun y => y.phase == 0)
          queueError false q 6 h.first
            (setQ false q { gone with frames := gone.frames.filter (fun y => y.phase != 0) } (endReads ch (later.map bufReads).sum s))
        | some d =>
          let g := txGenerate q h.desc (slice d 0 (h.bufs.map (fun b => b.2)).sum) s
          let y := getQ g.2 false q
          handQueue q 64 (setQ false q { y with frames := storeData h.first g.1 y.frames } g.2))

/-! ### Receive delivery (R263, R264, R269) -/

/-- Write the frame into its buffers, each to its BUF_LEN. -/
def writeBufs (ch : Nat) : List (List Byte) → List Byte → State → State
  | [], _, s => s
  | d :: r, f, s =>
    let n := leField d 8 2
    writeBufs ch r (f.drop n) (writeHost ch (leField d 0 8) (f.take n) s)

/-- A receive completion record (Table 14.3). -/
def rxRecord (q first count reason csum : Nat) (x : Staged) (redirected : Bool) (cookie : List Byte) : List Byte :=
  leBytes (q + 4096) 2 ++ leBytes 0 1 ++ leBytes reason 1 ++ leBytes (first + count * 2 ^ 24) 4 ++ cookie
    ++ leBytes x.data.length 2 ++ leBytes x.port 2 ++ slice x.side 64 12 ++ slice x.side 91 2 ++ leBytes csum 1
    ++ leBytes (1 + 2 * flag ((byteAt x.side 92).getLsbD 0) + 4 * flag redirected) 1

/-- Deliver frame `x` to queue `q`, whose entries are held (row 5). -/
def rxDeliver (q : Nat) (x : Staged) (redirected : Bool) (s : State) : State :=
  let y := getQ s true q
  let k := ctxK y.word2
  match fitFrom y 128 y.next x.data.length [] with
  | .fits l =>
    let v := rxVerify x.data (x.side.take 64) (writeBufs (fnChan s (ctxFn y.word2)) l x.data s)
    let z := getQ v.2 true q
    let nx := wrap k (y.next + l.length)
    let s1 := setQ true q { z with next := nx, ci := nx, pre := tabKeep (fun i => decide (ringDist k nx i < 2 ^ k)) z.pre } v.2
    let r := rxRecord q y.next l.length x.reason v.1 x redirected (slice (l.headD []) 20 4)
    runQueue true q (loupe 5 (ctxFn y.word2) 1 1 (pushCompletion (ctxRing y.word2) r s1))
  | _ => s

/-- Deliver, redirect or refuse the frame. -/
def rxHandle (q : Nat) (x : Staged) (s : State) : State :=
  let s1 := rxCheck q x.data.length s
  match rxRefusal s1 q x.data.length with
  | none => rxDeliver q x false s1
  | some row =>
    match overflowOf s1 q row x.data.length with
    | some o => rxDeliver o x true (fnCount (ctxFn (getQ s1 true q).word2) 7 s1)
    | none => rxDrop q row s1

/-- RX_QUEUE_DELIVERY (R264, R269): the oldest staged frame of receive queue `q`. A frame whose posted entries are still
being read stays staged. -/
def execRxQueueDelivery (q : QueueNo) (s : State) : Out :=
  .next (
    match s.dma.staging.findIdx? (fun x => x.queue == q.val), s.dma.staging.find? (fun x => x.queue == q.val) with
    | some i, some x =>
      if dmaRuns s = false ∨ rxWaits s q x.data.length = true then s
      else rxHandle q x { s with dma := { s.dma with staging := s.dma.staging.eraseIdx i } }
    | _, _ => s)

/-! ### Function reset (R271) -/

def fnA (f off : Nat) : Nat := adr (pgFn f) off

/-- Frames of a function's queues that wait at a port are withdrawn and counted in TX_RESET_DISCARD. -/
def withdrawPort (f : Nat) (mine : Nat → Bool) (p : Nat) (s : State) : State :=
  let out := fun (x : TxFrm) => match x.src with | .host q _ => mine q | _ => false
  let l := txQueue s p
  let n := (l.filter out).length
  addF (fnA f 0x1A0) 31 0 n (setTxQueue p (l.filter (fun x => !out x)) s)

def withdraw (f : Nat) (mine : Nat → Bool) : List Nat → State → State
  | [], s => s
  | p :: r, s => withdraw f mine r (withdrawPort f mine p s)

/-- Queues of a function, listed. -/
def fnQueues (s : State) (rx : Bool) (f : Nat) : List Nat :=
  ((if rx then s.dma.rxq else s.dma.txq).filter (fun e => ctxFn e.2.word2 == f)).map (fun e => e.1)

/-- Stop the queues of a function: only reads outstanding remain. -/
def stopQueues (rx : Bool) : List Nat → State → State
  | [], s => s
  | q :: r, s =>
    let x := getQ s rx q
    stopQueues rx r (setQ rx q { x with chain := [], pre := [], frames := x.frames.filter (fun h => h.phase == 0) } s)

/-- Check-value jobs of the function fail with reason 4 (R300). -/
def failJobs (f reason : Nat) (all : Bool) : List Nat → State → State
  | [], s => s
  | u :: r, s =>
    match tabFind s.dma.jobs u with
    | some j => failJobs f reason all r (if all || j.fn == f then cvFail u reason s else s)
    | none => failJobs f reason all r s

/-- A write of PG_FN.RESET (R271, steps 1 to 3). -/
def fnReset (f : Nat) (v : Word) (s : State) : State :=
  if bit v 31 = false ∨ inReset s f = true then s
  else
    let tx := fnQueues s false f
    let s1 := setReg (fnA f 0x084) (word (1 + 4 * flag (bit v 0))) s
    let s2 := withdraw f (fun q => tx.contains q) (s1.tx.queues.map (fun e => e.1)) s1
    handHosts (failJobs f 4 false (List.range 8)
      (stopQueues true (fnQueues s2 true f) (stopQueues false tx s2)))

/-- FUNCTION_RESET (R271): a write of PG_FN.RESET of function `f`, from port `p`. -/
def execFunctionReset (p : CmdPort) (f : FnNo) (v : Word) (s : State) : Out :=
  .next (gatedWrite p (fnA f 0x080) true v (fnReset f v) s)

/-- Is a read of the function outstanding, or a committed frame of it on a line (R271, step 4)? -/
def fnBusy (s : State) (f : Nat) : Bool :=
  (fnQueues s false f).any (fun q => (getQ s false q).fetches != [] || (getQ s false q).frames != [])
    || (fnQueues s true f).any (fun q => (getQ s true q).fetches != [])
    || (s.tx.flight ++ s.tx.open_).any (fun e => match e.2.frm.src with
      | .host q _ => ctxFn (getQ s false q).word2 == f
      | _ => false)

/-- A queue after a reset: indices 0, ERROR cleared (R271, step 5). -/
def freshQueue (s : State) (mode1 : Bool) (x : Queue) : Queue :=
  let w := if mode1 then putBit x.word2 31 false else x.word2
  { queue0 with base := x.base, word2 := w, frozen := decide (s.ctl.mode = .safelight) && !ctxSafe x.word2 }

def freshQueues (rx mode1 : Bool) : List Nat → State → State
  | [], s => s
  | q :: r, s => freshQueues rx mode1 r (setQ rx q (freshQueue s mode1 (getQ s rx q)) s)

def freshRings (f : Nat) (mode1 : Bool) : List Nat → State → State
  | [], s => s
  | c :: r, s =>
    let x := getR s c
    if ctxFn x.word2 = f then
      let w := if mode1 then putBit x.word2 31 false else x.word2
      freshRings f mode1 r (setR c { ring0 with base := x.base, wbAddr := x.wbAddr, word2 := w } s)
    else freshRings f mode1 r s

/-- RESET_DONE (R271, steps 4 to 6) of function `f`. -/
def execResetDone (f : FnNo) (s : State) : Out :=
  .next (
    if inReset s f = false ∨ fnBusy s f = true then s
    else
      let m := getB s (fnA f 0x084) 2
      let s1 := freshQueues true m (fnQueues s true f) (freshQueues false m (fnQueues s false f) s)
      let s2 := freshRings f m (s1.dma.cq.map (fun e => e.1)) s1
      hwEvent (pgFn f) 1 (setF (fnA f 0x084) 1 0 2 { s2 with dma := { s2.dma with chan := tabErase s2.dma.chan f } }))

/-- A write of FN_CFG_f: CHANNEL takes effect at the next reset (R275). -/
def fnCfgWrite (f : Nat) (v : Word) (s : State) : State :=
  let old := fnChan s f
  let s1 := storeRw (adr (pgDma 13) (0x800 + 4 * f)) v s
  let c := if flag (bit v 24) = old then tabErase s1.dma.chan f else tabPut s1.dma.chan f old
  { s1 with dma := { s1.dma with chan := c } }

/-! ### Contexts (R274) -/

def ctxA (i : Nat) : Nat := adr (pgDma 0) (0x0C0 + 4 * i)

/-- The words of a queue's context (Table 14.8). -/
def queueWords (rx : Bool) (x : Queue) : List Word :=
  [ word x.base, word (x.base / 2 ^ 32), x.word2, word x.pi, word x.ci, word x.stable
  , word (x.reason * 2 ^ 28 + x.errIndex), if rx then 0 else word (x.frames.length * 256 + x.held.length) ]

def ringWords (x : Ring) : List Word :=
  [ word x.base, word (x.base / 2 ^ 32), x.word2, word x.wbAddr, word (x.wbAddr / 2 ^ 32), word x.pi, word x.ci, 0 ]

/-- A context command ends (R274). -/
def ctxEnd (reason : Nat) (s : State) : State :=
  if reason = 0 then hwEvent (pgDma 0) 1 (setReg (adr (pgDma 0) 0x088) 2 s)
  else hwEvent (pgDma 0) 2 (setReg (adr (pgDma 0) 0x088) (word (reason * 256 + 3)) s)

def ctxType (s : State) : Nat := getF s (adr (pgDma 0) 0x080) 29 28
def ctxNumber (s : State) : Nat := getF s (adr (pgDma 0) 0x080) 11 0

/-- OP 1: read a context (R274). -/
def ctxRead (s : State) : State :=
  let n := ctxNumber s
  match ctxType s with
  | 0 => ctxEnd 0 (setWords (ctxA 0) (queueWords false (getQ s false n)) s)
  | 1 => ctxEnd 0 (setWords (ctxA 0) (queueWords true (getQ s true n)) s)
  | 2 => ctxEnd 0 (setWords (ctxA 0) (ringWords (getR s n)) s)
  | _ => ctxEnd 7 s

/-- CTX_DATA_2 as a context of type `t` holds it. -/
def ctxWord2 (t : Nat) (w : Word) : Word :=
  w &&& (if t = 0 then 0xC1FFFFFF else if t = 1 then 0xE1FFFFFF else 0x81FFFFFF)

/-- Why a context write is refused; 0 for none (R274). -/
def ctxRefusal (s : State) (t : Nat) (old new : Word) : Nat :=
  let w0 := getReg s (ctxA 0)
  let w3 := getReg s (ctxA 3)
  let r := getR s (ctxRing new)
  if ctxOn old then 1
  else if ctxK new < 6 ∨ 16 < ctxK new then 2
  else if bits w0 8 0 ≠ 0 ∨ (t = 2 ∧ bits w3 5 0 ≠ 0) then 3
  else if t ≠ 2 ∧ (ctxOn r.word2 = false ∨ ctxFn r.word2 ≠ ctxFn new) then 4
  else if t = 2 ∧ ctxRing new ≠ 0 ∧ (ctxRing new < 512 ∨ 2047 < ctxRing new) then 5
  else if inReset s (ctxFn old) = true ∨ inReset s (ctxFn new) = true then 6
  else 0

/-- OP 2: write a context (R274). -/
def ctxWrite (s : State) : State :=
  let n := ctxNumber s
  let t := ctxType s
  let base := getPair s (ctxA 0)
  let new := ctxWord2 t (getReg s (ctxA 2) &&& 0xE1FFFFFF)
  if t = 3 then ctxEnd 7 s
  else if t = 2 then
    match ctxRefusal s t (getR s n).word2 new with
    | 0 => ctxEnd 0 (setR n { ring0 with base := base, word2 := new, wbAddr := getPair s (ctxA 3) } s)
    | r => ctxEnd r s
  else
    match ctxRefusal s t (getQ s (t == 1) n).word2 new with
    | 0 =>
      let z := decide (s.ctl.mode = .safelight) && !ctxSafe new
      ctxEnd 0 (setQ (t == 1) n { queue0 with base := base, word2 := new, frozen := z } s)
    | r => ctxEnd r s

/-- A write of CTX_CMD. -/
def ctxCmd (v : Word) (s : State) : State :=
  if bit v 31 = false then s
  else
    match bits v 1 0 with
    | 1 => ctxRead s
    | 2 => ctxWrite s
    | _ => s

/-- CTX_READ (R274): a write of CTX_CMD := GO, OP 1 from port `p`. -/
def execCtxRead (p : CmdPort) (s : State) : Out :=
  .next (gatedWrite p (adr (pgDma 0) 0x084) true 0x80000001 ctxRead s)

/-- CTX_WRITE (R274): a write of CTX_CMD := GO, OP 2 from port `p`. -/
def execCtxWrite (p : CmdPort) (s : State) : Out :=
  .next (gatedWrite p (adr (pgDma 0) 0x084) true 0x80000002 ctxWrite s)

/-! ### SAFELIGHT and sleep (R272) -/

/-- Freeze or thaw every enabled queue that SAFELIGHT does not keep. -/
def freezeQueues (v : Bool) (s : State) : State :=
  let f := fun (e : Nat × Queue) => (e.1, { e.2 with frozen := v && ctxOn e.2.word2 && !ctxSafe e.2.word2 })
  { s with dma := { s.dma with txq := s.dma.txq.map f, rxq := s.dma.rxq.map f } }

/-- Queues act on what was recorded: at SAFELIGHT exit and after a wake. -/
def thawQueues (s : State) : State :=
  let s1 := (s.dma.txq.map (fun e => e.1)).foldl (fun x q => flushFrames q 65 x) s
  handHosts (runListed true (s1.dma.rxq.map (fun e => e.1)) (runListed false (s1.dma.txq.map (fun e => e.1)) s1))

/-- The reads of descriptors in flight come back unused (log 56). -/
def endFetches : List (Nat × Queue) → State → State
  | [], s => s
  | e :: r, s => endFetches r (endReads (fnChan s (ctxFn e.2.word2)) e.2.fetches.length s)

/-- Prefetched entries are discarded at sleep entry. -/
def dropPrefetch (s0 : State) : State :=
  let f := fun (e : Nat × Queue) => (e.1, { e.2 with pre := [], fetches := [] })
  let s := endFetches (s0.dma.txq ++ s0.dma.rxq) s0
  { s with dma := { s.dma with txq := s.dma.txq.map f, rxq := s.dma.rxq.map f } }

end Sys2Proof.Machine
end

