-- ==== Sys2Proof/Machine/Fixer.lean ====
section
/-! DEFINITION. Commands of FIXER: AGING_SAMPLE to JRNL_RD (19_fixer_repair.md). -/

namespace Sys2Proof.Machine

/-! ### Monitors (R341, R346) -/

/-- Modes in which FIXER samples and repairs. -/
def repairing (s : State) : Bool :=
  match s.ctl.mode with
  | .run => true
  | .safelight => true
  | .test => true
  | _ => false

/-- RO_SECONDS or ECC_SECONDS: 1-60 (Table 19.7). -/
def decisionSecs (v : Nat) : Nat := max 1 (min v 60)

/-- One more sample at or above a limit, or none. -/
def runCount (t : Tab Nat) (k : Nat) (hit : Bool) : Tab Nat :=
  tabSet (fun _ => 0) t k (if hit then min (tabGet (fun _ => 0) t k + 1) 60 else 0)

/-- AGING_ALARM of a unit: event 1 at its first such reading (R341). -/
def raiseAlarm (k : Nat) (s : State) : State :=
  if s.fix.alarms.contains k then s
  else hwEvent pgFixer 1 { s with fix := { s.fix with alarms := setInsert s.fix.alarms k } }

/-- Is the unit being migrated now? -/
def inMigration (s : State) (u : UnitId) : Bool :=
  match s.fix.mig with
  | some m => m.dec.unit == u
  | none => false

/-- A planned decision on an aging monitor (Table 19.2). -/
def agingDecision (u : UnitId) (cause reading : Nat) (s : State) : State :=
  if getB s (adr pgFixer 0x010) 1 && inService s u && !inMigration s u then
    queueDecision { newDecision u 0 cause with detail := reading } s
  else s

/-- One unit's readings. ECC corrections of a pipe's memories in the second latch event 2 ECC_CORR of its page (R141). -/
def sampleUnit (x : AgingReading) (s : State) : State :=
  let k := unitKey x.unit
  let c := getReg s (adr pgFixer 0x0A0)
  let t := getReg s (adr pgFixer 0x0A4)
  let s1 := { s with fix := { s.fix with
    slow := tabSet (fun _ => 0) s.fix.slow k x.slow
    ecc := tabSet (fun _ => 0) s.fix.ecc k x.ecc
    roRun := runCount s.fix.roRun k (decide (bits c 15 8 ≤ x.slow))
    eccRun := runCount s.fix.eccRun k (decide (bits c 31 24 ≤ x.ecc)) } }
  let s1 := if x.unit.type = 2 ∧ 0 < x.ecc then hwEvent (pgPipe x.unit.unit) 2 s1 else s1
  let s2 := if bits c 7 0 ≤ x.slow ∨ bits c 23 16 ≤ x.ecc then raiseAlarm k s1 else s1
  if decisionSecs (bits t 15 8) ≤ tabGet (fun _ => 0) s2.fix.roRun k then agingDecision x.unit 1 x.slow s2
  else if decisionSecs (bits t 7 0) ≤ tabGet (fun _ => 0) s2.fix.eccRun k then agingDecision x.unit 2 x.ecc s2
  else s2

/-- Is the unit sampled (R341): a powered slice or shared part that works or is fed as a shadow, or a pipe in rotation? -/
def sampled (s : State) (u : UnitId) : Bool :=
  match u.type with
  | 2 => pipeState s u.unit == 1
  | _ => islandOn s u.unit && (inService s u || unitState s u == 2)

def sampleUnits : List AgingReading → State → State
  | [], s => s
  | x :: r, s => sampleUnits r (if sampled s x.unit then sampleUnit x s else s)

/-- AGING_SAMPLE (R341): the readings of a second, of units that are sampled. -/
def execAgingSample (l : List AgingReading) (s : State) : Out := .next (if repairing s then sampleUnits l s else s)

/-- LOCKSTEP_MISCOMPARE (R341): the checker of a slice or pipe. -/
def execLockstepMiscompare (u : UnitId) (s : State) : Out :=
  .next (
    if repairing s && (u.type == 0 || u.type == 2) then
      let k := unitKey u
      hardFault u 3 { s with fix := { s.fix with
        lockstep := tabSet (fun _ => 0) s.fix.lockstep k (tabGet (fun _ => 0) s.fix.lockstep k + 1) } }
    else s)

/-- A word of a frame is discarded: its record never arrives, and its number is left to R156 (R346). -/
def dropFrameWord (p n : Nat) (s : State) : State :=
  let mine := s.dp.dealt.filter (fun d => d.frm.port == p && d.seq == n)
  let s1 := mine.foldl (fun x d => drainDown (d.tag.toNat / 2 ^ 30) x) s
  { s1 with dp := { s1.dp with
    dealt := s1.dp.dealt.filter (fun d => !(d.frm.port == p && d.seq == n))
    held := s1.dp.held.filter (fun h => !(h.port == p && h.seq == n)) } }

/-- The frame a port is sending ends with its FCS stomped (R345). -/
def stompFlight (p : Nat) (s : State) : State :=
  match tabFind s.tx.flight p with
  | some c =>
    let f := { c.frm with endMarks := c.frm.endMarks ||| 8 }
    { s with tx := { s.tx with flight := tabPut s.tx.flight p { c with frm := f } } }
  | none => s

/-- The word that an island without spares has lost (R346). -/
def islandWord (c : ErrContent) (s : State) : State :=
  match c with
  | .frame p n => dropFrameWord p n.toNat s
  | .txFrame p => stompFlight p s
  | .replica => s
  | .register a => setReg a.toNat (regReset a.toNat) s
  | .context rx q => queueError rx q 6 (getQ s rx q).ci s
  | .unused => s

/-- The fault is recorded as pending, with its island (R346). -/
def pendL2 (u : UnitId) (s : State) : State :=
  let s1 := { s with
    fix := { s.fix with l2Pending := s.fix.l2Pending ++ [u.unit] }
    ctl := { s.ctl with faults := { s.ctl.faults with spares := true } } }
  journal 7 (newDecision u 1 4) { u with type := 3, slice := 0xFF } 0xFF 0 s1

/-- UNCORRECTABLE_ERROR (R341, R345, R346): unit `u` or, as type 4, island 66-74; `c` is what the word held. -/
def execUncorrectableError (u : UnitId) (c : ErrContent) (s : State) : Out :=
  .next (
    if repairing s then
      let s1 := hwEvent pgFixer 7 s
      if u.type < 3 then
        hardFault u 4 (match c with | .txFrame p => stompFlight p s1 | _ => s1)
      else pendL2 u (islandWord c s1)
    else s)

/-! ### The next decision (R342) -/

/-- Does the unit serve the SAFELIGHT set (Table 19.6)? -/
def inSafeSet (s : State) (u : UnitId) : Bool :=
  match u.type with
  | 2 => pipeState s u.unit == 1
  | _ => s.nv.safeList.any (fun p => p / 8 == home s u.unit)

/-- May a decision be taken now (R342, R347, R353, Table 19.6)? -/
def eligible (s : State) (d : Decision) : Bool :=
  (d.kind == 2 || d.op == 5 || d.testOnly || getB s (adr pgFixer 0x010) 0) &&
    match s.ctl.mode with
    | .safelight => !d.testOnly && d.op != 4 && (d.kind == 2 || (d.kind == 1 && inSafeSet s d.unit))
    | _ => true

/-- Is decision `a` served before `b`: the more urgent kind, then the lower unit (R342)? -/
def servedBefore (a b : Decision) : Bool :=
  decide (kindRank b.kind < kindRank a.kind)
    || (decide (kindRank b.kind = kindRank a.kind) && decide (unitKey a.unit < unitKey b.unit))

/-- The decision to take, of those that may be taken. -/
def firstDecision (s : State) : List Decision → Option Decision
  | [] => none
  | d :: r =>
    if eligible s d then
      match firstDecision s r with
      | none => some d
      | some e => if servedBefore e d then some e else some d
    else firstDecision s r

/-- A test of a unit out of service is asked for (R342, R351). -/
def beginTest (d : Decision) (s : State) : State :=
  let s1 := { s with fix := { s.fix with
    mig := some { dec := d, spare := 0xFF, step := 4, failed := [] }
    causes := if d.op = 4 then s.fix.causes else tabPut s.fix.causes (unitKey d.unit) d.cause } }
  askTest d.unit s1

/-- The work of a decision starts (R342, R343, R351). -/
def beginDecision (d : Decision) (s : State) : State :=
  let u := d.unit
  match d.op with
  | 2 => if mayReturn s u then beginReturn d s else endForced d rFailed 0x31 s
  | 4 => if condemned s u then beginTest d s else endForced d rFailed 0x31 s
  | 3 =>
    if inService s u then beginMig d [] s
    else if condemned s u then endForced d rFailed 0x31 s
    else endForced d rOk 0 (condemn d u 0xFF (countRetired u d.cause s))
  | _ =>
    if d.testOnly then beginTest d s
    else if inService s u || (tabFind s.fix.degraded (unitKey u)).isSome then beginMig d [] s
    else endForced d rFailed 0x31 s

/-- MIGRATION_START (R342, R343): FIXER takes the next decision. -/
def execMigrationStart (s : State) : Out :=
  .next (
    if repairing s && s.fix.mig.isNone then
      match firstDecision s s.fix.queue with
      | none => s
      | some d => beginDecision d (reclaim d { s with fix := { s.fix with queue := s.fix.queue.filter (fun x => !(x.unit == d.unit)) } })
    else s)

/-! ### Comparison (R343, R344) -/

/-- Is the migration one with comparison? -/
def compares (d : Decision) : Bool := d.kind != 1 && d.shadow

/-- A migration of a slice or cluster waits while its home cluster is being reconfigured (R90). -/
def awaitsReconf (s : State) (u : UnitId) : Bool :=
  decide (u.type < 2) && (tabFind s.prt.reconf (home s u.unit)).isSome

/-- Comparison begins: SHADOW is shown, the counts of a pipe's shadow start again (R151). -/
def beginCompare (m : Migration) (s : State) : State :=
  let s1 := shadowFlag m true (setStep 2 m s)
  if m.dec.unit.type = 2 then
    setLive (adr pgSpread 0x09C) 0 (setLive (adr pgSpread 0x0A0) 0 s1)
  else s1

/-- `n` frames have been compared, the last with a difference. -/
def differAfter (n : Nat) (m : Migration) (s : State) : State :=
  let s1 := hwEvent pgFixer 2 (addF (adr pgFixer 0x08C) 31 0 1 (addF (adr pgFixer 0x088) 31 0 n s))
  let s2 := if m.dec.unit.type = 2 then
      hwEvent pgSpread 3 (addLive (adr pgSpread 0x0A0) 1 (addLive (adr pgSpread 0x09C) n s1))
    else s1
  miscompare m s2

/-- SHADOW_COMPARE_START (R343, R344): comparison begins; with `some n` its `n`-th frame differs. -/
def execShadowCompareStart (differs : Option Nat) (s : State) : Out :=
  .next (
    match s.fix.mig with
    | none => s
    | some m =>
      if compares m.dec && repairing s && !awaitsReconf s m.dec.unit && decide (1 ≤ m.step) && decide (m.step ≤ 2) then
        let s1 := if m.step = 1 then beginCompare m s else s
        match differs with
        | none => s1
        | some n => differAfter n m s1
      else s)

/-! ### Switchover (R98, R99, R101, R343) -/

/-- SUBST and LANE_STATUS.SUBST of home cluster `h` show slice 8 of cluster `c`, which serves it. -/
def showSlice8 (h c : Nat) (s : State) : State :=
  let m := unitMap s (slice8 c)
  let on := if m.state = 0 then m.standsFor else none
  let s1 := (List.range 8).foldl (fun x i => setB (laneStA (8 * h + i)) 5 (on == some i) x) s
  setReg (adr (pgCl h 1) 0x0A8) (0x00FF0000 ||| (match on with | some i => word (256 + i) | none => 0)) s1

/-- Ports that a degraded unit held down are offered again. -/
def offerPorts (u : UnitId) (s : State) : State :=
  match tabFind s.fix.degraded (unitKey u) with
  | none => s
  | some _ =>
    let s1 := { s with fix := { s.fix with degraded := tabErase s.fix.degraded (unitKey u) } }
    if u.type = 2 then s1 else holdPorts false (unitPorts s1 u) s1

/-- The traffic of `m`'s unit moves to its spare, which holds the live key store at the switchover (R214). -/
def moveToSpare (m : Migration) (s : State) : State :=
  let u := m.dec.unit
  let h := home s u.unit
  match u.type with
  | 0 =>
    hwEvent (pgCl h 1) 7 (showSlice8 h u.unit
      (setStands (slice8 u.unit) (some u.slice) (setUnit (slice8 u.unit) 0 (retire u m.dec.cause s))))
  | 1 =>
    let s0 := copyKeys (serving s h) m.spare s
    let s1 := retire u m.dec.cause { s0 with prt := { s0.prt with standIn := tabPut (tabErase s0.prt.standIn u.unit) m.spare h } }
    hwEvent (pgCl h 1) 7 (showSlice8 h m.spare
      (setStands (clusterId m.spare) (some h) (setUnit (clusterId m.spare) 0 s1)))
  | _ =>
    let s1 := retire u m.dec.cause s
    if m.dec.kind = 1 then pipeOut u.unit (some m.spare) s1 else replacePipe u.unit 3 (some m.spare) s1

/-- The traffic returns to its home unit, and the spare is free again (R347). -/
def moveHome (m : Migration) (s : State) : State :=
  let u := m.dec.unit
  match u.type with
  | 0 =>
    let h := home s u.unit
    hwEvent (pgCl h 1) 7 (showSlice8 h u.unit
      (setStands (slice8 u.unit) none (setUnit (slice8 u.unit) 1 (setUnit u 0 s))))
  | _ =>
    let s1 := setStands (clusterId m.spare) none (setUnit (clusterId m.spare) 1 (setUnit u 0 (copyKeys m.spare u.unit s)))
    let s2 := clusterDown m.spare { s1 with prt := { s1.prt with standIn := tabErase s1.prt.standIn m.spare } }
    hwEvent (pgCl u.unit 1) 7 (showSlice8 u.unit u.unit s2)

/-- The switchover of migration `m`, with its journal entry. -/
def switchOver (m : Migration) (s : State) : State :=
  let s0 := shadowFlag m false s
  if m.dec.op = 2 then
    let s1 := journal 2 m.dec m.dec.unit m.spare m.dec.detail
      (lastRepair 2 m.dec m.spare (hwEvent pgFixer 0 (moveHome m s0)))
    endForced m.dec rOk 0 (spareBack (endMig s1))
  else
    let s1 := moveToSpare m (offerPorts m.dec.unit s0)
    let s2 := journal 1 m.dec m.dec.unit m.spare m.dec.detail (lastRepair 1 m.dec m.spare (hwEvent pgFixer 0 s1))
    afterRetired m m.dec.unit s2

/-- May the switchover be made (R90, R118, R343)? -/
def maySwitch (s : State) (m : Migration) : Bool :=
  repairing s && !awaitsReconf s m.dec.unit && !(decide (m.dec.unit.type < 2) && openFrames s m.dec.unit)
    && (m.step == 2 || m.step == 3 || (m.step == 1 && !compares m.dec))

/-- MIGRATION_SWITCHOVER (R343): the comparison of `frames` frames ends clean, or is skipped; every port switches. -/
def execMigrationSwitchover (frames : Nat) (s : State) : Out :=
  .next (
    match s.fix.mig with
    | none => s
    | some m =>
      if maySwitch s m then
        switchOver m (if m.step = 2 ∧ m.dec.unit.type < 2 then addF (adr pgFixer 0x088) 31 0 frames s else s)
      else s)

/-! ### The fate of a tested unit (R347, R351) -/

/-- A reading still reaches a WARN threshold. -/
def stillWorn (s : State) (u : UnitId) : Bool :=
  let c := getReg s (adr pgFixer 0x0A0)
  decide (bits c 7 0 ≤ tabGet (fun _ => 0) s.fix.slow (unitKey u))
    || decide (bits c 23 16 ≤ tabGet (fun _ => 0) s.fix.ecc (unitKey u))

/-- Is the unit one that a return could give its traffic back to? -/
def isHome (u : UnitId) : Bool := (u.type == 0 && decide (u.slice < 8)) || (u.type == 1 && decide (u.unit < 64))

/-- Does a spare stand in for a home slice or cluster? -/
def stoodFor (s : State) (u : UnitId) : Bool :=
  if u.type = 0 then decide (unitState s (slice8 u.unit) = 0) && (unitMap s (slice8 u.unit)).standsFor == some u.slice
  else serving s u.unit != u.unit

/-- A home cluster whose ports were all down when it was retired has its supply back. -/
def clusterBack (n : Nat) (s : State) : State :=
  match s.ctl.mode with
  | .safelight => s
  | _ => sampleLanes (clusterLanes n) (clusterUp n s)

/-- A unit that has passed is out of service and good: a pipe or spare is free, a home unit is standby where a spare stands
in for it and else in service again. A pipe whose position nobody took holds it again. -/
def passedUnit (u : UnitId) (s : State) : State :=
  match u.type with
  | 2 =>
    match posOf s u.unit with
    | some _ =>
      rotationChanged (setPipe u.unit 1 { s with fix := { s.fix with degraded := tabErase s.fix.degraded (unitKey u) } })
    | none => setAny u 1 s
  | t =>
    if isHome u = false then setUnit u 1 s
    else if stoodFor s u then setUnit u 5 s
    else if t = 1 then clusterBack u.unit (setUnit u 0 s)
    else setUnit u 0 s

/-- The fate of a retired unit by the first row of R347 that applies. -/
def decideFate (d : Decision) (spare : Nat) (u : UnitId) (pass : Bool) (s : State) : State :=
  let m := unitMap s u
  let cause := tabGet (fun _ => 0) s.fix.causes (unitKey u)
  let aging := cause == 1 || cause == 2
  let s1 := countRetired u cause s
  if pass = false ∨ m.hardBefore = true ∨ (aging = true ∧ stillWorn s u = true) then condemn d u spare s1
  else
    let s2 := journalOther d u spare d.detail (passedUnit u s1)
    if isHome u && stoodFor s u && getB s2 (adr pgFixer 0x010) 2 then queueDecision { newDecision u 0 cause with op := 2 } s2 else s2

/-- The end of a REINSTATE (R351). -/
def decideReinstate (d : Decision) (pass : Bool) (s : State) : State :=
  if pass then
    endForced d rOk 0 (spareBack (journal 8 d d.unit 0xFF 0 (passedUnit d.unit s)))
  else endForced d rFailed 0x33 (setAny d.unit 4 s)

/-- The decision that a tested unit's fate belongs to, and its spare. -/
def fateOf (s : State) (u : UnitId) : Decision × Nat :=
  match s.fix.mig with
  | some m => if m.dec.unit = u then (m.dec, m.spare) else (newDecision u 1 7, 0xFF)
  | none => (newDecision u 1 7, 0xFF)

/-- The migration that was testing the unit is over. -/
def endMigOf (u : UnitId) (s : State) : State := if inMigration s u then endMig s else s

/-- RETIRED_UNIT_FATE (R347): the oldest test result of a unit that awaits its fate. -/
def execRetiredUnitFate (s : State) : Out :=
  .next (
    match s.fix.tested with
    | [] => s
    | (u, pass) :: r =>
      let x := fateOf s u
      let s1 := endMigOf u { s with fix := { s.fix with tested := r } }
      if x.1.op = 4 then decideReinstate x.1 pass s1 else decideFate x.1 x.2 u pass s1)

/-! ### The journal -/

/-- JOURNAL_HOUR_ROLLOVER (R350). -/
def execJournalHourRollover (s : State) : Out := .next (journalHour s)

/-- JRNL_RD (R349): a write of JRNL_RD from port `p`. -/
def execJrnlRd (p : CmdPort) (v : Word) (s : State) : Out :=
  .next (gatedWrite p (adr pgFixer 0x0C0) true v (jrnlRead v) s)

end Sys2Proof.Machine
end

