-- ==== Sys2Proof/Machine/Irq.lean ====
section
/-! DEFINITION. The interrupt controller's accesses: claims, completion, banks, routes and event queues
(15_interrupts.md R279-R290). Rows 112 to 121. -/

namespace Sys2Proof.Machine

/-- A register of target `t` (Table 15.6). -/
def tgtA (t off : Nat) : Nat := adr (pgTarget t) off

/-- A read of CLAIM (R283). -/
def claimRead (t : Nat) (s : State) : Word × State :=
  match candidate s t, tabFind s.irq.service t with
  | some n, none =>
    let s1 := { s with irq := { s.irq with
      pending := setErase s.irq.pending n, hwSet := setErase s.irq.hwSet n, edgeNs := tabErase s.irq.edgeNs n
      service := tabPut s.irq.service t n } }
    (word n, loupe 6 t 1 1 (irqSettle s1))
  | _, _ => (0xFFFF, addF (tgtA t 0x0C0) 15 0 1 s)

/-- A write of COMPLETE (R284). -/
def completeWrite (t : Nat) (v : Word) (s : State) : State :=
  let n := bits v 10 0
  if tabFind s.irq.service t = some n then
    irqSettle { s with irq := { s.irq with service := tabErase s.irq.service t } }
  else hwEvent pgIrq 1 (addF (tgtA t 0x0C4) 15 0 1 s)

/-- Sources of word `w` that `v` names. -/
def wordSources (w : Nat) (v : Word) : List Nat :=
  ((List.range 32).filter (fun b => bit v b)).map (fun b => 32 * w + b)

/-- A software set of pending bits: not counted (R279). -/
def pendSetAll : List Nat → State → State
  | [], s => s
  | n :: r, s =>
    pendSetAll r (if s.irq.pending.contains n then s else
      { s with irq := { s.irq with
        pending := setInsert s.irq.pending n, edgeNs := tabPut s.irq.edgeNs n s.tim.powered } })

def pendClrAll : List Nat → State → State
  | [], s => s
  | n :: r, s =>
    pendClrAll r { s with irq := { s.irq with
      pending := setErase s.irq.pending n, hwSet := setErase s.irq.hwSet n, edgeNs := tabErase s.irq.edgeNs n
      waiting := setErase s.irq.waiting n } }

/-- Writes of the banks of Table 15.2: 0 PEND_SET, 1 PEND_CLR, 2 MASK_SET, 3 MASK_CLR. -/
def pendSetWrite (w : Nat) (v : Word) (s : State) : State := irqSettle (pendSetAll (wordSources w v) s)
def pendClrWrite (w : Nat) (v : Word) (s : State) : State := irqSettle (pendClrAll (wordSources w v) s)
def maskA (w : Nat) : Nat := adr pgMask (0x100 + 4 * w)
def maskSetWrite (w : Nat) (v : Word) (s : State) : State := irqSettle (setReg (maskA w) (getReg s (maskA w) ||| v) s)
def maskClrWrite (w : Nat) (v : Word) (s : State) : State := irqSettle (setReg (maskA w) (getReg s (maskA w) &&& ~~~v) s)

/-- The route mask in ROUTE_MASK_0–2 as bits, and a mask laid out in them (Table 15.4). -/
def routeRegs (s : State) : BitVec 68 :=
  BitVec.ofNat 68 ((getReg s (adr pgIrq 0x088)).toNat + 2 ^ 32 * (getReg s (adr pgIrq 0x08C)).toNat
    + 2 ^ 64 * getF s (adr pgIrq 0x090) 3 0)

def routeWords (m : BitVec 68) : List Word := [word m.toNat, word (m.toNat / 2 ^ 32), word (m.toNat / 2 ^ 64)]

/-- A write of ROUTE_CMD (R290). -/
def routeCmd (v : Word) (s : State) : State :=
  let n := getF s (adr pgIrq 0x080) 10 0
  if bit v 31 = false then s
  else
    match bits v 1 0 with
    | 1 => setF (adr pgIrq 0x094) 3 0 2 (setWords (adr pgIrq 0x088) (routeWords (routeOf s n)) s)
    | 2 =>
      let s1 := { s with irq := { s.irq with route := tabSet routeReset s.irq.route n (routeRegs s) } }
      irqSettle (setF (adr pgIrq 0x094) 3 0 2 s1)
    | _ => s

/-- A write of EQ_CI (R288). -/
def eqCiWrite (t : Nat) (v : Word) (s : State) : State :=
  let k := eqLog2 s t
  let c := bits v 16 0 % 2 ^ (k + 1)
  if ringDist k (eqCi s t) c ≤ ringDist k (eqCi s t) (eqPi s t) then
    let s1 := setF (tgtA t 0x0BC) 16 0 c s
    let s2 := if tabGet (fun _ => 0) s1.irq.wb t = c then s1 else notify t 0x09C 1 s1
    irqSettle s2
  else addF (tgtA t 0x0C8) 15 0 1 s

/-- A write of EQ_CFG (R289): its other fields change only while ENABLE is 0; setting ENABLE zeroes the indices. -/
def eqCfgWrite (t : Nat) (v : Word) (s : State) : State :=
  let a := tgtA t 0x0A4
  let old := getReg s a
  if bit old 31 then
    let s1 := setB a 31 (bit v 31) s
    let s2 := if (old ^^^ v) &&& 0x011F0000 ≠ 0 then addF (tgtA t 0x0D0) 15 0 1 s1 else s1
    if bit v 31 then s2 else irqSettle s2
  else
    let s1 := storeRw a v s
    if bit v 31 then
      let s2 := setF (tgtA t 0x0BC) 16 0 0 (setF (tgtA t 0x0B8) 16 0 0 s1)
      irqSettle { s2 with irq := { s2.irq with wb := tabErase s2.irq.wb t } }
    else s1

/-- EQ_BASE and EQ_WB take a write only while the queue is disabled (R289). -/
def eqAddrWrite (p : CmdPort) (t a : Nat) (v : Word) (s : State) : State :=
  if getB s (tgtA t 0x0A4) 31 then addF (tgtA t 0x0D0) 15 0 1 s else storePair p a a v s

/-- TARGET_PRIO: routing is evaluated again (R281). -/
def prioWrite (t : Nat) (v : Word) (s : State) : State := irqSettle (storeRw (tgtA t 0x088) v s)

/-- CLAIM (R283): a read of CLAIM of target `t` on port `p`. -/
def execClaim (p : CmdPort) (t : TargetNo) (s : State) : Out :=
  .next (gatedRead p (tgtA t 0x080) true (claimRead t) s)

/-- COMPLETE (R284). -/
def execComplete (p : CmdPort) (t : TargetNo) (v : Word) (s : State) : Out :=
  .next (gatedWrite p (tgtA t 0x084) true v (completeWrite t v) s)

/-- PEND_SET (R279): word `w` of the bank. -/
def execPendSet (p : CmdPort) (w : Fin 64) (v : Word) (s : State) : Out :=
  .next (gatedWrite p (adr pgPend (0x200 + 4 * w)) true v (pendSetWrite w v) s)

/-- PEND_CLR (R279). -/
def execPendClr (p : CmdPort) (w : Fin 64) (v : Word) (s : State) : Out :=
  .next (gatedWrite p (adr pgPend (0x300 + 4 * w)) true v (pendClrWrite w v) s)

/-- MASK_SET (R280). -/
def execMaskSet (p : CmdPort) (w : Fin 64) (v : Word) (s : State) : Out :=
  .next (gatedWrite p (adr pgMask (0x200 + 4 * w)) true v (maskSetWrite w v) s)

/-- MASK_CLR (R280). -/
def execMaskClr (p : CmdPort) (w : Fin 64) (v : Word) (s : State) : Out :=
  .next (gatedWrite p (adr pgMask (0x300 + 4 * w)) true v (maskClrWrite w v) s)

/-- ROUTE_READ (R290): ROUTE_CMD := GO, OP 1. -/
def execRouteRead (p : CmdPort) (s : State) : Out :=
  .next (gatedWrite p (adr pgIrq 0x084) true 0x80000001 (routeCmd 0x80000001) s)

/-- ROUTE_WRITE (R290): ROUTE_CMD := GO, OP 2. -/
def execRouteWrite (p : CmdPort) (s : State) : Out :=
  .next (gatedWrite p (adr pgIrq 0x084) true 0x80000002 (routeCmd 0x80000002) s)

/-- EQ_CI_WRITE (R288). -/
def execEqCiWrite (p : CmdPort) (t : TargetNo) (v : Word) (s : State) : Out :=
  .next (gatedWrite p (tgtA t 0x0BC) true v (eqCiWrite t v) s)

/-- EQ_CFG_WRITE (R289). -/
def execEqCfgWrite (p : CmdPort) (t : TargetNo) (v : Word) (s : State) : Out :=
  .next (gatedWrite p (tgtA t 0x0A4) true v (eqCfgWrite t v) s)

end Sys2Proof.Machine
end

