-- ==== Sys2Proof/Machine/Loupe.lean ====
section
/-! DEFINITION. Commands of LOUPE and of the memory port: MEMPORT_RESPONSE to REGION_INVALIDATE and LOUPE_SNAP to
ARCHIVE_CAPTURE (23_loupe_and_memory.md). -/

namespace Sys2Proof.Machine

/-! ### The memory port -/

/-- MEMPORT_RESPONSE (R400, R402): the controller answers outstanding request `i` after `tenths` of 0.1 µs. -/
def execMemportResponse (i : Nat) (ok : Bool) (tenths : Nat) (s : State) : Out :=
  .next (
    match s.mem.outstanding[i]? with
    | none => s
    | some q =>
      let w := adr pgMem 0x0D4
      let s1 := peakF (adr pgMem 0x0C4) 15 0 (if tenths < 2 ^ 16 then tenths else 2 ^ 16 - 1)
        (setPair w (satAdd (2 ^ 64 - 1) (getPair s w) 1) s)
      let s2 := if ok then s1
        else hwEvent pgMem 0 (setReg (adr pgMem 0x0D0)
          (word (2 ^ 31 + q.user * 2 ^ 28 + (q.addr - regionBase s q.user) / 64 % 2 ^ 28)) (addF (adr pgMem 0x0CC) 31 0 1 s1))
      endRequest i q ok s2)

/-- MEMPORT_TIMEOUT (R19, R402): outstanding request `i` is unanswered for 50 µs. -/
def execMemportTimeout (i : Nat) (s : State) : Out :=
  .next (
    match s.mem.outstanding[i]? with
    | none => s
    | some q => endRequest i q false (hwEvent pgMem 1 (addF (adr pgMem 0x0C8) 31 0 1 s)))

/-- MEM_STATUS_CHANGE (R402, Table 1.11): levels XOR_MAP, SELF_REFRESH, REFRESH_2X. -/
def execMemStatusChange (v : BitVec 3) (s : State) : Out :=
  .next (setReg (adr pgMem 0x084) (v.setWidth 32) s)

/-- REGION_VALIDATE (R401): a write of REGION_CTRL from port `p` that sets a VALID bit. -/
def execRegionValidate (p : CmdPort) (v : Word) (s : State) : Out :=
  .next (gatedWrite p (adr pgMem 0x088) true v (regionWrite v) s)

/-- REGION_INVALIDATE (R401): a write of REGION_CTRL from port `p` that clears a VALID bit. -/
def execRegionInvalidate (p : CmdPort) (v : Word) (s : State) : Out :=
  .next (gatedWrite p (adr pgMem 0x088) true v (fun x => regionWrite v x) s)

/-! ### Counters -/

/-- CAP_LO_c of a counter. -/
def lpCap (c : Nat) : Nat := adr (pgBank (c / 128)) (0x800 + 8 * (c % 128))

/-- The offset kind of a LOUPE bank register: does `a` hold a value (true) or a captured value word? -/
def isBankWord (lo hi a : Nat) : Bool :=
  decide (0x0A1 ≤ pageOf a) && decide (pageOf a < 0x0A9) && decide (lo ≤ offOf a) && decide (offOf a < hi)

/-- Copies of the listed value words, at the place of their captured words. -/
def capWords : Tab Word → Tab Word
  | [] => []
  | (a, w) :: r => if isBankWord 0x400 0x800 a then (a + 0x400, w) :: capWords r else capWords r

/-- Store a list of (address, word) pairs. -/
def setListed : List (Nat × Word) → State → State
  | [], s => s
  | (a, w) :: r, s => setListed r (setReg a w s)

/-- All 1,024 counters are copied into CAP_c in one cycle (R396). -/
def loupeSnap (s : State) : State :=
  setListed (capWords s.win.regs)
    { s with win := { s.win with regs := tabKeep (fun a => !isBankWord 0x800 0xC00 a) s.win.regs } }

/-- LOUPE_SNAP (R396): a write of SNAP from port `p`. -/
def execLoupeSnap (p : CmdPort) (v : Word) (s : State) : Out :=
  .next (gatedWrite p (adr pgLoupe 0x080) true v (fun x => if bit v 0 then loupeSnap x else x) s)

/-- A write of CFG_c: a change of any field clears VAL_c (R397). -/
def loupeCfg (c : Nat) (v : Word) (s : State) : State :=
  let s1 := storeRw (lpCfg c) v s
  if getReg s1 (lpCfg c) = getReg s (lpCfg c) then s1 else setPair (lpVal c) 0 s1

/-- LOUPE_CFG_WRITE (R397): counter `c` of bank `b`, from port `p`. -/
def execLoupeCfgWrite (p : CmdPort) (b : Fin 8) (c : Fin 128) (v : Word) (s : State) : Out :=
  .next (gatedWrite p (lpCfg (128 * b + c)) true v (loupeCfg (128 * b + c) v) s)

/-- A write of CLR_w of bank `b` clears the counters it names (R397). -/
def loupeClr (b w : Nat) (v : Word) (s : State) : State :=
  (List.range 32).foldl (fun x i => if bit v i then setPair (lpVal (128 * b + 32 * w + i)) 0 x else x) s

/-- LOUPE_CLR (R397): CLR_w of bank `b`, from port `p`. -/
def execLoupeClr (p : CmdPort) (b : Fin 8) (w : Fin 4) (v : Word) (s : State) : Out :=
  .next (gatedWrite p (adr (pgBank b) (0x0C0 + 4 * w)) true v (loupeClr b w v) s)

/-! ### Bandwidth windows (R398) -/

/-- WINDOW_US as it acts (Table 23.5). -/
def windowUs (s : State) : Nat :=
  let n := getF s (adr pgLoupe 0x084) 19 0
  if n = 0 then 1 else if 1000000 < n then 1000000 else n

/-- Utilisation in units of 2^-16 of the port speed, saturating. -/
def utilisation (octets us speed : Nat) : Nat :=
  let d := us * speed * 125
  if d = 0 then 0 else min 0xFFFF (octets * 2 ^ 16 / d)

/-- BW_p of the ports that had traffic in the window, or whose word is not 0. -/
def bwPorts : List Nat → State → State
  | [], s => s
  | p :: r, s =>
    let speed := match portShape s p with | some x => speedGb x.speed | none => 0
    let rx := utilisation (tabGet (fun _ => 0) s.loupe.rxSum p) s.loupe.window speed
    let tx := utilisation (tabGet (fun _ => 0) s.loupe.txSum p) s.loupe.window speed
    bwPorts r (setReg (adr pgLoupe (0x800 + 4 * p)) (word (tx * 2 ^ 16 + rx)) s)

/-- BW_WINDOW_END (R398). -/
def execBwWindowEnd (s : State) : Out :=
  .next (
    let s1 := bwPorts (List.range 512) s
    { s1 with loupe := { s1.loupe with rxSum := [], txSum := [], window := windowUs s1 } })

/-! ### The archive (R399) -/

/-- The value words of one counter in an archive record. -/
def archCounter (s : State) (c : Nat) : List Byte :=
  leBytes (getPair s (lpVal c)) 6
    ++ leBytes (flag (getB s (adr (pgBank (c / 128)) (0x080 + 4 * (c % 128 / 32))) (c % 32))) 1 ++ leBytes 0 1

/-- BW_p as a read gives it: 0 for a port that is down or no port (R398). -/
def bwOf (s : State) (p : Nat) : Word :=
  if portUp s p && (portShape s p).isSome then getReg s (adr pgLoupe (0x800 + 4 * p)) else 0

/-- The archive record for index `i` (Table 23.2). -/
def archRecord (s : State) (i : Nat) : List Byte :=
  let w := getReg s (adr pgLoupe 0x088)
  let tod := if s.tim.vstate = 0 then 0 else now16 s / 2 ^ 16
  let head := leBytes 0x4C4F5550 4 ++ leBytes 1 2 ++ leBytes (bits w 23 16) 1
    ++ leBytes (flag (bit w 30) + 2 * flag (decide (s.tim.vstate ≠ 1)) + 4 * flag s.loupe.missed) 1
    ++ leBytes (archLen s) 4 ++ leBytes s.loupe.window 4 ++ leBytes i 8 ++ leBytes s.tim.powered 8
    ++ leBytes (tod / 1000000000) 6 ++ leBytes 0 2 ++ leBytes (tod % 1000000000) 4 ++ leBytes 0 16
  let banks := ((List.range 8).filter (fun b => bit w (16 + b))).map (fun b =>
    ((List.range 128).map (fun c => archCounter s (128 * b + c))).flatten)
  let bw := if bit w 30 then ((List.range 512).map (fun p => leBytes (bwOf s p).toNat 4)).flatten else []
  let body := banks.flatten ++ bw
  head ++ leBytes (crc32c (head ++ body)) 4 ++ body

/-- A new RECORD_LEN restarts the ring at the next index, slot 0 (Table 23.4). -/
def archLayout (s : State) : State :=
  if s.loupe.recLen = archLen s then s
  else { s with loupe := { s.loupe with recLen := archLen s, ringBase := nextIndex s 0 } }

/-- ARCHIVE_CAPTURE (R399): a period boundary of the archive. In SAFELIGHT and STILL the period is missed. -/
def execArchiveCapture (s : State) : Out :=
  .next (
    if getB s (adr pgLoupe 0x088) 31 = false ∨ regionValid s 0 = false then s
    else
      match s.ctl.mode with
      | .run | .test =>
        let s1 := archLayout s
        let s2 := issueRecord 0 (archRecord s1) s1
        { s2 with loupe := { s2.loupe with missed := false } }
      | _ => { s with loupe := { s.loupe with missed := true } })

end Sys2Proof.Machine
end

