-- ==== Sys2Proof/Machine/Shutter.lean ====
section
/-! DEFINITION. SHUTTER commands and edges, and the read index of the timestamp log (13_timestamps_and_shutter.md
R247-R253). Rows 96 to 101. -/

namespace Sys2Proof.Machine

/-- The channel that an ARM samples. -/
def sampleChan (s : State) (c : Nat) : Chan :=
  { cfg := getReg s (chA c 0x00)
    start := (getPair s (chA c 0x10) % 2 ^ 48 * 10 ^ 9 + getF s (chA c 0x0C) 29 0) * 2 ^ 16
    period := getPair s (chA c 0x18), width := getF s (chA c 0x20) 29 0 * 2 ^ 16, next := none, missed := 0
    disarm := false }

/-- Why an ARM is refused; 0 where it is not (R249). -/
def armRefusal (s : State) (c : Nat) (x : Chan) : Nat :=
  let mode := bits x.cfg 1 0
  if mode = 0 ∨ mode = 3 then 1
  else if mode = 2 ∧ (x.period < 1000 * 2 ^ 16 ∨ 1000 * sec16 < x.period) then 2
  else if x.width < 8 * 2 ^ 16 ∨ sec16 < x.width ∨ (mode = 2 ∧ x.period < x.width + 8 * 2 ^ 16) then 3
  else if mode = 1 ∧ x.start < now16 s + 1000 * 2 ^ 16 then 4
  else if x.align ∧ (x.period ≤ getF s (chA c 0x0C) 29 0 * 2 ^ 16 ∨ sec16 < x.period) then 5
  else 0

/-- The first leading edge of an armed channel (R250). -/
def armEdge (s : State) (x : Chan) : Nat := if x.periodic then firstEdge x (now16 s + 1000 * 2 ^ 16) else x.start

/-- CH_CMD OP 1 (R249): the counters are cleared by an ARM that is taken. -/
def armChan (c : Nat) (s : State) : State :=
  let x := sampleChan s c
  match armRefusal s c x with
  | 0 =>
    let s1 := setWords (chA c 0x24) [0, 0, 0] s
    setF (chA c 0x08) 7 4 0 (chState c 1 (setChan c { x with next := some (armEdge s x) } s1))
  | r => hwEvent pgShutter (8 + c) (setF (chA c 0x08) 7 4 r (chState c 3 (dropChan c s)))

/-- CH_CMD OP 2 (R249): a pulse in progress completes first. -/
def disarmChan (c : Nat) (s : State) : State :=
  match chanOf s c with
  | some x => if chHigh s c then setChan c { x with next := none, disarm := true } s else chState c 0 (dropChan c s)
  | none => chState c 0 s

/-- A write of CH_CMD. -/
def chCmd (c : Nat) (v : Word) (s : State) : State :=
  match bits v 1 0 with
  | 1 => armChan c s
  | 2 => disarmChan c s
  | _ => s

/-- SHUTTER_ARM (R249): OP 1 to channel `c` from port `p`. -/
def execShutterArm (p : CmdPort) (c : Fin 8) (s : State) : Out :=
  .next (gatedWrite p (chA c 0x04) true 1 (chCmd c 1) s)

/-- SHUTTER_DISARM (R249): OP 2 to channel `c` from port `p`. -/
def execShutterDisarm (p : CmdPort) (c : Fin 8) (s : State) : Out :=
  .next (gatedWrite p (chA c 0x04) true 2 (chCmd c 2) s)

/-- Is an edge of the channel driven now (R251)? -/
def edgeDriven (s : State) (x : Chan) : Bool := s.tim.vstate == 1 || x.freeRun

/-- The schedule moves past edge `e`. -/
def passEdge (c e : Nat) (x : Chan) (s : State) : State :=
  if x.periodic then setChan c { x with next := some (firstEdge x (e + 1)) } s
  else chState c 2 (setChan c { x with next := none } s)

/-- A leading edge of channel `c` falls due at `e` (R250, R251, R253). -/
def leadingEdge (c e : Nat) (x : Chan) (s : State) : State :=
  if s.tim.on = false then
    if x.periodic then setChan c { x with next := some (firstEdge x (e + 1)), missed := x.missed + 1 } s
    else setChan c { x with missed := 1 } s
  else
    let s1 := passEdge c e x s
    if edgeDriven s x then hwEvent pgShutter c (setPulse c true (addF (chA c 0x24) 31 0 1 s1))
    else hwEvent pgShutter (8 + c) (addF (chA c 0x28) 31 0 1 s1)

/-- SHUTTER_EDGE (R250): the next leading edge of channel `c` is due. -/
def execShutterEdge (c : Fin 8) (s : State) : Out :=
  .next (
    match chanOf s c with
    | none => s
    | some x =>
      match x.next with
      | none => s
      | some e => leadingEdge c e x s)

/-- SHUTTER_PULSE_END (R250). -/
def execShutterPulseEnd (c : Fin 8) (s : State) : Out :=
  .next (
    if chHigh s c = false ∨ s.tim.on = false then s
    else
      let s1 := setPulse c false s
      match chanOf s1 c with
      | some x => if x.disarm then chState c 0 (dropChan c s1) else s1
      | none => s1)

/-- Is the complex entering DARK, which powers the time island down (R253)? -/
def enteringDark (s : State) : Bool :=
  s.pwr.entering && (match s.pwr.flight with | some r => r.value == 3 | none => false)

/-- SHUTTER_WAKE (R253): WAKE_LEAD ms before the next edge of channel `c`, with the time island down. -/
def execShutterWake (c : Fin 8) (s : State) : Out :=
  .next (
    match chanOf s c with
    | none => s
    | some x =>
      if x.wakes = true ∧ x.next.isSome = true ∧ (s.tim.on = false ∨ enteringDark s = true) then noteWake 5 c s else s)

/-- TSLOG_RD_WRITE (R247, R391, R399): a write of the read index of ring `u` from port `p`: 0 ARCH_RD, 1 TSLOG_RD,
2 FJ_RD. -/
def execTslogRdWrite (p : CmdPort) (u : Fin 3) (v : Word) (s : State) : Out :=
  .next (gatedWrite p (rdA u) true v (ringRdWrite u v) s)

end Sys2Proof.Machine
end

