-- ==== Sys2Proof/Machine/Transmit.lean ====
section
/-! DEFINITION. Commands of MAC transmit: TX_CELL_ACCEPT, TX_FRAME_COMMIT, TX_FRAME_END, XOFF_REQUEST_CHANGE,
FC_REFRESH, PAUSE_WDOG_TRIP, VERIFY_TIMER (10_mac_transmit.md R184-R201). -/

namespace Sys2Proof.Machine

/-! ### TX_CELL_ACCEPT -/

/-- One more cell of a cluster's buffer is in use; TX_BUF.PEAK is the fewest free cells since its last read. -/
def takeCell (cl : Nat) (s : State) : State :=
  let s1 := { s with tx := { s.tx with used := tabSet (fun _ => 0) s.tx.used cl (txUsed s cl + 1) } }
  let free := 128 - txUsed s1 cl
  if s1.tx.low.contains cl = true ∧ getF s1 (adr (pgCl cl 0) 0x2AC) 15 8 ≤ free then s1
  else setF (adr (pgCl cl 0) 0x2AC) 15 8 free { s1 with tx := { s1.tx with low := setInsert s1.tx.low cl } }

/-- The first cell of a frame (Table 1.4). -/
def firstCell (s : State) (p : Nat) (side : Word) (h d : List Byte) : TxFrm :=
  let fl := byteAt h 4
  { src := .switch, prio := txPriority s p d, express := fl.getLsbD 0, fcsSupplied := fl.getLsbD 1
    cutThrough := fl.getLsbD 2, ptpAction := leField h 2 1 % 4, ptpOffset := leField h 3 1, sc := leField h 5 1
    captureId := leField h 6 2, data := d, cells := 1, eof := bit side 30
    endMarks := if bit side 30 then bits side 12 9 else 0, long := false, waited := false, dropping := false }

/-- A frame with one more cell. -/
def addCell (side : Word) (d : List Byte) (f : TxFrm) : TxFrm :=
  { f with data := f.data ++ d, cells := f.cells + 1, eof := bit side 30
           endMarks := if bit side 30 then bits side 12 9 else f.endMarks
           long := f.long || (decide (15 ≤ f.cells) && !bit side 30) }

/-- Does a frame of the switch core still wait for cells? -/
def growing (f : TxFrm) : Bool :=
  match f.src with
  | .switch => !f.eof
  | .host _ _ => false
  | .own _ => false

def commitCell (side : Word) (d : List Byte) (c : Committed) : Committed :=
  { c with frm := addCell side d c.frm, line := c.line ++ d }

/-- The committed frame of a table entry, if it still waits for cells. -/
def growingAt (t : Tab Committed) (p : Nat) : Option Committed :=
  match tabFind t p with
  | some c => if growing c.frm then some c else none
  | none => none

/-- A later cell of a queued frame; a frame being dropped gives the cell back and ends with its EOF. -/
def queueCell (p : Nat) (side : Word) (d : List Byte) (f : TxFrm) (s : State) : State :=
  let q := txQueue s p
  if f.dropping then
    freeCells (p / 8) 1 (if bit side 30 then setTxQueue p (q.filter (fun x => !(x.dropping && growing x))) s else s)
  else setTxQueue p (q.map (fun x => if growing x then addCell side d x else x)) s

/-- A later cell of the port's unfinished frame, wherever that frame is; a cell no frame waits for is given back. -/
def laterCell (p : Nat) (side : Word) (d : List Byte) (s : State) : State :=
  match growingAt s.tx.flight p with
  | some c => { s with tx := { s.tx with flight := tabPut s.tx.flight p (commitCell side d c) } }
  | none =>
    match growingAt s.tx.open_ p with
    | some c => { s with tx := { s.tx with open_ := tabPut s.tx.open_ p (commitCell side d c) } }
    | none =>
      match (txQueue s p).find? growing with
      | some f => queueCell p side d f s
      | none => freeCells (p / 8) 1 s

/-- Valid octets of a cell. -/
def cellData (side : Word) (d : List Byte) : List Byte := d.take (if bit side 30 then bits side 29 22 + 1 else 256)

/-- TX_CELL_ACCEPT (R10, R14, R185-R187): a cell from the switch core for cluster `cl`: cell sideband, first-cell
sideband (read with SOF), data. Without a credit no cell is taken. -/
def execTxCellAccept (cl : ClusterNo) (side : Word) (first data : List Byte) (s : State) : Out :=
  .next (
    if txMode s = false ∨ 128 ≤ txUsed s cl then s
    else
      let s1 := takeCell cl s
      let d := cellData side data
      if bit side 31 then
        let p := leField first 0 2 % 512
        if p / 8 ≠ cl.val ∨ (portShape s1 p).isNone then
          let s2 := loupe 2 p 2 1 (hwEvent (pgCl cl 0) 9 (addF (adr (pgCl cl 0) 0x2A8) 31 0 1 (freeCells cl 1 s1)))
          if bit side 30 then s2 else { s2 with tx := { s2.tx with refused := tabPut s2.tx.refused cl p } }
        else
          let s2 := joinQueue p (firstCell s1 p side first d) s1
          if 16 < unstarted s2 p then addLive (txCnt p 0xC0) 1 s2 else s2
      else
        let p := bits side 21 13
        if tabFind s1.tx.refused cl = some p then
          freeCells cl 1 (if bit side 30 then { s1 with tx := { s1.tx with refused := tabErase s1.tx.refused cl } } else s1)
        else
          let s2 := laterCell p side d s1
          if 16 < unstarted s2 p ∧ unstarted s1 p < unstarted s2 p then addLive (txCnt p 0xC0) 1 s2 else s2)

/-! ### TX_FRAME_COMMIT -/

/-- Heads of a port's priority queues that may be committed, paused or not (R194). -/
def readyHeads : List TxFrm → List TxFrm → List TxFrm
  | _, [] => []
  | before, f :: r =>
    if !f.dropping && isHead before f && ready f then f :: readyHeads (before ++ [f]) r else readyHeads (before ++ [f]) r

/-- Frames that wait for a pause are counted once (R195). -/
def countWaits (p : Nat) : List TxFrm → State → List TxFrm × State
  | [], s => ([], s)
  | f :: r, s =>
    let hit := !f.waited && !f.dropping && pausedFrm s p f
    let x := countWaits p r (if hit then addLive (txCnt p 0xBC) 1 s else s)
    ((if hit then { f with waited := true } else f) :: x.1, x.2)

/-- Remove the first frame equal to `f`. -/
def removeFrm (f : TxFrm) : List TxFrm → List TxFrm
  | [] => []
  | x :: r => if x = f then r else x :: removeFrm f r

/-- The octets of a frame before framing: a supplied FCS is taken off, a short frame without one is padded (row 9). -/
def framed (f : TxFrm) : List Byte :=
  if f.fcsSupplied then (if f.eof then f.data.take (f.data.length - 4) else f.data)
  else if f.eof ∧ f.data.length < 60 then slice f.data 0 60
  else f.data

/-- Commit frame `x` of port `p`, its start block to cross lane `lane`, or discard it under R207. -/
def commitFrame (p lane inStream : Nat) (x : TxFrm) (s : State) : State :=
  let s0 := setTxQueue p (removeFrm x (txQueue s p)) s
  let tag := if isOwn x.src then (framed x, false, 0) else dataTag s0 p (framed x)
  match txSecDecide s0 p x.sc tag.1.length with
  | .discard r =>
    let y := discardFrm p (0x10 + r) x (txSecDiscard p r s0)
    setTxQueue p (y.1 ++ txQueue y.2 p) y.2
  | plan =>
    let s1 := if tag.2.1 then addLive (adr pgClass 0x0CC) 1 s0 else s0
    let t := departure s1 p lane inStream
    let un := unlockedAt s1 (serving s1 (p / 8))
    let y := ptpStage p tag.2.2 t x un tag.1 s1
    let z := match plan with
      | .protect sc => txSpend p sc y.2
      | _ => (none, y.2)
    let pre := preemptActive z.2 p && !isExpress x
    let n := tabGet (fun _ => 0) z.2.tx.smdS p
    let c : Committed :=
      { frm := x, line := y.1, whole := x.eof, sec := z.1, secy := bit (secCfg s0 p) 16, shift := tag.2.2, base := 0, frags := 0
        gone := 0, ts := stampOf t, unlocked := un, preemptable := pre, smd := n }
    openGap p { z.2 with tx := { z.2.tx with
      flight := tabPut z.2.tx.flight p c
      smdS := if pre then tabSet (fun _ => 0) z.2.tx.smdS p ((n + 1) % 4) else z.2.tx.smdS } }

/-- Commit the first ready frame that `ok` admits and no pause holds. -/
def commitNext (p lane inStream : Nat) (ok : TxFrm → Bool) (s : State) : State :=
  match (readyHeads [] (txQueue s p)).find? (fun f => ok f && !pausedFrm s p f) with
  | none => s
  | some f => commitFrame p lane inStream f s

/-- Does a frame that `ok` admits wait and may go? -/
def waits (s : State) (p : Nat) (ok : TxFrm → Bool) : Bool :=
  (readyHeads [] (txQueue s p)).any (fun f => ok f && !pausedFrm s p f)

/-! ### The octets of a committed frame on the line -/

/-- Its octets held so far without a supplied FCS. -/
def heldOctets (c : Committed) : List Byte :=
  if c.frm.fcsSupplied && c.frm.eof && !c.whole then c.line.take (c.line.length - 4) else c.line

/-- Its octets on the line up to the ICV: the SecTAG and the secure data where it is protected (R207). -/
def openSealed (c : Committed) (raw : List Byte) : List Byte :=
  match c.sec with
  | some x =>
    let y := secSeal x raw
    y.take (y.length - 16)
  | none => raw

/-- Octets that stage 4 has put in front of its user data. -/
def tagOctets (c : Committed) : Nat :=
  match c.sec with
  | some x => if bit x.cfg 20 then 16 else 8
  | none => 0

/-- What the current fragment of a committed frame puts on the line: `o` are the octets of the whole frame so far, FCS
included (Table 6.4). -/
def fragmentOut (p : Nat) (c : Committed) (o : List Byte) (error : Bool) : Emit :=
  if c.preemptable = false then .lineFrame p o error
  else if c.frags = 0 then .fragment p (smdOctet c.smd) none o error
  else .fragment p (contOctet c.smd) (some (smdOctet (c.frags - 1))) (o.drop c.base) error

/-- Credits of the cells whose last octet has passed the commit point, `n` octets of the frame being laid (R185). -/
def creditLaid (p n : Nat) (c : Committed) (s : State) : State :=
  let k := min c.frm.cells ((n - c.shift - tagOctets c) / 256)
  if k ≤ c.gone then s
  else freeCells (p / 8) (k - c.gone) { s with tx := { s.tx with flight := tabPut s.tx.flight p { c with gone := k } } }

/-- The preemption of the frame in flight, `laid` octets of its fragment being laid: the fragment closes with the mCRC
(R199). -/
def preemptFlight (p laid : Nat) (c : Committed) (s : State) : State :=
  let o := (openSealed c (heldOctets c)).take (c.base + laid)
  let m := crc32 (o.drop c.base) ^^^ 0x0000FFFF
  let s1 := closeGap p (laid + 4) (emit (fragmentOut p c (o ++ leBytes m 4) false) s)
  setB (txStA p) 2 true (loupe 2 p 3 1 (addLive (txCnt p 0xC4) 1
    { s1 with tx := { s1.tx with
      flight := tabErase s1.tx.flight p
      open_ := tabPut s1.tx.open_ p { c with base := c.base + laid, frags := c.frags + 1 } } }))

/-- The continuation of a preempted frame (R199). -/
def resumeOpen (p : Nat) (c : Committed) (s : State) : State :=
  openGap p (setB (txStA p) 2 false (addLive (txCnt p 0xC8) 1
    { s with tx := { s.tx with flight := tabPut s.tx.flight p c, open_ := tabErase s.tx.open_ p } }))

/-- What a free line sends first: flow control, owed SMD-R, then frames (R197-R199). -/
def lineFree (p lane inStream : Nat) (s : State) : State :=
  let s1 := flushFc p s
  let s2 := sendSmdR p (tabGet (fun _ => 0) s1.tx.smdR p) s1
  match tabFind s2.tx.open_ p with
  | some c => if waits s2 p isExpress then commitNext p lane inStream isExpress s2 else resumeOpen p c s2
  | none => commitNext p lane inStream (fun _ => true) s2

/-- The line of port `p` carries the frame `c`, `laid` octets of its fragment being laid and `left` of the frame remaining: it goes
on, or gives way (R199). -/
def lineTaken (p lane inStream laid left : Nat) (c0 : Committed) (s0 : State) : State :=
  let s := creditLaid p (c0.base + laid) c0 s0
  let c := tabGet (fun _ => c0) s.tx.flight p
  if c.preemptable = true ∧ preemptActive s p = true
      ∧ (waits s p isExpress = true ∨ tabGet (fun _ => 0) s.tx.fcPend p ≠ 0)
      ∧ 64 * (1 + bits (txCfg s p) 17 16) ≤ laid ∧ 64 ≤ left then
    lineFree p lane inStream (preemptFlight p laid c s)
  else s

/-- TX_FRAME_COMMIT (R184, R188, R194, R199): the scheduler acts on port `p`. `block`: the start block that a commit
now has; `laid`: octets of the current fragment already laid;
`left`: octets of the frame in flight that remain, FCS included. -/
def execTxFrameCommit (p : PortNo) (block : TxBlock) (laid left : Nat) (s : State) : Out :=
  .next (
    if txMode s = false then s
    else
      let s1 := sweep p s
      let w := countWaits p (txQueue s1 p) s1
      let s2 := setTxQueue p w.1 w.2
      if (portStop s2 p).isSome then handHosts s2
      else
        handHosts (match tabFind s2.tx.flight p with
          | none => lineFree p (startLane s2 p block.lane) block.inStream s2
          | some c => lineTaken p (startLane s2 p block.lane) block.inStream laid left c s2))

/-! ### TX_FRAME_END -/

/-- How a committed frame ends (Table 10.2): its counter and whether it ends with error, its FCS stomped. -/
inductive TxEnd
  | error (cnt : Nat)
  | stomped
  | sent
  deriving DecidableEq, Repr

def txEndOf (s : State) (p : Nat) (f : TxFrm) : TxEnd :=
  if portUp s p = false then .error (if safeStopped s p then 0xB4 else 0xB0)
  else if 16383 < f.data.length then .error 0xAC
  else if f.eof = false then .error 0x9C
  else if f.endMarks / 2 ≠ 0 then .stomped
  else if f.fcsSupplied ∧ fcsGood f.data = false then .stomped
  else .sent

/-- Counters of a row-9 frame of `n` octets to destination `da` (Table 10.6). -/
def countSent (p n : Nat) (da : List Byte) (padded : Bool) (s : State) : State :=
  let s1 := addLive (txCnt p (if isBcast da then 0x20 else if isGroup da then 0x18 else 0x10)) 1
    (addLive (txCnt p 0x08) 1 (addLive (txCnt p (0x28 + 8 * sizeBin n)) 1 s))
  loupe 2 p 0 1 (if padded then addLive (txCnt p 0xA4) 1 s1 else s1)

/-- Octets begun on the line, and the bandwidth window (Table 10.6, R398). -/
def countTxOctets (p n : Nat) (s : State) : State :=
  let t := tabSet (fun _ => 0) s.loupe.txSum p (tabGet (fun _ => 0) s.loupe.txSum p + n + 20)
  loupe 2 p 1 n (addLive (txCnt p 0x00) n { s with loupe := { s.loupe with txSum := t } })

/-- The completion of a committed host frame (R266); `end` gives its status. -/
def hostSent (c : Committed) (status reason n : Nat) (s : State) : State :=
  match c.frm.src with
  | .host q first => txDone q first status reason n (some (c.ts, c.unlocked)) s
  | _ => s

/-- The frame in flight leaves the transmit buffer; what remains of it up to EOF is dropped as it comes. -/
def releaseFlight (p : Nat) (c : Committed) (s : State) : State :=
  let s1 := freeCells (p / 8) (c.frm.cells - c.gone) { s with tx := { s.tx with flight := tabErase s.tx.flight p } }
  if c.frm.eof then s1
  else setTxQueue p ({ c.frm with data := [], cells := 0, dropping := true } :: txQueue s1 p) s1

/-- What MACsec counts of a committed frame of `n` octets without FCS, tags and ICV: protected, or sent unprotected though its
SecY was enabled at the commit (R207, R212). -/
def countSec (p n : Nat) (c : Committed) (s : State) : State :=
  match c.sec with
  | some x => countSealed p (n - 12) x s
  | none => if c.secy then addLive (secCnt p 0x58) 1 s else s

/-- End the committed frame `c` (R187, R189). A frame ended with error has its SecTAG on the line and no ICV. -/
def endFlight (p : Nat) (c : Committed) (s : State) : State :=
  let s1 := releaseFlight p c s
  let raw := heldOctets c
  match txEndOf s p c.frm with
  | .error cnt =>
    let o := openSealed c (raw.take 16383)
    let s2 := closeGap p (o.length - c.base) (countTxOctets p o.length
      (emit (fragmentOut p c o true) (countSec p (min 16383 raw.length) c s1)))
    let s3 := loupe 2 p 2 1 (addLive (txCnt p cnt) 1 s2)
    let s4 := if cnt = 0x9C then hwEvent (pgCl (p / 8) 0) 6 s3 else s3
    hostSent c 2 2 o.length s4
  | e =>
    let body := match c.sec with
      | some x => secSeal x raw
      | none => raw
    let n := body.length + 4
    let fcs := if e = .stomped then leBytes (crc32 body ^^^ 0xFFFFFFFF) 4 else fcsOf body
    let s2 := closeGap p (n - c.base) (countTxOctets p n
      (emit (fragmentOut p c (body ++ fcs) false) (countSec p raw.length c s1)))
    if e = .stomped then hostSent c 1 0 n (loupe 2 p 2 1 (addLive (txCnt p 0xA0) 1 s2))
    else hostSent c 0 0 n
      (countSent p n (slice body 0 6) (!c.frm.fcsSupplied && decide (c.frm.data.length < 60)) s2)

/-- TX_FRAME_END (R187, R189, R266): the last octet of the frame in flight passes the commit point; with its EOF cell
not held this is the underrun, or the overlong frame. -/
def execTxFrameEnd (p : PortNo) (s : State) : Out :=
  .next (
    match tabFind s.tx.flight p with
    | none => s
    | some c =>
      let s1 := flushFc p (endFlight p c s)
      handHosts (sendSmdR p (tabGet (fun _ => 0) s1.tx.smdR p) s1))

/-! ### Flow control, watchdog, verification -/

/-- XOFF_REQUEST_CHANGE (R197): the switch core's request of port `p`. -/
def execXoffRequestChange (p : PortNo) (v : BitVec 8) (s : State) : Out :=
  .next (xoffMoved p (xoffReq s p) { s with tx := { s.tx with xoff := tabSet (fun _ => 0) s.tx.xoff p v.toNat } })

/-- FC_REFRESH (R197): the refresh interval of port `p` has passed; behind a frame in flight the refresh waits and merges. -/
def execFcRefresh (p : PortNo) (s : State) : Out :=
  let m := xoffReq s p
  .next (
    if m = 0 ∨ (portStop s p).isSome = true ∨ txMode s = false ∨ (fcGen s p ≠ 1 ∧ fcGen s p ≠ 2) then s
    else
      let s1 := { s with tx := { s.tx with fcPend := tabPut s.tx.fcPend p (tabGet (fun _ => 0) s.tx.fcPend p ||| m) } }
      if (tabFind s.tx.flight p).isSome then s1 else flushFc p s1)

/-- PAUSE_WDOG_TRIP (R196): priority `i` of port `p` (8: the whole port) has been paused for LIMIT_MS. -/
def execPauseWdogTrip (p : PortNo) (i : Fin 9) (s : State) : Out :=
  .next (
    if getF s (adr (pgCl (p / 8) 0) 0x2A0) 9 0 = 0 ∨ pauseOf s (16 * p + i) = 0 then s
    else
      let s1 := if i.val = 8 then setF (txStA p) 23 16 0xFF s else setB (txStA p) (16 + i) true s
      handHosts (sweep p (hwEvent (pgCl (p / 8) 0) 8 s1)))

/-- VERIFY_LIMIT as it acts (Table 10.5). -/
def verifyLimit (s : State) (cl : Nat) : Nat := max 1 (getF s (adr (pgCl cl 0) 0x2A4) 10 8)

/-- VERIFY_TIMER (R198): VERIFY_TIME has passed on port `p` while it verifies. -/
def execVerifyTimer (p : PortNo) (s : State) : Out :=
  .next (
    if getF s (txStA p) 5 4 ≠ 1 ∨ mergeTx s p = false then s
    else
      let n := tabGet (fun _ => 0) s.tx.verify p
      if verifyLimit s (p / 8) ≤ n then
        hwEvent (pgCl (p / 8) 0) 7 (addLive (txCnt p 0xD0) 1 (setVerify p 3 s))
      else
        sendSmd p 0x07 { s with tx := { s.tx with verify := tabPut s.tx.verify p (n + 1) } })

end Sys2Proof.Machine
end

