-- ==== Sys2Proof/Machine/Views.lean ====
section
/-! DEFINITION. Registers whose value follows from the state of a unit: what a read of them returns. Each function
answers `none` for a register that is stored. -/

namespace Sys2Proof.Machine

/-- A word from bit fields: (position, value) pairs. -/
def fields : List (Nat × Nat) → Word
  | [] => 0
  | (p, v) :: r => word (v * 2 ^ p) ||| fields r

/-- A bit map of 32 numbers from `lo` on. -/
def mapWord (lo : Nat) (f : Nat → Bool) : Word :=
  ((List.range 32).filter (fun b => f (lo + b))).foldl (fun w b => w ||| word (2 ^ b)) 0

/-- The half of a 64-bit value that a register of a pair shows. -/
def halfWord (hi : Bool) (v : Nat) : Word := if hi then word (v / 2 ^ 32 % 2 ^ 32) else word (v % 2 ^ 32)

/-! ### Modes and the safety link -/

/-- MODE_STATE (Table 3.7). -/
def modeStateWord (s : State) : Word :=
  fields [(17, flag s.ctl.halted), (16, flag (s.ctl.warm && s.ctl.mode == Mode.proof)), (15, flag s.ctl.target.isSome)
    , (12, match s.ctl.target with | some m => modeCode m | none => 0)
    , (8, s.ctl.pl.toNat)
    , (4, match s.ctl.sleep with | .none => 0 | .doze => 1 | .dim => 2 | .dark => 3)
    , (0, modeCode s.ctl.mode)]

/-- PROOF_STATUS (Table 3.7). -/
def proofStatusWord (s : State) : Word :=
  let x := s.ctl.proof
  fields [(24, x.haltReason), (15, flag x.lbistPass), (14, flag x.lbistRun), (13, flag x.safeListFallback)
    , (12, flag x.userCalOk), (11, flag x.factoryCalOk), (10, flag x.repairMapOk), (9, flag x.bootRulesFallback)
    , (0, x.step)]

/-- SAFE_STATUS (Table 3.7). -/
def safeStatusWord (s : State) : Word :=
  let x := s.ctl.safe
  fields [(16, x.entryCount), (9, flag x.shedding), (8, flag x.testCut), (4, x.fromMode), (0, x.cause)]

def viewMode (s : State) (o : Nat) : Option Word :=
  if o = 0x080 then some (modeStateWord s)
  else if o = 0x084 then some (proofStatusWord s)
  else if o = 0x088 then some (safeStatusWord s)
  else if o = 0x08C then some (halfWord false s.ctl.safe.entryNs)
  else if o = 0x090 then some (halfWord true s.ctl.safe.entryNs)
  else none

/-- LINK_STATUS (Table 4.8). -/
def viewSafety (s : State) (o : Nat) : Option Word :=
  if o = 0x080 then
    some (fields [(3, flag s.ctl.pins.csLow), (2, flag s.ctl.pins.alarmLevel), (1, flag s.ctl.wdogExpired)
      , (0, flag s.ctl.wdogSince.isSome)])
  else none

/-! ### Power and islands -/

/-- Clock of an island at a level in MHz (Table 17.1). -/
def islandMhz (i pl : Nat) : Nat :=
  let at_ (a b c d : Nat) : Nat := if pl = 0 then a else if pl = 1 then b else if pl = 2 then c else d
  if i < 66 then at_ 1750 1400 1000 500
  else if i < 71 then at_ 1800 1450 1000 500
  else if i = 71 then at_ 800 800 600 400
  else if i = 72 then at_ 1000 1000 800 500
  else if i = 73 then 1000 else 50

/-- The level that a level change in flight leads to. -/
def levelTarget (s : State) : Option Nat :=
  match s.pwr.flight with
  | some r => if r.sleep then none else some r.value.toNat
  | none => none

/-- Does the clock of a powered island run (Table 18.3): in DOZE only the time and always-on islands, in DIM the clusters of
the wake set besides? -/
def clockRuns (s : State) (i : Nat) : Bool :=
  if s.ctl.mode = .still then
    decide (i = 73 ∨ i = 74) || (decide (s.ctl.sleep = .dim ∧ i < 66))
  else true

/-- ISLAND_STATUS_i (Table 17.3): a powered-down island has no clock; clusters of the DIM wake set run at the PL3 clock (R120). -/
def islandStatusWord (s : State) (i : Nat) : Word :=
  let pl := if s.ctl.mode = .still ∧ s.ctl.sleep = .dim ∧ i < 66 then 3 else s.ctl.pl.toNat
  let on := islandOn s i
  let moving := match levelTarget s with
    | some t => on && islandMhz i t != islandMhz i pl
    | none => false
  let runs := on && clockRuns s i
  fields [(31, flag on), (30, flag runs), (29, flag (s.tim.acq.contains i)), (28, flag moving)
    , (24, if i = 73 ∨ i = 74 then 0 else pl), (0, if runs then islandMhz i pl else 0)]

def viewPower (s : State) (o : Nat) : Option Word :=
  if 0x800 ≤ o ∧ o < 0x800 + 4 * 75 then some (islandStatusWord s ((o - 0x800) / 4))
  else if o = 0x0A0 then some (word (flag s.ctl.pins.timeHeld))
  else none

/-! ### Lanes, ports, MAC -/

/-- PORT_CFG differs from PORT_LIVE (Table 5.2). -/
def cfgDiffers (s : State) (cl : Nat) : Bool :=
  (List.range 8).any (fun i => getReg s (adr (pgCl cl 1) (0x080 + 4 * i)) != getReg s (adr (pgCl cl 1) (0x0E0 + 4 * i)))

/-- The cluster paired with `n` by substitution, seen from the page of `n` (R101). -/
def partnerOf (s : State) (n : Nat) : Nat :=
  match tabFind s.prt.standIn n with
  | some h => h
  | none => if serving s n = n then 0xFF else serving s n

/-- A per-slot counter block of an offset range, `size` bytes a slot: reads zero where no enabled port starts. -/
def emptySlot (s : State) (cl lo size o : Nat) : Bool :=
  decide (lo ≤ o) && decide (o < lo + 8 * size) && (portShape s (8 * cl + (o - lo) / size)).isNone

/-- PCS_FEC page of home cluster `cl`, read through the page of cluster `n`. -/
def viewPcs (s : State) (n cl o : Nat) : Option Word :=
  let w := getReg s (adr (pgCl cl 1) o)
  if o = 0x0A4 then some (putBit w 3 (cfgDiffers s cl))
  else if o = 0x0A8 then some (putBits w 23 16 (partnerOf s n))
  else if o = 0x0AC then some (fields [(16, fitLevel (liveMap s cl)), (0, capLoad (liveMap s cl))])
  else if 0x0C0 ≤ o ∧ o < 0x0E0 then some (putBits w 18 16 (laneRate s cl ((o - 0x0C0) / 4)))
  else if emptySlot s cl 0x100 128 o then some 0
  else none

/-- Priorities of a port that have a frame waiting for a pause (Table 10.5). -/
def waitingMap (s : State) (p : Nat) : Nat :=
  let l := readyHeads [] (txQueue s p)
  ((List.range 8).map (fun i => if l.any (fun f => f.prio == i && pausedFrm s p f) then 2 ^ i else 0)).sum

/-- Priorities of a port whose pause timers run (Table 6.2). -/
def pausedMap (s : State) (p : Nat) : Nat :=
  ((List.range 8).map (fun i => if pauseOf s (16 * p + i) = 0 then 0 else 2 ^ i)).sum

/-- Index of the slot whose register of Table 6.2 or 10.5 stands at offset `o`, and the first offset of its group; these registers
read 0 where no port has its HEAD at the slot (R123, R200). -/
def slotReg (o : Nat) : Option (Nat × Nat) :=
  if 0x080 ≤ o ∧ o < 0x0C0 ∨ 0x200 ≤ o ∧ o < 0x2A0 then some (o % 0x20 / 4, o / 0x20 * 0x20) else none

/-- A register of port `p`, whose HEAD is the slot. -/
def viewSlot (s : State) (p g : Nat) (w : Word) : Option Word :=
  let fast := decide (5 < (liveShape s (p / 8) (p % 8)).speed)
  match g with
  | 0x080 => if fast then some (putBit w 10 false) else none
  | 0x0A0 => some (putBit (putBit (putBits w 23 16 (pausedMap s p)) 15 (pauseOf s (16 * p + 8) != 0)) 9
      (tabFind s.rx.merge p).isSome)
  | 0x200 => if fast then some (putBit w 14 false) else none
  | 0x260 => some (putBit (putBits w 15 8 (waitingMap s p)) 2 (tabFind s.tx.open_ p).isSome)
  | 0x280 =>
    match portShape s p with
    | some x => some (word (tailOf x.speed))
    | none => some 0
  | _ => none

def viewMac (s : State) (cl o : Nat) : Option Word :=
  let w := getReg s (adr (pgCl cl 0) o)
  match slotReg o with
  | some (i, g) => if (liveShape s cl i).head then viewSlot s (8 * cl + i) g w else some 0
  | none => if o = 0x2AC then some (putBits w 7 0 (128 - txUsed s cl)) else none

def viewStat (s : State) (cl o : Nat) : Option Word :=
  if emptySlot s cl 0x100 256 o || emptySlot s cl 0x900 224 o then some 0 else none

def viewSec (s : State) (cl o : Nat) : Option Word :=
  if emptySlot s cl 0xA00 96 o then some 0 else none

/-! ### Pipes, spreader, reorder, flow keys -/

def pipeHealth (s : State) (p : Nat) : Nat × Nat :=
  (tabGet (fun _ => 0) s.fix.slow (unitKey (pipeId p)), tabGet (fun _ => 0) s.fix.ecc (unitKey (pipeId p)))

def viewPipe (s : State) (p o : Nat) : Option Word :=
  if o = 0x080 then some (putBits (getReg s (pipeSt p)) 15 8 (inFlight s p))
  else if o = 0x084 then
    some (fields [(16, min 255 (pipeHealth s p).1), (0, min 255 (pipeHealth s p).2)])
  else none

/-- A frame was shed in the last 1 ms (Table 8.2). -/
def sheddingNow (s : State) : Bool :=
  match s.dp.shedNs with
  | some t => decide ((s.tim.powered + 2 ^ 64 - t) % 2 ^ 64 ≤ 1000000)
  | none => false

def viewSpread (s : State) (o : Nat) : Option Word :=
  if o = 0x080 then some (mapWord 0 (fun p => (inRotation s).contains p))
  else if o = 0x084 then some (mapWord 32 (fun p => (inRotation s).contains p))
  else if o = 0x088 then
    some (fields [(16, flag (sheddingNow s)), (8, (freeSpares s).length), (0, (inRotation s).length)])
  else none

def viewReorder (s : State) (o : Nat) : Option Word :=
  if 0x080 ≤ o ∧ o < 0x090 then some (word (storeFill s ((o - 0x080) / 4))) else none

def viewFlow (s : State) (o : Nat) : Option Word :=
  if 0x0A0 ≤ o ∧ o < 0x0B0 then some (word (fifoOf s ((o - 0x0A0) / 4)).length) else none

/-! ### Time and SHUTTER -/

/-- Nanoseconds, fraction and seconds of a time in 2^-16 ns. -/
def nsOf16 (t : Nat) : Nat := t / 2 ^ 16 % 10 ^ 9
def fracOf16 (t : Nat) : Nat := t % 2 ^ 16
def secOf16 (t : Nat) : Nat := t / (10 ^ 9 * 2 ^ 16)

/-- Pages whose unit is ready at the end of PROOF step 3 (R291). -/
def readyAt3 (s : State) (g : Nat) : Bool :=
  match (pageInfo g).domain with
  | .ao => true
  | .mg => true
  | .ti => true
  | .hd => true
  | .sr => true
  | .pq _ => decide (g < pgPipe 4)
  | .cl n => (safeClusters s).contains n

/-- READY of a page that answers a read: its unit still initialises until PROOF has brought it up (R35, R291). -/
def unitReady (s : State) (g : Nat) : Bool :=
  match s.ctl.mode, (pageInfo g).domain with
  | .proof, .ao => true
  | .proof, _ => readyAt3 s g && decide (3 ≤ s.ctl.proof.step)
  | _, _ => true

/-- PG_TIME.STATUS (Table 12.5). -/
def timeStatusWord (s : State) : Word :=
  let x := s.tim
  fields [(16, flag x.slept), (15, flag x.clamped), (14, flag x.modeForced), (13, flag x.ppsPresent)
    , (12, flag x.pllFallback), (11, flag x.pllLocked), (10, flag x.refOk), (9, flag x.armM), (8, flag (stepShown s))
    , (7, flag x.disjoint), (6, flag (x.r != 0)), (5, flag x.stepOnce), (3, x.vstate), (2, flag x.setAtPps.isSome)
    , (1, flag x.disjoint), (0, flag (unitReady s pgTime))]

/-- A signed value in 2^-48 ns as a 64-bit one in 2^-16 ns. -/
def signed16 (m : Int) : Nat := unsigned 64 (m / (2 ^ 32 : Nat))

/-- Time of day as port `p` sees it outside TOD_NS: that of its last read of TOD_NS, else now (R236). -/
def todSeen (s : State) (p : CmdPort) : Nat := (tabFind s.win.tod (portCode p)).getD (now16 s)

def viewTime (s : State) (p : CmdPort) (o : Nat) : Option Word :=
  if o = 0x014 then some (timeStatusWord s)
  else if o = 0x090 then some (word (nsOf16 (now16 s)))
  else if o = 0x094 then some (word (fracOf16 (todSeen s p)))
  else if o = 0x098 then some (halfWord false (secOf16 (todSeen s p)))
  else if o = 0x09C then some (halfWord true (secOf16 (todSeen s p)))
  else if o = 0x0A0 then some (halfWord false s.tim.powered)
  else if o = 0x0A4 then some (halfWord true s.tim.powered)
  else if o = 0x0C0 then some (halfWord false (signed16 s.tim.e))
  else if o = 0x0C4 then some (halfWord true (signed16 s.tim.e))
  else if o = 0x0C8 then some (halfWord false (signed16 s.tim.r))
  else if o = 0x0CC then some (halfWord true (signed16 s.tim.r))
  else if o = 0x0D4 then some (word (uncert s))
  else none

/-- The next leading edge of a channel in 2^-16 ns, 0 where none is scheduled. -/
def nextEdge (s : State) (c : Nat) : Nat :=
  match chanOf s c with
  | some x => x.next.getD 0
  | none => 0

/-- Edges of an armed channel are suppressed now (R251). -/
def gatedNow (s : State) (c : Nat) : Bool :=
  match chanOf s c with
  | some x => decide (getF s (chA c 0x08) 1 0 = 1) && !edgeDriven s x
  | none => false

def viewShutter (s : State) (o : Nat) : Option Word :=
  if 0x100 ≤ o ∧ o < 0x300 then
    let c := (o - 0x100) / 64
    let k := (o - 0x100) % 64
    if k = 0x08 then
      some (putBit (putBit (getReg s (adr pgShutter o)) 10 s.ctl.pins.timeHeld) 9 (gatedNow s c))
    else if k = 0x30 then some (word (nsOf16 (nextEdge s c)))
    else if k = 0x34 then some (halfWord false (secOf16 (nextEdge s c)))
    else if k = 0x38 then some (halfWord true (secOf16 (nextEdge s c)))
    else none
  else none

/-! ### Host rings -/

/-- Queues in ERROR, rising. -/
def errQueues (s : State) (rx : Bool) : List Nat :=
  (if rx then s.dma.rxq else s.dma.txq).filterMap (fun x => if queueState s rx x.1 = 4 then some x.1 else none)

/-- Functions in reset. -/
def fnsInReset (s : State) : Nat := ((List.range 256).filter (inReset s)).length

/-- Queues frozen (R272). -/
def frozenCount (s : State) : Nat :=
  (s.dma.txq.filter (fun x => x.2.frozen)).length + (s.dma.rxq.filter (fun x => x.2.frozen)).length

/-- A state half-word (Table 14.9): group 0 transmit queues, 1 receive queues, 2 completion rings. -/
def stateHalf (s : State) (group n : Nat) : Nat :=
  if group < 2 then
    let x := getQ s (group == 1) n
    let st := queueState s (group == 1) n
    st * 2 ^ 13 + (if st = 4 then x.reason else 0) * 2 ^ 9 + flag (ctxSafe x.word2) * 256 + ctxFn x.word2
  else ringState s n * 2 ^ 13 + ctxFn (getR s n).word2

def viewDma0 (s : State) (o : Nat) : Option Word :=
  if o = 0x08C then some (fields [(16, (errQueues s true).length), (0, (errQueues s false).length)])
  else if o = 0x090 then some (fields [(16, fnsInReset s), (0, frozenCount s)])
  else if o = 0x094 then
    some (fields [(16, (errQueues s true).headD 0xFFFF), (0, (errQueues s false).headD 0xFFFF)])
  else none

/-- A word of PG_DMA01 to PG_DMA12. -/
def viewDmaState (s : State) (inst o : Nat) : Option Word :=
  if 0x800 ≤ o ∧ 1 ≤ inst then
    let g := (inst - 1) / 4
    let n := 1024 * ((inst - 1) % 4) + 2 * ((o - 0x800) / 4)
    some (fields [(16, stateHalf s g (n + 1)), (0, stateHalf s g n)])
  else none

/-- The enabled queues of a function: those FN_STATUS.QUEUES counts (log 56). -/
def onQueues (s : State) (rx : Bool) (f : Nat) : List Nat :=
  ((if rx then s.dma.rxq else s.dma.txq).filter (fun e => ctxOn e.2.word2 && ctxFn e.2.word2 == f)).map (fun e => e.1)

/-- FN_STATUS of a function (Table 14.11). -/
def fnStatusWord (s : State) (f : Nat) : Word :=
  let mine (rx : Bool) : List Nat := (errQueues s rx).filter (fun q => ctxFn (getQ s rx q).word2 == f)
  let t := (mine false).head?
  let r := (mine true).head?
  let low : Nat × Bool := match t, r with
    | some a, some b => if a ≤ b then (a, false) else (b, true)
    | some a, none => (a, false)
    | none, some b => (b, true)
    | none, none => (0, false)
  fields [(31, flag (t.isSome || r.isSome)), (30, flag low.2), (16, low.1)
    , (0, (onQueues s false f).length + (onQueues s true f).length)]

def viewFn (s : State) (f o : Nat) : Option Word := if o = 0x088 then some (fnStatusWord s f) else none

/-! ### Interrupts -/

/-- Offered management-class sources (Table 15.4). -/
def mgmtOffered (s : State) : List Nat := (offered s).filter (fun n => decide (n < 512))

/-- The written-back EQ_PI of a target differs from its EQ_CI (Table 15.4). -/
def eqNonEmpty (s : State) (t : Nat) : Bool := tabGet (fun _ => 0) s.irq.wb t != eqCi s t

def viewIrqCtrl (s : State) (o : Nat) : Option Word :=
  if o = 0x094 then
    let w := getReg s (adr pgIrq 0x094)
    match targetOf s (getF s (adr pgIrq 0x080) 10 0) with
    | some t => some (putBits (putBit w 31 true) 22 16 t)
    | none => some (putBits (putBit w 31 false) 22 16 0)
  else if o = 0x098 then
    some (fields [(16, (mgmtOffered s).headD 0xFFFF), (0, (mgmtOffered s).length)])
  else if o = 0x09C then some (word s.irq.unrouted.length)
  else if 0x0A0 ≤ o ∧ o < 0x0AC then
    some (mapWord ((o - 0x0A0) * 8) (fun t => s.irq.req.contains t))
  else if 0x0AC ≤ o ∧ o < 0x0B8 then
    some (mapWord ((o - 0x0AC) * 8) (fun t => decide (t < 68) && eqNonEmpty s t))
  else none

def viewIrqPend (s : State) (o : Nat) : Option Word :=
  if 0x100 ≤ o ∧ o < 0x200 then some (mapWord ((o - 0x100) * 8) (fun n => s.irq.pending.contains n)) else none

def viewIrqT (s : State) (t o : Nat) : Option Word :=
  if o = 0x080 then some (word ((candidate s t).getD 0xFFFF))
  else if o = 0x08C then
    match tabFind s.irq.service t with
    | some n => some (fields [(31, 1), (16, flag (s.irq.req.contains t)), (0, n)])
    | none => some (fields [(16, flag (s.irq.req.contains t))])
  else none

/-! ### FIXER, DARKSLIDE, calibration, LOUPE, memory port -/

/-- The cluster is being migrated (Table 4.7). -/
def clusterMigrates (s : State) (n : Nat) : Bool :=
  match s.fix.mig with
  | some m => decide (m.dec.unit.type = 1) && (m.dec.unit.unit == n || m.spare == n) && decide (m.step ≤ 3)
  | none => false

/-- State of a cluster (Table 4.7, bytes 128-391). -/
def clState (s : State) (n : Nat) : Nat :=
  let v := unitState s (clusterId n)
  if v = 3 then 4
  else if v = 4 then 5
  else if clusterMigrates s n then 6
  else if (tabFind s.prt.standIn n).isSome then (if islandOn s n then 3 else 0)
  else if v = 1 then 2
  else if carries s n && islandOn s n then 1
  else 0

/-- Some unit in service of the cluster, its shared part or a slice, has an aging alarm (R341). -/
def clAlarm (s : State) (n : Nat) : Bool :=
  s.fix.alarms.any (fun k => decide (k / 65536 < 2) && decide (k / 256 % 256 = n)
    && inService s { type := k / 65536, unit := n, slice := k % 256 })

/-- CL_STATE_n: bytes 0-3 of a cluster in the CONTACT SHEET; ports count for the cluster that serves them. -/
def clStateWord (s : State) (n : Nat) : Word :=
  let h := home s n
  let serves := serving s h == n
  let ports := if serves then (List.range 8).map (fun i => 8 * h + i) else []
  let live := ports.filter (fun p => (portShape s p).isSome)
  let sub := getReg s (adr (pgCl h 1) 0x0A8)
  fields [(0, clState s n), (8, partnerOf s n)
    , (16, if serves && bit sub 8 then 2 ^ bits sub 2 0 else 0)
    , (24, flag (ports.any (portUp s)) + 2 * flag (live.any (fun p => bit (secCfg s p) 16))
        + 4 * flag (s.nv.safeList.any (fun p => ports.contains p)) + 8 * flag (clAlarm s n)
        + 16 * flag (getB s (adr pgPower (0x0AC + 4 * (n / 32))) (n % 32)))]

/-- SLICE_HEALTH of slice `i` of cluster `n` (Table 19.7): a slice in service in a powered-down cluster reads 7. -/
def sliceHealthWord (s : State) (n i : Nat) : Word :=
  let u := sliceId n i
  let k := unitKey u
  let v := unitState s u
  fields [(29, if v = 0 ∧ islandOn s n = false then 7 else v), (28, flag (s.fix.alarms.contains k))
    , (24, min 15 (unitMap s u).retired), (16, min 255 (tabGet (fun _ => 0) s.fix.slow k))
    , (8, min 255 (tabGet (fun _ => 0) s.fix.ecc k)), (0, min 255 (tabGet (fun _ => 0) s.fix.lockstep k))]

def viewFixer (s : State) (o : Nat) : Option Word :=
  if o = 0x080 then some (sparesWord s)
  else if o = 0x084 then some (activityWord s)
  else if o = 0x0AC then some (putBits (getReg s jrnlA) 23 16 s.fix.heldJrnl.length)
  else if o = 0x0B0 then some (word s.fix.repairs)
  else if o = 0x0B4 then
    some (fields [(16, (Config.l2Macros s.fix.l2Repairs).toNat), (8, min 255 s.fix.l2Pending.length)
      , (0, (Config.l2Rows s.fix.l2Repairs).toNat)])
  else if 0x200 ≤ o ∧ o < 0x200 + 4 * 66 then some (clStateWord s ((o - 0x200) / 4))
  else if 0x400 ≤ o ∧ o < 0x400 + 4 * 594 then
    some (sliceHealthWord s ((o - 0x400) / 4 / 9) ((o - 0x400) / 4 % 9))
  else none

/-- While LBIST runs, the pattern counter is a free value (R355). -/
def viewDark (s : State) (o : Nat) : Option Word :=
  let w := getReg s (darkA 0x080)
  if o = 0x080 ∧ bits w 31 29 = 3 then some (putBits w 16 0 (Config.patterns s.freeCount).val) else none

def viewCal (s : State) (o : Nat) : Option Word :=
  if o = 0x080 then some (putBits (getReg s (calA 0x080)) 15 12 (overlayHour s)) else none

def viewNv (s : State) (o : Nat) : Option Word := if o = 0x080 then some (word (min (2 ^ 32 - 1) (worstLine s))) else none

def viewLoupe (s : State) (o : Nat) : Option Word :=
  if 0x800 ≤ o then some (bwOf s ((o - 0x800) / 4)) else none

def viewMem (s : State) (o : Nat) : Option Word :=
  if o = 0x0C0 then some (fields [(16, s.mem.queue.length), (0, s.mem.outstanding.length)]) else none

/-! ### The federation (R387, R393) -/

def countMembers (s : State) (f : Member → Bool) : Nat := ((presentOthers s).filter (fun x => f x.2)).length

/-- Members of the federation that were heard since HOLD and are absent. -/
def absentCount (s : State) : Nat :=
  (s.fed.members.filter (fun x => !x.2.present && x.1 != ownId s)).length

/-- A port is designated both ways (R79). -/
def bothRoles (s : State) : Bool := s.nv.roles.any (fun x => decide (x.2 = 3))

/-- FED_FLAGS (Table 22.7). -/
def fedFlags (s : State) : Nat :=
  flag (fedEnabled s) + 2 * flag (getB s (fedA 0x010) 1) + 4 * flag s.fed.withdrawn
    + 8 * flag (!s.fed.digestOn.isEmpty) + 16 * flag s.fed.conflictNs.isSome + 32 * flag (bothRoles s)
    + 64 * flag s.fed.sourceLost

/-- A member is present in this member's view (R385). -/
def presentMember (s : State) (m : Nat) : Bool :=
  m == ownId s || (match tabFind s.fed.members m with | some x => x.present | none => false)

def countPa (s : State) : Word := fields [(16, 1 + (presentOthers s).length), (0, absentCount s)]

def countSv (s : State) : Word :=
  fields [(16, countMembers s (fun x => (byteAt x.body 9).toNat % 8 == 3) + flag (s.ctl.mode == .safelight))
    , (0, (differing bodyVersion (ownVersion s) s).length)]

def countDw (s : State) : Word :=
  fields [(16, (differing bodyDigest (ownDigest s) s).length)
    , (0, countMembers s (fun x => (byteAt x.body 12).getLsbD 5) + flag s.fed.withdrawn)]

def viewFed (s : State) (o : Nat) : Option Word :=
  if o = 0x010 then some (putBit (getReg s (fedA 0x010)) 0 (fedEnabled s))
  else if o = 0x0A4 then some (word (fedFlags s))
  else if o = 0x0A8 then some (countPa s)
  else if o = 0x0AC then some (countSv s)
  else if o = 0x0B0 then some (countDw s)
  else if 0x200 ≤ o ∧ o < 0x280 then some (mapWord ((o - 0x200) * 8) (presentMember s))
  else none

/-! ### The common header and the value of any register -/

/-- STATUS.BUSY: an operation started from the page is in progress (Table 2.2). -/
def pageBusy (s : State) (k : PageKind) (inst : Nat) : Bool :=
  match k with
  | .pcs => getF s (recStA (home s inst)) 1 0 == 1
  | .cv => getF s (cvA inst 0x0B0) 1 0 == 1
  | .version => getF s (adr pgVersion 0x0A0) 1 0 == 1 || s.cls.commit.isSome
  | .cal => getF s (calA 0x08C) 1 0 == 1
  | .power => s.pwr.flight.isSome || s.pwr.slot.isSome
  | .spread => getF s (adr pgSpread 0x094) 1 0 == 1
  | .fn => inReset s inst
  | .cmd => getF s (adr pgCmd 0x08C) 1 0 == 1
  | .darkslide => s.dark.now.isSome
  | .memport => !s.mem.closing.isEmpty
  | _ => false

/-- STATUS.ERROR of a page (R35): the one page type the spec gives it a cause on is PG_CV (R301); log 6. -/
def pageError (s : State) (k : PageKind) (inst : Nat) : Bool :=
  match k with
  | .cv => getF s (adr (pgCv inst) 0x0B0) 1 0 == 3
  | _ => false

/-- The common header but its stored registers (Table 2.2). STATUS.ERROR is 0 on every page but PG_TIME and PG_CV: no other
chapter names an error condition of its page (DESIGN CHOICE, log 6). -/
def viewHeader (s : State) (page o : Nat) : Option Word :=
  let i := pageInfo page
  if o = 0x000 then some (fields [(16, i.type), (0, i.inst)])
  else if o = 0x004 then some 1
  else if o = 0x008 then some (fields [(24, domainCode i.domain), (16, evtCount i.kind)])
  else if o = 0x00C then some (word i.permit)
  else if o = 0x014 then
    some (fields [(2, flag (pageBusy s i.kind i.inst)), (1, flag (pageError s i.kind i.inst)), (0, flag (unitReady s page))])
  else none

/-- A register of a page whose value is computed. -/
def viewOf (s : State) (p : CmdPort) (page o : Nat) : Option Word :=
  let i := pageInfo page
  match i.kind with
  | .mode => viewMode s o
  | .safety => viewSafety s o
  | .power => viewPower s o
  | .pcs => viewPcs s i.inst (home s i.inst) o
  | .mac => viewMac s (home s i.inst) o
  | .stat => viewStat s (home s i.inst) o
  | .sec => viewSec s (home s i.inst) o
  | .pipe => viewPipe s i.inst o
  | .spread => viewSpread s o
  | .reorder => viewReorder s o
  | .flowkey => viewFlow s o
  | .time => viewTime s p o
  | .shutter => viewShutter s o
  | .dma0 => viewDma0 s o
  | .dmaState => viewDmaState s i.inst o
  | .fn => viewFn s i.inst o
  | .irqCtrl => viewIrqCtrl s o
  | .irqPend => viewIrqPend s o
  | .irqT => viewIrqT s i.inst o
  | .fixer => viewFixer s o
  | .darkslide => viewDark s o
  | .cal => viewCal s o
  | .nv => viewNv s o
  | .loupe => viewLoupe s o
  | .memport => viewMem s o
  | .fed => viewFed s o
  | _ => none

/-- What the register at window offset `a` holds, as port `p` reads it: 0 for a reserved offset (R40), the common
header, a computed register, or the stored word without its write-only bits. -/
def regValue (s : State) (p : CmdPort) (a : Nat) : Word :=
  match viewOf s p (pageOf a) (offOf a) with
  | some w => if (rowAt a).isSome || decide (offOf a = 0x014) then w else 0
  | none =>
    match viewHeader s (pageOf a) (offOf a) with
    | some w => w
    | none =>
      match rowAt a with
      | some r => getReg s (aliasOf s a) &&& ~~~r.wo
      | none => 0

end Sys2Proof.Machine
end

