-- ==== Sys2Proof/Machine/RegRead.lean ====
section
/-! DEFINITION. Reading a register: its value, the snapshots of R42 and R236, and what a read clears or claims (R40-R42,
Table 2.2). -/

namespace Sys2Proof.Machine

/-- Fields that a read clears (RC). -/
def clearRead (a : Nat) (s : State) : State :=
  match rowAt a with
  | some r => if r.rc = 0 then s else setReg (aliasOf s a) (getReg s (aliasOf s a) &&& ~~~r.rc) s
  | none => s

/-- A read of TX_BUF.PEAK begins a new count of the fewest free cells (Table 10.5). -/
def peakRead (a : Nat) (s : State) : State :=
  let i := pageInfo (pageOf a)
  if i.kind = .mac ∧ offOf a = 0x2AC then { s with tx := { s.tx with low := setErase s.tx.low (home s i.inst) } } else s

/-- A read of a _LO keeps the high half of the same value for the port (R42). -/
def takeSnap (p : CmdPort) (a : Nat) (s : State) : State :=
  let w := regValue s p (a + 4)
  { s with win := { s.win with snap := tabPut s.win.snap (pageKey p (pageOf a)) (a, w) } }

/-- A read of a _HI gives the port's snapshot where its latest _LO read on the page was of that pair, else the live half. -/
def highHalf (s : State) (p : CmdPort) (a : Nat) : Word :=
  match tabFind s.win.snap (pageKey p (pageOf a)) with
  | some (lo, w) => if lo + 4 = a then w else regValue s p a
  | none => regValue s p a

/-- A read that uses up a free value: the pattern counter of LBIST. -/
def readsFree (s : State) (a : Nat) : Bool := a == darkA 0x080 && decide (getF s a 31 29 = 3)

/-- A served read of the register at `a` from port `p`: its value and its effect. -/
def regRead (p : CmdPort) (a : Nat) (s : State) : Word × State :=
  let i := pageInfo (pageOf a)
  if i.kind = .irqT ∧ offOf a = 0x080 then claimRead i.inst s
  else if a = timA 0x090 then
    (regValue s p a, { s with win := { s.win with tod := tabPut s.win.tod (portCode p) (now16 s) } })
  else if pairCode a = 1 then (regValue s p a, clearRead a (takeSnap p a s))
  else if pairCode a = 2 then (highHalf s p a, clearRead a s)
  else if readsFree s a then (regValue s p a, nextFree s)
  else (regValue s p a, peakRead a (clearRead a s))

end Sys2Proof.Machine
end

