-- ==== Sys2Proof/Machine/Sheet.lean ====
section
/-! DEFINITION. The CONTACT SHEET record (04_command_ports.md R81-R83, Table 4.7). -/

namespace Sys2Proof.Machine

/-- A register as a little-endian word of the record, read without effect. -/
def sheetReg (s : State) (a : Nat) : List Byte := leBytes (regValue s .H a).toNat 4

/-- Bytes 28-55: modes, level, pending request, wakes. -/
def sheetMode (s : State) : List Byte :=
  leBytes (modeStateWord s).toNat 4 ++ leBytes (proofStatusWord s).toNat 4 ++ leBytes (safeStatusWord s).toNat 4
    ++ leBytes s.ctl.pl.toNat 1 ++ leBytes (getReg s (adr pgPower 0x088)).toNat 1
    ++ leBytes (getReg s (adr pgPower 0x090)).toNat 2 ++ sheetReg s (adr pgPower 0x094)
    ++ leBytes (getPair s (adr pgPower 0x098)) 8

/-- Bytes 56-79: time. -/
def sheetTime (s : State) : List Byte :=
  let set := decide (s.tim.vstate ≠ 0)
  leBytes (s.tim.vstate + 4 * flag s.tim.stepOnce + 8 * flag (s.tim.r != 0) + 16 * flag s.tim.disjoint
      + 32 * flag (stepShown s)) 4
    ++ leBytes (if set then secOf16 (now16 s) else 0) 8 ++ leBytes (if set then nsOf16 (now16 s) else 0) 4
    ++ leBytes (getReg s (timA 0x0D0)).toNat 8

/-- Bytes 80-127: version slots. -/
def sheetSlots (s : State) : List Byte :=
  (List.range 4).flatMap (fun v =>
    leBytes (slotTag s v).toNat 4 ++ leBytes (slotState s v) 1 ++ leBytes (min (2 ^ 24 - 1) (getReg s (drainA v)).toNat) 3)
    ++ leBytes 0 16

/-- State of a pipe (Table 4.7): one in a powered-down quarter reads 0 unless it is condemned. -/
def sheetPipe (s : State) (p : Nat) : List Byte :=
  let st := pipeState s p
  leBytes (if islandOn s (66 + p / 12) || st == 4 then st else 0) 1 ++ leBytes (min 255 (pipeHealth s p).2) 1
    ++ leBytes (min 255 (pipeHealth s p).1) 2

/-- Bytes 128-583: clusters and pipes. -/
def sheetUnits (s : State) : List Byte :=
  (List.range 66).flatMap (fun n => leBytes (clStateWord s n).toNat 4) ++ (List.range 48).flatMap (sheetPipe s)

/-- The four lowest queues of a list in 16 bits each, 0xFFFF fills. -/
def fourLowest (l : List Nat) : List Byte := ((l ++ [0xFFFF, 0xFFFF, 0xFFFF, 0xFFFF]).take 4).flatMap (fun q => leBytes q 2)

/-- Bytes 584-643: queues and interrupts. -/
def sheetQueues (s : State) : List Byte :=
  let t := errQueues s false
  let r := errQueues s true
  leBytes t.length 2 ++ leBytes r.length 2 ++ leBytes (frozenCount s) 2 ++ leBytes (fnsInReset s) 2
    ++ fourLowest t ++ fourLowest r ++ leBytes 0 4
    ++ leBytes (mgmtOffered s).length 2 ++ leBytes ((mgmtOffered s).headD 0xFFFF) 2
    ++ (List.range 3).flatMap (fun w => leBytes (mapWord (32 * w) (fun x => s.irq.req.contains x)).toNat 4)
    ++ (List.range 3).flatMap (fun w => leBytes (mapWord (32 * w) (fun x => decide (x < 68) && eqNonEmpty s x)).toNat 4)
    ++ leBytes 0 4

/-- Bytes 644-663: repairs and wear. -/
def sheetRepair (s : State) : List Byte :=
  let hour := getF s jrnlA 6 0
  leBytes (spareSlices s) 1 ++ leBytes (spareClusters s) 1 ++ leBytes (sparePipes s) 1
    ++ leBytes (min 255 (condemnedCount s)) 1 ++ leBytes s.fix.repairs 4 ++ leBytes hour 1 ++ leBytes (64 - hour) 1
    ++ leBytes 0 2 ++ leBytes (min (2 ^ 32 - 1) (worstLine s)) 4 ++ leBytes 0 4

/-- Bytes 664-819: the federation. -/
def sheetFed (s : State) : List Byte :=
  leBytes (ownId s) 2 ++ leBytes (fedSize s) 2 ++ leBytes (bits (countPa s) 31 16) 2 ++ leBytes (bits (countPa s) 15 0) 2
    ++ leBytes (bits (countSv s) 31 16) 2 ++ leBytes (bits (countSv s) 15 0) 2 ++ leBytes (bits (countDw s) 31 16) 2
    ++ leBytes (getReg s (fedA 0x094)).toNat 2 ++ leBytes (ownDigest s) 8 ++ leBytes (fedFlags s % 16) 4
    ++ (List.range 32).flatMap (fun w => leBytes (mapWord (32 * w) (presentMember s)).toNat 4)

/-- The causes that hold FAULT_N low (bytes 856-859). -/
def faultCauses (s : State) : Nat :=
  let f := s.ctl.faults
  flag f.proof + 2 * flag f.spares + 4 * flag f.wdog + 8 * flag f.disjoint + 16 * flag f.retain + 32 * flag f.journal

/-- Bytes 820-859: safety link, refusals, fault causes. -/
def sheetSafety (s : State) : List Byte :=
  leBytes (flag (getB s (adr pgSafety 0x010) 1) + 2 * flag s.ctl.wdogExpired + 4 * flag s.ctl.pins.alarmLevel) 4
    ++ leBytes (getPair s (adr pgSafety 0x094)) 8
    ++ (List.range 5).flatMap (fun i => leBytes (getReg s (adr pgMode (0x098 + 4 * i))).toNat 2)
    ++ (List.range 5).flatMap (fun i => leBytes (getReg s (adr pgCmd (0x0A4 + 4 * i))).toNat 2)
    ++ leBytes 0 4 ++ leBytes (faultCauses s) 4

/-- Bytes 0-27: layout, identity, the request, GEN_NS. -/
def sheetHead (s : State) (port : CmdPort) (seq : BitVec 16) : List Byte :=
  leBytes 1 2 ++ leBytes 0x400 2 ++ leBytes Config.ident.toNat 4 ++ leBytes Config.dieId.toNat 8
    ++ leBytes (portCode port) 2 ++ leBytes seq.toNat 2 ++ leBytes s.tim.powered 8

/-- The record for a request (Table 4.7). -/
def sheetRecord (s : State) (port : CmdPort) (seq : BitVec 16) : List Byte :=
  let body := sheetHead s port seq ++ sheetMode s ++ sheetTime s ++ sheetSlots s ++ sheetUnits s ++ sheetQueues s
    ++ sheetRepair s ++ sheetFed s ++ sheetSafety s ++ leBytes 0 160
  body ++ leBytes (crc32c body) 4

/-- Bytes 28-55 and 128-659 of a record sampled now (R382). -/
def digestBytes (s : State) : List Byte := sheetMode s ++ sheetUnits s ++ sheetQueues s ++ (sheetRepair s).take 16

/-- A CONTACT_SHEET is generated: its record is kept for the port, mirrored in PG_SHEET, and returned (R73, R81, R83). -/
def genSheet (q : Req) (s : State) : State :=
  let d := sheetRecord s q.port q.seq
  let s1 := setReg (adr pgSheet 0x080) (word (q.seq.toNat * 2 ^ 16 + portCode q.port))
    (setWords (adr pgSheet 0x400) (wordsOf d 0 256) s)
  let x := portOf s1 q.port
  let s2 := setPort q.port { x with tags := storeResult q.seq rOk [] x.tags, sheet := some (q.seq, d) } s1
  let data := if q.port = .H then d.take 64 else d
  deliver q { code := q.code, seq := q.seq, result := rOk, dup := false, data := data } (some d) s2

end Sys2Proof.Machine
end

