-- ==== Sys2Proof/Machine/FedOps.lean ====
section
/-! DEFINITION. The frames of the federation agent: heartbeats, presence, notices, relaying, the configuration digest and
member reads (22_federation.md R377-R393). -/

namespace Sys2Proof.Machine

/-- A whole command arrives at its port (R68); any but CONTACT_SHEET and REG_READ cancels quiescence (R325). -/
def takeCommand (q : Req) (s : State) : State :=
  submit q (if q.code = cSheet ∨ q.code = cRegRead then s else cancelSleep s)

/-! ### Sending -/

/-- Has port `p` the federation role (R79)? -/
def fedRole (s : State) (p : Nat) : Bool := (tabGet (fun _ => 0) s.nv.roles p).testBit 0

/-- Federation ports that are up (R378). -/
def fedPorts (s : State) : List Nat := (s.nv.roles.filter (fun x => x.2.testBit 0 && portUp s x.1)).map (fun x => x.1)

/-- A frame of the agent for port `p`: HB_DA, exact entry 0, the octets from the EtherType on, at the priority and SC of
FED_PORT_p, express (R380). -/
def fedFrame (s : State) (p : Nat) (relay : Bool) (body : List Byte) : TxFrm :=
  let w := getReg s (fedA (0x800 + 4 * p))
  { src := .own relay, prio := bits w 10 8, express := true, fcsSupplied := false, cutThrough := false, ptpAction := 0
    ptpOffset := 0, sc := bits w 7 0, captureId := 0
    data := beBytes (getPair s (fedA 0x088) % 2 ^ 48) 6 ++ exactAddr s p 0 ++ body
    cells := 0, eof := true, endMarks := 0, long := false, waited := false, dropping := false }

/-- Send a frame on every port of a list; each relay counts in RELAYED (R384). -/
def sendFed (relay : Bool) (body : List Byte) : List Nat → State → State
  | [], s => s
  | p :: r, s =>
    sendFed relay body r (enqueue p (fedFrame s p relay body) (if relay then addF (fedA 0x110) 31 0 1 s else s))

/-- Frames that wait at the agent leave on every federation port (R386). -/
def fedFlush (s : State) : State :=
  if fedActive s ∧ fedEnabled s = true ∧ s.fed.outbox ≠ [] then
    s.fed.outbox.foldl (fun x b => sendFed false b (fedPorts x) x) { s with fed := { s.fed with outbox := [] } }
  else s

/-- Relay a frame on every other federation port with HOPS decremented (R384). -/
def relayFed (p : Nat) (body : List Byte) (s : State) : State :=
  let h := (byteAt body 8).toNat
  if h = 0 then s else sendFed true (patch body 8 (beBytes (h - 1) 1)) ((fedPorts s).filter (fun x => x != p)) s

/-! ### The heartbeat (R380, R382) -/

/-- TIME of a heartbeat (Table 22.2, octet 12). -/
def hbTime (s : State) : Nat :=
  s.tim.vstate + 4 * flag s.tim.stepOnce + 8 * flag (s.tim.r != 0) + 16 * flag s.tim.disjoint + 32 * flag s.fed.withdrawn

/-- FLAGS of a heartbeat (Table 22.2, octet 13). -/
def hbFlags (s : State) : Nat :=
  flag (getB s (fedA 0x010) 1) + 2 * flag (!s.fed.digestOn.isEmpty) + 4 * flag (faultCauses s != 0)
    + 8 * flag s.fed.conflictNs.isSome

/-- VERSION_TAGs of the DRAINING slots, lower slot first; 0 where none. -/
def drainTags (s : State) : List Byte :=
  slice ((((List.range 4).filter (fun v => slotState s v == 3)).map (fun v => beBytes (slotTag s v).toNat 4)).flatten) 0 8

/-- MAX_HOPS; 0 acts as 1. -/
def maxHops (s : State) : Nat := max 1 (getF s (fedA 0x080) 15 10)

/-- The 64 octets of a heartbeat from the EtherType on (Table 22.2). -/
def hbBody (s : State) : List Byte :=
  beBytes (fedType s) 2 ++ [0x04, 0x00] ++ beBytes (ownId s) 2 ++ beBytes s.fed.hbSeq 2 ++ beBytes (maxHops s) 1
    ++ beBytes (modeCode s.ctl.mode + 8 * flag s.fed.origin + 16 * s.ctl.pl.toNat) 1 ++ beBytes s.fed.epoch 2
    ++ beBytes (hbTime s) 1 ++ beBytes (hbFlags s) 1 ++ beBytes (getF s (fedA 0x094) 15 0) 2
    ++ beBytes (currentTag s).toNat 4 ++ drainTags s ++ beBytes (ownDigest s) 8 ++ beBytes (uncert s) 4
    ++ beBytes (getReg s (timA 0x0D0)).toNat 4 ++ beBytes (crc32c (digestBytes s)) 4
    ++ beBytes ((countPa s).toNat / 65536) 2 ++ beBytes s.nv.startTag 4 ++ List.replicate 10 0

/-- HEARTBEAT_SEND (R380): 1 ms has passed. -/
def execHeartbeatSend (s : State) : Out :=
  if fedEnabled s = true ∧ fedActive s = true then
    let s1 := sendFed false (hbBody s) (fedPorts s) s
    .next (addF (fedA 0x100) 31 0 1 { s1 with fed := { s1.fed with
      hbSeq := (s.fed.hbSeq + 1) % 65536
      recent := (s.fed.hbSeq :: s.fed.recent).take 32 } })
  else .next s

/-! ### Receiving (R377, R384, R385, R388) -/

/-- Does the agent take a federation frame on port `p` now? -/
def fedHears (s : State) (p : Nat) : Bool := fedActive s && fedRole s p && portUp s p

/-- Sequence numbers that are new after `last` (R384). -/
def seqNew (seq last : Nat) : Bool :=
  let d := (seq + 65536 - last) % 65536
  decide (1 ≤ d) && decide (d ≤ 32767)

/-- The own member number in a heartbeat (R384, R387). -/
def ownHeard (seq tag : Nat) (s : State) : State :=
  if tag = s.nv.startTag ∧ s.fed.recent.contains seq then addF (fedA 0x108) 31 0 1 s
  else
    let s1 := hwEvent pgFed 6 (addF (fedA 0x11C) 31 0 1
      { s with fed := { s.fed with conflictNs := some s.tim.powered } })
    if s.fed.conflictNs.isNone then fjWrite 11 (ownId s) 0 s1 else s1

/-- A federation SAFELIGHT notice from member `m` (R388): recorded, and submitted to port F past its places. -/
def notice (p m tag epoch : Nat) (s : State) : State :=
  let s1 := hwEvent pgFed 5 (addF (fedA 0x118) 31 0 1
    (cancelSleep { s with fed := { s.fed with pairs := tabPut s.fed.pairs m (tag, epoch) } }))
  if getB s (fedA 0x010) 1 then safeTrigger 3 4 (p / 8) (fjWrite 9 m epoch s1) else fjWrite 10 m epoch s1

/-- A new START_TAG of member `m` clears what was kept of its relayed messages (R386). -/
def newStart (m : Nat) (s : State) : State :=
  { s with fed := { s.fed with
    relayCmd := tabErase s.fed.relayCmd m
    relayResp := tabKeep (fun k => decide (k / 65536 ≠ m)) s.fed.relayResp } }

/-- An accepted heartbeat of member `m` (R384, R385). -/
def acceptHb (p m seq tag : Nat) (body : List Byte) (s : State) : State :=
  let old := tabFind s.fed.members m
  let s0 := match old with
    | some x => if x.startTag = tag then s else newStart m s
    | none => s
  let x : Member := { body := slice body 0 64, lastNs := s.tim.powered, present := true, startTag := tag, hbSeq := seq }
  let s1 := relayFed p body (addF (fedA 0x104) 31 0 1
    { s0 with fed := { s0.fed with members := tabPut s0.fed.members m x } })
  let was := match old with
    | some y => y.present
    | none => false
  let s2 := if was then s1 else hwEvent pgFed 1 (fjWrite 1 m 0 s1)
  let s3 := fedWatch s2
  let epoch := beField body 10 2
  if (byteAt body 9).getLsbD 3 ∧ tabFind s.fed.pairs m ≠ some (tag, epoch) then notice p m tag epoch s3 else s3

/-- A heartbeat that arrives on port `p` (R377, R384). -/
def hearHb (p : Nat) (body : List Byte) (s : State) : State :=
  let m := beField body 4 2
  let seq := beField body 6 2
  let tag := beField body 50 4
  if fedEnabled s = false ∨ fedSize s ≤ m then addF (fedA 0x10C) 31 0 1 s
  else if m = ownId s then ownHeard seq tag s
  else
    let fresh := match tabFind s.fed.members m with
      | none => true
      | some x => x.startTag != tag || seqNew seq x.hbSeq
    if fresh then acceptHb p m seq tag body s else addF (fedA 0x108) 31 0 1 s

/-- MEMBER_ABSENT (R385): 3 ms have passed without a heartbeat of member `m`. -/
def execMemberAbsent (m : Fin 1024) (s : State) : Out :=
  match tabFind s.fed.members m with
  | some x =>
    if x.present = true ∧ fedActive s = true then
      .next (fedWatch (hwEvent pgFed 0 (fjWrite 2 m 0
        { s with fed := { s.fed with members := tabPut s.fed.members m { x with present := false } } })))
    else .next s
  | none => .next s

/-- ID_CONFLICT_CLEAR (R387): 10 s after the last conflicting heartbeat. Table 22.5 has no EVENT for it: a free value. -/
def execIdConflictClear (s : State) : Out :=
  match s.fed.conflictNs with
  | some _ =>
    .next (fjWrite (Config.journalEvent s.freeCount).toNat (ownId s) 0
      (nextFree { s with fed := { s.fed with conflictNs := none } }))
  | none => .next s

/-- TIME_BOUND_EXCEEDED (R390): UNCERT has grown past TIME_BOUND with the time since the last measurement. -/
def execTimeBoundExceeded (s : State) : Out := .next (fedWatch { s with fed := { s.fed with overBound := true } })

/-! ### Relayed commands and responses (R386) -/

/-- A relayed command or response that is new is entered in its table; `none` for one that is dropped and counted. -/
def relayNew (s : State) (m : Nat) (last : Option Nat) (seq : Nat) : Option Bool :=
  if fedEnabled s = false ∨ fedSize s ≤ m then none
  else if m = ownId s then some false
  else
    match last with
    | none => some true
    | some l => some (seqNew seq l)

/-- The request that a relayed command carries for port F, where its transport is good (R68, R69). -/
def relayedReq (p m seq : Nat) (body : List Byte) : Option Req :=
  let n := leField body 16 2
  if 20 ≤ body.length ∧ n ≤ 256 ∧ 20 + n ≤ body.length then
    some { port := .F, code := BitVec.ofNat 16 (leField body 12 2), seq := BitVec.ofNat 16 (leField body 14 2)
           args := slice body 20 n, ingress := p, source := m, relayed := some seq, sheetReq := false }
  else none

/-- A command frame fails step 1 (Table 4.4): CMD_FRAME_DROP and event 3 of PG_CMD. -/
def frameDrop (port : CmdPort) (s : State) : State :=
  hwEvent pgCmd 3 (if port = .W then addF (adr pgCmd 0x0CC) 31 16 1 s else addF (adr pgCmd 0x0CC) 15 0 1 s)

/-- A relayed command that arrives on port `p`. -/
def hearRelayed (p : Nat) (body : List Byte) (s : State) : State :=
  let m := beField body 4 2
  let seq := beField body 6 2
  let target := beField body 10 2
  match relayNew s m (tabFind s.fed.relayCmd m) seq with
  | none => addF (fedA 0x10C) 31 0 1 s
  | some false => addF (fedA 0x108) 31 0 1 s
  | some true =>
    let s1 := addF (fedA 0x104) 31 0 1 { s with fed := { s.fed with relayCmd := tabPut s.fed.relayCmd m seq } }
    let s2 := if target = ownId s then s1 else relayFed p body s1
    if target = ownId s ∨ target = 0xFFFF then
      match relayedReq p m seq body with
      | some q => takeCommand q s2
      | none => frameDrop .F s2
    else s2

/-- A relayed response that arrives on port `p`: handed up at its target, else relayed. -/
def hearResponse (p : Nat) (body : List Byte) (s : State) : State :=
  let m := beField body 4 2
  let seq := beField body 6 2
  let target := beField body 10 2
  let k := m * 65536 + target
  match relayNew s m (tabFind s.fed.relayResp k) seq with
  | none => addF (fedA 0x10C) 31 0 1 s
  | some false => addF (fedA 0x108) 31 0 1 s
  | some true =>
    let s1 := addF (fedA 0x104) 31 0 1 { s with fed := { s.fed with relayResp := tabPut s.fed.relayResp k seq } }
    if target = ownId s then { s1 with fed := { s1.fed with handedUp := body :: s1.fed.handedUp } }
    else relayFed p body s1

/-- Frames beyond 4 M per second are dropped and counted (R384). -/
def overload (s : State) : State := addF (fedA 0x114) 31 0 1 s

/-! ### The configuration digest (R381) -/

/-- CRC-64 of R381. -/
def crc64 (l : List Byte) : Nat := crcRun 0xC96C5795D7870F42 (2 ^ 64 - 1) l ^^^ (2 ^ 64 - 1)

/-- The words of a digest group, fields of other use masked in place (Table 22.3). -/
def digestGroup (s : State) (g : Nat) : List Word :=
  match g with
  | 0 => [0x100, 0x104, 0x108].map (fun o => getReg s (adr (pgPipe 0) o))
      ++ (List.range 16).map (fun k => getReg s (adr (pgPipe 0) (0x110 + 4 * k)))
  | 1 => (List.range 64).map (fun i => getReg s (adr pgFlow (0x100 + 4 * i)))
  | 2 => [getReg s (adr pgVersion 0x010)]
  | 3 =>
    [getReg s (fedA 0x080) &&& 0xFFFFFC00, getReg s (fedA 0x084), getReg s (fedA 0x010) &&& 2, getReg s (fedA 0x088)
    , getReg s (fedA 0x08C), getReg s (fedA 0x090)]
  | 4 =>
    [timeStatusWord s &&& 0x20, getReg s (timA 0x080) &&& 0x7F00, getReg s (timA 0x084), getReg s (timA 0x088)
    , getReg s (timA 0x08C)]
  | 5 => [0x0A0, 0x0A4, 0x0A8].map (fun o => getReg s (adr pgFixer o))
  | _ => []

/-- CONFIG_DIGEST: the DIGEST_SEL word, then the selected groups, words least significant octet first. -/
def configDigest (s : State) : Nat :=
  let w := getReg s (fedA 0x098)
  let l := (List.range 6).filter (fun g => bit w g)
  crc64 (leBytes w.toNat 4 ++ ((l.map (digestGroup s)).flatten.map (fun x => leBytes x.toNat 4)).flatten)

/-- DIGEST_RECOMPUTE (R381): the agent recomputes its digest and compares it (R387). -/
def execDigestRecompute (s : State) : Out :=
  if fedActive s then .next (fedWatch (setPair (fedA 0x09C) (configDigest s) s)) else .next s

/-! ### MEMBER_RD (R393) -/

/-- A write of MEMBER_RD: a member that was never heard has no age and no body to show, so those words are free values. -/
def memberRead (v : Word) (s : State) : State :=
  if bit v 31 then
    let m := bits v 9 0
    let own := m == ownId s
    match tabFind s.fed.members m with
    | some x =>
      setWords (fedA 0x0C0) (wordsOf x.body 0 16)
        (setReg (fedA 0x0BC) (word (min (2 ^ 32 - 1) ((s.tim.powered - x.lastNs) / 1000)))
          (setReg (fedA 0x0B8) (word (8 + 4 * flag (own || x.present) + 2)) s))
    | none =>
      setWords (fedA 0x0C0) ((List.range 16).map (fun i => Config.unheardWord s.freeCount (i + 1)))
        (setReg (fedA 0x0BC) (Config.unheardWord s.freeCount 0)
          (setReg (fedA 0x0B8) (word (4 * flag own + 2)) (nextFree s)))
  else s

/-- MEMBER_RD (R393): a write of MEMBER_RD from port `p`. -/
def execMemberRd (p : CmdPort) (v : Word) (s : State) : Out :=
  .next (gatedWrite p (fedA 0x0B4) true v (memberRead v) s)

end Sys2Proof.Machine
end

