-- ==== Sys2Proof/Machine/Lanes.lean ====
section
/-! DEFINITION. Commands of lanes and ports: LANE_STATUS_CHANGE, PORT_UP, RECONFIG_GO, RECONFIG_RESTART, LOCK_LOSS,
REMOTE_FAULT and DEGRADE_WINDOW_END (05_lanes_ports_fec.md). -/

namespace Sys2Proof.Machine

/-! ### What the complex drives on a lane (R7, R8, R85, R93) -/

/-- TX_ACTIVE of lane `l`: it lies in an enabled port whose serving cluster, home or spare, is powered (R8). -/
def txActive (s : State) (l : Nat) : Bool := clusterOn s (l / 8) && (portOfLane s l).isSome

/-- What a lane's transmit words carry. -/
inductive LaneSupply
  /-- No words at all: the cluster is powered down and nothing stands in for it. -/
  | nothing
  /-- All-zero words: a lane in no enabled port. -/
  | zeros
  | idle
  | remoteFault
  /-- A frame is on the line. -/
  | frame
  deriving DecidableEq, Repr

/-- What lane `l` supplies (R8, R85): an enabled port sends its frames or idle, idle alone in sleep (R326), and remote fault
while it is down, idle again where it receives remote fault itself (R93). -/
def laneSupply (s : State) (l : Nat) : LaneSupply :=
  if clusterOn s (l / 8) = false then .nothing
  else
    match portOfLane s l with
    | none => .zeros
    | some p =>
      if portUp s p = false then (if s.prt.remote.contains p then .idle else .remoteFault)
      else if s.prt.remote.contains p then .idle
      else if (tabFind s.tx.flight p).isSome then .frame else .idle

/-- Width of a lane word by LANE_STATUS.RATE (Table 1.1); 0 for a lane that is off. -/
def wordBits : Nat → Nat
  | 1 => 32
  | 2 => 32
  | 3 => 20
  | 4 => 40
  | 5 => 80
  | _ => 0

/-- The bits of a lane word in the order of the wire: bit 0 first (R7). -/
def wireBits (rate w : Nat) : List Bool := (List.range (wordBits rate)).map (fun i => w.testBit i)

/-- LANE_STATUS_CHANGE (R9): lane `l` presents LINK_UP [0], SIG_DET [1] and ALIGN_OK [2]. -/
def execLaneStatusChange (l : PortNo) (v : BitVec 3) (s : State) : Out :=
  let s1 := { s with prt := { s.prt with laneIn := tabSet (fun _ => 0) s.prt.laneIn l v } }
  .next (if clusterOn s1 (l / 8) then sampleLane l s1 else s1)

/-- A port may come up: enabled, its cluster sampling (in DIM: one that listens), its lanes good, not stopped by a
reconfiguration, not held down (R93, R120, R348). -/
def mayRise (s : State) (p : Nat) : Bool :=
  (portShape s p).isSome && !portUp s p && lanesGood s p && clusterOn s (p / 8) && !s.prt.stopped.contains p
    && !getB s (adr pgFixer (0x100 + 4 * (p / 32))) (p % 32)
    && (match s.ctl.mode with
        | .run => true
        | .safelight => true
        | .test => true
        | .still => bit (rxCfg s p) 12
        | _ => false)

/-- Every enabled port in the mask of a restarted reconfiguration is up: it is done (R89). -/
def reconfSettle (cl : Nat) (s : State) : State :=
  match tabFind s.prt.reconf cl with
  | some r => if r.restarted && (maskEnabled s cl r.mask).all (portUp s) then reconfDone cl s else s
  | none => s

/-- PORT_UP (R93): the lock conditions of port `p` have held for 100 µs. -/
def execPortUp (p : PortNo) (s : State) : Out :=
  .next (
    if mayRise s p then
      match portShape s p with
      | some x =>
        let l := portLanes s p
        let s1 := setHiBer false l (setLocks (usesBlockLock x) true l s)
        reconfSettle (p / 8) (startVerify p (setB (pcsA p 0x0B0) (p % 8) true s1))
      | none => s
    else s)

/-- RECONFIG_GO (R89): a write of RECONFIG from port `p` on the page of cluster `cl`. -/
def execReconfigGo (p : CmdPort) (cl : ClusterNo) (v : Word) (s : State) : Out :=
  .next (gatedWrite p (adr (pgCl cl 1) 0x0A0) true v (fun x => reconfGo (home x cl) v x) s)

/-- RECONFIG_RESTART (R89): the masked ports of cluster `cl` are down and its lanes restart. -/
def execReconfigRestart (cl : ClusterNo) (s : State) : Out :=
  .next (
    match tabFind s.prt.reconf cl with
    | some r =>
      if r.restarted ∨ (maskPorts s cl r.mask).any (lineBusy s) = true then s else reconfRestart cl r s
    | none => s)

/-- The PCS of port `p` reports high BER, counted at each entry into it (Table 5.7). -/
def highBer (p : Nat) (s : State) : State :=
  let l := portLanes s p
  if l.any (fun k => getB s (laneStA k) 8) then s
  else setHiBer true l (hwEvent (pgCl (p / 8) 1) 4 (addLive (pcsCnt p 0x2C) 1 s))

/-- The PCS of port `p` loses block lock or alignment-marker lock: counted where a lane had it (Table 5.7). -/
def lockGone (p : Nat) (s : State) : State :=
  let l := portLanes s p
  if portUp s p || l.any (fun k => getF s (laneStA k) 7 6 != 0) then
    setLocks true false l (setLocks false false l (hwEvent (pgCl (p / 8) 1) 5 (addLive (pcsCnt p 0x28) 1 s)))
  else s

/-- LOCK_LOSS (R93): port `p` loses lock, or reports high BER (`hiBer`). A port that is up goes down; the monitors of one that
is not up yet report too. -/
def execLockLoss (p : PortNo) (hiBer : Bool) (s : State) : Out :=
  .next (
    if (portShape s p).isSome && clusterOn s (p / 8) then downPort p (if hiBer then highBer p s else lockGone p s) else s)

/-- REMOTE_FAULT (R93): received remote-fault ordered sets of port `p` start or end. -/
def execRemoteFault (p : PortNo) (start : Bool) (s : State) : Out :=
  let s1 := { s with prt := { s.prt with remote := if start then setInsert s.prt.remote p else setErase s.prt.remote p } }
  .next (if start then sweep p s1 else s1)

/-- Count the bins HIST_1 to HIST_15. -/
def addHist (p : Nat) : Nat → List Nat → State → State
  | _, [], s => s
  | k, n :: r, s => addHist p (k + 1) r (if k < 15 then addLive (pcsCnt p (0x40 + 4 * k)) n s else s)

/-- Count corrected symbols by lane slot. -/
def addLaneErrs (p : Nat) : List Nat → List Nat → State → State
  | l :: ls, n :: r, s => addLaneErrs p ls r (addLive (pcsA p (0x500 + 8 * (l % 8))) n s)
  | _, _, s => s

/-- Latch event `n` of a page once for each of `k` occurrences. -/
def eventTimes (page n : Nat) : Nat → State → State
  | 0, s => s
  | k + 1, s => eventTimes page n k (hwEvent page n s)

/-- What the FEC code `fec` of a port counts (Table 5.7): without FEC only PCS errors, no histogram with BASE-R, and with
RS(528,514), which corrects at most 7 symbols, bins 1 to 7. -/
def countedBy (fec : Nat) (f : FecReport) : FecReport :=
  match fec with
  | 0 => { f with codewords := 0, corrected := 0, uncorrected := 0, symbols := 0, deskew := 0, hist := [], laneSymbols := [] }
  | 1 => { f with hist := [] }
  | 2 => { f with hist := f.hist.take 7 }
  | _ => f

/-- The counts that the FEC of a port has made in the window (Table 5.7); event 2 at each uncorrectable codeword (R94). -/
def countFec (p : Nat) (f : FecReport) (s : State) : State :=
  let c := fun o => pcsCnt p o
  let s1 := addLive (c 0x20) f.pcsErr (addLive (c 0x18) f.symbols (addLive (c 0x10) f.uncorrected
    (addLive (c 0x08) f.corrected (addLive (c 0x00) f.codewords s))))
  let s2 := addLaneErrs p (portLanes s p) f.laneSymbols (addHist p 0 f.hist (addLive (c 0x30) f.deskew s1))
  eventTimes (pgCl (p / 8) 1) 2 f.uncorrected s2

/-- The window's symbols are held against DEGRADE_CFG.THRESH (R103). -/
def judgeDegrade (p symbols : Nat) (s : State) : State :=
  let th := getF s (pcsA p 0x0B4) 23 0
  let b := 8 + p % 8
  if th = 0 ∨ symbols < th then setB (pcsA p 0x0B0) b false s
  else
    let s1 := addLive (pcsCnt p 0x34) 1 s
    if getB s (pcsA p 0x0B0) b then s1 else hwEvent (pgCl (p / 8) 1) 3 (setB (pcsA p 0x0B0) b true s1)

/-- DEGRADE_WINDOW_END (R94, R102, R103): a 1 ms window of port `p` ends with the counts of `f`. -/
def execDegradeWindowEnd (p : PortNo) (f : FecReport) (s : State) : Out :=
  .next (
    match portShape s p with
    | none => s
    | some x =>
      let g := countedBy x.fec f
      judgeDegrade p g.symbols (countFec p g s))

end Sys2Proof.Machine
end

