-- ==== Sys2Proof/Machine/Spread.lean ====
section
/-! DEFINITION. Commands of the spreader, the pipes, the reorder engine and the flow-key channels: SPREAD_DEAL to
HASH_SEED_WRITE (08_spreading_and_reorder.md, 09_classifier_and_versions.md). -/

namespace Sys2Proof.Machine

/-- The spreader and reorder island is under test: a TEST that lists it is in force, or ended in SAFELIGHT (R61). -/
def spreaderOut (s : State) : Bool := s.dark.list.any (fun j => j.unit.type == 4 && j.unit.unit == 70)

/-- Frames are dealt and released: in RUN, TEST and SAFELIGHT, unless the island is under test (R144, Table 3.1). -/
def dealing (s : State) : Bool :=
  match s.ctl.mode with
  | .run => true
  | .test => !spreaderOut s
  | .safelight => !spreaderOut s
  | _ => false

/-! ### Parse quarters (R153) -/

/-- Is a shadow or a test in parse quarter `q`? -/
def quarterBusy (s : State) (q : Nat) : Bool :=
  let w := getReg s (adr pgSpread 0x098)
  (bit w 31 && (bits w 5 0 / 12 == q || bits w 13 8 / 12 == q))
    || (List.range 12).any (fun i => pipeState s (12 * q + i) == 3 || takenPipe s (12 * q + i))

/-- Set the state of a list of pipes by a rule on their present state. -/
def mapPipes (f : State → Nat → Nat) : List Nat → State → State
  | [], s => s
  | p :: r, s => mapPipes f r (setPipe p (f s p) s)

/-- Pipes of a quarter leave the rotation or the spares. -/
def pipesDown (q : Nat) (s : State) : State :=
  mapPipes (fun x p => if pipeState x p = 1 ∨ pipeState x p = 2 then 0 else pipeState x p)
    ((List.range 12).map (fun i => 12 * q + i)) s

/-- Pipes of a quarter that were powered down rejoin: those that hold a ring position in rotation, the others as spares. -/
def pipesUp (q : Nat) (s : State) : State :=
  mapPipes (fun x p => if pipeState x p = 0 then (if (posOf x p).isSome then 1 else 2) else pipeState x p)
    ((List.range 12).map (fun i => 12 * q + i)) s

/-- Has a quarter pipes in rotation, free spares, or frames in flight? -/
def quarterLive (s : State) (q : Nat) : Bool :=
  (List.range 12).any (fun i => pipeState s (12 * q + i) == 1 || pipeState s (12 * q + i) == 2)

def quarterInFlight (s : State) (q : Nat) : Bool := s.dp.dealt.any (fun d => d.pipe / 12 == q)

/-- POWERED of a quarter and its island. -/
def setQuarter (q : Nat) (v : Bool) (s : State) : State :=
  setB (adr pgSpread 0x08C) (16 + q) v
    { s with pwr := { s.pwr with off := if v then setErase s.pwr.off (66 + q) else setInsert s.pwr.off (66 + q) } }

/-- A change of quarter `q` is in progress. -/
def quarterMove (q : Nat) (s : State) : State :=
  { s with prt := { s.prt with quarterMoving := setInsert s.prt.quarterMoving q } }

/-- The change that the OFF bit of a quarter asks for begins, unless a shadow or a test holds it up (R153). -/
def quarterBegin (q : Nat) (s : State) : State :=
  if quarterBusy s q then s
  else if getB s (adr pgSpread 0x08C) q then
    if quarterLive s q then quarterMove q (rotationChanged (pipesDown q s))
    else if quarterOn s q = true ∧ s.prt.quarterWoken.contains q = false then quarterMove q s
    else s
  else if quarterOn s q = false then rotationChanged (pipesUp q (setQuarter q true s))
  else if (List.range 12).any (fun i => pipeState s (12 * q + i) == 0) then rotationChanged (pipesUp q s)
  else s

/-- A quarter powers down when its frames have finished. -/
def quarterEnd (q : Nat) (s : State) : State :=
  if s.prt.quarterMoving.contains q ∧ quarterInFlight s q = false then
    setQuarter q false { s with prt := { s.prt with quarterMoving := setErase s.prt.quarterMoving q } }
  else s

def quarterEnds (s : State) : State := quarterEnd 3 (quarterEnd 2 (quarterEnd 1 s))

/-- Quarters 1 to 3 follow QUARTER_CTRL.OFF in RUN (R153): a request written while a change is in progress takes effect when
that change completes. -/
def quarterSettle (s : State) : State :=
  match s.ctl.mode with
  | .run =>
    let s1 := quarterEnds s
    if s1.prt.quarterMoving.isEmpty then quarterEnds (quarterBegin 3 (quarterBegin 2 (quarterBegin 1 s1))) else s1
  | _ => s

/-- A write of QUARTER_CTRL (R153). -/
def quarterWrite (v : Word) (s : State) : State :=
  let s1 := storeRw (adr pgSpread 0x08C) v s
  quarterSettle { s1 with prt := { s1.prt with
    quarterWoken := s1.prt.quarterWoken.filter (fun q => getB s1 (adr pgSpread 0x08C) q) } }

/-- QUARTER_OFF (R153): a write of QUARTER_CTRL from port `p` that sets an OFF bit. -/
def execQuarterOff (p : CmdPort) (v : Word) (s : State) : Out :=
  .next (gatedWrite p (adr pgSpread 0x08C) true v (quarterWrite v) s)

/-- QUARTER_ON (R153): a write of QUARTER_CTRL from port `p` that clears an OFF bit. -/
def execQuarterOn (p : CmdPort) (v : Word) (s : State) : Out :=
  .next (gatedWrite p (adr pgSpread 0x08C) true v (fun x => quarterWrite v x) s)

/-- QUARTER_IDLE_TIMEOUT (R153): 1 ms after the last register access that woke quarter `q`. -/
def execQuarterIdleTimeout (q : Fin 4) (s : State) : Out :=
  .next (if s.prt.quarterWoken.contains q.val then
    quarterSettle { s with prt := { s.prt with quarterWoken := setErase s.prt.quarterWoken q } } else s)

/-! ### Dealing -/

/-- The next cluster with a queued frame after the last one served (R143). -/
def nextCluster (s : State) : Option Nat :=
  ((List.range 64).map (fun i => (s.dp.lastCl + 1 + i) % 64)).find? (fun c => !(queueOf s c).isEmpty)

/-- Is what pipe `p` takes also fed to a spare in shadow (R151)? -/
def shadowFed (s : State) (p : Nat) : Bool :=
  let w := getReg s (adr pgSpread 0x098)
  bit w 31 && bits w 5 0 == p

/-- Take one frame of cluster `c` and deal it to pipe `p` at ring position `k` (R144, R146, R163, R164). -/
def dealFrame (c k p : Nat) (f : RxFrm) (rest : List RxFrm) (s : State) : State :=
  let n := tabGet (fun _ => 0) s.dp.seq f.port
  let tag := currentTag s
  let d : Dealt := { frm := f, seq := n, tag := tag, pipe := p, lost := false, shadow := shadowFed s p }
  let s1 := { s with dp := { s.dp with
    queues := if rest.isEmpty then tabErase s.dp.queues c else tabPut s.dp.queues c rest
    seq := tabSet (fun _ => 0) s.dp.seq f.port ((n + 1) % 2 ^ 24)
    lastPos := k
    lastCl := c
    dealt := s.dp.dealt ++ [d] } }
  addLive (adr pgSpread 0x0B0) 1 (drainUp (tag.toNat / 2 ^ 30) s1)

/-- Take the next frame, if one is queued and a pipe is in rotation. -/
def dealNext (s : State) : State :=
  match nextCluster s with
  | none => s
  | some c =>
    match queueOf s c, nextPos s 48 (s.dp.lastPos + 1) with
    | f :: rest, some (k, p) => dealFrame c k p f rest s
    | _, _ => s

/-- SPREAD_DEAL (R143, R144, R146, R163): a dealing boundary, where a commit that waits for one comes into force, and
the taking of one frame. -/
def execSpreadDeal (s : State) : Out :=
  .next (if dealing s then dealNext (commitBoundary s) else s)

/-- FLOWKEY_READY_CHANGE (R16): the ready input of channel `q`. -/
def execFlowkeyReadyChange (q : Fin 4) (v : Bool) (s : State) : Out :=
  .next (
    let s1 := setB (adr pgFlow 0x090) q v s
    if v then sendKeys q (fifoOf s1 q) s1 else s1)

/-! ### Stalls -/

/-- A migration of the pipe that has not switched over gives way to the spreader's own substitution (R149). -/
def stallsMig (p : Nat) (s : State) : State :=
  match s.fix.mig with
  | some m => if m.dec.unit = pipeId p ∧ m.step ≤ 3 then abandonMig m s else s
  | none => s

/-- PIPE_STALL (R149, R150): a record of pipe `p` is overdue. -/
def execPipeStall (p : PipeNo) (s0 : State) : Out :=
  .next (
    let s := stallsMig p s0
    if dealing s = true ∧ 0 < inFlight s p then
      let sub := if pipeState s p = 1 then substitute s p else none
      let s1 := losePipe p (
        if pipeState s p = 1 then replacePipe p 3 sub s else if pipeState s p = 4 then s else setPipe p 3 s)
      let s2 := setReg (adr pgSpread 0x0A4) (word (2 ^ 31 + sub.getD 0x3F * 2 ^ 16 + p)) (addF (adr pgSpread 0x0A8) 15 0 1 s1)
      let s3 := if sub.isSome then lastSpare (pipeId p) s2 else s2
      quarterSettle (queueDecision
        { newDecision (pipeId p) 1 5 with testOnly := true } (hwEvent pgSpread 4 s3))
    else s0)

/-! ### Reordering -/

/-- REORDER_RELEASE (R154): the next frame of port `p` whose lower numbers are all resolved. -/
def execReorderRelease (p : PortNo) (s : State) : Out :=
  .next (if dealing s then releaseNext p (s.dp.held.length + 1) s else s)

/-- GAP_TIMEOUT (R156): a gap of port `p` has been outstanding for 2 µs. -/
def execGapTimeout (p : PortNo) (s : State) : Out :=
  .next (if dealing s then declareGap 1 p s else s)

/-- RX_CREDIT_GRANT (R10): the switch core grants `n` credits to cluster `cl`. -/
def execRxCreditGrant (cl : ClusterNo) (n : Nat) (s : State) : Out :=
  .next (sendCells cl (cellsAt s cl)
    { s with rx := { s.rx with credits := tabSet (fun _ => 0) s.rx.credits cl (creditsOf s cl + n) } })

/-! ### In-service test of a pipe (R152) -/

/-- Is a test, of whatever origin, or a shadow in progress (R152, R364)? A test whose pipe still drains counts. -/
def pipeTestBusy (s : State) : Bool :=
  getF s (adr pgSpread 0x094) 1 0 == 1 || getB s (adr pgSpread 0x098) 31 || s.dark.now.isSome
    || s.dark.wait.any (fun j => j.origin != 0)

/-- Why a PIPE_TEST is refused, if it is (R152). -/
def pipeTestRefusal (s : State) (p : Nat) : Option Nat :=
  if s.ctl.mode ≠ .run then some 4
  else if pipeTestBusy s then some 3
  else if 48 ≤ p ∨ pipeState s p ≠ 1 then some 2
  else if freeSpares s = [] then some 1
  else none

/-- A write of PIPE_TEST with GO (R152). -/
def pipeTestGo (v : Word) (s : State) : State :=
  let p := bits v 5 0
  let st := adr pgSpread 0x094
  if bit v 31 = false then s
  else
    match pipeTestRefusal s p with
    | some r => setReg st (word (2 ^ 24 + p * 2 ^ 16 + r * 16 + 3)) s
    | none =>
      let sub := (freeSpares s).headD 0
      let s1 := lastSpare (pipeId sub) (replacePipe p 3 (some sub) (setReg st (word (p * 2 ^ 16 + sub * 2 ^ 8 + 1)) s))
      { s1 with dark := { s1.dark with wait := s1.dark.wait ++
        [{ unit := { type := 2, unit := p, slice := 0xFF }, tests := 3, origin := 1 }] } }

/-- PIPE_TEST (R152): a write of PIPE_TEST from port `p`. -/
def execPipeTest (p : CmdPort) (v : Word) (s : State) : Out :=
  .next (gatedWrite p (adr pgSpread 0x090) true v (pipeTestGo v) s)

/-! ### Reading the tables back, and the hash seed -/

/-- The 96-byte read-back of a ternary row (R183). -/
def ternBytes (i : Nat) (x : TernRow) : List Byte :=
  leBytes i 2 ++ leBytes 0 1 ++ leBytes x.valid 1 ++ leBytes x.action.toNat 4 ++ leBytes x.value 40
    ++ leBytes x.mask 40 ++ leBytes 0 8

/-- The 16-byte read-back of an exact entry (R183). -/
def exactBytes (p i : Nat) (x : ExactEntry) : List Byte :=
  leBytes p 2 ++ leBytes i 1 ++ leBytes x.valid 1 ++ leBytes x.action.toNat 4 ++ leBytes x.key 8

/-- A read of ROW_RD ends (R183). -/
def rowRdEnd (data : List Byte) (valid : Nat) (s : State) : State :=
  hwEvent pgClass 1 (setReg (adr pgClass 0x084) (word (valid * 2 ^ 16 + 2))
    (setWords (adr pgClass 0x200) (wordsOf data 0 24) s))

/-- A write of ROW_RD (R183). -/
def rowRead (v : Word) (s : State) : State :=
  let s1 := storeRw (adr pgClass 0x080) v s
  let i := bits v 10 0
  let p := bits v 24 16
  if bit v 31 = false then s1
  else if bit v 30 then
    if 64 ≤ i then hwEvent pgClass 1 (setReg (adr pgClass 0x084) 7 s1)
    else
      let x := (tabFind s1.cls.exact (64 * p + i)).getD { key := 0, action := 0, valid := 0 }
      rowRdEnd (exactBytes p i x) x.valid s1
  else
    let x := (tabFind s1.cls.tern i).getD { value := 0, mask := 0, action := 0, valid := 0 }
    rowRdEnd (ternBytes i x) x.valid s1

/-- CLASS_ROW_READ (R183): a write of ROW_RD from port `p`. -/
def execClassRowRead (p : CmdPort) (v : Word) (s : State) : Out :=
  .next (gatedWrite p (adr pgClass 0x080) true v (rowRead v) s)

/-- A write of HASH_SEED (R174). -/
def seedWrite (v : Word) (s : State) : State := setB (adr pgFlow 0x090) 8 true (setReg (adr pgFlow 0x080) v s)

/-- HASH_SEED_WRITE (R174): from port `p`. -/
def execHashSeedWrite (p : CmdPort) (v : Word) (s : State) : Out :=
  .next (gatedWrite p (adr pgFlow 0x080) true v (seedWrite v) s)

end Sys2Proof.Machine
end

