-- ==== Sys2Proof/Machine/Time.lean ====
section
/-! DEFINITION. Corrections, references, slew end points and time distribution (12_time_engine.md R218-R236,
17_clock_islands.md R312, R313). Rows 81 to 95, 169, 170. -/

namespace Sys2Proof.Machine

/-- The word of ADJ_CMD that executes OP. -/
def adjWord (op : Nat) : Word := word (2 ^ 31 + op)

/-- A write of ADJ_CMD with GO from port `p`. -/
def adjWrite (p : CmdPort) (op : Nat) (s : State) : State :=
  gatedWrite p (timA 0x0B8) true (adjWord op) (adjCmd (adjWord op)) s

/-- ADJ_STEP (R228). -/
def execAdjStep (p : CmdPort) (s : State) : Out := .next (adjWrite p 1 s)

/-- ADJ_SLEW (R228). -/
def execAdjSlew (p : CmdPort) (s : State) : Out := .next (adjWrite p 2 s)

/-- ADJ_REPORT (R228). -/
def execAdjReport (p : CmdPort) (s : State) : Out := .next (adjWrite p 3 s)

/-- ADJ_SET_AT_PPS (R228). -/
def execAdjSetAtPps (p : CmdPort) (s : State) : Out := .next (adjWrite p 4 s)

/-- TICK_INCR_COMMIT (R227): a write of TICK_INCR_HI from port `p`. -/
def execTickIncrCommit (p : CmdPort) (v : Word) (s : State) : Out :=
  .next (gatedWrite p (timA 0x0AC) true v (tickCommit p v) s)

/-- SLEW_DONE (R229): the rest of R is slewed. -/
def execSlewDone (s : State) : Out :=
  .next (if s.tim.on = false ∨ s.tim.r = 0 then s else timeEval (hwEvent pgTime 2 (slewBy s.tim.r s)))

/-- The part of the slew in progress that brings |E| down to `b`, if there is one. -/
def slewTo (s : State) (b : Nat) : Option Int :=
  if s.tim.on = false ∨ s.tim.e.natAbs ≤ b then none
  else
    let m : Int := (s.tim.e.natAbs : Int) - b
    if 0 < s.tim.e ∧ m ≤ s.tim.r then some m
    else if s.tim.e < 0 ∧ s.tim.r ≤ -m then some (-m)
    else none

/-- The slew proceeds until |E| is `b` (R221, R231). -/
def slewDownTo (b : Nat) (s : State) : State :=
  match slewTo s b with
  | none => s
  | some m =>
    let s1 := slewBy m s
    timeEval (if s1.tim.r = 0 then hwEvent pgTime 2 s1 else s1)

/-- LOCK_BOUND_REACHED (R221). -/
def execLockBoundReached (s : State) : Out := .next (slewDownTo (lockBound s) s)

/-- TIME_DISJOINT_CLEARED (R231). -/
def execTimeDisjointCleared (s : State) : Out := .next (slewDownTo disjointBound s)

/-- STEP_ARM_EXPIRY (R230): the forward arm expires, an arm of port M does not. -/
def execStepArmExpiry (s : State) : Out :=
  .next (
    if getF s (timA 0x088) 15 0 = 0 ∨ s.tim.armM = true then s
    else { s with tim := { s.tim with stepArmed := false } })

/-- PPS_EDGE (R224): `phase` eighths of a nanosecond into the current time-island cycle. -/
def execPpsEdge (phase : Fin 8) (s : State) : Out := .next (ppsEdge phase s)

/-- Is the held reference edge younger than 1.5 s? Such an edge, a starting edge after a bad one, stays. -/
def edgeYoung (s : State) : Bool :=
  match s.tim.ppsRef with
  | some t => decide (s.tim.powered - t < 1500000000)
  | none => false

/-- PPS_TIMEOUT (R224): 1.5 s without a good edge; the reference edge and REF_OK fall when no edge at all has arrived for as
long (Table 12.2). -/
def execPpsTimeout (s : State) : Out :=
  .next (
    if s.tim.on = false then s
    else
      let s1 := { s with tim := { s.tim with ppsPresent := false } }
      if edgeYoung s then timeEval s1
      else
        let s2 := dropEdge s1
        timeEval (if refSel s2 = 1 then refFall s2 else s2))

/-- REF_TIMEOUT_EXPIRY (R223): REF_TIMEOUT seconds without an ADJ command. -/
def execRefTimeoutExpiry (s : State) : Out :=
  .next (if s.tim.on = false ∨ refSel s ≠ 2 then s else timeEval (refFall s))

/-- TIME_REF_LOSS (R225). Ignored by the engine while the island is powered down (R232). -/
def execTimeRefLoss (s : State) : Out :=
  .next (
    if s.tim.refIn = false then s
    else
      let s1 := { s with tim := { s.tim with refIn := false } }
      if s1.tim.on = true ∧ pllSrc s1 = true then timeEval (pllLoss s1) else s1)

/-- TIME_REF_RETURN (R225): TIME_REF_IN has been good for 100 ms and the PLL has locked to it. -/
def execTimeRefReturn (s : State) : Out :=
  .next (
    let s1 := { s with tim := { s.tim with refIn := true } }
    if s1.tim.on = true ∧ pllSrc s1 = true then timeEval (pllReturn s1) else s1)

/-- Islands that receive the time word (R233). -/
def receives (i : Nat) : Bool := decide (i < 66) || i == 70 || i == 71

/-- TIME_TRIM_i of PG_POWER. -/
def trimA (i : Nat) : Nat := adr pgPower (0xC00 + 4 * i)

/-- TIME_ACQ_LOSS (R313): after a correction of `peak` ps, or four missing words. -/
def execTimeAcqLoss (i : Fin 75) (peak : BitVec 16) (s : State) : Out :=
  .next (
    if s.tim.acq.contains i.val then
      let s1 := { s with tim := { s.tim with acq := setErase s.tim.acq i } }
      hwEvent pgPower 5 (addF (trimA i) 31 24 1 (peakF (trimA i) 15 0 peak.toNat s1))
    else s)

/-- TIME_ACQ_REGAINED (R313). -/
def execTimeAcqRegained (i : Fin 75) (s : State) : Out :=
  .next (
    if receives i = true ∧ s.tim.on = true ∧ s.pwr.off.contains i.val = false then
      { s with tim := { s.tim with acq := setInsert s.tim.acq i } }
    else s)

/-- Half the round trip plus the asymmetry of the path, in ps (R312). -/
def measuredDelay (i roundTrip : Nat) : Nat := ((roundTrip / 2 : Nat) + Config.wordAsymmetry i).toNat

/-- A new delay is approached by at most 1 ps per word: 25,000 ps between two measurements (R312). -/
def approach (old new : Nat) : Nat := max (old - 25000) (min (old + 25000) new)

/-- DISTRIBUTION_DELAY_MEASURE (R312): round trip in ps, and the largest correction reported since the last. -/
def execDistributionDelayMeasure (i : Fin 75) (roundTrip : Nat) (peak : BitVec 16) (s : State) : Out :=
  .next (
    if s.tim.on = true ∧ s.tim.acq.contains i.val = true then
      let d := match tabFind s.tim.delay i with
        | some old => approach old (measuredDelay i roundTrip)
        | none => measuredDelay i roundTrip
      peakF (trimA i) 15 0 peak.toNat { s with tim := { s.tim with delay := tabPut s.tim.delay i d } }
    else s)

end Sys2Proof.Machine
end

