-- ==== Sys2Proof/Machine/RegWrite.lean ====
section
/-! DEFINITION. The effect of a register write that has passed the checks of R410: one dispatch over the register map, which
window accesses, REG_WRITE and stalled accesses share (02_register_pages.md R21, R34-R42, R410). -/

namespace Sys2Proof.Machine

/-! ### PG_CMD (R73) -/

/-- Argument bytes of the mailbox. -/
def mailboxArgs (s : State) (n : Nat) : List Byte :=
  (((List.range 64).map (fun i => leBytes (getReg s (adr pgCmd (0x100 + 4 * i))).toNat 4)).flatten).take n

/-- A write of MB_GO: the mailbox command enters the checks of Table 4.4. -/
def mailboxGo (s : State) : State :=
  if getF s (adr pgCmd 0x08C) 1 0 = 1 then setB (adr pgCmd 0x08C) 18 true s
  else
    let h := getReg s (adr pgCmd 0x080)
    let n := getF s (adr pgCmd 0x084) 8 0
    let q : Req :=
      { port := .H, code := BitVec.ofNat 16 (bits h 15 0), seq := BitVec.ofNat 16 (bits h 31 16)
        args := mailboxArgs s n, ingress := 0, source := 0, relayed := none, sheetReq := false }
    let s1 := setReg (adr pgCmd 0x08C) 1 s
    if 256 < n then answerMailbox { code := q.code, seq := q.seq, result := rBadArgs, dup := false, data := [] } s1
    else takeCommand q (if q.code = cSheet then setReg (adr pgCmd 0x09C) (word (bits h 31 16)) s1 else s1)

/-- A write of SHEET_REQ: CONTACT_SHEET on port H with this tag. -/
def sheetRequest (v : Word) (s : State) : State :=
  let q : Req :=
    { port := .H, code := cSheet, seq := BitVec.ofNat 16 (bits v 15 0), args := [], ingress := 0, source := 0
      relayed := none, sheetReq := true }
  takeCommand q (setReg (adr pgCmd 0x09C) (word (bits v 15 0)) s)

/-! ### PG_SAFETY (R76) and PG_POWER (R28, R317, R334) -/

/-- The watchdog stops, and its cause of FAULT_N ends. -/
def wdogOff (s : State) : State :=
  { s with ctl := { s.ctl with
    wdogSince := none, wdogExpired := false, faults := { s.ctl.faults with wdog := false } } }

/-- A write of PG_SAFETY.CTRL: setting WDOG_EN starts the count, clearing it stops the watchdog (R76). -/
def safetyCtrl (v : Word) (s : State) : State :=
  let old := getB s (adr pgSafety 0x010) 1
  let s1 := storeRw (adr pgSafety 0x010) v s
  if bit v 1 then
    if old then s1 else { s1 with ctl := { s1.ctl with wdogSince := some s1.tim.powered } }
  else wdogOff s1

/-- A write of MODE_REQ (R317). -/
def modeReq (p : CmdPort) (v : Word) (s : State) : State :=
  if bit v 31 = false then s
  else
    let r : PwrReq := { origin := .modeReq p, sleep := bit v 8, value := BitVec.ofNat 2 (bits v 1 0) }
    match modeVerdict s.ctl.halted s.ctl.mode (if r.sleep then cSleep else cSetLevel) with
    | .reject => endReq r rStateReject 0 (if p = .H then rejectByMode p 0xFFFF s else s)
    | .accept => acceptReq r s
    | .wake => noteWake 3 0xFF (acceptReq r s)

/-- PAD_HOLD_CLR: the balls follow the SHUTTER unit again, once the time island runs (R28, R329). -/
def padHoldClr (v : Word) (s : State) : State :=
  if bit v 0 = true ∧ s.tim.on = true then
    driveShutter { s with ctl := { s.ctl with pins := { s.ctl.pins with timeHeld := false } } }
  else s

/-- RETAIN_ACK (R334). -/
def retainAck (v : Word) (s : State) : State :=
  if bit v 0 then
    setWords (adr pgPower 0x0AC) [0, 0, 0] { s with ctl := { s.ctl with faults := { s.ctl.faults with retain := false } } }
  else s

/-! ### Registers of a cluster -/

/-- RX_CFG_i: VERIFY_SEEN and RESPOND_SEEN tell of the time since MERGE_EN was set (Table 6.2). -/
def rxCfgWrite (a : Nat) (v : Word) (s : State) : State :=
  let s1 := storeRw a v s
  if bit (getReg s a) 10 = false ∧ bit (getReg s1 a) 10 = true then setF (a + 0x20) 11 10 0 s1 else s1

/-- TX_CFG: a write of MERGE_TX_EN restarts verification (R198). -/
def txCfgWrite (p a : Nat) (v : Word) (s : State) : State :=
  let old := bits (getReg s a) 15 14
  let s1 := storeRw a v s
  if bits (getReg s1 a) 15 14 = old then s1 else startVerify p s1

/-- TX_XOFF_SW: software's share of the XOFF request (R197). -/
def txXoffWrite (p a : Nat) (v : Word) (s : State) : State :=
  let old := xoffReq s p
  xoffMoved p old (storeRw a v s)

/-- A MAC page register of home cluster `n`; `w` is the address as written, `a` where the register lives. -/
def macWrite (p : CmdPort) (n w a : Nat) (v : Word) (s : State) : State :=
  let o := offOf a
  if o = 0x0CC then
    if bits v 1 0 = 1 then tblWrite n s else if bits v 1 0 = 2 then tblRead n s else s
  else if 0x080 ≤ o ∧ o < 0x0A0 then rxCfgWrite a v s
  else if 0x200 ≤ o ∧ o < 0x220 then txCfgWrite (8 * n + (o - 0x200) / 4) a v s
  else if 0x240 ≤ o ∧ o < 0x260 then txXoffWrite (8 * n + (o - 0x240) / 4) a v s
  else storePair p w a v s

/-- A SEC page register of home cluster `n`. -/
def secWrite (p : CmdPort) (n w a : Nat) (v : Word) (s : State) : State :=
  let o := offOf a
  if o = 0x130 then keyCmd n v s
  else if o = 0x148 then saRead n v s
  else if 0x080 ≤ o ∧ o < 0x0A0 then secyCfgWrite n ((o - 0x080) / 4) v s
  else if 0x200 ≤ o ∧ o < 0x600 ∧ (o - 0x200) % 32 = 0 then txScWrite n ((o - 0x200) / 32) v s
  else storePair p w a v s

/-! ### Registers of the other islands -/

/-- PG_TIME. -/
def timeWrite (p : CmdPort) (w a : Nat) (v : Word) (s : State) : State :=
  let o := offOf a
  if o = 0x080 then timeCfgWrite v s
  else if o = 0x084 then timeEval (storeRw a v s)
  else if o = 0x0AC then tickCommit p v s
  else if o = 0x0B8 then adjCmd v s
  else storePair p w a v s

/-- PG_SHUTTER. -/
def shutterWrite (p : CmdPort) (w a : Nat) (v : Word) (s : State) : State :=
  let o := offOf a
  if o = 0x0A8 then ringRdWrite 1 v s
  else if 0x100 ≤ o ∧ o < 0x300 ∧ (o - 0x100) % 64 = 4 then chCmd ((o - 0x100) / 64) v s
  else storePair p w a v s

/-- A page of an interrupt target. -/
def targetWrite (p : CmdPort) (t w a : Nat) (v : Word) (s : State) : State :=
  let o := offOf a
  if o = 0x084 then completeWrite t v s
  else if o = 0x088 then prioWrite t v s
  else if o = 0x0A4 then eqCfgWrite t v s
  else if 0x0A8 ≤ o ∧ o < 0x0B8 then eqAddrWrite p t w v s
  else if o = 0x0BC then eqCiWrite t v s
  else storePair p w a v s

/-- PG_FN of function `f`. -/
def fnWrite (f o : Nat) (v : Word) (s : State) : State :=
  if o = 0x080 then fnReset f v s
  else if o = 0x100 then doorbell f false v s
  else if o = 0x104 then doorbell f true v s
  else if o = 0x108 then doorbellCq f v s
  else if o = 0x10C then stableWrite f false v s
  else if o = 0x110 then stableWrite f true v s
  else s

/-- PG_MEMPORT: BASE and SIZE of a valid region are kept (R401). -/
def memWrite (p : CmdPort) (w a : Nat) (v : Word) (s : State) : State :=
  let o := offOf a
  if o = 0x088 then regionWrite v s
  else if 0x090 ≤ o ∧ o < 0x0C0 ∧ regionValid s ((o - 0x090) / 16) = true then s
  else storePair p w a v s

/-- PG_FED: a new MEMBER_ID clears the record of own heartbeats (Table 22.6). -/
def fedWrite (p : CmdPort) (w a : Nat) (v : Word) (s : State) : State :=
  let o := offOf a
  if o = 0x080 then
    let s1 := storeRw a v s
    if ownId s1 = ownId s then s1 else { s1 with fed := { s1.fed with recent := [] } }
  else if o = 0x0B4 then memberRead v s
  else if o = 0x124 then ringRdWrite 2 v s
  else storePair p w a v s

/-- PG_CMD. -/
def cmdWrite (p : CmdPort) (w a : Nat) (v : Word) (s : State) : State :=
  let o := offOf a
  if o = 0x088 then (if bit v 0 then mailboxGo s else s)
  else if o = 0x098 then sheetRequest v s
  else storePair p w a v s

/-- PG_POWER. -/
def powerWrite (p : CmdPort) (o : Nat) (v : Word) (s : State) : State :=
  if o = 0x080 then modeReq p v s
  else if o = 0x0A4 then padHoldClr v s
  else if o = 0x0A8 then retainAck v s
  else s

/-- A page-specific register (offset 0x080 and up) or CTRL, by kind of page; `w` is the address as written, `a` where the
register lives. -/
def pageWrite (p : CmdPort) (w a : Nat) (v : Word) (s : State) : State :=
  let i := pageInfo (pageOf a)
  let o := offOf a
  match i.kind with
  | .cmd => cmdWrite p w a v s
  | .safety => if o = 0x010 then safetyCtrl v s else storePair p w a v s
  | .power => powerWrite p o v s
  | .fixer => if o = 0x0C0 then jrnlRead v s else storePair p w a v s
  | .cal => if o = 0x088 then calCmd v freeImage s else if o = 0x0A0 then nvRead v s else storePair p w a v s
  | .fed => fedWrite p w a v s
  | .time => timeWrite p w a v s
  | .shutter => shutterWrite p w a v s
  | .cv => if o = 0x0AC then jobCmd i.inst v s else storePair p w a v s
  | .irqCtrl => if o = 0x084 then routeCmd v s else storePair p w a v s
  | .irqPend =>
    if 0x300 ≤ o then pendClrWrite ((o - 0x300) / 4) v s
    else if 0x200 ≤ o then pendSetWrite ((o - 0x200) / 4) v s else storePair p w a v s
  | .irqMask =>
    if 0x300 ≤ o then maskClrWrite ((o - 0x300) / 4) v s
    else if 0x200 ≤ o then maskSetWrite ((o - 0x200) / 4) v s else storePair p w a v s
  | .irqT => targetWrite p i.inst w a v s
  | .loupe =>
    if o = 0x080 then (if bit v 0 then loupeSnap s else s)
    else if o = 0x090 then ringRdWrite 0 v s else storePair p w a v s
  | .loupeBank =>
    if 0x100 ≤ o then loupeCfg (128 * i.inst + (o - 0x100) / 4) v s
    else if 0x0C0 ≤ o then loupeClr i.inst ((o - 0x0C0) / 4) v s else storePair p w a v s
  | .memport => memWrite p w a v s
  | .mac => macWrite p i.inst w a v s
  | .pcs => if o = 0x0A0 then reconfGo i.inst v s else storePair p w a v s
  | .sec => secWrite p i.inst w a v s
  | .spread =>
    if o = 0x08C then quarterWrite v s else if o = 0x090 then pipeTestGo v s else storePair p w a v s
  | .cls => if o = 0x080 then rowRead v s else storePair p w a v s
  | .flowkey => if o = 0x080 then seedWrite v s else storePair p w a v s
  | .dma0 => if o = 0x084 then ctxCmd v s else storePair p w a v s
  | .dmaFn => if 0x800 ≤ o then fnCfgWrite ((o - 0x800) / 4) v s else storePair p w a v s
  | .fn => fnWrite i.inst o v s
  | _ => storePair p w a v s

/-- The effect of an accepted write of `v` at window offset `w` from port `p`. -/
def regWrite (p : CmdPort) (w : Nat) (v : Word) (s : State) : State :=
  let a := aliasOf s w
  let page := pageOf a
  let o := offOf a
  if o = 0x028 then evtSet page v s
  else if o = 0x02C then evtClr page v s
  else if o = 0x034 then evtMaskSet page v s
  else if o = 0x038 then evtMaskClr page v s
  else if o = 0x03C then evtCntSel page v s
  else
    match snapOff (pageInfo page).kind with
    | some k =>
      if o = k then snapWrite page v s
      else if o = k + 4 then clearWrite page v s
      else pageWrite p w a v s
    | none => pageWrite p w a v s

/-! ### Accesses that waited for a wake (R29, R41, R358) -/

/-- One stalled access is served. -/
def serveAccess (x : Access) (s : State) : State :=
  match x.data with
  | some v => gatedWrite x.port x.addr true v (regWrite x.port x.addr v) s
  | none => gatedRead x.port x.addr true (regRead x.port x.addr) s

/-- Stalled accesses are served in the order in which they arrived; what still has to wait stalls again. -/
def serveStalled (s : State) : State :=
  s.cmd.stalled.foldl (fun x y => serveAccess y x) { s with cmd := { s.cmd with stalled := [] } }

/-- PAD_HOLD_CLR (R28): a write of PAD_HOLD_CLR from port `p`. -/
def execPadHoldClr (p : CmdPort) (v : Word) (s : State) : Out :=
  .next (gatedWrite p (adr pgPower 0x0A4) true v (padHoldClr v) s)

/-- RETAIN_ACK (R334): a write of RETAIN_ACK from port `p`. -/
def execRetainAck (p : CmdPort) (v : Word) (s : State) : Out :=
  .next (gatedWrite p (adr pgPower 0x0A8) true v (retainAck v) s)

end Sys2Proof.Machine
end

