-- ==== Sys2Proof/Machine/CmdExec.lean ====
section
/-! DEFINITION. What a command does once it has a place on its port: the mode check, the argument check and the execution of
every command of Table 4.2 (04_command_ports.md R69-R72, R412; 03_operating_modes.md R51-R62). -/

namespace Sys2Proof.Machine

/-! ### RESTORE_FACTORY (R373, R408, Table 21.6) -/

/-- Every register that the overlay can set takes its factory value; PORT_CFG waits for its clusters (R368). -/
def factoryRegs (s : State) : State :=
  let s1 := loadCal overlay0 (List.range 64) true false (timeCfgWrite (regReset (timA 0x080)) s)
  let s2 := (List.range 64).foldl
    (fun x n => setWords (adr (pgCl n 1) 0x080) (List.replicate 8 factoryPort) x) s1
  timeEval (if ownId s2 = ownId s then s2 else { s2 with fed := { s2.fed with recent := [] } })

/-- Every cluster of a list applies the factory map (R89). -/
def factoryMaps : List Nat → State → State
  | [], s => s
  | n :: r, s =>
    match reconfStart n 0xFF (List.replicate 8 factoryPort) true s with
    | (s1, true) => factoryMaps r s1
    | (s1, false) => factoryMaps r { s1 with nv := { s1.nv with restoreBad := true } }

/-- The factory maps are in force, or refused: the factory list replaces the list in force, unless a cluster refused. -/
def restoreEnd (p : CmdPort) (s : State) : State :=
  if s.prt.reconf.any (fun x => x.2.factory && !x.2.restarted) then s
  else
    let bad := s.nv.restoreBad
    let l := if bad then s.nv.safeList else factoryList
    let s1 := { s with nv := { s.nv with restore := none, restoring := false, restoreBad := false, safeList := l } }
    if bad then finishCmd p rFailed [0x51] s1 else finishCmd p rOk [] (hwEvent pgCal 2 s1)

/-- The empty overlay is written, and its effect by mode. -/
def restoreErase (p : CmdPort) (s : State) : State :=
  let s1 := setF (calA 0x080) 3 2 0 (overlayWritten (eraseOverlay (countOverlay s)))
  let s2 := { s1 with nv := { s1.nv with user := none } }
  if s2.ctl.entry.isSome ∨ s2.ctl.mode = .safelight then
    finishCmd p rFailed [0x51] { s2 with nv := { s2.nv with restore := none, restoreDeferred := true } }
  else
    match s2.ctl.mode with
    | .proof =>
      finishCmd p rOk [] (hwEvent pgCal 2 { s2 with nv := { s2.nv with
        restore := none, settings := calSettings overlay0, roles := [], safeList := factoryList } })
    | _ =>
      restoreEnd p (factoryMaps (List.range 64)
        (factoryRegs { s2 with nv := { s2.nv with restoring := true, restoreBad := false } }))

/-- RESTORE_FACTORY goes on as far as it can now. -/
def restoreStep (s : State) : State :=
  match s.nv.restore with
  | none => s
  | some p =>
    if s.nv.restoring then restoreEnd p s
    else if s.nv.write.isSome || s.fix.mig.isSome || !s.prt.reconf.isEmpty || s.cls.load.isSome || nvUnderTest s then s
    else restoreErase p s

/-! ### TEST_START (R60, R361) -/

/-- A unit entry of Table 20.2; none where it is outside Table 20.1 or breaks a rule of R361. -/
def testUnit (scan : Bool) (d : List Byte) : Option TestJob :=
  let t := (byteAt d 0).toNat
  let u := (byteAt d 1).toNat
  let l := (byteAt d 2).toNat
  let k := (byteAt d 3).toNat
  let unitOk := match t with
    | 0 => decide (u ≤ 65) && decide (l ≤ 8)
    | 1 => decide (u ≤ 65)
    | 2 => decide (u ≤ 47)
    | 3 => decide (u ≤ 3)
    | 4 => u == 70 || u == 71
    | _ => false
  if unitOk && (t == 0 || l == 0xFF) && decide (k < 4) && (k != 0 || scan) then
    some { unit := { type := t, unit := u, slice := l }, tests := k, origin := 0 }
  else none

/-- The unit entries of a TEST_START. -/
def testUnits (scan : Bool) : Nat → List Byte → Option (List TestJob)
  | 0, _ => some []
  | n + 1, d =>
    match testUnit scan (d.take 4), testUnits scan n (d.drop 4) with
    | some j, some r => if r.any (fun x => x.unit == j.unit) then none else some (j :: r)
    | _, _ => none

/-- The arguments of TEST_START (Table 20.2): its list and SCAN, or none where R361 or R412 gives BAD_ARGS. -/
def testArgs (a : List Byte) : Option (List TestJob × Bool) :=
  let n := (byteAt a 0).toNat
  let f := (byteAt a 1).toNat
  if a.length = 4 + 4 * n ∧ 1 ≤ n ∧ n ≤ 16 ∧ f < 2 ∧ leField a 2 2 = 0 then
    (testUnits (f == 1) n (a.drop 4)).map (fun l => (l, f == 1))
  else none

/-- Must the traffic of a listed unit be handed to a spare: it is in service and some port it serves is up (R60)? -/
def needsSpare (s : State) (u : UnitId) : Bool :=
  inService s u && (u.type == 2 || (unitPorts s u).any (portUp s))

/-- Is the unit part of the migration under way (Table 19.6)? -/
def underMigration (s : State) (u : UnitId) : Bool :=
  match s.fix.mig with
  | some m => m.dec.unit == u || spareUnit m.dec.unit m.spare == u
  | none => false

/-- The spares that the listed units themselves are: 8 for a slice 8 of home `n`, a spare cluster or a pipe. -/
def spareNo (n : Nat) (u : UnitId) : Nat :=
  match u.type with
  | 0 => if u.slice = 8 ∧ u.unit = n then 8 else 0x80
  | 1 => u.unit
  | _ => 0x80

/-- Spares already spoken for, as they bear on unit `u`. -/
def takenFor (u : UnitId) (taken : List UnitId) : List Nat :=
  if u.type = 2 then (taken.filter (fun x => x.type == 2)).map (fun x => x.unit) else taken.map (spareNo u.unit)

/-- Every listed unit that carries traffic finds a spare of its own (R60, R361). -/
def sparesFor (s : State) : List TestJob → List UnitId → Bool
  | [], _ => true
  | j :: r, taken =>
    if j.unit.type < 3 ∧ needsSpare s j.unit = true then
      match chooseSpare s (newDecision j.unit 0 0) (takenFor j.unit taken) with
      | .use u x => sparesFor s r (spareUnit u x :: taken)
      | _ => false
    else sparesFor s r taken

/-- Every port is down. -/
def allDown (s : State) : Bool := (List.range 512).all (fun p => !portUp s p)

/-- Every transmit and receive queue is disabled. -/
def queuesOff (s : State) : Bool :=
  s.dma.txq.all (fun x => !ctxOn x.2.word2) && s.dma.rxq.all (fun x => !ctxOn x.2.word2)

/-- The conditions of R60 and R361 at the mode check; one transition at a time (R47). -/
def testAllowed (s : State) (l : List TestJob) : Bool :=
  s.ctl.target.isNone && sparesFor s l (l.map (fun j => j.unit))
    && l.all (fun j => !underMigration s j.unit
      && (j.unit.type != 4 || (allDown s && (j.unit.unit == 70 || queuesOff s))))

/-- FIXER is to move a listed unit's traffic; an urgent or forced decision for it stands. -/
def handOff (u : UnitId) (s : State) : State :=
  if s.fix.queue.any (fun d => d.unit == u && d.kind != 0) then s
  else
    { s with fix := { s.fix with
        queue := s.fix.queue.filter (fun d => !(d.unit == u)) ++ [{ newDecision u 0 0 with op := 5 }] } }

/-- A listed unit leaves service (R60): through a spare, or at once where all its ports are down. -/
def leaveService (s : State) : List TestJob → State → State
  | [], x => x
  | j :: r, x =>
    leaveService s r (
      if 3 ≤ j.unit.type then x
      else if needsSpare s j.unit then handOff j.unit x
      else if inService s j.unit then retire j.unit 0 x else x)

/-- TEST_START past its argument check. -/
def startTest (p : CmdPort) (l : List TestJob) (scan : Bool) (s : State) : State :=
  if scan ∧ p ≠ .M then finishCmd p rFailed [0x40] s
  else if scan ∧ getB s (darkA 0x088) 2 = true then finishCmd p rFailed [0x41] s
  else
    let s1 := leaveService s l (setReg (darkA 0x084) (word (l.length * 256)) s)
    { s1 with
      dark := { s1.dark with list := l, scan := scan, testPort := some p, results := [], ending := false }
      ctl := { s1.ctl with target := some .test } }

/-- TEST_ABORT (R362, Table 20.3). -/
def abortTest (p : CmdPort) (s : State) : State :=
  let s1 := closeGate (dropWaiting (cutTest 2 s))
  finishCmd p rOk [] (endTest { s1 with dark := { s1.dark with wait := [] } })

/-! ### SAFELIGHT_ENTER and SAFELIGHT_EXIT (R59, R66, R413) -/

/-- Wake source and location of a command (Table 18.6). -/
def wakeOf (q : Req) : Nat × Nat :=
  match q.port with
  | .M => (2, 14)
  | .F => (6, q.ingress / 8)
  | .W => (4, q.ingress / 8)
  | _ => (3, 0xFF)

/-- SAFELIGHT_ENTER. Its result waits for the entry, but for one issued in SAFELIGHT. -/
def safeEnter (q : Req) (s : State) : State :=
  if q.port = .F ∧ getB s (fedA 0x010) 1 = false then finishReq q rPolicyOff [] s
  else
    let s1 := safeTrigger (if q.port = .F then 3 else 2) (wakeOf q).1 (wakeOf q).2 s
    match s.ctl.mode with
    | .safelight => finishReq q rOk [] s1
    | _ => s1

/-- The map that RUN will have in home cluster `n`: one that a deferred step 6 is still to load, or the live one (R59). -/
def exitMap (s : State) (n : Nat) : List Shape :=
  if s.ctl.deferred ≠ 0 ∧ s.ctl.warm = false ∧ s.pwr.off.contains (serving s n) = true then
    (calMap (calInForce s) n).map shapeOf
  else liveMap s n

/-- Every cluster that RUN will power up meets a level (R59, R88). -/
def exitFits (s : State) (pl : Nat) : Bool :=
  pl == 0 || (List.range 64).all (fun n => !carries s (serving s n) || mapMeets (exitMap s n) pl)

/-- SAFELIGHT_EXIT past its argument check (R59). -/
def safeExit (pl : BitVec 2) (s : State) : State :=
  if s.ctl.pins.alarmLevel then finishCmd .M rAlarmHeld [] s
  else if exitFits s pl.toNat = false then finishCmd .M rFailed [0x01] s
  else { s with ctl := { s.ctl with exit := some pl, target := some .run } }

/-! ### REG_READ and REG_WRITE (R62, R69) -/

/-- The window offsets of a register command. -/
def cmdAddrs (a : List Byte) : List Nat := (List.range (min 16 (byteAt a 4).toNat)).map (fun k => leField a 0 4 + 4 * k)

/-- Does a word need a domain that sleeps, or wait for a privileged unit under test (Table 3.6, R358)? -/
def readWaits (s : State) (a : Nat) : Bool :=
  let page := pageOf a
  match (pageInfo page).kind with
  | .reserved => false
  | _ =>
    privTest s page ||
      ((decide (s.ctl.mode = Mode.still) || s.pwr.entering) && decide ((pageInfo page).domain ≠ .ao) && decide (0x010 ≤ offOf a))

/-- Check 1 of R410 judges alignment on port H only; a word of another port at an offset that no register has is one at a
reserved offset (R40). -/
def wordOk (p : CmdPort) (a : Nat) : Bool := p != .H || a % 4 == 0

/-- One register of a REG_READ. -/
def readWord (p : CmdPort) (a : Nat) (s : State) : Word × State :=
  match readVerdict s p a (wordOk p a) with
  | .served => if a % 4 = 0 then regRead p a (wakeQuarter a s) else (0, s)
  | .badAccess => (0, recordBad false a s)
  | .off => (0, addF (adr pgBlock 0x088) 31 0 1 s)
  | _ => (0, s)

/-- The registers of a REG_READ, in order. -/
def readWords (p : CmdPort) : List Nat → State → List Byte × State
  | [], s => ([], s)
  | a :: r, s =>
    let x := readWord p a s
    let y := readWords p r x.2
    (leBytes x.1.toNat 4 ++ y.1, y.2)

/-- The words of a REG_WRITE, in order: whether one was denied (R69). -/
def writeWords (p : CmdPort) : List Nat → List Byte → State → Bool × State
  | [], _, s => (false, s)
  | a :: r, d, s =>
    let v := word (leField d 0 4)
    let ok := wordOk p a
    let y := writeWords p r (d.drop 4) (gatedWrite p a ok v (regWrite p a v) s)
    (decide (writeVerdict s p a ok = .denied) || y.1, y.2)

/-! ### FORCE_REPAIR (R351) -/

/-- The decision that FORCE_REPAIR asks for; none where R351 gives BAD_ARGS. -/
def repairArgs (a : List Byte) : Option Decision :=
  let op := (byteAt a 0).toNat
  let t := (byteAt a 1).toNat
  let u := (byteAt a 2).toNat
  let l := (byteAt a 3).toNat
  let sp := (byteAt a 4).toNat
  let unitOk := match t with
    | 0 => decide (u ≤ 65) && decide (l ≤ 8)
    | 1 => decide (u ≤ 65)
    | 2 => decide (u ≤ 47)
    | _ => false
  let spareOk := sp == 0xFF || (match t with
    | 0 => sp == 8
    | 1 => sp == 64 || sp == 65
    | _ => decide (sp ≤ 47))
  if 1 ≤ op ∧ op ≤ 4 ∧ unitOk = true ∧ spareOk = true ∧ leField a 6 2 = 0 then
    some { unit := { type := t, unit := u, slice := if t = 0 then l else 0xFF }, kind := 2, cause := 6, op := op
           spare := sp, shadow := byteAt a 5 == 1, testOnly := false, forced := true, detail := 0 }
  else none

/-- FORCE_REPAIR past its argument check: it joins the queue, or the queue is full (Table 19.6). -/
def forceRepair (d : Decision) (s : State) : State :=
  if queuedUnit s d.unit = false ∧ 16 ≤ s.fix.queue.length then finishCmd .M rFailed [0x36] s
  else queueDecision d s

/-! ### VERSION_LOAD and VERSION_COMMIT (R176, R177) -/

/-- VERSION_LOAD past R412. -/
def versionLoad (p : CmdPort) (a : List Byte) (s : State) : State :=
  let l : Load := { port := p, slot := (byteAt a 12).toNat, len := leField a 8 4, addr := leField a 0 8, fn := leField a 14 2 }
  if 3 < l.slot ∨ 255 < l.fn ∨ l.addr % 64 ≠ 0 ∨ l.len < 68 then finishCmd p rBadArgs [] s
  else if slotState s l.slot ≠ 0 then finishCmd p rFailed [0x10] s
  else if s.cls.load.isSome then finishCmd p rFailed [0x11] s
  else
    readRange (fnChan s l.fn) l.addr 64
      (setReg (adr pgVersion 0x0A0) (loadStatus 0 0 l.slot 1) { s with cls := { s.cls with load := some l } })

/-- A timed commit at acceptance: OK, and COMMIT_STATUS pending; one already past waits for the next boundary. -/
def commitAt (p : CmdPort) (v sec ns : Nat) (s : State) : State :=
  let late := decide ((sec * 1000000000 + ns) * nsUnit ≤ s.tim.tod)
  let s1 := setReg (adr pgVersion 0x0B0) (word ns) (setPair (adr pgVersion 0x0A8) sec
    (setReg (adr pgVersion 0x0A4) (commitStatus 0 false v 1)
      { s with cls := { s.cls with commit := some { slot := v, now := none, late := late, before := getReg s (adr pgVersion 0x0A4) } } }))
  finishCmd p rOk [] s1

/-- OP 2: a LOADED slot is cleared (R177, R180). -/
def discardSlot (p : CmdPort) (v : Nat) (s : State) : State :=
  let named := match s.cls.commit with
    | some c => c.slot == v
    | none => false
  if slotState s v ≠ 1 then finishCmd p rFailed [0x20] s
  else if named then finishCmd p rFailed [0x22] s
  else finishCmd p rOk [] (hwEvent pgVersion 4 (freeSlot v s))

/-- VERSION_COMMIT past R412. -/
def versionCommit (p : CmdPort) (a : List Byte) (s : State) : State :=
  let v := (byteAt a 0).toNat
  let op := (byteAt a 1).toNat
  let ns := leField a 8 4
  if 3 < v ∨ 2 < op ∨ (op = 1 ∧ 1000000000 ≤ ns) then finishCmd p rBadArgs [] s
  else if op = 2 then discardSlot p v s
  else
    match commitRefusal s v s.cls.commit.isSome (op == 1) with
    | some k => finishCmd p rFailed [BitVec.ofNat 8 k] s
    | none =>
      if op = 1 then commitAt p v (leField a 2 6) ns s
      else
        setReg (adr pgVersion 0x0A4) (commitStatus 0 false v 1)
          { s with cls := { s.cls with commit := some { slot := v, now := some p, late := false, before := getReg s (adr pgVersion 0x0A4) } } }

/-! ### Step 6: the mode (R62, Table 3.6) -/

/-- What step 6 decides: go on, refuse, or wait for a wake or a restore. -/
inductive Gate
  | go | reject | wait
  deriving DecidableEq, Repr

/-- The verdict on a REG_WRITE as a whole. -/
def writeGate (s : State) (l : List Nat) : Gate :=
  let bad := match s.ctl.mode with
    | .proof => l.any (fun a => decide ((pageInfo (pageOf a)).domain ≠ Domain.ao))
    | .run => l.any (fun a => s.prt.testPages.contains (pageOf a))
    | .test => l.any (fun a => s.prt.testPages.contains (pageOf a))
    | _ => false
  if bad then .reject
  else if s.ctl.mode = Mode.still ∨ s.pwr.entering = true ∨ l.any (fun a => privTest s (pageOf a)) = true then .wait
  else .go

/-- Commands that a sleep entry under way does not hold up (R30, R54, R321). -/
def runsEntering (c : BitVec 16) : Bool := c == cSetLevel || c == cSleep || c == cSafeEnter

/-- Step 6 for every other command. -/
def modeGate (s : State) (q : Req) : Gate :=
  match modeVerdict s.ctl.halted s.ctl.mode q.code with
  | .reject => .reject
  | .wake => .wait
  | .accept =>
    if s.pwr.entering && !runsEntering q.code then .wait
    else if q.code = cTestStart then
      match testArgs q.args with
      | some x => if testAllowed s x.1 then .go else .reject
      | none => .go
    else if q.code = cRestore ∧ s.nv.restore.isSome = true then .wait
    else .go

/-- Step 6. -/
def gateOf (s : State) (q : Req) : Gate :=
  if q.code = cRegRead then (if (cmdAddrs q.args).any (readWaits s) then .wait else .go)
  else if q.code = cRegWrite then writeGate s (cmdAddrs q.args)
  else modeGate s q

/-- A level or sleep request as a command spells it. -/
def pwrReqOf (q : Req) : PwrReq :=
  { origin := .command q.port, sleep := q.code == cSleep, value := BitVec.ofNat 2 (byteAt q.args 0).toNat }

/-- A command refused by mode (R62); a refused request shows in REQ_STATUS too (R317). -/
def rejectCmd (q : Req) (s : State) : State :=
  let s1 := rejectByMode q.port q.code.toNat s
  if q.code = cSetLevel ∨ q.code = cSleep then endReq (pwrReqOf q) rStateReject 0 s1 else finishReq q rStateReject [] s1

/-! ### Steps 7 and 8 -/

/-- The LENGTH that a command must have, and its reserved bytes (R412); TEST_START and FORCE_REPAIR have their own. -/
def argsOk (q : Req) : Bool :=
  let a := q.args
  let n := (byteAt a 4).toNat
  if q.code = cRegRead then a.length == 5 && decide (1 ≤ n) && decide (n ≤ 16)
  else if q.code = cRegWrite then
    a.length == 8 + 4 * n && decide (1 ≤ n) && decide (n ≤ 16) && leField a 5 3 == 0
  else if q.code = cSetLevel then a.length == 1 && decide ((byteAt a 0).toNat ≤ 3)
  else if q.code = cSleep then a.length == 1 && decide ((byteAt a 0).toNat ≤ 3) && byteAt a 0 != 0
  else if q.code = cSafeExit then a.length == 1 && decide ((byteAt a 0).toNat ≤ 3)
  else if q.code = cTestStart then (testArgs a).isSome
  else if q.code = cForceRepair then a.length == 8 && (repairArgs a).isSome
  else if q.code = cLoad then a.length == 16 && byteAt a 13 == 0
  else if q.code = cCommit then a.length == (if byteAt a 1 = 1 then 12 else 2)
  else a.isEmpty

/-- Step 8 of the commands on registers, levels and modes. -/
def runBasic (q : Req) (s : State) : State :=
  if q.code = cRegRead then
    let x := readWords q.port (cmdAddrs q.args) s
    finishReq q rOk x.1 x.2
  else if q.code = cRegWrite then
    let x := writeWords q.port (cmdAddrs q.args) (q.args.drop 8) s
    finishReq q (if x.1 then rPageDenied else rOk) [] x.2
  else if q.code = cSetLevel ∨ q.code = cSleep then acceptReq (pwrReqOf q) s
  else if q.code = cSafeEnter then safeEnter q s
  else if q.code = cSafeExit then safeExit (BitVec.ofNat 2 (byteAt q.args 0).toNat) s
  else s

/-- Step 8: execution. -/
def runCmd (q : Req) (s : State) : State :=
  if q.code = cTestStart then
    match testArgs q.args with
    | some x => startTest q.port x.1 x.2 s
    | none => s
  else if q.code = cTestAbort then abortTest q.port s
  else if q.code = cStepArm then
    finishReq q rOk []
      (if s.tim.stepOnce then { s with tim := { s.tim with stepArmed := true, armM := true } } else s)
  else if q.code = cForceRepair then
    match repairArgs q.args with
    | some d => forceRepair d s
    | none => s
  else if q.code = cRestore then restoreStep { s with nv := { s.nv with restore := some q.port } }
  else if q.code = cLoad then versionLoad q.port q.args s
  else if q.code = cCommit then versionCommit q.port q.args s
  else runBasic q s

/-- The executing place of a port holds the command as started. -/
def markStarted (q : Req) (s : State) : State :=
  setPort q.port { portOf s q.port with exec := some { req := q, started := true } } s

/-- Steps 6 to 8 of a command in its executing place. -/
def tryRun (q : Req) (s : State) : State :=
  match gateOf s q with
  | .wait => noteWake (wakeOf q).1 (wakeOf q).2 s
  | .reject => rejectCmd q s
  | .go => if argsOk q then runCmd q (markStarted q s) else finishReq q rBadArgs [] s

/-! ### The ports at work (R71, R72) -/

/-- A port takes its waiting command where its executing place is free, and tries a command that has not started. -/
def startPort (p : CmdPort) (s : State) : State :=
  let x := portOf s p
  match x.exec, x.wait with
  | some run, _ => if run.started then s else tryRun run.req s
  | none, some q => tryRun q (setPort p { x with exec := some { req := q, started := false }, wait := none } s)
  | none, none => s

/-- The ports in the order of R72, `n` times over. -/
def servePorts : Nat → State → State
  | 0, s => s
  | n + 1, s => servePorts n ([CmdPort.W, .H, .F, .S, .M].foldl (fun x p => startPort p x) s)

/-- A CONTACT_SHEET that carries arguments (R412). -/
def badSheet (q : Req) (s : State) : State :=
  let x := portOf s q.port
  deliver q { code := q.code, seq := q.seq, result := rBadArgs, dup := false, data := [] } none
    (setPort q.port { x with tags := storeResult q.seq rBadArgs [] x.tags } s)

/-- An accepted CONTACT_SHEET is executed at once; asleep it wakes the complex first (Table 3.6). -/
def serveSheet (q : Req) (s : State) : State :=
  if s.ctl.mode = Mode.still ∨ s.pwr.entering = true then
    noteWake (wakeOf q).1 (wakeOf q).2 { s with cmd := { s.cmd with sheets := s.cmd.sheets ++ [q] } }
  else if q.args = [] then genSheet q s
  else badSheet q s

def serveSheets (s : State) : State :=
  s.cmd.sheets.foldl (fun x q => serveSheet q x) { s with cmd := { s.cmd with sheets := [] } }

/-- Has a port a command that could start? -/
def portWork (x : PortState) : Bool :=
  match x.exec, x.wait with
  | some run, _ => !run.started
  | none, some _ => true
  | none, none => false

/-- Is there work at the command ports? -/
def cmdWork (s : State) : Bool :=
  portsServed s && (!s.cmd.sheets.isEmpty || portWork s.cmd.h || portWork s.cmd.s || portWork s.cmd.m
    || portWork s.cmd.f || portWork s.cmd.w || s.nv.restore.isSome || !s.fed.outbox.isEmpty)

/-- The command ports do what they can now. -/
def settle (s : State) : State :=
  if cmdWork s then fedFlush (servePorts 3 (restoreStep (serveSheets s))) else s

end Sys2Proof.Machine
end

