-- ==== Sys2Proof/Machine/Commands.lean ====
section
/-! DEFINITION. The commands of Table 4.2 as they arrive at the five ports, the safety link, and the events of version
loads and commits. Rows 13 to 44 (04_command_ports.md R64-R83, 09_classifier_and_versions.md R176-R180). -/

namespace Sys2Proof.Machine

/-! ### The safety link (R74-R76) -/

/-- The safety link receives transactions: not in HOLD, not before PROOF step 1, and only while enabled (R76, Table 4.7a). -/
def linkOn (s : State) : Bool := answers s && getB s (adr pgSafety 0x010) 0

/-- The watchdog may count: from the end of step 3 of a cold PROOF on (R76). -/
def wdogCounts (s : State) : Bool :=
  getB s (adr pgSafety 0x010) 1 &&
    match s.ctl.mode with
    | .hold => false
    | .proof => s.ctl.warm || decide (3 ≤ s.ctl.proof.step)
    | _ => true

/-- A valid frame (R75, R76, R325, Table 18.6). -/
def linkFrame (s : State) : State :=
  let s1 := setPair (adr pgSafety 0x094) s.tim.powered (addF (adr pgSafety 0x088) 31 0 1 s)
  noteWake 2 14 (cancelSleep { s1 with ctl := { s1.ctl with
    wdogExpired := false, wdogSince := if wdogCounts s1 then some s1.tim.powered else none
    faults := { s1.ctl.faults with wdog := false } } })

/-- A transaction that fails step 1 (R75). -/
def linkError (s : State) : State :=
  hwEvent pgSafety 0 (addF (adr pgSafety 0x08C) 31 0 1 { s with cmd := { s.cmd with slkLast := .bad } })

/-- The record of port M's most recent CONTACT_SHEET, if it has this tag. -/
def sheetOf (s : State) (seq : BitVec 16) : Option (List Byte) :=
  match s.cmd.m.sheet with
  | some (tag, body) => if tag = seq then some body else none
  | none => none

/-- A result stored on port M under a tag (items 1 and 3 of R74). -/
def pollStored (s : State) (seq : BitVec 16) (t : TagEntry) (res : Byte) (data : List Byte) : Resp :=
  let r : Resp := { code := t.code, seq := seq, result := res, dup := t.dup, data := data }
  if t.code = cSheet ∧ res = rOk then
    match sheetOf s seq with
    | some body => { r with data := body }
    | none => { r with dup := false, data := [] }
  else r

/-- Does port M hold a command of this tag that waits or executes, its tag entry evicted or not (item 2 of R74)? -/
def pollRuns (s : State) (seq : BitVec 16) : Bool :=
  (match s.cmd.m.exec with | some x => x.req.seq == seq | none => false)
    || (match s.cmd.m.wait with | some q => q.seq == seq | none => false)
    || s.cmd.sheets.any (fun q => q.port == .M && q.seq == seq)

/-- What a POLL of a tag finds: STATUS 0 UNKNOWN, 1 WAITING or EXECUTING, 2 READY with the response (R74). -/
def pollAnswer (s : State) (seq : BitVec 16) : Nat × Option Resp :=
  match (findTag seq s.cmd.m.tags).map (fun t => (t, t.done)), sheetOf s seq with
  | some (t, some (res, data)), _ => (2, some (pollStored s seq t res data))
  | some (_, none), _ => (1, none)
  | none, some body => (2, some { code := cSheet, seq := seq, result := rOk, dup := false, data := body })
  | none, none =>
    if pollRuns s seq then (1, none)
    else
      match s.cmd.unstored with
      | some r => if r.seq = seq then (2, some r) else (0, none)
      | none => (0, none)

/-- STATUS of the port's last transaction (R74). Before the first transaction after HOLD there is none, and R74 does not say
what the octets then are: the model drives 0x00 UNKNOWN (DESIGN CHOICE, log 16). -/
def linkStatus (s : State) : Byte :=
  match s.cmd.slkLast with
  | .none => 0x00
  | .bad => 0x03
  | .tag q => BitVec.ofNat 8 (pollAnswer s q).1

/-- The octets that follow the CRC of a POLL: turnaround, STATUS, and where READY the response with its CRC-32C. -/
def pollOctets (s : State) (seq : BitVec 16) : List Byte :=
  match pollAnswer s seq with
  | (st, some r) => let d := BitVec.ofNat 8 st :: respBytes r; 0xFF :: (d ++ leBytes (crc32c d) 4)
  | (st, none) => [0xFF, BitVec.ofNat 8 st]

/-- SLK_CS_N as LINK_STATUS.CS_ACTIVE shows it between commands. -/
def setCs (low : Bool) (s : State) : State :=
  { s with ctl := { s.ctl with pins := { s.ctl.pins with csLow := low } } }

/-- SLK_POLL (R74, R75): a POLL for a tag; `whole`: it passes step 1. Its transaction ends with SLK_CS_N high. -/
def execSlkPoll (seq : BitVec 16) (whole : Bool) (s0 : State) : Out :=
  .next (
    let s := setCs false s0
    if linkOn s then
      if whole then
        settle (linkFrame (emit (.slk (pollOctets s seq)) { s with cmd := { s.cmd with slkLast := .tag seq } }))
      else linkError s
    else s)

/-- SLK_CS_TIMEOUT (R75): SLK_CS_N has been low for more than 50 ms, and stays low until the next transaction. -/
def execSlkCsTimeout (s : State) : Out := .next (if linkOn s then linkError (setCs true s) else setCs true s)

/-- SLK_WDOG_EXPIRY (R76): 100 ms have passed since the count began. -/
def execSlkWdogExpiry (s : State) : Out :=
  .next (
    if wdogCounts s && s.ctl.wdogSince.isSome then
      hwEvent pgSafety 1 (addF (adr pgSafety 0x090) 15 0 1 { s with ctl := { s.ctl with
        wdogSince := none, wdogExpired := true, faults := { s.ctl.faults with wdog := true } } })
    else s)

/-- SAFETY_CTRL_WRITE (R76): a write of PG_SAFETY.CTRL from port `p`; `ok`: a naturally aligned 32-bit access. -/
def execSafetyCtrlWrite (p : CmdPort) (ok : Bool) (v : Word) (s : State) : Out :=
  .next (settle (gatedWrite p (adr pgSafety 0x010) ok v (safetyCtrl v) s))

/-! ### How a command arrives (R64, R68, R73, R78-R80) -/

/-- The request that a row spells on port `p`. -/
def requestOf (a : Arrival) (p : CmdPort) (code : BitVec 16) (args : List Byte) : Req :=
  { port := p, code := a.code.getD code, seq := a.seq, args := args, ingress := a.ingress
    source := a.source, relayed := none, sheetReq := false }

/-- A window write from port H or a word of the mailbox (R410). -/
def writeH (a : Nat) (v : Word) (s : State) : State := gatedWrite .H a true v (regWrite .H a v) s

/-- The words of MB_ARGS. -/
def writeArgs (i : Nat) : List Word → State → State
  | [], s => s
  | w :: r, s => writeArgs (i + 1) r (writeH (adr pgCmd (0x100 + 4 * i)) w s)

/-- Port H: MB_HDR, MB_LEN, MB_ARGS and MB_GO are written, or SHEET_REQ (R73). -/
def arriveH (a : Arrival) (code : BitVec 16) (args : List Byte) (s : State) : State :=
  if a.sheetReq then writeH (adr pgCmd 0x098) (word a.seq.toNat) s
  else
    let h := word ((a.code.getD code).toNat + 65536 * a.seq.toNat)
    writeH (adr pgCmd 0x088) 1
      (writeArgs 0 (wordsOf args 0 ((min args.length 256 + 3) / 4))
        (writeH (adr pgCmd 0x084) (word args.length) (writeH (adr pgCmd 0x080) h s)))

/-- Port M: a COMMAND transaction; SLK_DOUT repeats the STATUS of the last one (R74, R75). -/
def arriveM (a : Arrival) (code : BitVec 16) (args : List Byte) (s : State) : State :=
  if linkOn s then
    let s1 := emit (.slk (List.replicate (14 + args.length) (linkStatus s))) s
    if a.whole && decide (args.length ≤ 256) then
      takeCommand (requestOf a .M code args) (linkFrame { s1 with cmd := { s1.cmd with slkLast := .tag a.seq } })
    else linkError s1
  else s

/-- A command frame is received on this port only while the port carries frames (R80); in DIM the row stands for a frame that
the wake logic matches, and none is received once a wake has begun (R121, R122, log 15). -/
def frameReceived (s : State) (p : Nat) : Bool :=
  match s.ctl.mode with
  | .run => portUp s p && !quiescing s && !s.prt.stopped.contains p
  | .test => portUp s p && !s.prt.stopped.contains p
  | .safelight => portUp s p && !s.prt.stopped.contains p && !safeStopped s p
  | .still => decide (s.ctl.sleep = .dim) && (portShape s p).isSome && bit (rxCfg s p) 12 && s.pwr.wake.isNone
  | _ => false

/-- A frame that comes to a listening cluster while a wake is under way is counted (R122). -/
def stillDrop (p : Nat) (s : State) : State :=
  if s.ctl.mode = .still ∧ s.ctl.sleep = .dim ∧ s.pwr.wake.isSome = true ∧ wakeCluster s (p / 8) = true then
    addLive (rxCnt p 0xB4) 1 s
  else s

/-- Ports F and W: the role of the switch port decides which it is (R79). -/
def arriveFrame (a : Arrival) (code : BitVec 16) (args : List Byte) (s : State) : State :=
  let role := tabGet (fun _ => 0) s.nv.roles a.ingress
  if frameReceived s a.ingress = false then stillDrop a.ingress s
  else if role % 4 = 0 then hwEvent pgCmd 3 (addF (adr pgCmd 0x0D0) 15 0 1 s)
  else
    let p := if role.testBit 0 then CmdPort.F else .W
    if a.whole && decide (args.length ≤ 256) then takeCommand (requestOf a p code args) s else frameDrop p s

/-- A command row: the command of `code` arrives, and the ports do what they can. -/
def arriveRow (a : Arrival) (code : BitVec 16) (args : List Byte) (s : State) : State :=
  settle (
    match a.port with
    | .H => arriveH a code args s
    | .S => if a.whole && decide (args.length ≤ 256) then takeCommand (requestOf a .S code args) s else s
    | .M => arriveM a code args (setCs false s)
    | .F => arriveFrame a code args s
    | .W => arriveFrame a code args s)

/-! ### The commands of Table 4.2 -/

/-- CONTACT_SHEET (R81). -/
def execContactSheet (a : Arrival) (args : List Byte) (s : State) : Out := .next (arriveRow a cSheet args s)

/-- REG_READ (R21, R62, R66): the command of Table 4.2, or with `access` the plain read access of the register window:
its offset, and whether it is a naturally aligned 32-bit access. -/
def execRegRead (a : Arrival) (args : List Byte) (access : Option (BitVec 22 × Bool)) (s : State) : Out :=
  .next (
    match access with
    | none => arriveRow a cRegRead args s
    | some (x, ok) => gatedRead a.port x.toNat ok (regRead a.port x.toNat) s)

/-- REG_WRITE (R62, R66, R69). -/
def execRegWrite (a : Arrival) (args : List Byte) (s : State) : Out := .next (arriveRow a cRegWrite args s)

/-- SET_LEVEL (R317). -/
def execSetLevel (a : Arrival) (args : List Byte) (s : State) : Out := .next (arriveRow a cSetLevel args s)

/-- SLEEP (R317, R323). -/
def execSleep (a : Arrival) (args : List Byte) (s : State) : Out := .next (arriveRow a cSleep args s)

/-- SAFELIGHT_ENTER (R53, R66, R413). -/
def execSafelightEnter (a : Arrival) (args : List Byte) (s : State) : Out := .next (arriveRow a cSafeEnter args s)

/-- SAFELIGHT_EXIT (R59). -/
def execSafelightExit (a : Arrival) (args : List Byte) (s : State) : Out := .next (arriveRow a cSafeExit args s)

/-- TEST_START (R60, R361). -/
def execTestStart (a : Arrival) (args : List Byte) (s : State) : Out := .next (arriveRow a cTestStart args s)

/-- TEST_ABORT (R362). -/
def execTestAbort (a : Arrival) (args : List Byte) (s : State) : Out := .next (arriveRow a cTestAbort args s)

/-- TIME_STEP_ARM (R66, R230). -/
def execTimeStepArm (a : Arrival) (args : List Byte) (s : State) : Out := .next (arriveRow a cStepArm args s)

/-- FORCE_REPAIR OP 1 (R351); `rest`: the argument bytes after OP. -/
def execForceRepairMigrate (a : Arrival) (rest : List Byte) (s : State) : Out :=
  .next (arriveRow a cForceRepair (0x01 :: rest) s)

/-- FORCE_REPAIR OP 2 (R351). -/
def execForceRepairReturn (a : Arrival) (rest : List Byte) (s : State) : Out :=
  .next (arriveRow a cForceRepair (0x02 :: rest) s)

/-- FORCE_REPAIR OP 3 (R351). -/
def execForceRepairCondemn (a : Arrival) (rest : List Byte) (s : State) : Out :=
  .next (arriveRow a cForceRepair (0x03 :: rest) s)

/-- FORCE_REPAIR OP 4 (R351). -/
def execForceRepairReinstate (a : Arrival) (rest : List Byte) (s : State) : Out :=
  .next (arriveRow a cForceRepair (0x04 :: rest) s)

/-- RESTORE_FACTORY (R373). -/
def execRestoreFactory (a : Arrival) (args : List Byte) (s : State) : Out := .next (arriveRow a cRestore args s)

/-- VERSION_LOAD (R176). -/
def execVersionLoad (a : Arrival) (args : List Byte) (s : State) : Out := .next (arriveRow a cLoad args s)

/-- VERSION_COMMIT OP 0 (R177); `rest`: the argument bytes after SLOT and OP. -/
def execVersionCommitNow (a : Arrival) (slot : Byte) (rest : List Byte) (s : State) : Out :=
  .next (arriveRow a cCommit (slot :: 0x00 :: rest) s)

/-- VERSION_COMMIT OP 1 (R177). -/
def execVersionCommitAtTime (a : Arrival) (slot : Byte) (rest : List Byte) (s : State) : Out :=
  .next (arriveRow a cCommit (slot :: 0x01 :: rest) s)

/-- VERSION_COMMIT OP 2 (R177). -/
def execVersionDiscard (a : Arrival) (slot : Byte) (rest : List Byte) (s : State) : Out :=
  .next (arriveRow a cCommit (slot :: 0x02 :: rest) s)

/-! ### Versions: the end of a load, a timed commit that falls due, a slot that retires (R176, R178, R179) -/

/-- The reads of a load behind its header, where the header stands (R176). -/
def readRecords2 (l : Load) (img : Option (List Byte)) (s : State) : State :=
  match img with
  | none => s
  | some d =>
    match headerBad s l.len d with
    | some _ => s
    | none =>
      let ch := fnChan s l.fn
      endReads ch (rangeReqs (l.addr + 64) (l.len - 64)).length (readRange ch (l.addr + 64) (l.len - 64) s)

/-- VERSION_LOAD_COMPLETE (R176): the image that the function's memory holds, none where a read was answered with an
error. -/
def execVersionLoadComplete (img : Option (List Byte)) (s : State) : Out :=
  .next (
    match s.cls.load with
    | none => s
    | some l =>
      match s.ctl.mode with
      | .run => settle (loadDone l img (readRecords2 l img (endReads (fnChan s l.fn) 1 s)))
      | .test => settle (loadDone l img (readRecords2 l img (endReads (fnChan s l.fn) 1 s)))
      | _ => s)

/-- TIMED_COMMIT_DUE (R178, R180): the time of a pending timed commit has come; in STILL it is decided after the wake. -/
def execTimedCommitDue (s : State) : Out :=
  .next (
    match s.cls.commit with
    | none => s
    | some c =>
      if c.now.isSome ∨ c.late = true then s
      else
        match s.ctl.mode with
        | .run => decideTimed c false s
        | .test => decideTimed c false s
        | _ => { s with cls := { s.cls with commit := some { c with late := true } } })

/-- SLOT_RETIRE (R179): the drain count of a slot has reached 0. -/
def execSlotRetire (slot : Fin 4) (s : State) : Out := .next (retireSlot slot s)

/-! ### Register writes and the event registers (R35-R39, R410) -/

/-- REGISTER_WRITE (R410): a write of `v` at window offset `a` from port `p`; `ok`: a naturally aligned 32-bit access. -/
def execRegisterWrite (p : CmdPort) (a : BitVec 22) (ok : Bool) (v : Word) (s : State) : Out :=
  .next (settle (gatedWrite p a.toNat ok v (regWrite p a.toNat v) s))

/-- A write of an event register of `page` from port `p`; a spare cluster's pages are its home cluster's (R101). -/
def evtRow (p : CmdPort) (page off : Nat) (v : Word) (eff : Nat → Word → State → State) (s : State) : State :=
  gatedWrite p (adr page off) true v (fun x => eff (pageOf (aliasOf x (adr page off))) v x) s

/-- EVT_SET of a page (R37). -/
def execEvtSet (p : CmdPort) (page : BitVec 10) (v : Word) (s : State) : Out :=
  .next (evtRow p page.toNat 0x028 v evtSet s)

/-- EVT_CLR of a page (R38). -/
def execEvtClr (p : CmdPort) (page : BitVec 10) (v : Word) (s : State) : Out :=
  .next (evtRow p page.toNat 0x02C v evtClr s)

/-- EVT_MASK_SET of a page (R37). -/
def execEvtMaskSet (p : CmdPort) (page : BitVec 10) (v : Word) (s : State) : Out :=
  .next (evtRow p page.toNat 0x034 v evtMaskSet s)

/-- EVT_MASK_CLR of a page (R37, R39). -/
def execEvtMaskClr (p : CmdPort) (page : BitVec 10) (v : Word) (s : State) : Out :=
  .next (evtRow p page.toNat 0x038 v evtMaskClr s)

/-- EVT_CNT_SEL of a page (Table 2.2). -/
def execEvtCntSelWrite (p : CmdPort) (page : BitVec 10) (v : Word) (s : State) : Out :=
  .next (evtRow p page.toNat 0x03C v evtCntSel s)

end Sys2Proof.Machine
end

