-- ==== Sys2Proof/Machine/ModeRows.lean ====
section
/-! DEFINITION. Rows of the boundary: reset, supplies, ALARM_IN (01_boundary_and_pins.md R20, R26; 03_operating_modes.md R47-R51,
R53; 04_command_ports.md R77). -/

namespace Sys2Proof.Machine

/-! ### HOLD -/

/-- Clusters power up at the end of HOLD: an input that is then high counts as a change from its last sample, which HOLD has
reset to 0 (R9, R104). -/
def sampleAll (s : State) : State := sampleLanes ((List.range 512).filter (fun l => laneLevels s l != laneSample s l)) s

/-- HOLD ends, and cold PROOF begins, once no cause of it is left (Table 3.2). -/
def leaveHold (s : State) : State :=
  let x := s.ctl.pins
  if s.ctl.mode = .hold ∧ x.dieResetLow = false ∧ x.corePgLow = false ∧ x.vddioLow = false then
    sampleAll { s with ctl := { s.ctl with mode := .proof } }
  else s

/-- DIE_RESET_ASSERT (R26, R49): DIE_RESET_N has been low for 1 µs. HOLD ends only when every cause of it is gone. -/
def execDieResetAssert (s : State) : Out :=
  .next (holdState { holdPins s.ctl.pins with dieResetLow := true } s)

/-- DIE_RESET_RELEASE (R50): DIE_RESET_N rises with STRAP_FACTORY at `strap`. -/
def execDieResetRelease (strap : Bool) (s : State) : Out :=
  .next (
    if s.ctl.pins.dieResetLow then
      leaveHold (setReg (adr pgCmd 0x0A0) (word (flag strap))
        { s with ctl := { s.ctl with pins := { s.ctl.pins with dieResetLow := false, strap := strap } } })
    else s)

/-- CORE_PG_FALL (R20): loss of core supply; journal entries held are lost (R350). -/
def execCorePgFall (s : State) : Out :=
  .next (
    let h := holdState { holdPins s.ctl.pins with corePgLow := true } s
    { h with
      fix := { h.fix with heldJrnl := [], dropReport := 0 }
      ctl := { h.ctl with faults := { h.ctl.faults with journal := false } } })

/-- CORE_PG_RISE (R219): power good after a loss of power restarts POWERED_NS from 0. -/
def execCorePgRise (s : State) : Out :=
  .next (
    if s.ctl.pins.corePgLow then
      leaveHold (setF jrnlA 6 0 0 { s with
        tim := { s.tim with powered := 0 }
        fix := { s.fix with hour := 0 }
        nv := { s.nv with hour := 0, hourCount := 0 }
        ctl := { s.ctl with pins := { s.ctl.pins with corePgLow := false } } })
    else s)

/-- VDDIO_LOW (R26): VDDIO falls below 1.5 V. -/
def execVddioLow (s : State) : Out := .next (holdState { holdPins s.ctl.pins with vddioLow := true } s)

/-- VDDIO_RISE (R26): VDDIO is above 1.5 V again. -/
def execVddioRise (s : State) : Out :=
  .next (
    if s.ctl.pins.vddioLow then leaveHold { s with ctl := { s.ctl with pins := { s.ctl.pins with vddioLow := false } } }
    else s)

/-! ### ALARM_IN (R77, Table 1.7) -/

/-- Is ALARM_IN watched: from PROOF step 1 on? -/
def alarmWatched (s : State) : Bool :=
  match s.ctl.mode with
  | .hold => false
  | .proof => s.ctl.warm || decide (1 ≤ s.ctl.proof.step)
  | _ => true

/-- MIN_US in force: 10 to 1,000 µs (Table 4.7a). -/
def minUs (s : State) : Nat := max 10 (min 1000 (getF s (adr pgSafety 0x084) 15 0))

/-- ALARM_IN_RISE (R77): the pulse filter starts with the MIN_US then in force. -/
def execAlarmInRise (s : State) : Out :=
  .next (
    let x := s.ctl.pins
    if x.alarmIn then s
    else
      { s with ctl := { s.ctl with pins := { x with
          alarmIn := true
          alarmRise := if alarmWatched s then some (s.tim.powered, minUs s) else none } } })

/-- A level of ALARM_IN is accepted: event 2, and a SAFELIGHT trigger, but in a halted PROOF (R51, R53, R77). -/
def acceptAlarm (s : State) : State :=
  let s1 := hwEvent pgSafety 2 (noteWake 1 11
    { s with ctl := { s.ctl with pins := { s.ctl.pins with alarmLevel := true, alarmRise := none } } })
  if s.ctl.halted then s1 else settle (safeTrigger 1 1 11 s1)

/-- ALARM_IN_ACCEPTED (R77): the level has held for the MIN_US taken at its rise. -/
def execAlarmInAccepted (s : State) : Out :=
  .next (match s.ctl.pins.alarmRise with
    | some _ => acceptAlarm s
    | none => s)

/-- ALARM_IN_FALL (R77). -/
def execAlarmInFall (s : State) : Out :=
  .next { s with ctl := { s.ctl with pins := { s.ctl.pins with alarmIn := false, alarmLevel := false, alarmRise := none } } }

end Sys2Proof.Machine
end

