-- ==== Sys2Proof/Machine/ProofOps.lean ====
section
/-! DEFINITION. The steps of PROOF (03_operating_modes.md R50-R52, R86; 19_fixer_repair.md R339, R340; 09 R181; 15 R291;
20 R362). -/

namespace Sys2Proof.Machine

/-- Change what PROOF_STATUS shows. -/
def onProof (f : Proof → Proof) (s : State) : State := { s with ctl := { s.ctl with proof := f s.ctl.proof } }

/-! ### Step 1 (cold): the always-on domain -/

/-- The outputs are driven, time of day starts from 0, UNSET (R26, R220). -/
def proofStep1 (s : State) : State :=
  let x := s.ctl.pins
  let s1 := hwEvent pgMode 0 (onProof (fun p => { p with step := 1 }) { s with
    ctl := { s.ctl with pins := { x with driven := true } }
    tim := { s.tim with on := true, pllLocked := true, tod := 0 } })
  if x.alarmIn then acceptAlarm s1 else s1

/-! ### Step 2: the NV records -/

/-- PG_NV counts a copy that is rewritten. -/
def countRepaired (s : State) : State := hwEvent pgNv 0 (addF (adr pgNv 0x084) 15 0 1 s)

/-- PG_NV counts a record both of whose copies are bad. -/
def countBad (s : State) : State := hwEvent pgNv 1 (addF (adr pgNv 0x088) 15 0 1 s)

/-- The repair map is read (R303, R339); with both copies bad the units stand as manufactured, and none of the assigned spare
rows is known. -/
def readMap (a b : Bool) (s : State) : State :=
  let s1 := onProof (fun p => { p with repairMapOk := a || b }) s
  if a && b then s1
  else if a || b then
    countRepaired { s1 with nv := { s1.nv with wear := wearLines (if a then 0x1080 else 0x1000) 128 s1.nv.wear } }
  else countBad { s1 with fix := { s1.fix with map := [], stored := [], storedL2 := [], storedRows := 0 } }

/-- USER of CAL_STATUS: 0 empty, 1 entries applied, 2 both copies bad (Table 21.7). -/
def userCode (l : Option (List Byte)) : Nat :=
  match l with
  | none => 2
  | some x => flag (leField x 8 4 != 0)

/-- Step 2 of cold PROOF. The factory region is locked, so a bad copy of it is not rewritten (R369). -/
def proofStep2Cold (r : ProofReport) (s : State) : State :=
  let s0 := readMap r.mapA r.mapB s
  let s1 := { s0 with fix := { s0.fix with l2Pending := s0.fix.storedL2, l2Repairs := s0.fix.storedRows } }
  let s2 := if r.factA || r.factB then s1 else countBad s1
  let x := readOverlay r.userA r.userB s2
  let o := overlayOf x.2
  let s3 := { x.1 with nv := { x.1.nv with
    user := x.2, settings := calSettings o, roles := o.roles, startTag := (x.1.nv.startTag + 1) % 2 ^ 32 } }
  let s4 := setReg (calA 0x080) (word (1 + 2 * flag (!r.factA && r.factB) + 4 * userCode x.2)) s3
  let s5 := setReg (calA 0x084) (word (nextSeq s4 - 1)) s4
  onProof (fun p => { p with
    step := 2, userCalOk := x.2.isSome, factoryCalOk := r.factA || r.factB })
    (setB (adr pgSafety 0x010) 1 (bit (calSettings o) 3) s5)

/-- Step 2 of warm PROOF reads only the repair map (R50). A repair is in effect whether or not its entry has yet been written
(R350), so the units stay as FIXER has them, and a map that reads bad is written again. -/
def proofStep2Warm (r : ProofReport) (s : State) : State :=
  let keep := s.fix
  let s1 := readMap r.mapA r.mapB s
  onProof (fun p => { p with step := 2 }) { s1 with fix := { keep with
    stored := s1.fix.stored, storedL2 := s1.fix.storedL2, storedRows := s1.fix.storedRows } }

/-! ### The repair map applied (R339) -/

/-- The entry of a pipe in a map record. -/
def storedPipe (m : Tab UnitMap) (p : Nat) : UnitMap := (tabFind m (unitKey (pipeId p))).getD (shippedPipe p)

/-- Put the pipes of a list at their ring positions and in their states. -/
def putPipes (m : Tab UnitMap) : List Nat → State → State
  | [], s => s
  | p :: r, s =>
    let e := storedPipe m p
    let s1 := setF (pipeSt p) 2 0 (match e.state with | 0 => 1 | 4 => 4 | _ => 2) s
    putPipes m r (match e.state, e.standsFor with
      | 0, some h => setRing (homePos h) (some p) s1
      | _, _ => s1)

/-- Does cluster `n` run: it carries traffic and is not degraded? -/
def runsNow (s : State) (n : Nat) : Bool := carries s n && (tabFind s.fix.degraded (unitKey (clusterId n))).isNone

/-- The stand-ins of the spare clusters in a map record. -/
def storedStands (m : Tab UnitMap) : Tab Nat :=
  [64, 65].filterMap (fun c =>
    match tabFind m (unitKey (clusterId c)) with
    | some e => if e.state = 0 then e.standsFor.map (fun h => (c, h)) else none
    | none => none)

/-- Every stand-in that the map records is set up directly. -/
def applyMap (s : State) : State :=
  let m := s.fix.stored
  let s1 := { s with
    prt := { s.prt with standIn := storedStands m }
    dp := { s.dp with ring := List.replicate 48 none } }
  let s2 := putPipes m (List.range 48) s1
  let s3 := { s2 with pwr := { s2.pwr with
    off := ((List.range 66).filter (fun n => !carries s2 n)) ++ s2.pwr.off.filter (fun i => decide (66 ≤ i)) } }
  ((List.range 66).filter (fun n => carries s3 n && decide (unitState s3 (slice8 n) = 0))).foldl
    (fun x n => showSlice8 (home x n) n x) s3

/-! ### Units that PROOF may not use (R340, R348) -/

/-- A decision of PROOF about a unit. -/
def proofDecision (u : UnitId) : Decision := newDecision u 1 7

/-- A journal entry of PROOF: the map is written once, at the end of step 4 or 5. -/
def proofJournal (event : Nat) (u : UnitId) (spare : Nat) (s : State) : State :=
  journalEntry { body := entryBody s event (howOf (proofDecision u)) u spare 0, map := false } s

/-- Where traffic that unit `u` should carry has no place, PROOF gives it a spare at once, or degrades the unit; `u` keeps
state `v`. Answers the spare. -/
def proofSpare (u : UnitId) (v : Nat) (s : State) : State × Option Nat :=
  match chooseSpare s (proofDecision u) [] with
  | .use x n =>
    if u.type = 2 then (replacePipe u.unit v (some n) s, some n)
    else
      let s1 := if x.type = 1 then clusterUp n s else s
      let s2 := moveToSpare { dec := proofDecision x, spare := n, step := 3, failed := [] } s1
      (setUnit u v (if x = u then s2 else setUnit x 5 s2), some n)
  | _ =>
    let s1 := if u.type = 2 then replacePipe u.unit v none s else setUnit u v (degradeUnit u s)
    (noSpare { s1 with fix := { s1.fix with degraded := tabPut s1.fix.degraded (unitKey u) 7 } }, none)

/-- A unit that PROOF finds faulty beyond L2 repair (R340). -/
def proofFails (u : UnitId) (s : State) : State :=
  let s0 := onProof (fun p => { p with unitBad := true }) s
  if 3 ≤ u.type ∨ condemned s u = true then s0
  else
    let s1 := countRetired u 7 { s0 with fix := { s0.fix with causes := tabPut s0.fix.causes (unitKey u) 7 } }
    let x := if inService s u then proofSpare u 4 s1 else (setStands u none (setAny u 4 s1), none)
    proofJournal 3 u (x.2.getD 0xFF) (lastRepair 3 (proofDecision u) (x.2.getD 0x7F) (hwEvent pgFixer 5 x.1))

def proofFailures : List UnitId → State → State
  | [], s => s
  | u :: r, s => proofFailures r (proofFails u s)

/-- Slices and clusters whose traffic the map leaves without a place. -/
def unplaced (s : State) : List UnitId :=
  ((List.range 64).filter (fun n => serving s n == n && decide (unitState s (clusterId n) ≠ 0))).map clusterId
    ++ ((List.range 66).map (fun c => ((List.range 8).filter (fun i =>
        carries s c && decide (unitState s (sliceId c i) ≠ 0)
          && !(decide (unitState s (slice8 c) = 0) && (unitMap s (slice8 c)).standsFor == some i))).map (sliceId c))).flatten

/-- A spare is installed for them, or they stay degraded (R348). -/
def placeUnits : List UnitId → State → State
  | [], s => s
  | u :: r, s =>
    let x := proofSpare u (unitState s u) s
    placeUnits r (match x.2 with
      | some n => proofJournal 1 u n (lastRepair 1 (proofDecision u) n x.1)
      | none => x.1)

/-- Home pipes that are condemned and whose position nobody holds. -/
def placePipes : List Nat → State → State
  | [], s => s
  | p :: r, s =>
    placePipes r (
      if p < 44 ∧ pipeState s p = 4 ∧ (ringAt s (homePos p)).isNone = true then
        match (freeSpares s).head? with
        | some n =>
          proofJournal 1 (pipeId p) n (lastRepair 1 (proofDecision (pipeId p)) n (joinAt (homePos p) n s))
        | none => s
      else s)

/-! ### Step 3: the SAFELIGHT set, the command ports -/

/-- The boot rule set of R181. -/
def bootRules (s : State) : State :=
  let factory := fun (x : State) =>
    (loadBoot (List.replicate 24 0) (leBytes 1 4) (List.replicate 8 0) [] 0 x).getD x
  match (calInForce s).boot with
  | none => factory s
  | some d =>
    if bootOk d then
      (loadBoot (slice d 20 24) (slice d 44 4) (slice d 48 8) (d.drop 64) (leField d 12 2) s).getD
        (onProof (fun p => { p with bootRulesFallback := true }) (factory s))
    else onProof (fun p => { p with bootRulesFallback := true }) (factory s)

/-- Clear the EVT_MASK of the pages of a list that have events and admit port S (R291). -/
def unmaskPages : List Nat → State → State
  | [], s => s
  | g :: r, s =>
    let i := pageInfo g
    unmaskPages r (
      if 0 < evtCount i.kind ∧ permits g .S = true then evtMaskClr g (word (2 ^ evtCount i.kind - 1)) s else s)

/-- The firmware clears source masks 0-511 and the page masks of what is ready. -/
def unmask3 (s : State) : State :=
  unmaskPages ((List.range 1024).filter (readyAt3 s)) ((List.range 16).foldl (fun x w => maskClrWrite w 0xFFFFFFFF x) s)

/-- PROOF halts (R51). -/
def haltProof (reason : Nat) (s : State) : State :=
  hwEvent pgMode 2 (onProof (fun p => { p with haltReason := reason })
    { s with ctl := { s.ctl with halted := true, entry := none, target := none } })

/-- Receiving islands of a list that acquire time. -/
def acquire (l : List Nat) (s : State) : State :=
  { s with tim := { s.tim with acq := (List.range 75).filter (fun i => receives i
    && (s.tim.acq.contains i || (l.contains i && islandOn s i))) } }

/-- The SAFELIGHT list in force and its fallback (R52, R57). -/
def chooseList (s : State) : State :=
  let o := calInForce s
  if safeListOk (calMap o) (calList o) then { s with nv := { s.nv with safeList := calList o } }
  else onProof (fun p => { p with safeListFallback := true }) { s with nv := { s.nv with safeList := factoryList } }

/-- Is island `i` of the SAFELIGHT set, whose macros step 3 tests (Table 3.3)? -/
def islandOf3 (i : Nat) : Bool := !(decide (67 ≤ i) && decide (i ≤ 69))

/-- MBIST with L2 repair of the macros of the islands that `mine` picks (R339, R346): `rows` new faults are repaired, and each
fault found in the field is repaired where its macro is tested. -/
def repairL2 (mine : Nat → Bool) (rows : Nat) (s : State) : State :=
  let done := (s.fix.l2Pending.filter mine).length
  let left := s.fix.l2Pending.filter (fun i => !mine i)
  { s with
    fix := { s.fix with l2Pending := left, l2Repairs := s.fix.l2Repairs + done + rows }
    ctl := { s.ctl with faults := { s.ctl.faults with
      spares := if done = 0 then s.ctl.faults.spares else !s.fix.degraded.isEmpty || !left.isEmpty } } }

/-- The clear of R215 before the MBIST of a list of clusters; it reads back as zero. -/
def clearBefore (l : List Nat) (s : State) : State := l.foldl (fun x n => darkClear true n x) s

/-- Step 3. -/
def proofStep3 (r : ProofReport) (s : State) : State :=
  if r.mgmtBad then haltProof 3 s
  else if r.fwBad then haltProof 2 s
  else
    let cold := !s.ctl.warm
    let s1 := if cold then
        let a := applyMap s
        placePipes (List.range 44) (placeUnits (unplaced a) a)
      else s
    let s2 := proofFailures r.failed (repairL2 islandOf3 r.repaired s1)
    let s3 := if cold then bootRules (chooseList s2) else s2
    let cl := safeClusters s3
    let s4 := acquire (70 :: 71 :: cl.map (serving s3))
      (loadCal (calInForce s3) cl false true (clearBefore (cl.map (serving s3)) s3))
    let s5 := onProof (fun p => { p with step := 3 }) s4
    if cold then
      let s6 := unmask3 s5
      let s7 := if getB s6 (adr pgSafety 0x010) 1 then
          { s6 with ctl := { s6.ctl with wdogSince := some s6.tim.powered } } else s6
      if s7.ctl.proof.factoryCalOk then s7 else haltProof 1 s7
    else s5

/-! ### Step 4: every other unit -/

/-- The fate of the units of a TEST list (R347, R362). -/
def testFates : List (UnitId × Nat) → State → State
  | [], s => s
  | (u, oc) :: r, s =>
    testFates r (
      if 3 ≤ u.type then s
      else if oc = 0 then decideFate (newDecision u 0 0) 0xFF u true s
      else if oc = 4 ∨ oc = 6 then passedUnit u s
      else condemn (proofDecision u) u 0xFF (countRetired u 7 s))

/-- Listed units without a result return unproven. -/
def returnRest : List TestJob → State → State
  | [], s => s
  | j :: r, s =>
    returnRest r (
      if 3 ≤ j.unit.type ∨ s.dark.results.any (fun x => x.1 == j.unit) = true then s
      else passedUnit j.unit s)

/-- The counters of the pages of tested units are cleared (R357). -/
def clearTested (s : State) : State :=
  let l := s.prt.testPages
  clearLive (fun a => l.contains (pageOf a)) { s with prt := { s.prt with testPages := [] } }

/-- Clusters that run are powered, in SAFELIGHT only at the switch to RUN; those that nothing carries for are not. -/
def restClusters (s : State) : State :=
  let safe := decide (s.ctl.mode = .safelight)
  { s with pwr := { s.pwr with
    off := (List.range 75).filter (fun i =>
      if i < 66 then !runsNow s i || (safe && s.pwr.off.contains i) else s.pwr.off.contains i) } }

/-- Is island `i` on the TEST list? -/
def listedIsland (s : State) (i : Nat) : Bool := s.dark.list.any (fun j => j.unit.type == 4 && j.unit.unit == i)

/-- The units of a TEST come back (R362). -/
def returnTested (s : State) : State :=
  let l := s.dark.list
  let s0 := clearTested (returnRest l (testFates s.dark.results s))
  let s1 := placeUnits (unplaced s0) s0
  restClusters { s1 with
    dark := { s1.dark with list := [], results := [], scan := false, testPort := none }
    pwr := { s1.pwr with off := s1.pwr.off.filter (fun i => !listedIsland s i) } }

/-- PROOF writes the map at most once, where it has changed (R340): one write in JOURNAL.HOUR. -/
def writeMapOnce (s : State) : State :=
  if mapRecord s = s.fix.stored ∧ s.fix.l2Pending = s.fix.storedL2 ∧ s.fix.l2Repairs = s.fix.storedRows then s
  else addF jrnlA 6 0 1 (storeMap s)

/-- Does step 5 follow (R50)? -/
def lbistNext (s : State) : Bool := !s.ctl.warm && bit s.nv.settings 2

/-- Step 4. -/
def proofStep4 (r : ProofReport) (s : State) : State :=
  let s0 := clearBefore ((List.range 66).filter (fun n => !(safeClusters s).any (fun h => serving s h == n))) s
  let s1 := proofFailures r.failed
    (repairL2 (fun i => !islandOf3 i) r.repaired (if s0.ctl.warm then returnTested s0 else s0))
  onProof (fun p => { p with step := 4 }) (if lbistNext s1 then s1 else writeMapOnce s1)

/-- Step 5: LBIST. -/
def proofStep5 (r : ProofReport) (s : State) : State :=
  onProof (fun p => { p with step := 5, lbistRun := true, lbistPass := r.failed.isEmpty })
    (writeMapOnce (proofFailures r.failed s))

/-! ### Step 6 -/

/-- Regulator setting of a level in mV (Table 1.10). -/
def levelMv (pl : Nat) : Nat :=
  match pl with
  | 0 => 800
  | 1 => 750
  | 2 => 680
  | _ => 600

/-- A level is in force (R318). -/
def setLevel (pl : BitVec 2) (s : State) : State :=
  setReg (adr pgPower 0x08C) (word (levelMv pl.toNat * 2 ^ 16 + pl.toNat * 16 + pl.toNat))
    { s with ctl := { s.ctl with pl := pl } }

/-- The complex itself changes to a level (R320): LEVEL_DONE is latched where the level differs (R318). -/
def changeLevel (pl : BitVec 2) (s : State) : State :=
  if s.ctl.pl = pl then setLevel pl s else hwEvent pgPower 0 (setLevel pl s)

/-- The correction mode is fixed (R226). -/
def fixCorrection (s : State) : State :=
  let inc := bit s.nv.settings 4
  let big := decide (32 < fedSize s)
  { s with tim := { s.tim with stepOnce := !inc || big, modeForced := inc && big } }

/-- Pages whose masks wait for step 6 (R291). -/
def unmask6 (s : State) : State := unmaskPages ((List.range 1024).filter (fun g => !readyAt3 s g)) s

/-- The calibration is applied: registers and ports, the federation size, in cold PROOF the correction mode. A step 6 that a
SAFELIGHT exit runs leaves the clusters that step 3 loaded as they are (R54, R86). -/
def applyCal (skip : List Nat) (s : State) : State :=
  let cl := (List.range 64).filter (fun n => !skip.contains n)
  let s1 := cfgMoved s (loadCal (calInForce s) cl true true s)
  let s2 := setF (fedA 0x084) 10 0 (bits s1.nv.settings 26 16) s1
  acquire (List.range 75) (if s.ctl.warm then s2 else unmask6 (fixCorrection s2))

/-- FAULT_N as PROOF leaves it (R52). -/
def proofFault (s : State) : State :=
  let p := s.ctl.proof
  { s with ctl := { s.ctl with faults := { s.ctl.faults with
    proof := !p.userCalOk || p.safeListFallback || p.bootRulesFallback || p.unitBad } } }

/-- Step 6, and RUN at the calibrated level. -/
def proofStep6 (s : State) : State :=
  let s1 := onProof (fun p => { p with step := 6 }) (applyCal [] s)
  let s2 := proofFault (setLevel (BitVec.ofNat 2 (bits s1.nv.settings 1 0)) s1)
  thawQueues (hwEvent pgMode 0 { s2 with
    ctl := { s2.ctl with mode := .run, target := none }
    dp := { s2.dp with seq := [], expect := [] } })

/-! ### The rows -/

/-- The step after the last one completed. -/
def nextStep (s : State) : Nat :=
  match s.ctl.proof.step with
  | 4 => if lbistNext s then 5 else 6
  | n => n + 1

/-- A step of PROOF ends. -/
def endStep (r : ProofReport) (s : State) : State :=
  match nextStep s with
  | 1 => proofStep1 s
  | 2 => if s.ctl.warm then proofStep2Warm r s else proofStep2Cold r s
  | 3 => proofStep3 r s
  | 4 => proofStep4 r s
  | 5 => proofStep5 r s
  | _ => proofStep6 s

/-- A deferred step ends in SAFELIGHT, during an exit (R54, R59): of warm PROOF only step 4, with which it is over (R52). -/
def endDeferred (r : ProofReport) (s : State) : State :=
  match s.ctl.deferred with
  | 4 =>
    let s1 := proofStep4 r s
    if s1.ctl.warm then proofFault { s1 with ctl := { s1.ctl with deferred := 0 } }
    else { s1 with ctl := { s1.ctl with deferred := if lbistNext s1 then 5 else 6 } }
  | 5 =>
    let s1 := proofStep5 r s
    { s1 with ctl := { s1.ctl with deferred := 6 } }
  | 6 =>
    let s1 := proofFault (onProof (fun p => { p with step := 6 }) (applyCal (safeClusters s) s))
    { s1 with ctl := { s1.ctl with deferred := 0 } }
  | _ => s

/-- Does PROOF wait for SAFELIGHT to come into force, or stand halted? -/
def proofWaits (s : State) : Bool := s.ctl.halted || (s.ctl.entry.isSome && decide (3 ≤ s.ctl.proof.step))

/-- PROOF_STEP_DONE (R50): the step under way ends, and finds `r`. -/
def execProofStepDone (r : ProofReport) (s : State) : Out :=
  .next (
    match s.ctl.mode with
    | .proof => if proofWaits s then s else settle (endStep r s)
    | .safelight => if s.ctl.exit.isSome ∧ s.ctl.deferred ≠ 0 then settle (endDeferred r s) else s
    | _ => s)

end Sys2Proof.Machine
end

