-- ==== Sys2Proof/Machine/SafeRows.lean ====
section
/-! DEFINITION. SAFELIGHT entry in force, the switch to RUN at its exit, TEST in force and TEST end (03_operating_modes.md R55,
R59-R61; 08 R150; 19 Table 19.6; 20 R360-R362). -/

namespace Sys2Proof.Machine

/-! ### FIXER and DARKSLIDE at SAFELIGHT entry -/

/-- Does the migration under way end at SAFELIGHT entry (Table 19.6)? -/
def endsAtSafe (s : State) (m : Migration) : Bool :=
  decide (m.step ≤ 3) && !(m.dec.kind == 1 && inSafeSet s m.dec.unit)

/-- Queued FORCE_REPAIR decisions end ABANDONED. -/
def dropForced : List Decision → State → State
  | [], s => s
  | d :: r, s => dropForced r (endForced d rFailed 0x34 s)

/-- Migrations and decisions at SAFELIGHT entry (Table 19.6). -/
def fixerToSafe (s : State) : State :=
  let s1 := match s.fix.mig with
    | some m => if endsAtSafe s m then abandonMig m s else s
    | none => s
  let l := s1.fix.queue
  dropForced (l.filter (fun d => d.kind == 2))
    { s1 with fix := { s1.fix with queue := l.filter (fun d => d.kind == 1 && d.op != 5) } }

/-! ### The rotation (R150) -/

/-- The pipe that holds position 4·`i` in SAFELIGHT, `used` being those already chosen: its home pipe PP0`i`, where that is in
rotation or a free spare. -/
def safeHolder (s : State) (used : List (Option Nat)) (i : Nat) : Option Nat :=
  if pipeState s i = 1 ∨ pipeState s i = 2 then some i
  else ((List.range 8).map (fun k => k + 4)).find? (fun p => decide (pipeState s p ≠ 4) && !used.contains (some p))

/-- The holders of positions 0, 4, 8 and 12. -/
def safeHolders (s : State) : Nat → List (Option Nat)
  | 0 => []
  | n + 1 =>
    let l := safeHolders s n
    l ++ [safeHolder s l n]

/-- SAFELIGHT's ring from its four holders. -/
def safeRing (l : List (Option Nat)) : List (Option Nat) :=
  (List.range 48).map (fun k => if k % 4 = 0 ∧ k < 16 then l.getD (k / 4) none else none)

/-- The rotation is reduced. -/
def safeRotation (s : State) : State :=
  let l := safeHolders s 4
  let keep : RingSave :=
    { ring := s.dp.ring
      spares := (List.range 48).filter (fun p => decide (pipeState s p ≠ 3))
      used := (l.filterMap id).filter (fun p => decide (4 ≤ p)) }
  let s1 := mapPipes (fun x p =>
      if l.contains (some p) then 1
      else if pipeState x p = 1 ∨ pipeState x p = 2 then 0 else pipeState x p) (List.range 48) s
  rotationChanged { s1 with dp := { s1.dp with ring := safeRing l, before := some keep } }

/-- A ring position whose earlier holder carries no traffic takes the lowest free spare. -/
def fillPositions : List Nat → State → State
  | [], s => s
  | k :: r, s =>
    fillPositions r (
      match ringAt s k with
      | none => s
      | some p =>
        if pipeState s p = 1 ∨ pipeState s p = 0 then s
        else
          match (freeSpares s).head? with
          | some n => joinAt k n s
          | none => s)

/-- The rotation of before the entry returns, at one dealing boundary. -/
def runRotation (s : State) : State :=
  match s.dp.before with
  | none => s
  | some b =>
    let s1 := mapPipes (fun x p =>
        if pipeState x p = 3 ∨ pipeState x p = 4 then pipeState x p
        else if b.ring.contains (some p) then 1
        else if b.spares.contains p then 2 else 3)
      (List.range 48) { s with dp := { s.dp with ring := b.ring, before := none } }
    rotationChanged (fillPositions (List.range 48) s1)

/-! ### Power domains (Table 3.5) -/

/-- Clusters that SAFELIGHT keeps: those that serve a port of the list in force; a unit under test is left powered down
(R61). -/
def keptClusters (s : State) : List Nat :=
  ((safeClusters s).map (serving s)).filter (fun n => !(s.dark.list.any (fun j => j.unit == clusterId n)))

/-- Clusters outside Table 3.5 power down: ports go down, keys are erased (R213). -/
def powerDownClusters : List Nat → State → State
  | [], s => s
  | n :: r, s =>
    powerDownClusters r (
      if islandOn s n then
        clusterDown n (downAll (unitPorts s (clusterId n)) s)
      else s)

/-- Every domain outside Table 3.5 powers down, and islands under test (R61). -/
def powerDownRest (s : State) : State :=
  let keep := keptClusters s
  let s1 := powerDownClusters ((List.range 66).filter (fun n => !keep.contains n)) s
  let s2 := setQuarter 3 false (setQuarter 2 false (setQuarter 1 false
    { s1 with prt := { s1.prt with quarterMoving := [], quarterWoken := [] } }))
  let s3 := { s2 with pwr := { s2.pwr with
    off := ([70, 71].filter (listedIsland s2)).foldl setInsert s2.pwr.off } }
  { s3 with tim := { s3.tim with acq := s3.tim.acq.filter (islandOn s3) } }

/-- Clusters that RUN needs power up again. -/
def powerUpClusters : List Nat → State → State
  | [], s => s
  | n :: r, s =>
    powerUpClusters r (
      if islandOn s n then s
      else sampleLanes (clusterLanes (home s n)) (clusterUp n s))

/-- Parse quarters that QUARTER_CTRL does not keep off power up. -/
def powerUpQuarters (s : State) : State :=
  [1, 2, 3].foldl (fun x q => if getB x (adr pgSpread 0x08C) q then x else setQuarter q true x) s

/-! ### SAFELIGHT_IN_FORCE -/

/-- May SAFELIGHT come into force: a trigger has been taken, and what R54 lets finish first has finished? -/
def safeReady (s : State) : Bool :=
  s.ctl.entry.isSome && s.pwr.flight.isNone && !s.pwr.entering && s.pwr.wake.isNone
    && match s.ctl.mode with
      | .proof => decide (3 ≤ s.ctl.proof.step) && !s.ctl.halted
      | .run => true
      | .test => true
      | _ => false

/-- The PROOF step at which an exit resumes; 0 none (R54, R61). -/
def deferredStep (s : State) : Nat :=
  match s.ctl.mode with
  | .proof => if s.ctl.warm then (if s.ctl.proof.step = 3 then 4 else 0) else nextStep s
  | .test => 4
  | _ => 0

/-- Cells of a stopped port's frame none of which has left are taken from the packet interface; each frame counts once (order 2 of
Table 3.4). `cut`: the cell belongs to a frame that is being taken. -/
def dropStopped : Bool → List RxCell → State → List RxCell × State
  | _, [], s => ([], s)
  | cut, c :: r, s =>
    let p := bits c.side 21 13
    let sof := bit c.side 31
    let gone := if sof then safeStopped s p else cut
    let x := dropStopped gone r (if sof && gone then addLive (rxCnt p 0xB0) 1 s else s)
    (if gone then x.1 else c :: x.1, x.2)

/-- Order 2 of Table 3.4 at the packet interface of each cluster of a list. -/
def stopCells : List Nat → State → State
  | [], s => s
  | n :: r, s =>
    stopCells r (
      match cellsAt s n with
      | [] => s
      | l =>
        let x := dropStopped false l s
        { x.2 with dp := { x.2.dp with cells := tabSet (fun _ => []) x.2.dp.cells n x.1 } })

/-- Changes 1 to 5 of Table 3.4. -/
def safeChanges (s : State) : State :=
  let s1 := closeGate (dropWaiting (cutTest 1 s))
  let s2 := { s1 with dark := { s1.dark with wait := [], ending := false } }
  let s3 := clearPauses (fun p => !s2.nv.safeList.contains p) (versionsToSafe (fixerToSafe s2))
  failJobs 0 6 true (List.range 8) (freezeQueues true (safeRotation s3))

/-- Order 2 of Table 3.4, from the mode in which the ports still carried frames; what it stops is judged as in SAFELIGHT. -/
def stopPackets (s : State) : State :=
  let m := s.ctl.mode
  let s0 := { s with ctl := { s.ctl with mode := .safelight } }
  let s1 := sweepAll (waitingPorts s0) (stopCells (List.range 64) s0)
  { s1 with ctl := { s1.ctl with mode := m } }

/-- The commands SAFELIGHT_ENTER that wait for the entry return OK (R413). -/
def endEnters (s : State) : State :=
  [CmdPort.W, .H, .F, .S, .M].foldl (fun x p => if executing x p cSafeEnter then finishCmd p rOk [] x else x) s

/-- SAFELIGHT comes into force with cause `c` from mode code `m`. -/
def safeInForce (c m : Nat) (s : State) : State :=
  let d := deferredStep s
  let warm := s.ctl.warm || decide (s.ctl.mode = .test)
  let s1 := changeLevel 3 (safeChanges (stopPackets s))
  let s2 := powerDownRest { s1 with ctl := { s1.ctl with
    mode := .safelight, warm := warm, deferred := d, entry := none, target := none
    proof := if s.ctl.mode = .test then { s1.ctl.proof with unitBad := false } else s1.ctl.proof
    safe := { entryCount := satAdd 255 s1.ctl.safe.entryCount 1, shedding := false, testCut := decide (m = 5)
              fromMode := m, cause := c, entryNs := s1.tim.powered }
    pins := { s1.ctl.pins with safeActive := true } } }
  let s3 := { s2 with fed := { s2.fed with
    epoch := (s2.fed.epoch + flag (decide (c = 1 ∨ c = 2))) % 65536, origin := decide (c = 1 ∨ c = 2) } }
  endEnters (hwEvent pgMode 0 (hwEvent pgMode 1 s3))

/-- SAFELIGHT_IN_FORCE (R55): the last change of Table 3.4. -/
def execSafelightInForce (s : State) : Out :=
  .next (
    match s.ctl.entry with
    | some e => if safeReady s then settle (safeInForce e.cause e.fromMode s) else s
    | none => s)

/-! ### SAFELIGHT_SWITCH_TO_RUN -/

/-- Clusters that take the factory map directly: those that were off (Table 21.6). -/
def directMaps : List Nat → State → State
  | [], s => s
  | n :: r, s => directMaps r (setMap n (List.replicate 8 factoryPort) s)

/-- RESTORE_FACTORY deferred to the exit is applied (Table 21.6); `off` are the home clusters that SAFELIGHT had off. -/
def applyDeferred (off : List Nat) (s : State) : State :=
  if s.nv.restoreDeferred then
    let s1 := directMaps off (factoryRegs { s with nv := { s.nv with restoreDeferred := false, safeList := factoryList } })
    factoryMaps ((List.range 64).filter (fun n => !off.contains n)) s1
  else s

/-- Retired units that waited for the exit ask for their test (R347). -/
def queueRetired (s : State) : State :=
  let l := ((List.range 66).filter (fun n => unitState s (clusterId n) == 6)).map clusterId
    ++ ((List.range 66).map (fun n => ((List.range 9).filter (fun i => unitState s (sliceId n i) == 6)).map (sliceId n))).flatten
    ++ ((List.range 48).filter (fun p => pipeState s p == 3)).map pipeId
  let busy := fun (u : UnitId) => inMigration s u || s.fix.tested.any (fun x => x.1 == u)
  (l.filter (fun u => !busy u)).foldl
    (fun x u => queueDecision { newDecision u 1 (tabGet (fun _ => 7) x.fix.causes (unitKey u)) with testOnly := true } x) s

/-- SAFELIGHT_SWITCH_TO_RUN (R59): every deferred step is done, and the complex switches at one frame boundary. -/
def execSafelightSwitchToRun (s : State) : Out :=
  .next (
    match s.ctl.mode, s.ctl.exit with
    | .safelight, some pl =>
      if s.ctl.deferred ≠ 0 ∨ s.dark.now.isSome = true then s
      else
        let off := (List.range 64).filter (fun n => !clusterOn s n)
        let s1 := powerUpQuarters (powerUpClusters ((List.range 66).filter (runsNow s)) s)
        let s2 := runRotation (changeLevel pl (applyDeferred off s1))
        let s3 := { s2 with
          ctl := { s2.ctl with
            mode := .run, exit := none, target := none, pins := { s2.ctl.pins with safeActive := false } }
          fed := { s2.fed with origin := false } }
        let s4 := thawQueues (freezeQueues false s3)
        settle (finishCmd .M rOk [] (quarterSettle (queueRetired (hwEvent pgMode 0 s4))))
    | _, _ => s)

/-! ### TEST -/

/-- Every listed slice, cluster and pipe is out of service, and nothing is being handed over. -/
def unitsOut (s : State) : Bool :=
  s.fix.mig.isNone && s.fix.queue.all (fun d => d.op != 5)
    && s.dark.list.all (fun j => decide (3 ≤ j.unit.type) || !inService s j.unit)

/-- The listed units are logged NOT_RUN: scan's clear did not verify (R360). -/
def logNotRun : List TestJob → State → State
  | [], s => s
  | j :: r, s => logNotRun r (logResult j 5 1 0 0 0 0 s)

/-- TEST_IN_FORCE (R60, R362): all named units have left service; `clearOk`: with SCAN, every clear verifies (R360). -/
def execTestInForce (clearOk : Bool) (s : State) : Out :=
  .next (
    if s.ctl.mode = .run ∧ s.ctl.target = some .test ∧ unitsOut s = true then
      let s1 := hwEvent pgMode 0 { s with ctl := { s.ctl with mode := .test, target := none } }
      let s2 := match s1.dark.testPort with
        | some p => finishCmd p rOk [] s1
        | none => s1
      let s3 := s2.dark.list.foldl (fun x j => addPages j.unit x) s2
      if s3.dark.scan && !clearOk then
        let s4 := logNotRun s3.dark.list (setB (darkA 0x088) 0 true (clearAllSecrets false s3))
        settle (endTest s4)
      else
        let s4 := if s3.dark.scan then setB (darkA 0x088) 0 false (clearAllSecrets true s3) else s3
        settle (listOver { s4 with dark := { s4.dark with
          wait := s4.dark.wait ++ s4.dark.list.filter (fun j => j.tests != 0) } })
    else s)

/-- Frames in the data path stop with it (Table 3.1): PROOF carries none. -/
def dropTraffic (s : State) : State :=
  let s1 := { s with dp := { s.dp with
    queues := [], dealt := [], overdue := [], held := [], opened := [], cells := [], seq := [], expect := [] } }
  (List.range 4).foldl (fun x v => setReg (drainA v) 0 x) s1

/-- Every port goes down for warm PROOF, and a reconfiguration ends. -/
def stopPorts (s : State) : State :=
  let s1 := downAll ((List.range 512).filter (portUp s)) s
  let s2 := s1.prt.reconf.foldl (fun x e => setF (recStA e.1) 1 0 0 x) s1
  { s2 with prt := { s2.prt with reconf := [], stopped := [] } }

/-- TEST_END (R362): TEST ends through warm PROOF, which skips step 1 (R50). -/
def execTestEnd (s : State) : Out :=
  .next (
    if s.ctl.mode = .test ∧ s.dark.ending = true ∧ s.dark.now = none ∧ s.ctl.entry = none then
      let s1 := dropTraffic (stopPorts s)
      hwEvent pgMode 0 { s1 with
        ctl := { s1.ctl with
          mode := .proof, warm := true, target := none
          proof := { s1.ctl.proof with step := 1, unitBad := false }
          faults := { s1.ctl.faults with proof := true } }
        dark := { s1.dark with ending := false } }
    else s)

end Sys2Proof.Machine
end

