-- ==== Sys2Proof/Machine/DarkRows.lean ====
section
/-! DEFINITION. Rows of DARKSLIDE: the start of the next unit's test, its result, background tests
(20_darkslide_self_test.md R354-R364). -/

namespace Sys2Proof.Machine

/-- May the test of job `j` start now (R152, R358, R363)? -/
def testMayStart (s : State) (j : TestJob) : Bool :=
  s.ctl.entry.isNone && decide (s.ctl.mode = if j.origin = 0 then Mode.test else Mode.run)
    && !(j.unit.type == 2 && decide (0 < inFlight s j.unit.unit))

/-- Has the unit secrets to clear before its test (R359)? -/
def hasSecrets (j : TestJob) : Bool :=
  decide (j.unit.type < 2) || (j.unit.type == 4 && j.unit.unit == 70 && decide (2 ≤ j.tests))

/-- A unit whose clear does not verify is not tested: NOT_RUN, reason 1 (R359). -/
def notRun (j : TestJob) (s : State) : State :=
  let s1 := logResult j 5 1 0 0 0 0 (setB (darkA 0x088) 0 true s)
  listOver (afterTest j false (if j.origin = 0 then s1 else dropPages j.unit s1))

/-- DARKSLIDE_TEST_START (R354, R359): the next unit's test starts; `clearOk`: the clear of its secrets verifies. -/
def execDarkslideTestStart (clearOk : Bool) (s : State) : Out :=
  .next (
    match s.dark.now, s.dark.wait with
    | none, j :: r =>
      if testMayStart s j then
        let s1 := { s with dark := { s.dark with wait := r } }
        if hasSecrets j then
          let s2 := clearSecrets clearOk j.unit s1
          settle (if clearOk then runTest j (setB (darkA 0x088) 0 false s2) else notRun j s2)
        else settle (runTest j s1)
      else s
    | _, _ => s)

/-- OUTCOME of a test that ran to its end or stopped (Table 20.5): RESTORE_FAIL, MBIST_FAIL, INCOMPLETE, LBIST_FAIL, PASS. -/
def outcomeOf (j : TestJob) (r : TestReport) : Nat :=
  if isPriv j.unit ∧ r.restoreBad = true then 3
  else if j.tests % 2 = 1 ∧ r.mbistFail = true then 2
  else if 2 ≤ j.tests ∧ r.patterns < 65536 then 4
  else if 2 ≤ j.tests ∧ r.lbistFail = true then 1
  else 0

/-- A run that stopped before its terminal count: unproven, not judged (R355). -/
def stopTest (j : TestJob) (r : TestReport) (s : State) : State :=
  let s1 := logResult j 4 0 r.patterns r.signature.toNat 0 (mbistRows j r) s
  let s2 := noteRows j r (idleDark (if isPriv j.unit then restorePriv j.unit.unit false s1 else s1))
  leaveUnit j (if j.origin = 0 then s2 else dropPages j.unit s2)

/-- DARKSLIDE_UNIT_RESULT (R355, R356, R362): the test under way ends with report `r`. -/
def execDarkslideUnitResult (r : TestReport) (s : State) : Out :=
  .next (
    match s.dark.now with
    | none => s
    | some j =>
      let oc := outcomeOf j r
      let n := if 2 ≤ j.tests then r.patterns else 0
      let s1 := if oc = 4 then stopTest j r s else finishTest j oc 0 { r with patterns := n } s
      settle (listOver (if isPriv j.unit then serveStalled s1 else s1)))

/-! ### Background tests (R364) -/

/-- The unit after `n` in the cycle PP00 to PP47, C64, C65. -/
def afterUnit (n : Nat) : Nat := if n < 47 then n + 1 else if n < 64 then 64 else if n = 64 then 65 else 0

/-- The unit of a place in the cycle. -/
def cycleUnit (n : Nat) : UnitId := if n < 48 then pipeId n else clusterId n

/-- Is the unit one that the cycle tests: a pipe in rotation, a free spare pipe or a free spare cluster? -/
def cycleTests (s : State) (n : Nat) : Bool :=
  if n < 48 then pipeState s n == 1 || (freeSpares s).contains n else freeCluster s n && !inMigration s (clusterId n)

/-- The first unit of the cycle from `n` on that is tested. -/
def nextInCycle (s : State) : Nat → Nat → Option Nat
  | 0, _ => none
  | k + 1, n => if cycleTests s n then some n else nextInCycle s k (afterUnit n)

/-- Ask for the background test of a unit. -/
def askBackground (u : UnitId) (s : State) : State :=
  { s with dark := { s.dark with wait := s.dark.wait ++ [{ unit := u, tests := 3, origin := 3 }] } }

/-- The test of unit `n` of the cycle is asked for; a pipe in rotation without a spare is skipped and counted. -/
def background (n : Nat) (s : State) : State :=
  let s1 := setF (darkA 0x098) 6 0 (afterUnit n) s
  if n < 48 ∧ pipeState s n = 1 then
    match (freeSpares s).head? with
    | some x => askBackground (pipeId n) (lastSpare (pipeId x) (replacePipe n 3 (some x) s1))
    | none => addF (darkA 0x098) 31 16 1 s1
  else askBackground (cycleUnit n) (setAny (cycleUnit n) 3 s1)

/-- BG_TEST_START (R364): INTERVAL minutes have passed. -/
def execBgTestStart (s : State) : Out :=
  .next (
    if getB s (adr pgDark 0x010) 1 = true ∧ s.ctl.mode = .run ∧ s.dark.now = none ∧ s.dark.wait = [] then
      match nextInCycle s 50 (getF s (darkA 0x098) 6 0) with
      | some n => background n s
      | none => s
    else s)

end Sys2Proof.Machine
end

