-- ==== Sys2Proof/Machine/FedRows.lean ====
section
/-! DEFINITION. What the pipes complete, with the control frames they hand to the management core, and federation frames that
arrive: PARSE_RECORD_DONE, HEARTBEAT_RECEIVE, RELAYED_COMMAND, RELAYED_RESPONSE (07_parse_array.md R129, 04_command_ports.md
R78, 22_federation.md R384-R388). -/

namespace Sys2Proof.Machine

/-! ### Control frames (R78, R129) -/

/-- The request that a command frame carries for port `p`, where its transport is good (R68, R78): to port W the response goes
back to the frame's source address. -/
def frameReq (c : ControlFrm) (p : CmdPort) : Option Req :=
  let b := c.body
  let n := leField b 10 2
  if 14 ≤ b.length ∧ n ≤ 256 ∧ 14 + n ≤ b.length then
    some { port := p, code := BitVec.ofNat 16 (leField b 6 2), seq := BitVec.ofNat 16 (leField b 8 2)
           args := slice b 14 n, ingress := c.port, source := if p = .F then beField b 4 2 else c.src
           relayed := none, sheetReq := false }
  else none

/-- A command frame on a port with a role (R78, R79). -/
def commandFrame (c : ControlFrm) (s : State) : State :=
  let p := if fedRole s c.port then CmdPort.F else .W
  match frameReq c p with
  | some q => takeCommand q s
  | none => frameDrop p s

/-- A control frame in the management core: a command to its port, a neighbour's response up, the federation's messages to the
agent; what R129 drops and counts goes no further. -/
def handControl (c : ControlFrm) (s : State) : State :=
  match c.msg with
  | 2 => if tabGet (fun _ => 0) s.nv.roles c.port % 4 = 0 then s else commandFrame c s
  | 3 => if fedRole s c.port then { s with fed := { s.fed with handedUp := c.body :: s.fed.handedUp } } else s
  | 4 => if fedHears s c.port then hearHb c.port c.body s else s
  | 5 => if fedHears s c.port then hearRelayed c.port c.body s else s
  | 6 => if fedHears s c.port then hearResponse c.port c.body s else s
  | _ => s

/-! ### Records -/

/-- Remove the oldest frame of a pipe. -/
def takeDealt (p : Nat) : List Dealt → Option (Dealt × List Dealt)
  | [] => none
  | d :: r =>
    if d.pipe = p then some (d, r)
    else
      match takeDealt p r with
      | some (x, y) => some (x, d :: y)
      | none => none

/-- A comparison that finds a difference ends at once (R344). -/
def shadowEnds (b : Bool) (s : State) : State :=
  match s.fix.mig with
  | some m => if b && m.step == 2 then miscompare m s else s
  | none => s

/-- A record of a stalled pipe, for a frame declared lost (R149, R158). -/
def lateRecord (p : Nat) (s : State) : State :=
  hwEvent pgReorder 2 (addLive (adr pgReorder 0x0AC) 1 { s with dp := { s.dp with
    overdue := tabSet (fun _ => 0) s.dp.overdue p (tabGet (fun _ => 0) s.dp.overdue p - 1) } })

/-- A control frame is handed over; what it sets off settles. -/
def handOn (o : Option ControlFrm) (s : State) : State :=
  match o with
  | some c => settle (handControl c s)
  | none => s

/-- PARSE_RECORD_DONE (R169): pipe `p` completes its oldest frame; `differs`: its shadow's record differs. -/
def execParseRecordDone (p : PipeNo) (differs : Bool) (s : State) : Out :=
  .next (
    if dealing s then
      if 0 < tabGet (fun _ => 0) s.dp.overdue p then lateRecord p s
      else
        match takeDealt p s.dp.dealt with
        | none => s
        | some (d, rest) =>
          handOn (controlOf s d)
            (quarterSettle (shadowEnds (d.shadow && differs) (recordDone d differs { s with dp := { s.dp with dealt := rest } })))
    else s)

/-! ### Federation frames -/

/-- A federation frame on port `p`: dropped beyond the agent's rate, else heard. -/
def fedReceive (hear : Nat → List Byte → State → State) (p : Nat) (body : List Byte) (late : Bool) (s : State) : State :=
  if fedHears s p then settle (if late then overload s else hear p body s) else s

/-- HEARTBEAT_RECEIVE (R384): a heartbeat, its octets from the EtherType on, arrives on port `p`; `late`: beyond the agent's
rate. -/
def execHeartbeatReceive (p : PortNo) (body : List Byte) (late : Bool) (s : State) : Out :=
  .next (fedReceive hearHb p body late s)

/-- RELAYED_COMMAND (R386): a relayed command arrives on port `p`. -/
def execRelayedCommand (p : PortNo) (body : List Byte) (late : Bool) (s : State) : Out :=
  .next (fedReceive hearRelayed p body late s)

/-- RELAYED_RESPONSE (R386): a relayed response arrives on port `p`. -/
def execRelayedResponse (p : PortNo) (body : List Byte) (late : Bool) (s : State) : Out :=
  .next (fedReceive hearResponse p body late s)

end Sys2Proof.Machine
end

