-- ==== Sys2Proof/Machine/Retain.lean ====
section
/-! DEFINITION. What survives DARK: the register banks of Table 18.8, the retention rail and the cluster latches
(18_power_and_retention.md R330-R334). -/

namespace Sys2Proof.Machine

/-- Is `o` one of the word offsets `lo`, `lo + 4`, … below `hi`? -/
def offIn (o lo hi : Nat) : Bool := decide (lo ≤ o) && decide (o < hi)

/-- Registers of bank 0 (management). -/
def bank0 (k : PageKind) (o : Nat) : Bool :=
  match k with
  | .irqT => o == 0x088 || offIn o 0x090 0x0C0
  | .fed => o == 0x010 || o == 0x080 || offIn o 0x088 0x09C || o == 0x120 || o == 0x124 || offIn o 0x800 0x1000
  | .darkslide => o == 0x010 || o == 0x094
  | .loupe => offIn o 0x084 0x094
  | .memport => o == 0x088 || offIn o 0x090 0x0C0
  | _ => false

/-- Registers of bank 1 (time). -/
def bank1 (k : PageKind) (o : Nat) : Bool :=
  match k with
  | .time => offIn o 0x080 0x090 || o == 0x0D8
  | .shutter => o == 0x080 || o == 0x0A4 || o == 0x0A8 || offIn o 0x800 0x1000
  | _ => false

/-- Registers of bank 2 (spreader and reorder): the shared parse configuration lives on the page of PP00. -/
def bank2 (k : PageKind) (o : Nat) : Bool :=
  match k with
  | .cls => offIn o 0x800 0x1000
  | .version => o == 0x010
  | .flowkey => offIn o 0x100 0x200
  | .pipe => offIn o 0x100 0x10C || offIn o 0x110 0x150
  | .spread => o == 0x08C
  | _ => false

/-- Registers of bank 3 (host DMA). -/
def bank3 (k : PageKind) (o : Nat) : Bool :=
  match k with
  | .dmaFn => offIn o 0x800 0xC00
  | .offload => o == 0x080
  | .cv => offIn o 0x080 0x0AC
  | _ => false

/-- Is the register at `a` in bank `b`? -/
def inBank (b a : Nat) : Bool :=
  let k := (pageInfo (pageOf a)).kind
  match b with
  | 0 => bank0 k (offOf a)
  | 1 => bank1 k (offOf a)
  | 2 => bank2 k (offOf a) && (decide (k ≠ .pipe) || decide (pageOf a = pgPipe 0))
  | _ => bank3 k (offOf a)

/-- Registers and counters outside the banks that keep their values through DARK: those of the always-on pages and of the
clusters, the retention-rail arrays, and what other rules keep (R70, R293, R232, R253, R275, R377). -/
def onRail (a : Nat) : Bool :=
  let i := pageInfo (pageOf a)
  let o := offOf a
  (match i.domain with
   | .ao => true
   | .cl _ => true
   | _ => false)
  || o == 0x010 || o == 0x030
  || match i.kind with
     | .irqT => true
     | .irqMask => true
     | .irqCount => true
     | .pipe => o == 0x080 || offIn o 0x160 0x1000 || offIn o 0x084 0x100
     | .loupeBank => true
     | .version => offIn o 0x080 0x0A0 || offIn o 0x0C0 0x0E0
     | .clsKeys => offIn o 0x080 0x100
     | .cmd => o == 0x0A0
     | .shutter => offIn o 0x100 0x300
     | .time => o == 0x0A8 || o == 0x0AC || o == 0x0BC
     | .fed => o == 0x084
     | .fn => o == 0x084
     | .memport => o == 0x080 || o == 0x084
     | .flowkey => o == 0x090 || o == 0x024
     | _ => false

/-- COMMIT_STATUS and COMMIT_AT: a timed commit stays pending through DARK (R180). -/
def commitReg (a : Nat) : Bool := decide (pageOf a = pgVersion) && offIn (offOf a) 0x0A4 0x0B4

/-- The registers of a bank that differ from reset. -/
def bankRegs (s : State) (b : Nat) : List (Nat × Word) := s.win.regs.filter (fun x => inBank b x.1)

/-- BANK_b of PG_RETAIN. -/
def bankA (b : Nat) : Nat := adr pgRetain (0x080 + 4 * b)

/-- The save at DARK entry (R331). -/
def saveBanks (s : State) : State :=
  let s1 := { s with pwr := { s.pwr with saved := (List.range 4).map (bankRegs s) } }
  let s2 := (List.range 4).foldl (fun x b => setB (bankA b) 31 true x) s1
  hwEvent pgRetain 0 (addF (adr pgRetain 0x098) 31 16 1 (setPair (adr pgRetain 0x090) s.tim.powered s2))

/-- What is neither saved nor retained is at reset after DARK. -/
def loseRest (s : State) : State :=
  { s with win := { s.win with
    regs := tabKeep (fun a => onRail a || (s.cls.commit.isSome && commitReg a) || (List.range 4).any (fun b => inBank b a))
      s.win.regs
    live := tabKeep onRail s.win.live, snap := [], tod := [], held := [] } }

/-- Channels of the functions stay in force until their next reset, whatever FN_CFG then says (Table 18.8). -/
def pinChannels (s : State) : State :=
  { s with dma := { s.dma with chan := (List.range 256).foldl (fun t f => tabPut t f (fnChan s f)) s.dma.chan } }

/-- A bank that fails its check: its registers take their reset values, its functions stay off (R332). -/
def bankFails (b : Nat) (s : State) : State :=
  let s0 := if b = 3 then pinChannels s else s
  let s1 := { s0 with win := { s0.win with regs := tabKeep (fun a => !inBank b a) s0.win.regs } }
  let s2 := setB (bankA b) 30 true (addF (adr pgRetain 0x098) 7 0 1 s1)
  match b with
  | 0 => { s2 with irq := { s2.irq with wb := [] } }
  | 1 => setTs (calInForce s2) (List.range 512) s2
  | _ => s2

/-- PG_POWER event 4 and cause 4 of FAULT_N (R332). -/
def retainFault (s : State) : State :=
  hwEvent pgPower 4 { s with ctl := { s.ctl with faults := { s.ctl.faults with retain := true } } }

/-- The banks are checked and written back; `bad`: banks that fail (R332). -/
def restoreBanks (bad : BitVec 4) (s : State) : State :=
  let s1 := (List.range 4).foldl (fun x b => setF (bankA b) 31 30 0 x) (loseRest s)
  let s2 := setSelected (fun _ => true) s.pwr.saved.flatten { s1 with pwr := { s1.pwr with saved := [] } }
  let s3 := (List.range 4).foldl (fun x b => if bad.getLsbD b then bankFails b x else x) s2
  let s4 := hwEvent pgRetain 1 (setF (adr pgPower 0x094) 19 16 bad.toNat s3)
  if bad = 0 then s4 else hwEvent pgRetain 2 (retainFault s4)

/-- A cluster whose latch check fails: its configuration is loaded as at PROOF step 6, its counters are cleared (R332). -/
def clusterFails (n : Nat) (s : State) : State :=
  let h := home s n
  let mine := fun a => (clusterOf a == some h) && (offOf a == 0x010 || decide (0x080 ≤ offOf a))
  let s1 := clearLive (fun a => clusterOf a == some h)
    { s with win := { s.win with regs := tabKeep (fun a => !mine a) s.win.regs } }
  let s2 := showSlice8 h (serving s h) (loadCal (calInForce s) [h] false true s1)
  retainFault (setB (adr pgPower (0x0AC + 4 * (n / 32))) (n % 32) true s2)

def clustersFail : List Nat → State → State
  | [], s => s
  | n :: r, s => clustersFail r (clusterFails n s)

end Sys2Proof.Machine
end

