-- ==== Sys2Proof/Machine/PowerRows.lean ====
section
/-! DEFINITION. Rows of the power controller: LEVEL_CHANGE_DONE, sleep entry, wake, THERM_WARN (18_power_and_retention.md
R317-R335; 01 R28-R30). -/

namespace Sys2Proof.Machine

/-! ### Level changes -/

/-- LEVEL_CHANGE_DONE (R318): the sequence is complete. A pending request is then taken (R321). -/
def execLevelChangeDone (s : State) : Out :=
  .next (
    match s.pwr.flight with
    | some r =>
      if r.sleep then s
      else
        let s1 := hwEvent pgPower 0 (setLevel r.value s)
        settle (startSlot (endReq r rOk 0 { s1 with pwr := { s1.pwr with flight := none } }))
    | none => s)

/-! ### Sleep entry -/

/-- Discard every uncommitted frame of a port's queue under row 2 (R324). -/
def discardAll (p : Nat) : List TxFrm → State → List TxFrm × State
  | [], s => ([], s)
  | f :: r, s =>
    if f.dropping then
      let x := discardAll p r s
      (f :: x.1, x.2)
    else
      let y := discardFrm p 2 f (countDiscard p 0xB0 s)
      let x := discardAll p r y.2
      (y.1 ++ x.1, x.2)

/-- The transmit buffers give up what is not committed. -/
def emptyQueues : List Nat → State → State
  | [], s => s
  | p :: r, s =>
    emptyQueues r (
      match txQueue s p with
      | [] => s
      | l =>
        let x := discardAll p l s
        setTxQueue p x.1 x.2)

/-- Has everything that quiescence waits for left (R324): received frames, committed frames, completions, memory-port
writes? -/
def drained (s : State) : Bool :=
  s.rx.merge.isEmpty && s.dp.opened.isEmpty && s.dp.queues.all (fun x => x.2.isEmpty) && s.dp.dealt.isEmpty && s.dp.held.isEmpty && s.dp.cells.all (fun x => x.2.isEmpty)
    && s.tx.flight.isEmpty && s.tx.open_.isEmpty && s.dma.staging.isEmpty && s.mem.queue.isEmpty
    && s.dma.txq.all (fun x => x.2.frames.all (fun h => h.phase == 1 || h.phase == 3))

/-- Queued planned decisions are dropped at sleep entry (Table 19.6). -/
def dropPlans (s : State) : State :=
  { s with fix := { s.fix with queue := s.fix.queue.filter (fun d => d.kind != 0) } }

/-- The command SLEEP returns OK just before entry begins; REQ_STATUS stays in flight until the state is reached (R317,
R321). -/
def sleepOk (r : PwrReq) (s : State) : State :=
  match r.origin with
  | .modeReq _ => s
  | .command p => finishCmd p rOk [] s

/-- Entry begins: prefetched entries are discarded (R272), check-value jobs end where their island powers down (R300). -/
def beginEntry (r : PwrReq) (s : State) : State :=
  let s1 := dropPlans (dropPrefetch (sleepOk r s))
  let s2 := if r.value = 3 then failJobs 0 5 true (List.range 8) s1 else s1
  { s2 with pwr := { s2.pwr with entering := true } }

/-- SLEEP_QUIESCED (R324): the last WAIT of the service cores. -/
def execSleepQuiesced (s : State) : Out :=
  .next (
    match s.pwr.flight with
    | some r =>
      if r.sleep = true ∧ s.pwr.entering = false ∧ s.ctl.mode = .run then
        let s1 := emptyQueues (List.range 512) s
        if drained s1 then settle (beginEntry r s1) else s1
      else s
    | none => s)

/-- Ports that do not listen in STILL: UP falls without an event (R120, R326). -/
def dropUps (keep : Nat → Bool) : List Nat → State → State
  | [], s => s
  | p :: r, s => dropUps keep r (if keep p = false ∧ portUp s p = true then setB (pcsA p 0x0B0) (p % 8) false s else s)

/-- DIM entry: no wake frame has matched since (Table 6.2). -/
def clearWakeSeen : List Nat → State → State
  | [], s => s
  | n :: r, s => clearWakeSeen r (setB (adr (pgCl n 0) 0x0DC) 7 false s)

/-- Clusters power down with their keys (R213). -/
def clustersOff : List Nat → State → State
  | [], s => s
  | n :: r, s => clustersOff r (if islandOn s n then clusterDown n s else s)

/-- Islands that a sleep state powers down (Table 18.5). -/
def sleepIslands (st : Sleep) (s : State) : State :=
  match st with
  | .dim =>
    let s1 := clustersOff ((List.range 66).filter (fun n => !wakeCluster s (home s n))) s
    { s1 with pwr := { s1.pwr with off := [66, 67, 68, 69].foldl setInsert s1.pwr.off } }
  | .dark =>
    let s1 := clustersOff (List.range 66) s
    { s1 with pwr := { s1.pwr with off := [66, 67, 68, 69, 70, 71, 72, 73].foldl setInsert s1.pwr.off } }
  | _ => s

/-- DARK entry: the banks are saved, HASH_SEED is cleared, the time island stops and its balls are held (R331-R333, R28). -/
def darkEntry (s : State) : State :=
  timeIslandOff (clearSeed (saveBanks { s with ctl := { s.ctl with pins := { s.ctl.pins with timeHeld := true } } }))

/-- SLEEP_ENTRIES counts the entry. -/
def countEntry (st : Sleep) (s : State) : State :=
  match st with
  | .doze => addF (adr pgPower 0x0B8) 9 0 1 s
  | .dim => addF (adr pgPower 0x0B8) 19 10 1 s
  | .dark => addF (adr pgPower 0x0B8) 29 20 1 s
  | .none => s

/-- What the entry itself changes; the events it latches are no wake sources, so it stands before STILL (R293). -/
def enterState (st : Sleep) (s : State) : State :=
  let s1 := { s with pwr := { s.pwr with entering := false } }
  let s2 := dropUps (fun p => decide (st = .dim) && bit (rxCfg s p) 12) (List.range 512) s1
  let s3 := countEntry st (if st = .dark then darkEntry s2 else if st = .dim then clearWakeSeen (List.range 64) s2 else s2)
  let s4 := sleepIslands st s3
  hwEvent pgMode 0 { s4 with tim := { s4.tim with acq := s4.tim.acq.filter (islandOn s4) } }

/-- A round trip ends with its wake: one that was recorded during entry, or that of a pending level request (R30, R321,
Table 1.10 step 4). -/
def roundTrip (s : State) : State :=
  if s.pwr.round then
    hwEvent pgPower 3 (addF (adr pgPower 0x090) 15 0 1 { s with pwr := { s.pwr with round := false } })
  else s

/-- SLEEP_STATE_REACHED (R30, R321): entry is complete; what was recorded meanwhile wakes the complex at once. -/
def execSleepStateReached (s : State) : Out :=
  .next (
    match s.pwr.flight with
    | some r =>
      if r.sleep = true ∧ s.pwr.entering = true then
        let w := s.pwr.wake
        let again := w.isSome || (match s.pwr.slot with | some q => !q.sleep | none => false)
        let s1 := enterState (sleepOf r.value) { s with pwr := { s.pwr with wake := none, round := again } }
        let s2 := reqStatus r 2 rOk 0 s1
        let s3 := { s2 with
          ctl := { s2.ctl with mode := .still, sleep := sleepOf r.value, target := none }
          pwr := { s2.pwr with flight := none } }
        startSlot (match w with
          | some (c, l) => noteWake c l s3
          | none => s3)
      else s
    | none => s)

/-! ### Wake -/

/-- Can source `code` at `loc` occur in the sleep state in force, or wait for the one being entered (Table 18.6, R30)? A frame
that arrives during DIM entry is dropped (R122). -/
def wakeFits (s : State) (code loc : Nat) : Bool :=
  match code with
  | 1 => loc == 11
  | 2 => loc == 14
  | 3 => loc == 0xFF
  | 4 => decide (s.ctl.mode = .still) && decide (s.ctl.sleep = .dim) && decide (loc < 64) && wakeCluster s loc
  | 5 => decide (sleepNow s = .dark) && decide (loc < 8)
  | 6 => decide (s.ctl.mode = .still) && decide (s.ctl.sleep = .dim) && decide (loc < 64) && wakeCluster s loc
  | 7 => decide (loc < 68) || loc == 0xFF
  | _ => false

/-- WAKE_EVENT (R30, R327): a wake source of Table 18.6 occurs, asleep or while the entry is in flight. -/
def execWakeEvent (code : BitVec 4) (loc : BitVec 8) (s : State) : Out :=
  .next (
    if (s.ctl.mode = .still ∨ s.pwr.entering = true) ∧ wakeFits s code.toNat loc.toNat = true then
      noteWake code.toNat loc.toNat s
    else s)

/-- Islands that RUN keeps on. -/
def wakeIslands (s : State) : State :=
  let q := (List.range 4).filter (fun q => quarterOn s q)
  let on := [70, 71, 72, 73] ++ q.map (fun q => 66 + q)
  { s with pwr := { s.pwr with off := s.pwr.off.filter (fun i => !on.contains i) } }

/-- Held wake frames enter the data path as the next frames of their ports (R122). -/
def deliverHeld : List (Nat × WakeFrm) → State → State
  | [], s => s
  | (_, w) :: r, s => deliverHeld r (enterSecY w.port w.data w.fcs 0 false false w.start false s).1

/-- The banks, the time island and the keys after DARK. -/
def darkWake (bad : BitVec 4) (s : State) : State :=
  let s1 := restoreBanks bad { s with ctl := { s.ctl with sleep := .none } }
  timeIslandOn { s1 with pwr := { s1.pwr with off := setErase s1.pwr.off 73 } }

/-- Lanes whose inputs are not what their powered cluster last sampled: their changes count at the wake (R9, R104). -/
def resample (s : State) : State :=
  sampleLanes ((List.range 512).filter (fun l => clusterOn s (l / 8) && laneLevels s l != laneSample s l)) s

/-- What waited for the wake reaches its island together: in the order W, H, then the others (R29, R72). -/
def serveWaiting (s : State) : State := serveStalled (startPort .W s)

/-- Every domain is ready: RUN (R328). -/
def wakeDone (bad : BitVec 4) (fails : List Nat) (s : State) : State :=
  let down := (List.range 66).filter (fun n => runsNow s n && !islandOn s n)
  let s1 := { s with
    ctl := { s.ctl with mode := .run, target := if s.ctl.entry.isSome then some .safelight else none }
    pwr := { s.pwr with wake := none } }
  let s2 := if s.ctl.sleep = .dark then darkWake bad s1 else s1
  let s3 := clustersFail (down.filter (fun n => fails.contains n)) (wakeIslands s2)
  let s4 := resample (powerUpClusters down { s3 with ctl := { s3.ctl with sleep := .none } })
  let l := s4.rx.wakeHeld
  let s5 := deliverHeld l { s4 with rx := { s4.rx with wakeHeld := [] } }
  let s6 := roundTrip (hwEvent pgMode 0 (hwEvent pgPower 2 s5))
  startSlot (quarterSettle (thawQueues (serveWaiting (irqSettle s6))))

/-- WAKE_COMPLETE (R328, R332): every domain is ready; `bad`: banks that fail their check, `fails`: clusters whose latch
check fails. -/
def execWakeComplete (bad : BitVec 4) (fails : List ClusterNo) (s : State) : Out :=
  .next (if s.ctl.mode = .still ∧ s.pwr.wake.isSome = true then settle (wakeDone bad (fails.map (fun n => n.val)) s) else s)

/-! ### Temperature -/

/-- THERM_WARN (R320): the junction is at `t` °C; at or above 110 °C event 6 is latched. -/
def execThermWarn (t : BitVec 8) (s : State) : Out :=
  .next (
    let a := adr pgPower 0x0BC
    let peak := BitVec.ofNat 8 (getF s a 15 8)
    let s1 := setF a 7 0 t.toNat (if peak.slt t then setF a 15 8 t.toNat s else s)
    if (110#8).sle t then hwEvent pgPower 6 s1 else s1)

end Sys2Proof.Machine
end

