-- ==== Sys2Proof/Machine/Dispatch.lean ====
section
/-! DEFINITION. What each command does: one arm per command, one direct call of its meaning. -/

namespace Sys2Proof.Machine

def exec (i : Instr) (s : State) : Host.Outcome State Fault Refusal :=
  match i with
  | .dieResetAssert => Sys2Proof.Machine.execDieResetAssert s
  | .dieResetRelease strap => Sys2Proof.Machine.execDieResetRelease strap s
  | .corePgFall => Sys2Proof.Machine.execCorePgFall s
  | .corePgRise => Sys2Proof.Machine.execCorePgRise s
  | .vddioLow => Sys2Proof.Machine.execVddioLow s
  | .proofStepDone r => Sys2Proof.Machine.execProofStepDone r s
  | .alarmInRise => Sys2Proof.Machine.execAlarmInRise s
  | .alarmInAccepted => Sys2Proof.Machine.execAlarmInAccepted s
  | .alarmInFall => Sys2Proof.Machine.execAlarmInFall s
  | .safelightInForce => Sys2Proof.Machine.execSafelightInForce s
  | .safelightSwitchToRun => Sys2Proof.Machine.execSafelightSwitchToRun s
  | .testInForce clearOk => Sys2Proof.Machine.execTestInForce clearOk s
  | .testEnd => Sys2Proof.Machine.execTestEnd s
  | .contactSheet a args => Sys2Proof.Machine.execContactSheet a args s
  | .regRead a args access => Sys2Proof.Machine.execRegRead a args access s
  | .regWrite a args => Sys2Proof.Machine.execRegWrite a args s
  | .setLevel a args => Sys2Proof.Machine.execSetLevel a args s
  | .sleep a args => Sys2Proof.Machine.execSleep a args s
  | .safelightEnter a args => Sys2Proof.Machine.execSafelightEnter a args s
  | .safelightExit a args => Sys2Proof.Machine.execSafelightExit a args s
  | .testStart a args => Sys2Proof.Machine.execTestStart a args s
  | .testAbort a args => Sys2Proof.Machine.execTestAbort a args s
  | .timeStepArm a args => Sys2Proof.Machine.execTimeStepArm a args s
  | .forceRepairMigrate a rest => Sys2Proof.Machine.execForceRepairMigrate a rest s
  | .forceRepairReturn a rest => Sys2Proof.Machine.execForceRepairReturn a rest s
  | .forceRepairCondemn a rest => Sys2Proof.Machine.execForceRepairCondemn a rest s
  | .forceRepairReinstate a rest => Sys2Proof.Machine.execForceRepairReinstate a rest s
  | .restoreFactory a args => Sys2Proof.Machine.execRestoreFactory a args s
  | .versionLoad a args => Sys2Proof.Machine.execVersionLoad a args s
  | .versionLoadComplete img => Sys2Proof.Machine.execVersionLoadComplete img s
  | .versionCommitNow a slot rest => Sys2Proof.Machine.execVersionCommitNow a slot rest s
  | .versionCommitAtTime a slot rest => Sys2Proof.Machine.execVersionCommitAtTime a slot rest s
  | .versionDiscard a slot rest => Sys2Proof.Machine.execVersionDiscard a slot rest s
  | .timedCommitDue => Sys2Proof.Machine.execTimedCommitDue s
  | .slotRetire slot => Sys2Proof.Machine.execSlotRetire slot s
  | .slkPoll seq whole => Sys2Proof.Machine.execSlkPoll seq whole s
  | .slkCsTimeout => Sys2Proof.Machine.execSlkCsTimeout s
  | .slkWdogExpiry => Sys2Proof.Machine.execSlkWdogExpiry s
  | .safetyCtrlWrite p ok v => Sys2Proof.Machine.execSafetyCtrlWrite p ok v s
  | .registerWrite p a ok v => Sys2Proof.Machine.execRegisterWrite p a ok v s
  | .evtSet p page v => Sys2Proof.Machine.execEvtSet p page v s
  | .evtClr p page v => Sys2Proof.Machine.execEvtClr p page v s
  | .evtMaskSet p page v => Sys2Proof.Machine.execEvtMaskSet p page v s
  | .evtMaskClr p page v => Sys2Proof.Machine.execEvtMaskClr p page v s
  | .evtCntSelWrite p page v => Sys2Proof.Machine.execEvtCntSelWrite p page v s
  | .laneStatusChange l v => Sys2Proof.Machine.execLaneStatusChange l v s
  | .portUp p => Sys2Proof.Machine.execPortUp p s
  | .reconfigGo p cl v => Sys2Proof.Machine.execReconfigGo p cl v s
  | .reconfigRestart cl => Sys2Proof.Machine.execReconfigRestart cl s
  | .counterSnap p page => Sys2Proof.Machine.execCounterSnap p page s
  | .counterClear p page v => Sys2Proof.Machine.execCounterClear p page v s
  | .rxFrame p start frag o codeErr headLeft block => Sys2Proof.Machine.execRxFrame p start frag o codeErr headLeft block s
  | .pauseTimerExpiry p k => Sys2Proof.Machine.execPauseTimerExpiry p k s
  | .macTableWrite p cl => Sys2Proof.Machine.execMacTableWrite p cl s
  | .macTableRead p cl => Sys2Proof.Machine.execMacTableRead p cl s
  | .spreadDeal => Sys2Proof.Machine.execSpreadDeal s
  | .parseRecordDone p differs => Sys2Proof.Machine.execParseRecordDone p differs s
  | .flowkeyReadyChange q v => Sys2Proof.Machine.execFlowkeyReadyChange q v s
  | .pipeStall p => Sys2Proof.Machine.execPipeStall p s
  | .reorderRelease p => Sys2Proof.Machine.execReorderRelease p s
  | .gapTimeout p => Sys2Proof.Machine.execGapTimeout p s
  | .rxCreditGrant cl n => Sys2Proof.Machine.execRxCreditGrant cl n s
  | .pipeTest p v => Sys2Proof.Machine.execPipeTest p v s
  | .quarterOff p v => Sys2Proof.Machine.execQuarterOff p v s
  | .quarterOn p v => Sys2Proof.Machine.execQuarterOn p v s
  | .quarterIdleTimeout q => Sys2Proof.Machine.execQuarterIdleTimeout q s
  | .classRowRead p v => Sys2Proof.Machine.execClassRowRead p v s
  | .hashSeedWrite p v => Sys2Proof.Machine.execHashSeedWrite p v s
  | .txCellAccept cl side first data => Sys2Proof.Machine.execTxCellAccept cl side first data s
  | .txFrameCommit p block laid left => Sys2Proof.Machine.execTxFrameCommit p block laid left s
  | .txFrameEnd p => Sys2Proof.Machine.execTxFrameEnd p s
  | .xoffRequestChange p v => Sys2Proof.Machine.execXoffRequestChange p v s
  | .fcRefresh p => Sys2Proof.Machine.execFcRefresh p s
  | .pauseWdogTrip p k => Sys2Proof.Machine.execPauseWdogTrip p k s
  | .verifyTimer p => Sys2Proof.Machine.execVerifyTimer p s
  | .installRxSa p cl sc an => Sys2Proof.Machine.execInstallRxSa p cl sc an s
  | .installTxSa p cl sc an => Sys2Proof.Machine.execInstallTxSa p cl sc an s
  | .removeRxSa p cl sc an => Sys2Proof.Machine.execRemoveRxSa p cl sc an s
  | .removeTxSa p cl sc an => Sys2Proof.Machine.execRemoveTxSa p cl sc an s
  | .saRead p cl v => Sys2Proof.Machine.execSaRead p cl v s
  | .encodingSaWrite p cl sc v => Sys2Proof.Machine.execEncodingSaWrite p cl sc v s
  | .adjStep p => Sys2Proof.Machine.execAdjStep p s
  | .adjSlew p => Sys2Proof.Machine.execAdjSlew p s
  | .adjReport p => Sys2Proof.Machine.execAdjReport p s
  | .adjSetAtPps p => Sys2Proof.Machine.execAdjSetAtPps p s
  | .tickIncrCommit p v => Sys2Proof.Machine.execTickIncrCommit p v s
  | .slewDone => Sys2Proof.Machine.execSlewDone s
  | .stepArmExpiry => Sys2Proof.Machine.execStepArmExpiry s
  | .ppsEdge phase => Sys2Proof.Machine.execPpsEdge phase s
  | .ppsTimeout => Sys2Proof.Machine.execPpsTimeout s
  | .refTimeoutExpiry => Sys2Proof.Machine.execRefTimeoutExpiry s
  | .timeRefLoss => Sys2Proof.Machine.execTimeRefLoss s
  | .timeRefReturn => Sys2Proof.Machine.execTimeRefReturn s
  | .timeAcqLoss k peak => Sys2Proof.Machine.execTimeAcqLoss k peak s
  | .timeAcqRegained k => Sys2Proof.Machine.execTimeAcqRegained k s
  | .distributionDelayMeasure k roundTrip peak => Sys2Proof.Machine.execDistributionDelayMeasure k roundTrip peak s
  | .shutterArm p c => Sys2Proof.Machine.execShutterArm p c s
  | .shutterDisarm p c => Sys2Proof.Machine.execShutterDisarm p c s
  | .shutterEdge c => Sys2Proof.Machine.execShutterEdge c s
  | .shutterPulseEnd c => Sys2Proof.Machine.execShutterPulseEnd c s
  | .shutterWake c => Sys2Proof.Machine.execShutterWake c s
  | .tslogRdWrite p u v => Sys2Proof.Machine.execTslogRdWrite p u v s
  | .dbTx p f rx v => Sys2Proof.Machine.execDbTx p f rx v s
  | .dbCq p f v => Sys2Proof.Machine.execDbCq p f v s
  | .dbStableTx p f rx v => Sys2Proof.Machine.execDbStableTx p f rx v s
  | .descriptorFetchDone rx q k data => Sys2Proof.Machine.execDescriptorFetchDone rx q k data s
  | .txHostFrameFetched q data => Sys2Proof.Machine.execTxHostFrameFetched q data s
  | .rxQueueDelivery q => Sys2Proof.Machine.execRxQueueDelivery q s
  | .functionReset p f v => Sys2Proof.Machine.execFunctionReset p f v s
  | .resetDone f => Sys2Proof.Machine.execResetDone f s
  | .ctxRead p => Sys2Proof.Machine.execCtxRead p s
  | .ctxWrite p => Sys2Proof.Machine.execCtxWrite p s
  | .claim p t => Sys2Proof.Machine.execClaim p t s
  | .complete p t v => Sys2Proof.Machine.execComplete p t v s
  | .pendSet p w v => Sys2Proof.Machine.execPendSet p w v s
  | .pendClr p w v => Sys2Proof.Machine.execPendClr p w v s
  | .maskSet p w v => Sys2Proof.Machine.execMaskSet p w v s
  | .maskClr p w v => Sys2Proof.Machine.execMaskClr p w v s
  | .routeRead p => Sys2Proof.Machine.execRouteRead p s
  | .routeWrite p => Sys2Proof.Machine.execRouteWrite p s
  | .eqCiWrite p t v => Sys2Proof.Machine.execEqCiWrite p t v s
  | .eqCfgWrite p t v => Sys2Proof.Machine.execEqCfgWrite p t v s
  | .cvJobStart p u => Sys2Proof.Machine.execCvJobStart p u s
  | .cvJobAbort p u => Sys2Proof.Machine.execCvJobAbort p u s
  | .cvJobDone u data => Sys2Proof.Machine.execCvJobDone u data s
  | .memportResponse k ok tenths => Sys2Proof.Machine.execMemportResponse k ok tenths s
  | .memportTimeout k => Sys2Proof.Machine.execMemportTimeout k s
  | .memStatusChange v => Sys2Proof.Machine.execMemStatusChange v s
  | .regionValidate p v => Sys2Proof.Machine.execRegionValidate p v s
  | .regionInvalidate p v => Sys2Proof.Machine.execRegionInvalidate p v s
  | .levelChangeDone => Sys2Proof.Machine.execLevelChangeDone s
  | .sleepQuiesced => Sys2Proof.Machine.execSleepQuiesced s
  | .sleepStateReached => Sys2Proof.Machine.execSleepStateReached s
  | .wakeEvent code loc => Sys2Proof.Machine.execWakeEvent code loc s
  | .wakeComplete bad fails => Sys2Proof.Machine.execWakeComplete bad fails s
  | .padHoldClr p v => Sys2Proof.Machine.execPadHoldClr p v s
  | .retainAck p v => Sys2Proof.Machine.execRetainAck p v s
  | .thermWarn t => Sys2Proof.Machine.execThermWarn t s
  | .agingSample l => Sys2Proof.Machine.execAgingSample l s
  | .lockstepMiscompare u => Sys2Proof.Machine.execLockstepMiscompare u s
  | .uncorrectableError u c => Sys2Proof.Machine.execUncorrectableError u c s
  | .migrationStart => Sys2Proof.Machine.execMigrationStart s
  | .shadowCompareStart differs => Sys2Proof.Machine.execShadowCompareStart differs s
  | .migrationSwitchover frames => Sys2Proof.Machine.execMigrationSwitchover frames s
  | .retiredUnitFate => Sys2Proof.Machine.execRetiredUnitFate s
  | .journalHourRollover => Sys2Proof.Machine.execJournalHourRollover s
  | .jrnlRd p v => Sys2Proof.Machine.execJrnlRd p v s
  | .darkslideTestStart clearOk => Sys2Proof.Machine.execDarkslideTestStart clearOk s
  | .darkslideUnitResult r => Sys2Proof.Machine.execDarkslideUnitResult r s
  | .bgTestStart => Sys2Proof.Machine.execBgTestStart s
  | .calWriteOverlay p fn img => Sys2Proof.Machine.execCalWriteOverlay p fn img s
  | .calWriteDone => Sys2Proof.Machine.execCalWriteDone s
  | .nvRd p v => Sys2Proof.Machine.execNvRd p v s
  | .heartbeatSend => Sys2Proof.Machine.execHeartbeatSend s
  | .heartbeatReceive p body late => Sys2Proof.Machine.execHeartbeatReceive p body late s
  | .memberAbsent m => Sys2Proof.Machine.execMemberAbsent m s
  | .relayedCommand p body late => Sys2Proof.Machine.execRelayedCommand p body late s
  | .relayedResponse p body late => Sys2Proof.Machine.execRelayedResponse p body late s
  | .digestRecompute => Sys2Proof.Machine.execDigestRecompute s
  | .idConflictClear => Sys2Proof.Machine.execIdConflictClear s
  | .memberRd p v => Sys2Proof.Machine.execMemberRd p v s
  | .loupeSnap p v => Sys2Proof.Machine.execLoupeSnap p v s
  | .loupeCfgWrite p b c v => Sys2Proof.Machine.execLoupeCfgWrite p b c v s
  | .loupeClr p b w v => Sys2Proof.Machine.execLoupeClr p b w v s
  | .bwWindowEnd => Sys2Proof.Machine.execBwWindowEnd s
  | .archiveCapture => Sys2Proof.Machine.execArchiveCapture s
  | .lockLoss p hiBer => Sys2Proof.Machine.execLockLoss p hiBer s
  | .remoteFault p start => Sys2Proof.Machine.execRemoteFault p start s
  | .degradeWindowEnd p f => Sys2Proof.Machine.execDegradeWindowEnd p f s
  | .lockBoundReached => Sys2Proof.Machine.execLockBoundReached s
  | .timeDisjointCleared => Sys2Proof.Machine.execTimeDisjointCleared s
  | .timeBoundExceeded => Sys2Proof.Machine.execTimeBoundExceeded s
  | .vddioRise => Sys2Proof.Machine.execVddioRise s

end Sys2Proof.Machine
end

