-- ==== Sys2Proof/Machine/Tick.lean ====
section
/-! DEFINITION. The passing of time on an empty queue: one nanosecond of POWERED_NS, or one 20 ns cycle of the always-on
clock while the time island is powered down (log entry 1). -/

namespace Sys2Proof.Machine

/-- A level signal of Table 23.1; a signal whose domain is powered down is not seen (R397). -/
def levelOf (s : State) (unit inst sig : Nat) : Bool :=
  match unit, sig with
  | 1, 5 => islandOn s (serving s (inst / 8)) && (pausedMap s inst != 0 || pauseOf s (16 * inst + 8) != 0)
  | 2, 4 => islandOn s (serving s (inst / 8)) && waitingMap s inst != 0
  | 3, 2 => islandOn s (66 + inst / 12) && (inRotation s).contains inst
  | 4, 1 => decide (inst < 4) && islandOn s 70 && decide (4096 ≤ storeFill s inst)
  | 6, 2 => decide (inst < 68) && (tabFind s.irq.service inst).isSome
  | 7, _ => decide (inst = 0)
  | _, _ => false

/-- The counters among the listed registers whose level signal is 1 (R394). -/
def levelCounters (s : State) : Tab Word → List Nat
  | [] => []
  | (a, w) :: r =>
    match lpOfCfg a with
    | none => levelCounters s r
    | some c =>
      if bit w 31 && bit w 29 && !lpCarried s c && levelOf s (bits w 27 24) (bits w 21 12) (bits w 5 0) then
        c :: levelCounters s r
      else levelCounters s r

/-- Level counters over `n` nanoseconds (R394, R395). -/
def countLevels (n : Nat) (s : State) : State :=
  match lpAddAll n (levelCounters s s.win.regs) s with
  | (s1, banks) => latchBanks irqEdge 64 banks s1

/-- The block with no command waiting: a cycle passes, level counters count, journal entries held for the hour are
written where a new hour begins, and the command ports go on. -/
def idle (s : State) : State := settle (journalHour (countLevels (if s.tim.on then 1 else 20) (timeTick s)))

end Sys2Proof.Machine
end

