-- ==== Sys2Proof/Safety.lean ====
section
/-! DEFINITION. What counts as a safe run, in the terms the statements use: the transitions of Table 3.2, the outputs
that must be undriven or low (R26, R46), and the canonical form of the stored tables. -/

namespace Sys2Proof.Machine

/-- The transitions of Table 3.2; a mode that stays is none. SAFELIGHT from PROOF is for a PROOF that has not halted. -/
def modeEdge (a b : Mode) : Bool :=
  match a, b with
  | _, .hold => true
  | .hold, .proof => true
  | .proof, .run => true
  | .run, .still => true
  | .still, .run => true
  | .run, .test => true
  | .test, .proof => true
  | .proof, .safelight => true
  | .run, .safelight => true
  | .still, .safelight => true
  | .test, .safelight => true
  | .safelight, .run => true
  | _, _ => false

/-- SAFE_ACTIVE is high exactly in SAFELIGHT (R46), and no owned output is driven in HOLD (R26). -/
abbrev State.outputsSafe (s : State) : Prop :=
  (s.ctl.pins.safeActive = true ↔ s.ctl.mode = .safelight) ∧ (s.ctl.mode = .hold → s.ctl.pins.driven = false)

/-- A step that neither faults nor refuses, and makes no transition but one of Table 3.2. -/
def stepSafe (s : State) : Prop :=
  ∃ t, step s = .next t ∧ (t.ctl.mode = s.ctl.mode ∨ modeEdge s.ctl.mode t.ctl.mode = true)

/-- A table in canonical form: keys strictly rising, no entry equal to what an unlisted key reads as. -/
abbrev tabWf {α : Type} [DecidableEq α] (d : Nat → α) (t : Tab α) : Prop :=
  t.Pairwise (fun x y => x.1 < y.1) ∧ ∀ x ∈ t, x.2 ≠ d x.1

/-- The register file, the live counters and the NV store are in canonical form. -/
abbrev State.tablesWf (s : State) : Prop :=
  tabWf regReset s.win.regs ∧ tabWf (fun _ => 0) s.win.live ∧ tabWf (shippedByte 0) s.nv.cells

/-- The state without what an event or an interrupt can move: the stored registers, the controller, the wake on record, the
mode a transition leads to, the edges collected during a test, and the record of what is driven. -/
def State.rest (s : State) : State :=
  { s with
    ctl := { s.ctl with target := none }
    win := { s.win with regs := [] }
    irq := Irq.empty
    pwr := { s.pwr with wake := none }
    dark := { s.dark with edges := [] }
    out := [] }

/-- The interrupt controller holds only sources and targets that exist: sources 0 to 2047, targets T0 to T67. -/
abbrev State.irqSane (s : State) : Prop :=
  (∀ n ∈ s.irq.pending, n < 2048) ∧ (∀ x ∈ s.irq.service, x.1 < 68) ∧ ∀ n ∈ s.dark.edges, n < 2048

/-- The controller is sane, and no completion ring names a source beyond 2047. -/
abbrev State.sourcesReal (s : State) : Prop := s.irqSane ∧ ∀ x ∈ s.dma.cq, ctxRing x.2.word2 < 2048

/-- Everything that frames pass through: ports, receive, spreading, classification, transmit, MACsec, host rings. -/
def State.dataPath (s : State) : Prt × Rx × Dp × Cls × Tx × Sec × Dma := (s.prt, s.rx, s.dp, s.cls, s.tx, s.sec, s.dma)

/-- HOLD has been entered from `s` (R26, R49): registers are at reset but for the four that outlive it, and what stays of the
rest is POWERED_NS, the lanes' inputs, the NV cells and the queue. -/
abbrev enteredHold (s t : State) : Prop :=
  t.ctl.mode = .hold ∧ t.ctl.target = none ∧ t.ctl.entry = none ∧ t.ctl.exit = none ∧ t.ctl.proof = Proof.start
    ∧ t.ctl.faults.proof = true
    ∧ t.tim = { Tim.start with powered := s.tim.powered, refIn := s.tim.refIn } ∧ t.win.live = []
    ∧ t.dataPath = { State.reset with prt := { Prt.empty with laneIn := s.prt.laneIn } }.dataPath
    ∧ t.nv.cells = (cutOverlay s).nv.cells ∧ t.pending = s.pending
    ∧ (∀ a, a ≠ adr pgCmd 0x0A0 → a ≠ adr pgMem 0x084 → a ≠ adr pgFlow 0x090 → a ≠ jrnlA → getReg t a = regReset a)
    ∧ getReg t (adr pgCmd 0x0A0) = word (flag s.ctl.pins.strap) ∧ getReg t (adr pgMem 0x084) = getReg s (adr pgMem 0x084)
    ∧ getF t (adr pgFlow 0x090) 3 0 = getF s (adr pgFlow 0x090) 3 0 ∧ getF t jrnlA 6 0 = getF s jrnlA 6 0

/-- A cause of HOLD has ended, the levels now being `x`: PROOF begins where none is left (R9, R20, R49). -/
abbrev causeEnded (s t : State) (x : Pins) : Prop :=
  t.ctl.pins = x ∧ t.ctl.proof = s.ctl.proof ∧ t.pending = s.pending
    ∧ t.ctl.mode = (if x.dieResetLow || x.corePgLow || x.vddioLow then .hold else .proof)
    ∧ (t.ctl.mode = .proof → (∀ l < 512, portOfLane s l = none) → ∀ l < 512, laneSample t l = laneLevels s l)

/-- A register below the counts of the interrupt controller that routing and wake never move: neither EVT_LATCH nor EVT_CNT of
PG_IRQ_CTRL, nor the wake on record in PG_POWER. -/
abbrev eventFree (a : Nat) : Prop :=
  a < adr pgCount 0x800 ∧ a ≠ adr pgIrq 0x24 ∧ a ≠ adr pgIrq 0x40 ∧ a ≠ adr pgPower 0x094 ∧ a ≠ adr pgPower 0x098
    ∧ a ≠ adr pgPower 0x09C

/-- A write that passes every check of R410, and on which nothing else rides: no sleep request it cancels, no held half it
drops, no quarter it wakes. -/
abbrev plainWrite (s : State) (p : CmdPort) (a : Nat) : Prop :=
  writeVerdict s p a true = .accepted ∧ beforeWrite p a s = s

/-- Parse quarter `q` is on and to stay on, all its pipes powered: following QUARTER_CTRL does nothing (R153). -/
abbrev quarterQuiet (s : State) (q : Nat) : Prop :=
  getB s (adr pgSpread 0x08C) q = false ∧ quarterOn s q = true ∧ ∀ i < 12, pipeState s (12 * q + i) ≠ 0

/-- No command waits at a port: settling the ports does nothing (R71). -/
abbrev portsIdle (s : State) : Prop :=
  s.cmd.sheets = [] ∧ portWork s.cmd.h = false ∧ portWork s.cmd.s = false ∧ portWork s.cmd.m = false
    ∧ portWork s.cmd.f = false ∧ portWork s.cmd.w = false ∧ s.nv.restore = none ∧ s.fed.outbox = []

/-- A command row arrives whole under its own code at port `p`, whose tag and places are free, with no command waiting anywhere
and no power request in flight; on port M the link receives (R69-R71, R76). -/
abbrev freshAt (s : State) (p : CmdPort) (a : Arrival) : Prop :=
  a.port = p ∧ a.whole = true ∧ a.code = none ∧ a.sheetReq = false ∧ portsIdle s ∧ portsServed s = true
    ∧ (portOf s p).exec = none ∧ (portOf s p).wait = none ∧ findTag a.seq (portOf s p).tags = none
    ∧ s.pwr.flight = none ∧ s.pwr.entering = false ∧ (p = .M → linkOn s = true)

/-- The command of arrival `a` has ended on port `p` with this result, its place free (R70, R71). -/
def commandEnds (t : State) (p : CmdPort) (a : Arrival) (c : BitVec 16) (res : Byte) (data : List Byte) : Prop :=
  findTag a.seq (portOf t p).tags = some { seq := a.seq, code := c, done := some (res, data), dup := false }
    ∧ (portOf t p).exec = none

/-- The command of arrival `a` is executing on port `p` and has no result yet (R71). -/
def commandRuns (t : State) (p : CmdPort) (a : Arrival) (c : BitVec 16) : Prop :=
  findTag a.seq (portOf t p).tags = some { seq := a.seq, code := c, done := none, dup := false }
    ∧ executing t p c = true

end Sys2Proof.Machine
end

