-- ==== Sys2Proof/Certificates/Slice0/Obligations.lean ====
section
/-! DEFINITION. The statements handed to the provers. `State.withCommand` puts a command at the front of the queue;
`writeVerdict` and `readVerdict` are the ordered checks of R410 and R411; `cmdWork` says that a command waits at a command
port. -/

open Sys2Proof Sys2Proof.Machine

/-- For every command c, state s and rest r of the queue: a step of a state whose queue is c followed by r answers what exec answers for c on the same state with queue r. First in, first out is the model's own queue (log entry 2). -/
def Obligations.StepRunsFrontCommand : Prop :=
  ∀ (c : Instr) (r : List Instr) (s : State), s.pending = c :: r → step s = exec c { s with pending := r }

/-- A step on an empty queue answers a next state whose queue is still empty and whose mode, SAFE_ACTIVE and output drive are unchanged. That time passes on an empty queue is the model's choice (log entry 1). -/
def Obligations.IdleStep : Prop :=
  ∀ s : State, s.pending = [] → ∃ t, step s = .next t ∧ t.pending = [] ∧ t.ctl.mode = s.ctl.mode
    ∧ t.ctl.pins.safeActive = s.ctl.pins.safeActive ∧ t.ctl.pins.driven = s.ctl.pins.driven

/-- Every command of the table, in every state, answers a next state with the same queue: the spec gives each an effect, and the only commands waiting are those the sender has put there (log entry 2). -/
def Obligations.EveryCommandAnswers : Prop :=
  ∀ (c : Instr) (s : State), ∃ t, exec c s = .next t ∧ t.pending = s.pending

/-- For every state s and command at the front of its queue, or none: if step answers next t, the mode of t is that of s, or the pair is a row of Table 3.2. So HOLD leads only to PROOF, SAFELIGHT only to RUN or HOLD, TEST only to warm PROOF, SAFELIGHT or HOLD, and STILL only to RUN, SAFELIGHT or HOLD. -/
def Obligations.TransitionsOfTable32 : Prop :=
  ∀ s : State, ∀ t, step s = .next t → t.ctl.mode = s.ctl.mode ∨ modeEdge s.ctl.mode t.ctl.mode = true

/-- From every state in which SAFE_ACTIVE is high exactly in SAFELIGHT and no owned output is driven in HOLD, every step that answers next t gives a state t with the same property. -/
def Obligations.OutputsSafeKept : Prop :=
  ∀ s t : State, s.outputsSafe → step s = .next t → t.outputsSafe

/-- Right after reset SAFE_ACTIVE is low, the mode is PROOF, no owned output is driven and FAULT_N is held low. In State.reset the register file, the live counters and the NV store list nothing, which is their canonical form; every register reads its reset value. What lies in the store as shipped is the model's (log entry 24). -/
def Obligations.ResetState : Prop :=
  State.reset.outputsSafe ∧ State.reset.ctl.mode = .proof ∧ State.reset.ctl.pins.driven = false
    ∧ State.reset.ctl.pins.safeActive = false ∧ State.reset.ctl.faults.proof = true
  ∧ State.reset.tablesWf ∧ ∀ a, getReg State.reset a = regReset a

/-- A write of bytes d at address a of the NV store keeps the store's canonical form, and every byte outside a to a + length d - 1 reads as before, every other register and unit of the complex unchanged. -/
def Obligations.NvWriteKeepsForm : Prop :=
  ∀ (a : Nat) (d : List Byte) (s : State), tabWf (shippedByte 0) s.nv.cells →
    tabWf (shippedByte 0) (nvWrite a d s).nv.cells
      ∧ (∀ b, (b < a ∨ a + d.length ≤ b) → nvByte (nvWrite a d s) b = nvByte s b)
      ∧ (nvWrite a d s).win = s.win ∧ (nvWrite a d s).ctl = s.ctl

/-- In every state DIE_RESET_ASSERT, CORE_PG_FALL and VDDIO_LOW complete in HOLD: the input's own level is recorded and the other two, STRAP_FACTORY, ALARM_IN and the link's select stay; nothing is driven, SAFE_ACTIVE is low, no change of mode is in flight, FAULT_N is held low, the time island is stopped with time of day lost and POWERED_NS kept, every live counter is 0, the data path is as after reset but for what the lanes present, the NV cells are those of before with an overlay write under way cut short, the queue stays, and every register but STRAP, MEM_STATUS, CHANNEL_STATUS of PG_FLOWKEY and the hourly journal count reads its reset value. Journal entries held stay, but CORE_PG_FALL loses them. -/
def Obligations.HoldIsEntered : Prop :=
  ∀ s : State,
    (∃ t, exec .dieResetAssert s = .next t ∧ enteredHold s t
      ∧ t.ctl.pins = { holdPins s.ctl.pins with dieResetLow := true } ∧ t.fix.heldJrnl = s.fix.heldJrnl)
    ∧ (∃ t, exec .corePgFall s = .next t ∧ enteredHold s t
      ∧ t.ctl.pins = { holdPins s.ctl.pins with corePgLow := true } ∧ t.fix.heldJrnl = [])
    ∧ (∃ t, exec .vddioLow s = .next t ∧ enteredHold s t
      ∧ t.ctl.pins = { holdPins s.ctl.pins with vddioLow := true } ∧ t.fix.heldJrnl = s.fix.heldJrnl)

/-- In HOLD, DIE_RESET_RELEASE, CORE_PG_RISE and VDDIO_RISE of an input that is low complete: the input is no longer low, the sequence of PROOF has not begun, and the mode is PROOF where no other cause is left and HOLD where one is. DIE_RESET_RELEASE samples STRAP_FACTORY into STRAP. CORE_PG_RISE restarts POWERED_NS from 0 and the hourly write counts. Where PROOF begins and no lane carries a port, the last sample of every lane is what its inputs present. An input that is not low changes nothing. -/
def Obligations.HoldEndsInColdProof : Prop :=
  ∀ (s : State) (strap : Bool), s.ctl.mode = .hold →
    (s.ctl.pins.dieResetLow = true →
      ∃ t, exec (.dieResetRelease strap) s = .next t ∧ causeEnded s t { s.ctl.pins with dieResetLow := false, strap := strap }
        ∧ t.tim = s.tim ∧ getReg t (adr pgCmd 0x0A0) = word (flag strap))
    ∧ (s.ctl.pins.corePgLow = true →
      ∃ t, exec .corePgRise s = .next t ∧ causeEnded s t { s.ctl.pins with corePgLow := false }
        ∧ t.tim = { s.tim with powered := 0 } ∧ t.nv.hourCount = 0 ∧ getF t jrnlA 6 0 = 0)
    ∧ (s.ctl.pins.vddioLow = true →
      ∃ t, exec .vddioRise s = .next t ∧ causeEnded s t { s.ctl.pins with vddioLow := false } ∧ t.tim = s.tim)
    ∧ (s.ctl.pins.dieResetLow = false → exec (.dieResetRelease strap) s = .next s)
    ∧ (s.ctl.pins.corePgLow = false → exec .corePgRise s = .next s)
    ∧ (s.ctl.pins.vddioLow = false → exec .vddioRise s = .next s)

/-- Where ALARM_IN is watched (any mode but HOLD and cold PROOF before step 1) a rise from low records POWERED_NS and the MIN_US in force; a fall clears the pin, its accepted level and the filter. Neither changes the mode or anything outside the pins. ALARM_IN_ACCEPTED after a rise, in RUN with no entry under way, no request in flight or pending, no TEST on its way and no command waiting: ALARM_LEVEL is 1, event 2 of PG_SAFETY is latched, a SAFELIGHT entry of cause 1 from mode 2 is under way, and the mode, SAFE_ACTIVE and the data path are as they were. With no rise on record nothing changes. -/
def Obligations.AlarmInput : Prop :=
  (∀ s : State,
      (s.ctl.pins.alarmIn = false → alarmWatched s = true →
        ∃ t, exec .alarmInRise s = .next t ∧ t.ctl.pins.alarmIn = true
          ∧ t.ctl.pins.alarmRise = some (s.tim.powered, minUs s) ∧ t = { s with ctl := { s.ctl with pins := t.ctl.pins } })
      ∧ ∃ t, exec .alarmInFall s = .next t ∧ t.ctl.pins.alarmIn = false ∧ t.ctl.pins.alarmLevel = false
          ∧ t.ctl.pins.alarmRise = none ∧ t = { s with ctl := { s.ctl with pins := t.ctl.pins } })
  ∧ (∀ s : State,
      (s.ctl.pins.alarmRise.isSome = true → s.ctl.mode = .run → s.ctl.entry = none → s.ctl.halted = false →
          s.pwr.flight = none → s.pwr.slot = none → s.pwr.entering = false → s.ctl.target ≠ some .test → portsIdle s →
        ∃ t, exec .alarmInAccepted s = .next t ∧ t.ctl.pins.alarmLevel = true ∧ t.ctl.pins.alarmRise = none
          ∧ t.ctl.entry = some { cause := 1, fromMode := 2 } ∧ t.ctl.target = some .safelight ∧ t.ctl.mode = .run
          ∧ t.ctl.pins.safeActive = s.ctl.pins.safeActive ∧ (getReg t (adr pgSafety 0x24)).getLsbD 2 = true
          ∧ t.dataPath = s.dataPath ∧ t.tim = s.tim)
      ∧ (s.ctl.pins.alarmRise = none → exec .alarmInAccepted s = .next s))

/-- Where a SAFELIGHT trigger has been taken and what must finish first has finished, SAFELIGHT_IN_FORCE completes in SAFELIGHT with SAFE_ACTIVE high, the drive of the outputs and the queue as they were; and in every state reached from one with outputsSafe, SAFE_ACTIVE is high exactly in SAFELIGHT and, but in HOLD, low in every other mode. In SAFELIGHT with an accepted exit, no PROOF step deferred and no test running, SAFELIGHT_SWITCH_TO_RUN completes in RUN with SAFE_ACTIVE low. -/
def Obligations.SafelightBounds : Prop :=
  (∀ (s : State), s.ctl.entry.isSome = true → safeReady s = true →
      ∃ t, exec .safelightInForce s = .next t ∧ t.ctl.mode = .safelight ∧ t.ctl.pins.safeActive = true
        ∧ t.ctl.pins.driven = s.ctl.pins.driven ∧ t.pending = s.pending)
  ∧ (∀ (s : State), s.ctl.mode = .safelight → s.ctl.exit.isSome = true → s.ctl.deferred = 0 → s.dark.now = none →
      ∃ t, exec .safelightSwitchToRun s = .next t ∧ t.ctl.mode = .run ∧ t.ctl.pins.safeActive = false
        ∧ t.ctl.pins.driven = s.ctl.pins.driven ∧ t.pending = s.pending)

/-- In RUN with a test in preparation and every named unit out of service, TEST_IN_FORCE completes in TEST; without scan and with a unit to test, the units to test wait, every page of the list belongs to the test, no transition is in flight and event 0 of PG_MODE is latched. In TEST with its end under way, no unit under test and no SAFELIGHT trigger, TEST_END completes in warm PROOF with step 1 done (it skips step 1), FAULT_N held low, every frame in the data path gone and event 0 latched. DARKSLIDE_TEST_START takes the first waiting test that may start: it is the test under way, RUN_STATUS shows it, and its unit's pages answer no more; a clear that does not verify logs the unit of a TEST list NOT_RUN and tests nothing. DARKSLIDE_UNIT_RESULT ends the test under way of a TEST list: its outcome by Table 20.5 is on the list of results, RUN_STATUS reads 0 and no unit is under test. BG_TEST_START in RUN, enabled and with no test asked for, asks for the next unit of the cycle and advances NEXT; a pipe in rotation is replaced by the first free spare, and with none it is skipped. -/
def Obligations.TestModeRows : Prop :=
  ∀ s : State,
    (∀ clearOk, s.ctl.mode = .run → s.ctl.target = some .test → unitsOut s = true →
      ∃ t, exec (.testInForce clearOk) s = .next t ∧ t.ctl.mode = .test ∧ t.pending = s.pending
        ∧ t.ctl.pins.safeActive = s.ctl.pins.safeActive
        ∧ (s.dark.scan = false → portsIdle s → (∀ p, s.dark.testPort = some p → (portOf s p).wait = none) →
            s.dark.now = none → s.dark.list.any (fun j => j.tests != 0) = true →
          t.ctl.target = none ∧ t.dark.list = s.dark.list ∧ t.dark.now = none ∧ t.dark.ending = s.dark.ending
            ∧ t.dark.wait = s.dark.wait ++ s.dark.list.filter (fun j => j.tests != 0)
            ∧ t.prt.testPages = s.prt.testPages ++ (s.dark.list.map (fun j => unitPages s j.unit)).flatten
            ∧ (getReg t (adr pgMode 0x24)).getLsbD 0 = true))
    ∧ (s.ctl.mode = .test → s.dark.ending = true → s.dark.now = none → s.ctl.entry = none →
      ∃ t, exec .testEnd s = .next t ∧ t.ctl.mode = .proof ∧ t.pending = s.pending
        ∧ t.ctl.pins.safeActive = s.ctl.pins.safeActive ∧ t.ctl.warm = true ∧ t.ctl.proof.step = 1
        ∧ t.ctl.faults.proof = true ∧ t.ctl.target = none ∧ t.dark.ending = false ∧ t.dark.list = s.dark.list
        ∧ t.prt.reconf = [] ∧ t.dp.queues = [] ∧ t.dp.dealt = [] ∧ t.dp.held = [] ∧ t.dp.cells = []
        ∧ (getReg t (adr pgMode 0x24)).getLsbD 0 = true)
    ∧ (∀ clearOk (j : TestJob) (r : List TestJob), s.dark.now = none → s.dark.wait = j :: r → testMayStart s j = true →
        portsIdle s →
      (hasSecrets j = true → clearOk = true) →
      ∃ t, exec (.darkslideTestStart clearOk) s = .next t ∧ t.dark.now = some j ∧ t.dark.wait = r
        ∧ getReg t (darkA 0x080) = runStatus (if j.tests % 2 = 1 then 2 else 3) j
        ∧ t.prt.testPages = s.prt.testPages ++ unitPages s j.unit ∧ t.ctl.mode = s.ctl.mode)
    ∧ (∀ (j : TestJob) (r : List TestJob), s.dark.now = none → s.dark.wait = j :: r → testMayStart s j = true →
        portsIdle s → hasSecrets j = true → j.origin = 0 → r ≠ [] →
      ∃ t, exec (.darkslideTestStart false) s = .next t ∧ t.dark.now = none ∧ t.dark.wait = r
        ∧ t.dark.results = s.dark.results ++ [(j.unit, 5)] ∧ getB t (darkA 0x088) 0 = true ∧ t.ctl.mode = .test)
    ∧ (∀ (r : TestReport) (j : TestJob), s.dark.now = some j → j.origin = 0 → isPriv j.unit = false → s.dark.wait ≠ [] →
        portsIdle s →
      ∃ t, exec (.darkslideUnitResult r) s = .next t ∧ t.dark.now = none ∧ t.dark.wait = s.dark.wait
        ∧ t.dark.results = s.dark.results ++ [(j.unit, outcomeOf j r)] ∧ getReg t (darkA 0x080) = 0
        ∧ t.ctl.mode = s.ctl.mode)
    ∧ (∀ n, getB s (adr pgDark 0x010) 1 = true → s.ctl.mode = .run → s.dark.now = none → s.dark.wait = [] →
        nextInCycle s 50 (getF s (darkA 0x098) 6 0) = some n →
      ∃ t, exec .bgTestStart s = .next t ∧ getF t (darkA 0x098) 6 0 = afterUnit n ∧ t.ctl.mode = .run
        ∧ t.dark.wait = (if n < 48 ∧ pipeState s n = 1 ∧ freeSpares s = [] then [] else [{ unit := cycleUnit n, tests := 3, origin := 3 }])
        ∧ (∀ x l, n < 48 → pipeState s n = 1 → freeSpares s = x :: l → posOf s n ≠ none →
            pipeState t n = 3 ∧ pipeState t x = 1))

/-- On pages whose registers only hold what is written (kinds mode, retain, darkslide, nv, offload, pipe, reorder, clsKeys, version), for a register that is no half of a 64-bit pair, no event register and no snapshot register: a write that passes every check completes with the bits that software can write taken from the value and the others kept, every other register as before, and everything outside the register file as before. -/
def Obligations.PlainRegisterWrite : Prop :=
  ∀ (s : State) (p : CmdPort) (a : BitVec 22) (v : Word) (r : RegRow),
    plainWrite s p a.toNat → portsIdle s → rowAt a.toNat = some r → r.pair = 0 → aliasOf s a.toNat = a.toNat →
    (pageInfo (pageOf a.toNat)).kind ∈ [PageKind.mode, .retain, .darkslide, .nv, .offload, .pipe, .reorder, .clsKeys, .version] →
    0x080 ≤ offOf a.toNat →
    (∀ k, snapOff (pageInfo (pageOf a.toNat)).kind = some k → offOf a.toNat ≠ k ∧ offOf a.toNat ≠ k + 4) →
    ∃ t, exec (.registerWrite p a true v) s = .next t
      ∧ getReg t a.toNat = (getReg s a.toNat &&& ~~~(r.rw ||| r.wo)) ||| (v &&& (r.rw ||| r.wo))
      ∧ (∀ b, b ≠ a.toNat → getReg t b = getReg s b) ∧ t.irq = s.irq ∧ t.out = s.out ∧ t.rest = s.rest

/-- For a pair of a page whose registers only hold what is written: an accepted write of the _LO changes no register and is held for the port and page; an accepted write of the _HI with that half held commits both halves and forgets it; with no half held for the pair it commits with the current low half. -/
def Obligations.HeldLowHalf : Prop :=
  ∀ (s : State) (p : CmdPort) (a : Nat) (v w : Word),
    pairCode a = 1 → pairCode (a + 4) = 2 → pageOf (a + 4) = pageOf a →
    (∀ b, getReg (storePair p a a v s) b = getReg s b)
      ∧ storePair p (a + 4) (a + 4) w (storePair p a a v s)
        = storeAny (a + 4) w (storeAny a v (releaseLow p (pageOf a) (storePair p a a v s)))
      ∧ (tabFind s.win.held (pageKey p (pageOf a)) = none →
        storePair p (a + 4) (a + 4) w s = storeAny (a + 4) w (storeAny a (getReg s a) (releaseLow p (pageOf a) s)))

/-- With no command waiting: a write that is not answered, or is discarded without count, changes nothing at all. A write refused for a reserved page or bad alignment puts its address and the write mark in LAST_BAD_ADDR and counts in BAD_ACCESS; one refused by PERMIT puts port and address in LAST_DENY and counts in the port's PERMIT_DENY; one refused by mode puts port, mode and 0xFFFF in LAST_REJECT and counts for the port; one to a page kept off in SAFELIGHT counts. In each case no register outside those that record it, and EVT_LATCH and EVT_CNT of their page, changes below the interrupt counts, and nothing outside the register file does but what events move. -/
def Obligations.RefusedRegisterWrite : Prop :=
  ∀ (s : State) (p : CmdPort) (a : BitVec 22) (ok : Bool) (v : Word), portsIdle s →
    (writeVerdict s p a.toNat ok = .unanswered ∨ writeVerdict s p a.toNat ok = .ignored →
      exec (.registerWrite p a ok v) s = .next s)
    ∧ (writeVerdict s p a.toNat ok = .badAccess → ∃ t, exec (.registerWrite p a ok v) s = .next t
      ∧ getReg t (adr pgBlock 0x08C) = word (a.toNat % 2 ^ 22 + 2 ^ 31)
      ∧ getF t (adr pgBlock 0x084) 31 0 = satAdd (2 ^ 32 - 1) (getF s (adr pgBlock 0x084) 31 0) 1 ∧ t.rest = s.rest
      ∧ ∀ b, eventFree b → b ∉ [adr pgBlock 0x24, adr pgBlock 0x40, adr pgBlock 0x084, adr pgBlock 0x08C] →
        getReg t b = getReg s b)
    ∧ (writeVerdict s p a.toNat ok = .denied → ∃ t, exec (.registerWrite p a ok v) s = .next t
      ∧ getReg t (adr pgBlock 0x0A4) = word (2 ^ 31 + portCode p * 2 ^ 24 + a.toNat)
      ∧ getF t (adr pgBlock (0x090 + 4 * portCode p)) 15 0
        = satAdd 65535 (getF s (adr pgBlock (0x090 + 4 * portCode p)) 15 0) 1 ∧ t.rest = s.rest
      ∧ ∀ b, eventFree b → b ∉ [adr pgBlock 0x24, adr pgBlock 0x40, adr pgBlock 0x0A4,
        adr pgBlock (0x090 + 4 * portCode p)] → getReg t b = getReg s b)
    ∧ (writeVerdict s p a.toNat ok = .rejected → ∃ t, exec (.registerWrite p a ok v) s = .next t
      ∧ getReg t (adr pgMode 0x094) = word (2 ^ 31 + portCode p * 2 ^ 24 + modeCode s.ctl.mode * 2 ^ 16 + 0xFFFF)
      ∧ getF t (adr pgMode (0x098 + 4 * portCode p)) 15 0
        = satAdd 65535 (getF s (adr pgMode (0x098 + 4 * portCode p)) 15 0) 1 ∧ t.rest = s.rest
      ∧ ∀ b, eventFree b → b ∉ [adr pgMode 0x24, adr pgMode 0x40, adr pgMode 0x094,
        adr pgMode (0x098 + 4 * portCode p)] → getReg t b = getReg s b)
    ∧ (writeVerdict s p a.toNat ok = .offDomain → ∃ t, exec (.registerWrite p a ok v) s = .next t
      ∧ getF t (adr pgBlock 0x088) 31 0 = satAdd (2 ^ 32 - 1) (getF s (adr pgBlock 0x088) 31 0) 1 ∧ t.rest = s.rest
      ∧ ∀ b, b ≠ adr pgBlock 0x088 → getReg t b = getReg s b)

/-- For an accepted write of an event register of a page (g: the page whose registers it reaches): EVT_CLR clears exactly the latch bits written as 1; EVT_MASK_SET sets the mask bits written as 1 that name events of the page; EVT_CNT_SEL selects an event and clears EVT_CNT; no other register and nothing outside the register file changes. For a page below the interrupt counts EVT_SET sets latch bits without touching EVT_CNT, and EVT_MASK_CLR clears exactly the mask bits written as 1; both leave everything but what an interrupt edge moves. -/
def Obligations.EventRegisterWrites : Prop :=
  ∀ (s : State) (p : CmdPort) (page : BitVec 10) (v : Word),
    (plainWrite s p (adr page.toNat 0x02C) → ∃ t, exec (.evtClr p page v) s = .next t
      ∧ (∀ b, getReg t b = if b = adr (pageOf (aliasOf s (adr page.toNat 0x02C))) 0x24 then getReg s b &&& ~~~v
        else getReg s b) ∧ t.irq = s.irq ∧ t.rest = s.rest)
    ∧ (plainWrite s p (adr page.toNat 0x034) → ∃ t, exec (.evtMaskSet p page v) s = .next t
      ∧ (∀ b, getReg t b = if b = adr (pageOf (aliasOf s (adr page.toNat 0x034))) 0x30 then getReg s b
          ||| (v &&& word (2 ^ evtCount (pageInfo (pageOf (aliasOf s (adr page.toNat 0x034)))).kind - 1))
        else getReg s b) ∧ t.irq = s.irq ∧ t.rest = s.rest)
    ∧ (plainWrite s p (adr page.toNat 0x03C) → ∃ t, exec (.evtCntSelWrite p page v) s = .next t
      ∧ (∀ b, getReg t b = if b = adr (pageOf (aliasOf s (adr page.toNat 0x03C))) 0x40 then 0
          else if b = adr (pageOf (aliasOf s (adr page.toNat 0x03C))) 0x3C then v &&& 31 else getReg s b)
      ∧ t.irq = s.irq ∧ t.rest = s.rest)
    ∧ (∀ g, g = pageOf (aliasOf s (adr page.toNat 0x028)) → plainWrite s p (adr page.toNat 0x028) → g < 0x043 → g ≠ pgIrq →
      ∃ t, exec (.evtSet p page v) s = .next t
        ∧ getReg t (adr g 0x24) = getReg s (adr g 0x24) ||| (v &&& word (2 ^ evtCount (pageInfo g).kind - 1))
        ∧ (∀ b, eventFree b → b ≠ adr g 0x24 → getReg t b = getReg s b) ∧ t.rest = s.rest)
    ∧ (∀ g, g = pageOf (aliasOf s (adr page.toNat 0x038)) → plainWrite s p (adr page.toNat 0x038) → g < 0x043 →
      ∃ t, exec (.evtMaskClr p page v) s = .next t ∧ getReg t (adr g 0x30) = getReg s (adr g 0x30) &&& ~~~v
        ∧ (∀ b, eventFree b → b ≠ adr g 0x30 → getReg t b = getReg s b) ∧ t.rest = s.rest)

/-- A hardware set of event n of a page below the interrupt counts sets bit n of the page's EVT_LATCH and no other of its bits, and leaves every other register below the counts, but EVT_CNT of the page, and everything but what an edge moves. -/
def Obligations.HardwareEvent : Prop :=
  ∀ (s : State) (page n : Nat), page < 0x043 → page ≠ pgIrq →
    getReg (hwEvent page n s) (adr page 0x24) = putBit (getReg s (adr page 0x24)) n true
      ∧ getF (hwEvent page n s) (adr page 0x40) 31 0 = (if getF s (adr page 0x3C) 4 0 = n
        then satAdd (2 ^ 32 - 1) (getF s (adr page 0x40) 31 0) 1 else getF s (adr page 0x40) 31 0)
      ∧ (∀ b, eventFree b → b ≠ adr page 0x24 → b ≠ adr page 0x40 → getReg (hwEvent page n s) b = getReg s b)
      ∧ (hwEvent page n s).rest = s.rest

/-- An accepted write of PG_SAFETY.CTRL that sets WDOG_EN from 0 starts the count at POWERED_NS; one that clears it stops the count, clears WDOG_EXPIRED and ends the FAULT_N cause. SLK_WDOG_EXPIRY with the count running sets WDOG_EXPIRED, counts in WDOG_EXPIRY_CNT, latches event 1, holds FAULT_N low, stops the count and changes no mode. Afterwards a whole POLL on a link that receives clears WDOG_EXPIRED and that cause. On a link that receives, a POLL that fails step 1 and the chip-select timeout complete with LINK_ERRORS counted, event 0 latched and the status of the last transaction ERROR; the timeout shows CS_ACTIVE; the tags, places and results of every port stay. With the link not received only CS_ACTIVE changes (how CS_ACTIVE follows the pin is log entry 16). -/
def Obligations.SafetyLink : Prop :=
  (∀ (s : State) (p : CmdPort) (v : Word) (seq : BitVec 16),
      (plainWrite s p (adr pgSafety 0x010) → portsIdle s →
        ∃ t, exec (.safetyCtrlWrite p true v) s = .next t
          ∧ (bit v 1 = true → getB s (adr pgSafety 0x010) 1 = false → t.ctl.wdogSince = some s.tim.powered)
          ∧ (bit v 1 = true → getB s (adr pgSafety 0x010) 1 = true → t.ctl = s.ctl)
          ∧ (bit v 1 = false → t.ctl.wdogSince = none ∧ t.ctl.wdogExpired = false ∧ t.ctl.faults.wdog = false)
          ∧ t.ctl.mode = s.ctl.mode ∧ ∀ b, b ≠ adr pgSafety 0x010 → getReg t b = getReg s b)
      ∧ (wdogCounts s = true → s.ctl.wdogSince.isSome = true →
        ∃ t, exec .slkWdogExpiry s = .next t ∧ t.ctl.wdogExpired = true ∧ t.ctl.faults.wdog = true ∧ t.ctl.wdogSince = none
          ∧ t.ctl.mode = s.ctl.mode ∧ getReg t (adr pgSafety 0x24) = putBit (getReg s (adr pgSafety 0x24)) 1 true
          ∧ getF t (adr pgSafety 0x090) 15 0 = satAdd 65535 (getF s (adr pgSafety 0x090) 15 0) 1
          ∧ ∀ b, eventFree b → b ∉ [adr pgSafety 0x24, adr pgSafety 0x40, adr pgSafety 0x090] → getReg t b = getReg s b)
      ∧ (linkOn (setCs false s) = true → s.pwr.flight = none → portsIdle s →
        ∃ t, exec (.slkPoll seq true) s = .next t ∧ t.ctl.wdogExpired = false ∧ t.ctl.faults.wdog = false
          ∧ t.ctl.mode = s.ctl.mode ∧ t.cmd = { s.cmd with slkLast := .tag seq }))
  ∧ (∀ (s : State) (seq : BitVec 16),
      (linkOn (setCs false s) = true →
        ∃ t, exec (.slkPoll seq false) s = .next t ∧ t.cmd = { s.cmd with slkLast := .bad } ∧ t.ctl.pins.csLow = false
          ∧ getF t (adr pgSafety 0x08C) 31 0 = satAdd (2 ^ 32 - 1) (getF s (adr pgSafety 0x08C) 31 0) 1
          ∧ getReg t (adr pgSafety 0x24) = putBit (getReg s (adr pgSafety 0x24)) 0 true)
      ∧ (linkOn s = true →
        ∃ t, exec .slkCsTimeout s = .next t ∧ t.cmd = { s.cmd with slkLast := .bad } ∧ t.ctl.pins.csLow = true
          ∧ getF t (adr pgSafety 0x08C) 31 0 = satAdd (2 ^ 32 - 1) (getF s (adr pgSafety 0x08C) 31 0) 1
          ∧ getReg t (adr pgSafety 0x24) = putBit (getReg s (adr pgSafety 0x24)) 0 true)
      ∧ (linkOn s = false → exec .slkCsTimeout s = .next (setCs true s)))

/-- An accepted write of MASK_SET (MASK_CLR) word w sets (clears) exactly the mask bits of sources 32w to 32w+31 written as 1. Every other register below the interrupt counts but the latches of PG_IRQ_CTRL and the wake on record, and everything but the controller and what an edge moves, stays. An accepted write of PEND_SET leaves every management-class source written as 1 pending; one of PEND_CLR leaves every source written as 1 not pending, but for the sources of PG_IRQ_CTRL and LOUPE, which the controller itself can raise meanwhile. Nothing outside the controller changes but what an edge moves. The set itself changes no register, so no count. -/
def Obligations.InterruptBits : Prop :=
  (∀ (s : State) (p : CmdPort) (w : Fin 64) (v : Word),
      (plainWrite s p (adr pgMask (0x200 + 4 * w)) → ∃ t, exec (.maskSet p w v) s = .next t
        ∧ getReg t (maskA w) = getReg s (maskA w) ||| v
        ∧ (∀ b, eventFree b → b ≠ maskA w → getReg t b = getReg s b) ∧ t.rest = s.rest)
      ∧ (plainWrite s p (adr pgMask (0x300 + 4 * w)) → ∃ t, exec (.maskClr p w v) s = .next t
        ∧ getReg t (maskA w) = getReg s (maskA w) &&& ~~~v
        ∧ (∀ b, eventFree b → b ≠ maskA w → getReg t b = getReg s b) ∧ t.rest = s.rest))
  ∧ (∀ (s : State) (p : CmdPort) (w : Fin 64) (v : Word),
      (plainWrite s p (adr pgPend (0x200 + 4 * w)) → ∃ t, exec (.pendSet p w v) s = .next t ∧ t.rest = s.rest
        ∧ (∀ n ∈ wordSources w v, n < 512 → n ∈ t.irq.pending) ∧ ∀ b, eventFree b → getReg t b = getReg s b)
      ∧ (plainWrite s p (adr pgPend (0x300 + 4 * w)) → ∃ t, exec (.pendClr p w v) s = .next t ∧ t.rest = s.rest
        ∧ (∀ n ∈ wordSources w v, n ≠ 13 → (n < 31 ∨ 38 < n) → n ∉ t.irq.pending)
        ∧ ∀ b, eventFree b → getReg t b = getReg s b)
      ∧ ∀ l, (pendSetAll l s).win = s.win)

/-- An accepted COMPLETE with the number in service ends the service of the target. Any other is ignored: every service stays, and no pending bit of the management class is lost. (The count and event of the ignored write are in the controller's own page.) -/
def Obligations.CompleteWrite : Prop :=
  ∀ (s : State) (p : CmdPort) (t : TargetNo) (v : Word),
    (plainWrite s p (tgtA t 0x084) → tabFind s.irq.service t = some (bits v 10 0) →
      ∃ u, exec (.complete p t v) s = .next u ∧ tabFind u.irq.service t = none ∧ u.rest = s.rest)
    ∧ (plainWrite s p (tgtA t 0x084) → tabFind s.irq.service t ≠ some (bits v 10 0) →
      ∃ u, exec (.complete p t v) s = .next u ∧ u.irq.service = s.irq.service
        ∧ (∀ m, m < 512 → m ∈ s.irq.pending → m ∈ u.irq.pending) ∧ u.rest = s.rest)

/-- ROUTE_WRITE makes the 68 bits of ROUTE_MASK_0 to 2 the route mask of the source in ROUTE_SEL and no other source's; ROUTE_READ puts that source's mask into the three registers and leaves every mask. Both leave ROUTE_STATUS.STATE 2, done (they complete within the write, log entry 13). -/
def Obligations.InterruptRoutes : Prop :=
  ∀ (s : State) (p : CmdPort), plainWrite s p (adr pgIrq 0x084) →
    (∃ t, exec (.routeWrite p) s = .next t
      ∧ (∀ n, routeOf t n = if n = getF s (adr pgIrq 0x080) 10 0 then routeRegs s else routeOf s n)
      ∧ getF t (adr pgIrq 0x094) 3 0 = 2 ∧ t.rest = s.rest)
    ∧ ∃ t, exec (.routeRead p) s = .next t ∧ t.irq = s.irq ∧ getF t (adr pgIrq 0x094) 3 0 = 2 ∧ t.rest = s.rest
      ∧ getReg t (adr pgIrq 0x088) = word (routeOf s (getF s (adr pgIrq 0x080) 10 0)).toNat
      ∧ getReg t (adr pgIrq 0x08C) = word ((routeOf s (getF s (adr pgIrq 0x080) 10 0)).toNat / 2 ^ 32)
      ∧ getReg t (adr pgIrq 0x090) = word ((routeOf s (getF s (adr pgIrq 0x080) 10 0)).toNat / 2 ^ 64)

/-- An accepted write of EQ_CI beyond EQ_PI is discarded and counted in EQ_BAD_CI, nothing else changing. With no source pending, requested or unrouted, a write within reach sets EQ_CI (modulo 2^(k+1)); setting EQ_CFG.ENABLE on a disabled queue sets EQ_PI and EQ_CI to 0; with ENABLE already 1 a write that would change LOG2_SIZE or CHANNEL leaves them and counts in CFG_REFUSED. -/
def Obligations.EventQueueIndices : Prop :=
  ∀ (s : State) (p : CmdPort) (t : TargetNo) (v : Word),
    (plainWrite s p (tgtA t 0x0BC) → ringDist (eqLog2 s t) (eqCi s t) (eqPi s t)
        < ringDist (eqLog2 s t) (eqCi s t) (bits v 16 0 % 2 ^ (eqLog2 s t + 1)) →
      ∃ u, exec (.eqCiWrite p t v) s = .next u ∧ u.irq = s.irq
        ∧ getF u (tgtA t 0x0C8) 15 0 = satAdd 65535 (getF s (tgtA t 0x0C8) 15 0) 1
        ∧ (∀ b, b ≠ tgtA t 0x0C8 → getReg u b = getReg s b) ∧ u.rest = s.rest)
    ∧ (plainWrite s p (tgtA t 0x0BC) → ringDist (eqLog2 s t) (eqCi s t) (bits v 16 0 % 2 ^ (eqLog2 s t + 1))
        ≤ ringDist (eqLog2 s t) (eqCi s t) (eqPi s t) → s.irq.pending = [] → s.irq.req = [] → s.irq.unrouted = [] →
        tabGet (fun _ => 0) s.irq.wb t = bits v 16 0 % 2 ^ (eqLog2 s t + 1) →
      ∃ u, exec (.eqCiWrite p t v) s = .next u ∧ eqCi u t = bits v 16 0 % 2 ^ (eqLog2 s t + 1)
        ∧ (∀ b, b ≠ tgtA t 0x0BC → getReg u b = getReg s b) ∧ u.rest = s.rest)
    ∧ (plainWrite s p (tgtA t 0x0A4) → getB s (tgtA t 0x0A4) 31 = false → bit v 31 = true → s.irq.pending = [] →
        s.irq.req = [] → s.irq.unrouted = [] →
      ∃ u, exec (.eqCfgWrite p t v) s = .next u ∧ eqPi u t = 0 ∧ eqCi u t = 0 ∧ getB u (tgtA t 0x0A4) 31 = true
        ∧ u.rest = s.rest)
    ∧ (plainWrite s p (tgtA t 0x0A4) → getB s (tgtA t 0x0A4) 31 = true → bit v 31 = true →
        (getReg s (tgtA t 0x0A4) ^^^ v) &&& 0x011F0000 ≠ 0 →
      ∃ u, exec (.eqCfgWrite p t v) s = .next u ∧ getF u (tgtA t 0x0A4) 24 16 = getF s (tgtA t 0x0A4) 24 16
        ∧ getF u (tgtA t 0x0D0) 15 0 = satAdd 65535 (getF s (tgtA t 0x0D0) 15 0) 1 ∧ u.rest = s.rest)

/-- An accepted write of ADJ_CMD with no SET_AT_PPS waiting, M being ADJ_OFFSET. STEP where Table 12.3 takes it moves time of day by M, sets E and R to 0, leaves UNSET and clears ARM_M, OUTCOME 1; where it does not, E and R become M and OUTCOME is 2. SLEW outside UNSET makes E and R M, REPORT outside UNSET makes E M and keeps R, and in UNSET both only record M. Each writes M in whole nanoseconds, saturated, into LAST_MEAS. SET_AT_PPS is refused with OUTCOME 6 unless REF_SEL is 1 with PPS_PRESENT, and else waits with ADJ_OFFSET modulo 2^48. A step forward past the time of a timed commit makes it late. The mode and the rest of the data path stay. -/
def Obligations.TimeCorrections : Prop :=
  ∀ (s : State) (p : CmdPort), plainWrite s p (timA 0x0B8) → s.tim.setAtPps = none →
    (∃ t, exec (.adjStep p) s = .next t ∧ t.ctl.mode = s.ctl.mode
      ∧ t.dataPath = State.dataPath { s with cls := { s.cls with commit := t.cls.commit } }
      ∧ (stepTaken s (adjOffset s) = false ∨ s.cls.commit = none → t.dataPath = s.dataPath)
      ∧ (∀ c, stepTaken s (adjOffset s) = true → s.cls.commit = some c → t.cls.commit = some (
        if c.now = none ∧ s.tim.tod < commitDue s ∧ commitDue s ≤ t.tim.tod then { c with late := true } else c))
      ∧ getReg t (timA 0x0D0) = word (satSigned (wholeNs (adjOffset s)))
      ∧ (stepTaken s (adjOffset s) = true → t.tim.tod = (((s.tim.tod : Int) + adjOffset s) % (todSpan : Int)).toNat
        ∧ t.tim.e = 0 ∧ t.tim.r = 0 ∧ t.tim.set = true ∧ t.tim.armM = false ∧ getF t (timA 0x0BC) 7 4 = 1)
      ∧ (stepTaken s (adjOffset s) = false → t.tim.tod = s.tim.tod ∧ t.tim.e = adjOffset s ∧ t.tim.r = adjOffset s
        ∧ getF t (timA 0x0BC) 7 4 = 2))
    ∧ (∃ t, exec (.adjSlew p) s = .next t ∧ t.ctl.mode = s.ctl.mode ∧ t.dataPath = s.dataPath ∧ t.tim.tod = s.tim.tod
      ∧ getReg t (timA 0x0D0) = word (satSigned (wholeNs (adjOffset s)))
      ∧ (s.tim.set = true → t.tim.e = adjOffset s ∧ t.tim.r = adjOffset s ∧ getF t (timA 0x0BC) 7 4 = 3)
      ∧ (s.tim.set = false → t.tim.e = s.tim.e ∧ t.tim.r = s.tim.r ∧ getF t (timA 0x0BC) 7 4 = 4))
    ∧ (∃ t, exec (.adjReport p) s = .next t ∧ t.ctl.mode = s.ctl.mode ∧ t.dataPath = s.dataPath ∧ t.tim.tod = s.tim.tod
      ∧ getReg t (timA 0x0D0) = word (satSigned (wholeNs (adjOffset s))) ∧ t.tim.r = s.tim.r
      ∧ t.tim.e = (if s.tim.set then adjOffset s else s.tim.e) ∧ getF t (timA 0x0BC) 7 4 = 4)
    ∧ ∃ t, exec (.adjSetAtPps p) s = .next t ∧ t.ctl.mode = s.ctl.mode ∧ t.dataPath = s.dataPath ∧ t.tim.tod = s.tim.tod
      ∧ t.tim.e = s.tim.e ∧ t.tim.r = s.tim.r
      ∧ (refSel s = 1 → s.tim.ppsPresent = true → t.tim.setAtPps = some (getPair s (timA 0x0B0) % 2 ^ 48)
        ∧ getF t (timA 0x0BC) 1 0 = 1)
      ∧ (refSel s ≠ 1 ∨ s.tim.ppsPresent = false → t.tim.setAtPps = none ∧ getF t (timA 0x0BC) 7 4 = 6)

/-- An accepted write of TICK_INCR_HI with no quarter woken: TICK_INCR becomes bit 0 of the value over the held low half (the current one where none is held), clamped to 2^32 - 2^22 .. 2^32 + 2^22; RATE_CLAMPED tells whether it was clamped; the held half is forgotten; no other register and nothing else of the machine changes. -/
def Obligations.TickIncrement : Prop :=
  ∀ (s : State) (p : CmdPort) (v : Word), plainWrite s p (timA 0x0AC) →
    ∃ t, exec (.tickIncrCommit p v) s = .next t
      ∧ (∀ x, x = flag (bit v 0) * 2 ^ 32 + (heldLow s p (timA 0x0AC) (getReg s (timA 0x0A8))).toNat →
        getPair t (timA 0x0A8) = max (2 ^ 32 - 2 ^ 22) (min (2 ^ 32 + 2 ^ 22) x)
          ∧ t.tim = { s.tim with clamped := decide (x < 2 ^ 32 - 2 ^ 22 ∨ 2 ^ 32 + 2 ^ 22 < x) })
      ∧ (∀ b, b ≠ timA 0x0A8 → b ≠ timA 0x0AC → getReg t b = getReg s b)
      ∧ t = { s with tim := t.tim, win := { s.win with regs := t.win.regs, held := tabErase s.win.held (pageKey p pgTime) } }

/-- With the time island running. SLEW_DONE with R not 0 moves time of day and E by what was left of R, and R is 0. LOCK_BOUND_REACHED and TIME_DISJOINT_CLEARED, where the slew in progress can bring |E| down to LOCK_BOUND or to 10 ms, stop it exactly there: time of day, E and R have moved by one amount, and R has not passed 0. That these rows fall due at an exact point of the slew is a reading of the spec (log entry 20). -/
def Obligations.SlewEnds : Prop :=
  ∀ s : State, s.tim.on = true →
    (s.tim.r ≠ 0 → ∃ t, exec .slewDone s = .next t ∧ t.tim.r = 0 ∧ t.tim.e = s.tim.e - s.tim.r
      ∧ t.tim.tod = (((s.tim.tod : Int) + s.tim.r) % (todSpan : Int)).toNat ∧ t.ctl.mode = s.ctl.mode
      ∧ t.dataPath = s.dataPath)
    ∧ ∀ m : Int,
      (slewTo s (lockBound s) = some m → ∃ t, exec .lockBoundReached s = .next t ∧ t.tim.e.natAbs = lockBound s
        ∧ t.tim.e = s.tim.e - m ∧ t.tim.r = s.tim.r - m ∧ t.tim.r.natAbs ≤ s.tim.r.natAbs
        ∧ t.tim.tod = (((s.tim.tod : Int) + m) % (todSpan : Int)).toNat ∧ t.ctl.mode = s.ctl.mode ∧ t.dataPath = s.dataPath)
      ∧ (slewTo s disjointBound = some m → ∃ t, exec .timeDisjointCleared s = .next t
        ∧ t.tim.e.natAbs = 10000000 * 2 ^ 48 ∧ t.tim.e = s.tim.e - m ∧ t.tim.r = s.tim.r - m ∧ t.tim.disjoint = false
        ∧ t.ctl.faults.disjoint = false ∧ t.ctl.mode = s.ctl.mode ∧ t.dataPath = s.dataPath)

/-- With the time island running: a first edge becomes the reference edge and is not yet good. An edge within 1 s plus or minus 1 us of it, in POWERED_NS, is good: it becomes the reference edge, PPS_PRESENT is set and up to three good edges are counted; a SET_AT_PPS that waited has been executed. Any other edge is bad: counted in PPS_BAD, the reference edge given up, event 4 latched. PPS_TIMEOUT clears PPS_PRESENT, and the reference edge unless it is younger than 1.5 s. -/
def Obligations.PpsInput : Prop :=
  ∀ (s : State) (k : Fin 8), s.tim.on = true →
    (s.tim.ppsRef = none → exec (.ppsEdge k) s
      = .next { s with tim := { s.tim with ppsRef := some s.tim.powered, ppsGood := 0 } })
    ∧ (∀ r, s.tim.ppsRef = some r → 999999000 ≤ s.tim.powered - r → s.tim.powered - r ≤ 1000001000 →
      ∃ t, exec (.ppsEdge k) s = .next t ∧ t.tim.ppsRef = some s.tim.powered ∧ t.tim.ppsPresent = true
        ∧ t.tim.ppsGood = min 3 (s.tim.ppsGood + 1) ∧ t.tim.setAtPps = none ∧ t.ctl.mode = s.ctl.mode
        ∧ t.dataPath = State.dataPath { s with cls := { s.cls with commit := t.cls.commit } }
        ∧ (s.cls.commit = none → t.dataPath = s.dataPath))
    ∧ (∀ r, s.tim.ppsRef = some r → (s.tim.powered - r < 999999000 ∨ 1000001000 < s.tim.powered - r) →
      ∃ t, exec (.ppsEdge k) s = .next t ∧ t.tim.ppsRef = none ∧ t.tim.ppsGood = 0 ∧ t.tim.tod = s.tim.tod
        ∧ t.tim.e = s.tim.e ∧ getF t (timA 0x0E8) 15 0 = satAdd 65535 (getF s (timA 0x0E8) 15 0) 1
        ∧ t.ctl.mode = s.ctl.mode ∧ t.dataPath = s.dataPath)
    ∧ ∃ t, exec .ppsTimeout s = .next t ∧ t.tim.ppsPresent = false ∧ t.tim.tod = s.tim.tod ∧ t.ctl.mode = s.ctl.mode
      ∧ t.dataPath = s.dataPath ∧ (edgeYoung s = false → t.tim.ppsRef = none)
      ∧ (edgeYoung s = true → t.tim.ppsRef = s.tim.ppsRef ∧ t.tim.refOk = s.tim.refOk)

/-- REF_TIMEOUT_EXPIRY with REF_SEL 2 on a running island clears REF_OK. TIME_REF_LOSS of a present reference clears it; where the PLL used it on a running island, the PLL falls back and is no longer locked. TIME_REF_RETURN sets it, and such a PLL is locked again. STEP_ARM_EXPIRY with an expiry set clears the forward arm unless port M armed it. None moves time of day, E, R, the mode or the data path. -/
def Obligations.TimeReferences : Prop :=
  ∀ s : State,
    (s.tim.on = true → refSel s = 2 → ∃ t, exec .refTimeoutExpiry s = .next t ∧ t.tim.refOk = false
      ∧ t.tim.tod = s.tim.tod ∧ t.tim.e = s.tim.e ∧ t.tim.r = s.tim.r ∧ t.ctl.mode = s.ctl.mode ∧ t.dataPath = s.dataPath)
    ∧ (s.tim.refIn = true → ∃ t, exec .timeRefLoss s = .next t ∧ t.tim.refIn = false
      ∧ (s.tim.on = true → pllSrc s = true → t.tim.pllLocked = false ∧ t.tim.pllFallback = true)
      ∧ (s.tim.on = false ∨ pllSrc s = false → t = { s with tim := { s.tim with refIn := false } })
      ∧ t.tim.tod = s.tim.tod ∧ t.tim.e = s.tim.e ∧ t.tim.r = s.tim.r ∧ t.ctl.mode = s.ctl.mode ∧ t.dataPath = s.dataPath)
    ∧ (∃ t, exec .timeRefReturn s = .next t ∧ t.tim.refIn = true
      ∧ (s.tim.on = true → pllSrc s = true → t.tim.pllLocked = true ∧ t.tim.pllFallback = false)
      ∧ (s.tim.on = false ∨ pllSrc s = false → t = { s with tim := { s.tim with refIn := true } })
      ∧ t.tim.tod = s.tim.tod ∧ t.tim.e = s.tim.e ∧ t.tim.r = s.tim.r ∧ t.ctl.mode = s.ctl.mode ∧ t.dataPath = s.dataPath)
    ∧ (getF s (timA 0x088) 15 0 ≠ 0 → s.tim.armM = false →
      exec .stepArmExpiry s = .next { s with tim := { s.tim with stepArmed := false } })

/-- TIME_ACQ_LOSS of an acquired island clears its TIME_ACQ, counts in its TIME_TRIM and raises the peak there; TIME_ACQ_REGAINED sets it for an island that receives the word, is powered and has the time island running; DISTRIBUTION_DELAY_MEASURE on an acquired island with time running sets the first delay to the measured one and moves a known one toward it by at most 25000 ps. TIME_BOUND_EXCEEDED records that UNCERT has passed the bound. None changes anything else but events; the asymmetry of a path is a free value (log entry 21). -/
def Obligations.TimeDistribution : Prop :=
  ∀ (s : State) (i : Fin 75) (peak : BitVec 16) (rt : Nat),
    (i.val ∈ s.tim.acq → ∃ t, exec (.timeAcqLoss i peak) s = .next t ∧ t.tim = { s.tim with acq := setErase s.tim.acq i }
      ∧ getF t (trimA i) 31 24 = satAdd 255 (getF s (trimA i) 31 24) 1
      ∧ getF t (trimA i) 15 0 = max (getF s (trimA i) 15 0) peak.toNat ∧ t.rest = State.rest { s with tim := t.tim }
      ∧ ∀ b, eventFree b → b ∉ [trimA i, adr pgPower 0x24, adr pgPower 0x40] → getReg t b = getReg s b)
    ∧ (receives i = true → s.tim.on = true → i.val ∉ s.pwr.off → exec (.timeAcqRegained i) s
      = .next { s with tim := { s.tim with acq := setInsert s.tim.acq i } })
    ∧ (s.tim.on = true → i.val ∈ s.tim.acq → ∃ t d, exec (.distributionDelayMeasure i rt peak) s = .next t
      ∧ t.tim = { s.tim with delay := tabPut s.tim.delay i d }
      ∧ (tabFind s.tim.delay i = none → d = measuredDelay i rt)
      ∧ (∀ o, tabFind s.tim.delay i = some o → (measuredDelay i rt - o ≤ 25000 → o - measuredDelay i rt ≤ 25000 →
          d = measuredDelay i rt) ∧ d ≤ o + 25000 ∧ o ≤ d + 25000)
      ∧ getF t (trimA i) 15 0 = max (getF s (trimA i) 15 0) peak.toNat ∧ t.rest = State.rest { s with tim := t.tim }
      ∧ ∀ b, b ≠ trimA i → getReg t b = getReg s b)
    ∧ ∃ t, exec .timeBoundExceeded s = .next t ∧ t.fed.overBound = true ∧ t.tim = s.tim ∧ t.ctl.mode = s.ctl.mode
      ∧ t.dataPath = s.dataPath

/-- An accepted CH_CMD of channel c: ARM of a channel that no condition of R249 refuses leaves it armed with the sampled registers, its first leading edge, STATE 1, REASON 0 and cleared counters; a refused one leaves it not armed with STATE 3, the reason and event 8 + c. DISARM of a channel with a pulse in progress keeps the pulse and no further edge; else it ends the channel with STATE 0. No other channel, no other page and neither time nor mode changes. -/
def Obligations.ShutterArm : Prop :=
  ∀ (s : State) (p : CmdPort) (c : Fin 8), plainWrite s p (chA c 0x04) →
    (armRefusal s c (sampleChan s c) = 0 → ∃ t, exec (.shutterArm p c) s = .next t
      ∧ chanOf t c = some { sampleChan s c with next := some (armEdge s (sampleChan s c)) }
      ∧ getF t (chA c 0x08) 1 0 = 1 ∧ getF t (chA c 0x08) 7 4 = 0
      ∧ getReg t (chA c 0x24) = 0 ∧ getReg t (chA c 0x28) = 0 ∧ getReg t (chA c 0x2C) = 0
      ∧ (∀ d, d ≠ c.val → chanOf t d = chanOf s d) ∧ (∀ b, pageOf b ≠ pgShutter → getReg t b = getReg s b)
      ∧ t = { s with win := { s.win with regs := t.win.regs }, shut := t.shut })
    ∧ (armRefusal s c (sampleChan s c) ≠ 0 → ∃ t, exec (.shutterArm p c) s = .next t ∧ chanOf t c = none
      ∧ getF t (chA c 0x08) 1 0 = 3 ∧ getF t (chA c 0x08) 7 4 = armRefusal s c (sampleChan s c)
      ∧ (getReg t (adr pgShutter 0x24)).getLsbD (8 + c) = true
      ∧ (∀ d, d ≠ c.val → chanOf t d = chanOf s d) ∧ t.rest = State.rest { s with shut := t.shut })
    ∧ (∀ x, chanOf s c = some x → chHigh s c = true → exec (.shutterDisarm p c) s
      = .next { s with shut := { s.shut with chans := tabPut s.shut.chans c { x with next := none, disarm := true } } })
    ∧ (chHigh s c = false ∨ chanOf s c = none → ∃ t, exec (.shutterDisarm p c) s = .next t ∧ chanOf t c = none
      ∧ getF t (chA c 0x08) 1 0 = 0 ∧ (∀ d, d ≠ c.val → chanOf t d = chanOf s d)
      ∧ (∀ b, b ≠ chA c 0x08 → getReg t b = getReg s b) ∧ t.rest = State.rest { s with shut := t.shut })

/-- A channel with next leading edge e and the time island running: its edge, where time is LOCKED or the channel runs free, starts the pulse and counts as issued; where not, it counts as suppressed and the level stays; with the island down it is missed, only the schedule moving. The schedule of a periodic channel moves to the next grid edge, another channel's single edge is used up. SHUTTER_PULSE_END ends a pulse, and the channel if its DISARM waited. SHUTTER_WAKE in STILL wakes the complex toward RUN. -/
def Obligations.ShutterEdges : Prop :=
  ∀ (s : State) (c : Fin 8) (x : Chan), chanOf s c = some x →
    (∀ e, x.next = some e → s.tim.on = true → ∃ t, exec (.shutterEdge c) s = .next t
      ∧ chanOf t c = some { x with next := if x.periodic then some (firstEdge x (e + 1)) else none }
      ∧ (edgeDriven s x = true → chHigh t c = true ∧ getF t (chA c 0x24) 31 0 = satAdd (2 ^ 32 - 1) (getF s (chA c 0x24) 31 0) 1
        ∧ getReg t (chA c 0x28) = getReg s (chA c 0x28))
      ∧ (edgeDriven s x = false → chHigh t c = chHigh s c ∧ getReg t (chA c 0x24) = getReg s (chA c 0x24)
        ∧ getF t (chA c 0x28) 31 0 = satAdd (2 ^ 32 - 1) (getF s (chA c 0x28) 31 0) 1)
      ∧ (∀ d, d ≠ c.val → chanOf t d = chanOf s d) ∧ t.tim = s.tim ∧ t.ctl.mode = s.ctl.mode ∧ t.dataPath = s.dataPath)
    ∧ (∀ e, x.next = some e → s.tim.on = false → ∃ t, exec (.shutterEdge c) s = .next t
      ∧ t = { s with shut := t.shut } ∧ chanOf t c = some (if x.periodic then
        { x with next := some (firstEdge x (e + 1)), missed := x.missed + 1 } else { x with missed := 1 }))
    ∧ (chHigh s c = true → s.tim.on = true → ∃ t, exec (.shutterPulseEnd c) s = .next t ∧ chHigh t c = false
      ∧ chanOf t c = (if x.disarm then none else some x) ∧ (x.disarm = true → getF t (chA c 0x08) 1 0 = 0)
      ∧ (∀ b, b ≠ chA c 0x08 → getReg t b = getReg s b) ∧ t.tim = s.tim ∧ t.ctl.mode = s.ctl.mode)
    ∧ (x.wakes = true → x.next.isSome = true → s.tim.on = false → s.ctl.mode = .still → s.pwr.wake = none →
      ∃ t, exec (.shutterWake c) s = .next t ∧ t.pwr.wake = some (5, c.val) ∧ t.ctl.target = some .run
        ∧ getF t (adr pgPower 0x094) 15 0 = 5 + 256 * c.val ∧ getPair t (adr pgPower 0x098) = s.tim.powered % 2 ^ 64
        ∧ t.rest = s.rest)

/-- An accepted write of ARCH_RD, TSLOG_RD or FJ_RD sets the index where WR minus the value, modulo 2^32, is at most the records its region holds, and changes nothing else; otherwise it changes nothing. A write of REGION_CTRL that sets one VALID bit sets it where R401 finds no fault, and where it finds one leaves it 0, records region and reason in REGION_STATUS and latches event 2; one that clears a bit clears it once no write of the region is queued or outstanding, and until then leaves it set. MEM_STATUS_CHANGE shows the three levels. MEMPORT_RESPONSE to an outstanding request counts it, raises the latency peak and moves WR to the lowest record not yet answered; MEMPORT_TIMEOUT counts in TIMEOUTS and latches event 1. Either ends the request: with none waiting, the others stay as they were. -/
def Obligations.RingIndices : Prop :=
  (∀ (s : State) (p : CmdPort) (u : Fin 3) (v : Word), plainWrite s p (rdA u) →
    (((getReg s (wrA u)).toNat + 2 ^ 32 - v.toNat) % 2 ^ 32 ≤ ringSize s u → ∃ t, exec (.tslogRdWrite p u v) s = .next t
      ∧ getReg t (rdA u) = v ∧ (∀ b, b ≠ rdA u → getReg t b = getReg s b)
      ∧ t = { s with win := { s.win with regs := t.win.regs } })
    ∧ (ringSize s u < ((getReg s (wrA u)).toNat + 2 ^ 32 - v.toNat) % 2 ^ 32 → exec (.tslogRdWrite p u v) s = .next s))
  ∧ (∀ (s : State) (p : CmdPort) (r : Fin 3) (v : Word), plainWrite s p (adr pgMem 0x088) →
      (∀ q < 3, q ≠ r.val → bit v q = regionValid s q) →
    (bit v r = true → regionValid s r = false → regionRefusal s r = none →
      ∃ t, exec (.regionValidate p v) s = .next t ∧ regionValid t r = true
        ∧ (∀ q < 3, q ≠ r.val → regionValid t q = regionValid s q) ∧ (∀ b, b ≠ adr pgMem 0x088 → getReg t b = getReg s b)
        ∧ t.rest = s.rest)
    ∧ (∀ k, s.irqSane → bit v r = true → regionValid s r = false → regionRefusal s r = some k →
      ∃ t, exec (.regionValidate p v) s = .next t ∧ (∀ q < 3, regionValid t q = regionValid s q)
        ∧ getReg t (adr pgMem 0x08C) = word (k * 16 + r) ∧ (getReg t (adr pgMem 0x24)).getLsbD 2 = true ∧ t.rest = s.rest)
    ∧ (bit v r = false → regionValid s r = true → userBusy s r = false →
      ∃ t, exec (.regionInvalidate p v) s = .next t ∧ regionValid t r = false
        ∧ (∀ q < 3, q ≠ r.val → regionValid t q = regionValid s q) ∧ (∀ b, b ≠ adr pgMem 0x088 → getReg t b = getReg s b)
        ∧ t.mem.outstanding = s.mem.outstanding ∧ t.mem.queue = s.mem.queue)
    ∧ (bit v r = false → regionValid s r = true → userBusy s r = true →
      ∃ t, exec (.regionInvalidate p v) s = .next t ∧ r.val ∈ t.mem.closing ∧ (∀ b, getReg t b = getReg s b)
        ∧ t.mem.outstanding = s.mem.outstanding ∧ t.mem.queue = s.mem.queue))
  ∧ (∀ (s : State) (v : BitVec 3), ∃ t, exec (.memStatusChange v) s = .next t
      ∧ getReg t (adr pgMem 0x084) = v.setWidth 32 ∧ (∀ b, b ≠ adr pgMem 0x084 → getReg t b = getReg s b) ∧ t.rest = s.rest)
  ∧ ∀ (s : State) (i tenths : Nat) (q : MemReq), s.irqSane → s.mem.outstanding[i]? = some q → s.mem.queue = [] →
    (∃ t, exec (.memportResponse i true tenths) s = .next t ∧ t.mem.outstanding = s.mem.outstanding.eraseIdx i
      ∧ t.mem.queue = [] ∧ t.mem.recs = countAnswer q false s.mem.recs
      ∧ getPair t (adr pgMem 0x0D4) = satAdd (2 ^ 64 - 1) (getPair s (adr pgMem 0x0D4)) 1
      ∧ getF t (adr pgMem 0x0C4) 15 0 = max (getF s (adr pgMem 0x0C4) 15 0) (min tenths 65535)
      ∧ getReg t (wrA q.user) = word ((lowestRec q.user (countAnswer q false s.mem.recs)).getD (nextIndex s q.user))
      ∧ t.ctl.mode = s.ctl.mode ∧ t.dataPath = s.dataPath)
    ∧ (∃ t, exec (.memportTimeout i) s = .next t ∧ t.mem.outstanding = s.mem.outstanding.eraseIdx i ∧ t.mem.queue = []
      ∧ t.mem.recs = countAnswer q true s.mem.recs
      ∧ getF t (adr pgMem 0x0C8) 31 0 = satAdd (2 ^ 32 - 1) (getF s (adr pgMem 0x0C8) 31 0) 1
      ∧ (getReg t (adr pgMem 0x24)).getLsbD 1 = true ∧ t.ctl.mode = s.ctl.mode ∧ t.dataPath = s.dataPath)

/-- For a command of a listed code that reaches port S whole while the ports are served: one that its port does not permit is counted in NOT_PERMITTED's count and no tag is entered; a known tag with the same code and a stored result is answered again with DUPLICATE and nothing is executed; with the executing and the waiting place taken it is refused as BUSY and leaves tags and places as they are. -/
def Obligations.CommandChecks : Prop :=
  ∀ (s : State) (q : Req), q.port = .S → portsServed s = true →
    (∀ l, permitted (getB s (adr pgCmd 0x0A0) 0) q.code = some l → CmdPort.S ∉ l →
      (submit q s).cmd = s.cmd ∧ (submit q s).ctl.mode = s.ctl.mode
        ∧ getF (submit q s) (adr pgCmd 0x0A8) 15 0 = satAdd 65535 (getF s (adr pgCmd 0x0A8) 15 0) 1
        ∧ Emit.response .S 0 0 (respBytes { code := q.code, seq := q.seq, result := 0x02, dup := false, data := [] })
          ∈ (submit q s).out)
    ∧ (∀ l t res d, permitted (getB s (adr pgCmd 0x0A0) 0) q.code = some l → CmdPort.S ∈ l → q.code ≠ cSheet →
      findTag q.seq s.cmd.s.tags = some t → t.code = q.code → t.done = some (res, d) →
      (submit q s).cmd.s.exec = s.cmd.s.exec ∧ (submit q s).cmd.s.wait = s.cmd.s.wait
        ∧ (submit q s).cmd.s.sheet = s.cmd.s.sheet ∧ (submit q s).ctl = s.ctl ∧ (submit q s).dataPath = s.dataPath
        ∧ Emit.response .S 0 0 (respBytes { code := q.code, seq := q.seq, result := res, dup := true, data := d })
          ∈ (submit q s).out)
    ∧ ∀ l r w, permitted (getB s (adr pgCmd 0x0A0) 0) q.code = some l → CmdPort.S ∈ l → q.code ≠ cSheet →
      findTag q.seq s.cmd.s.tags = none → s.cmd.s.exec = some r → s.cmd.s.wait = some w →
      submit q s = emit (.response .S 0 0 (respBytes
        { code := q.code, seq := q.seq, result := 0x05, dup := false, data := [] })) s

/-- On port S or M, with its tag and places free. CONTACT_SHEET without arguments ends OK: the port holds a record of 1024 bytes under the tag, PG_SHEET names tag and port, and S returns the record. REG_READ of N registers, 1 to 16, none of which waits for a wake, ends OK with 4N bytes. REG_WRITE of one word on S in RUN, the write plain and nothing under test, ends OK with the bits software can write taken and no other register changed; where PERMIT denies the word it ends PAGE_DENIED. The window read of a stored register that a read does not touch returns it without write-only bits and changes nothing; of TX_BUF it begins a new count of the fewest free cells. -/
def Obligations.RegisterCommands : Prop :=
  ∀ (s : State) (p : CmdPort) (a : Arrival) (args : List Byte), p = .S ∨ p = .M →
    (freshAt s p a → s.ctl.mode ≠ .still → ∃ t d, exec (.contactSheet a []) s = .next t ∧ commandEnds t p a cSheet 0x00 []
      ∧ (portOf t p).sheet = some (a.seq, d) ∧ d.length = 1024 ∧ t.ctl.mode = s.ctl.mode ∧ t.dataPath = s.dataPath
      ∧ getReg t (adr pgSheet 0x080) = word (a.seq.toNat * 2 ^ 16 + portCode p)
      ∧ (p = .S → Emit.response .S 0 0 (respBytes { code := cSheet, seq := a.seq, result := 0x00, dup := false, data := d })
        ∈ t.out))
    ∧ (freshAt s p a → s.ctl.mode ≠ .still → s.dark.now = none → args.length = 5 → 1 ≤ (byteAt args 4).toNat →
        (byteAt args 4).toNat ≤ 16 →
      ∃ t d, exec (.regRead a args none) s = .next t ∧ d.length = 4 * (byteAt args 4).toNat
        ∧ commandEnds t p a cRegRead 0x00 d ∧ t.ctl.mode = s.ctl.mode)
    ∧ (∀ x r, x = leField args 0 4 → freshAt s .S a → s.ctl.mode = .run → s.dark.now = none → s.prt.testPages = [] →
        args.length = 12 → byteAt args 4 = 1 → leField args 5 3 = 0 → plainWrite s .S x → rowAt x = some r → r.pair = 0 →
        aliasOf s x = x → (pageInfo (pageOf x)).kind = .offload → 0x080 ≤ offOf x → offOf x ≠ 0x0B0 → offOf x ≠ 0x0B4 → x % 4 = 0 →
      ∃ t, exec (.regWrite a args) s = .next t ∧ commandEnds t .S a cRegWrite 0x00 []
        ∧ getReg t x = (getReg s x &&& ~~~(r.rw ||| r.wo)) ||| (word (leField (args.drop 8) 0 4) &&& (r.rw ||| r.wo))
        ∧ (∀ b, b ≠ x → getReg t b = getReg s b) ∧ t.ctl = s.ctl ∧ t.dataPath = s.dataPath)
    ∧ (∀ x, x = leField args 0 4 → freshAt s .S a → s.ctl.mode = .run → s.dark.now = none → s.prt.testPages = [] →
        args.length = 12 → byteAt args 4 = 1 → leField args 5 3 = 0 → writeVerdict s .S x true = .denied →
      ∃ t, exec (.regWrite a args) s = .next t ∧ commandEnds t .S a cRegWrite 0x09 [] ∧ t.ctl.mode = .run
        ∧ t.dataPath = s.dataPath)
    ∧ ∀ (x : BitVec 22) (r : RegRow), readVerdict s a.port x.toNat true = .served → wakeQuarter x.toNat s = s →
        rowAt x.toNat = some r → r.pair = 0 → r.rc = 0 → viewOf s a.port (pageOf x.toNat) (offOf x.toNat) = none →
        viewHeader s (pageOf x.toNat) (offOf x.toNat) = none → offOf x.toNat ≠ 0x014 → x.toNat ≠ timA 0x090 →
        (pageInfo (pageOf x.toNat)).kind ≠ .irqT → x.toNat ≠ darkA 0x080 →
      exec (.regRead a args (some (x, true))) s
        = .next (emit (.regData a.port x.toNat (getReg s (aliasOf s x.toNat) &&& ~~~r.wo)) (peakRead x.toNat s))

/-- In RUN on port S, tag and places free and nothing in flight: SET_LEVEL of a level that every map meets is in flight and its command executing, REQ_STATUS 1 with the level in progress; else it ends FAILED with reason 1 and the power controller as it was. SLEEP of a state with no activity of Table 18.3, and for DIM a good wake set, is in flight with STILL the target; with an activity it ends FAILED 3. LEVEL_CHANGE_DONE of a level request of MODE_REQ, nothing pending, puts the level in force, ends the request OK and latches event 0. The mode stays. -/
def Obligations.LevelAndSleep : Prop :=
  ∀ (s : State) (a : Arrival) (v : Byte) (w : BitVec 2), w = BitVec.ofNat 2 v.toNat → v.toNat ≤ 3 →
    (freshAt s .S a → s.ctl.mode = .run → mapsMeet s v.toNat = true →
      ∃ t, exec (.setLevel a [v]) s = .next t ∧ commandRuns t .S a cSetLevel
        ∧ t.pwr = { s.pwr with flight := some { origin := .command .S, sleep := false, value := w }, since := s.tim.powered }
        ∧ getF t (adr pgPower 0x084) 3 0 = 1 ∧ getF t (adr pgPower 0x08C) 5 4 = v.toNat ∧ getB t (adr pgPower 0x08C) 9 = true
        ∧ (∀ b, b ∉ [adr pgPower 0x084, adr pgPower 0x08C] → getReg t b = getReg s b) ∧ t.ctl = s.ctl
        ∧ t.dataPath = s.dataPath)
    ∧ (freshAt s .S a → s.ctl.mode = .run → mapsMeet s v.toNat = false →
      ∃ t, exec (.setLevel a [v]) s = .next t ∧ commandEnds t .S a cSetLevel 0x0B [0x01] ∧ t.pwr = s.pwr
        ∧ getF t (adr pgPower 0x084) 3 0 = 3 ∧ t.ctl.mode = .run ∧ t.ctl.pl = s.ctl.pl ∧ t.dataPath = s.dataPath)
    ∧ (freshAt s .S a → s.ctl.mode = .run → v ≠ 0 → activity s = false → (v = 2 → wakeSetOk s = true) →
      ∃ t, exec (.sleep a [v]) s = .next t ∧ commandRuns t .S a cSleep
        ∧ t.pwr = { s.pwr with flight := some { origin := .command .S, sleep := true, value := w }, since := s.tim.powered }
        ∧ t.ctl = { s.ctl with target := some .still } ∧ getF t (adr pgPower 0x084) 3 0 = 1
        ∧ (∀ b, b ≠ adr pgPower 0x084 → getReg t b = getReg s b) ∧ t.dataPath = s.dataPath)
    ∧ (freshAt s .S a → s.ctl.mode = .run → v = 1 ∨ v = 3 → activity s = true →
      ∃ t, exec (.sleep a [v]) s = .next t ∧ commandEnds t .S a cSleep 0x0B [0x03] ∧ t.pwr = s.pwr
        ∧ t.ctl.mode = .run ∧ t.dataPath = s.dataPath)
    ∧ ∀ r p, s.pwr.flight = some r → r.sleep = false → r.origin = .modeReq p → s.pwr.slot = none → portsIdle s →
      s.pwr.entering = false → s.ctl.mode = .run →
      ∃ t, exec .levelChangeDone s = .next t ∧ t.ctl.pl = r.value ∧ t.pwr = { s.pwr with flight := none }
        ∧ getF t (adr pgPower 0x084) 3 0 = 2 ∧ getF t (adr pgPower 0x08C) 1 0 = r.value.toNat
        ∧ (getReg t (adr pgPower 0x24)).getLsbD 0 = true ∧ t.ctl.mode = .run ∧ t.cmd = s.cmd ∧ t.dataPath = s.dataPath

/-- On port M with the link receiving, tag and places free. SAFELIGHT_ENTER in RUN with no entry under way, nothing in the pending slot, no TEST on its way: entry under way with cause 2 from mode 2, target SAFELIGHT, and the command waits for it; in SAFELIGHT it ends OK at once. SAFELIGHT_EXIT in SAFELIGHT ends ALARM_HELD while ALARM_LEVEL is high, FAILED 1 where RUN's clusters do not meet the level, and else is executing with its level named and RUN the target. TIME_STEP_ARM in RUN ends OK and, in STEP_ONCE, sets the arm and ARM_M. The mode stays. -/
def Obligations.SafelightCommands : Prop :=
  ∀ (s : State) (a : Arrival) (v : Byte), freshAt s .M a →
    (s.ctl.mode = .run → s.ctl.entry = none → s.ctl.halted = false → s.pwr.slot = none → s.ctl.target ≠ some .test →
      ∃ t, exec (.safelightEnter a []) s = .next t ∧ commandRuns t .M a cSafeEnter
        ∧ t.ctl.entry = some { cause := 2, fromMode := 2 } ∧ t.ctl.target = some .safelight ∧ t.ctl.mode = .run
        ∧ t.ctl.pins.safeActive = s.ctl.pins.safeActive ∧ t.dataPath = s.dataPath)
    ∧ (s.ctl.mode = .safelight → s.ctl.exit = none →
      ∃ t, exec (.safelightEnter a []) s = .next t ∧ commandEnds t .M a cSafeEnter 0x00 [] ∧ t.ctl.entry = s.ctl.entry
        ∧ t.ctl.mode = .safelight ∧ t.dataPath = s.dataPath)
    ∧ (s.ctl.mode = .safelight → v.toNat ≤ 3 → s.ctl.pins.alarmLevel = true →
      ∃ t, exec (.safelightExit a [v]) s = .next t ∧ commandEnds t .M a cSafeExit 0x08 [] ∧ t.ctl.exit = s.ctl.exit
        ∧ t.ctl.mode = .safelight ∧ t.dataPath = s.dataPath)
    ∧ (s.ctl.mode = .safelight → v.toNat ≤ 3 → s.ctl.pins.alarmLevel = false → exitFits s v.toNat = false →
      ∃ t, exec (.safelightExit a [v]) s = .next t ∧ commandEnds t .M a cSafeExit 0x0B [0x01] ∧ t.ctl.exit = s.ctl.exit
        ∧ t.ctl.mode = .safelight ∧ t.dataPath = s.dataPath)
    ∧ (s.ctl.mode = .safelight → v.toNat ≤ 3 → s.ctl.pins.alarmLevel = false → exitFits s v.toNat = true →
      ∃ t, exec (.safelightExit a [v]) s = .next t ∧ commandRuns t .M a cSafeExit
        ∧ t.ctl.exit = some (BitVec.ofNat 2 v.toNat) ∧ t.ctl.target = some .run ∧ t.ctl.mode = .safelight
        ∧ t.dataPath = s.dataPath)
    ∧ (s.ctl.mode = .run → ∃ t, exec (.timeStepArm a []) s = .next t ∧ commandEnds t .M a cStepArm 0x00 []
      ∧ t.tim = (if s.tim.stepOnce then { s.tim with stepArmed := true, armM := true } else s.tim)
      ∧ t.ctl.mode = .run ∧ t.dataPath = s.dataPath)

/-- On port S, tag and places free. TEST_START in RUN with good arguments and no SCAN, allowed by R60 and R361: DARKSLIDE holds the list and the port, TEST is the target and the command executes; not allowed, it ends STATE_REJECT and DARKSLIDE holds what it held; with bad arguments it ends BAD_ARGS. TEST_ABORT in TEST with no unit under test ends OK: no test waits, TEST is ending and PROOF is the target, unless a SAFELIGHT entry is under way. The mode stays. -/
def Obligations.TestCommands : Prop :=
  ∀ (s : State) (a : Arrival) (args : List Byte), freshAt s .S a → args.length ≤ 256 →
    (∀ l, s.ctl.mode = .run → testArgs args = some (l, false) → testAllowed s l = true →
      ∃ t, exec (.testStart a args) s = .next t ∧ commandRuns t .S a cTestStart ∧ t.dark.list = l ∧ t.dark.testPort = some .S
        ∧ t.dark.results = [] ∧ t.ctl.target = some .test ∧ t.ctl.mode = .run
        ∧ getReg t (darkA 0x084) = word (l.length * 256))
    ∧ (∀ l b, s.ctl.mode = .run → testArgs args = some (l, b) → testAllowed s l = false →
      ∃ t, exec (.testStart a args) s = .next t ∧ commandEnds t .S a cTestStart 0x01 [] ∧ t.dark.list = s.dark.list
        ∧ t.ctl.mode = .run ∧ t.dataPath = s.dataPath)
    ∧ (s.ctl.mode = .run → testArgs args = none →
      ∃ t, exec (.testStart a args) s = .next t ∧ commandEnds t .S a cTestStart 0x04 [] ∧ t.dark = s.dark ∧ t.ctl = s.ctl
        ∧ t.dataPath = s.dataPath)
    ∧ (s.ctl.mode = .test → s.dark.now = none → s.dark.wait.all (fun j => j.origin == 0) = true →
      ∃ t, exec (.testAbort a []) s = .next t ∧ commandEnds t .S a cTestAbort 0x00 [] ∧ t.dark.wait = []
        ∧ t.dark.ending = true ∧ t.ctl.target = (if s.ctl.entry = none then some .proof else s.ctl.target) ∧ t.ctl.mode = .test ∧ t.ctl.pins.scanGate = false
        ∧ t.dataPath = s.dataPath)

/-- On port M in RUN with the link receiving, tag and places free. Each OP of FORCE_REPAIR with good arguments, its unit queued or fewer than 16 decisions waiting: a forced decision for the unit waits and the command executes; with the queue full it ends FAILED 0x36 and the queue stays. RESTORE_FACTORY with no overlay write, migration, reconfiguration or load in progress and the NV controller not under test: both overlay copies are the empty image, no user calibration is in force and the write counts in the hour; with an overlay write in progress it waits, the store as it was. An accepted CAL_WRITE_OVERLAY: while a write is in progress or RESTORE_FACTORY runs it is lost and GO_LOST set; the ninth of an hour, an unreadable image and an image that Table 21.5 refuses leave state 3 with entry and reason, and the store; a good image counts in the hour and is being written, state 1. CAL_WRITE_DONE ends the write under way: both copies hold the image, state 2, CHANGED is set and event 0 latched; under test of the NV controller, or with no write, nothing changes. NV_RD with GO of a line that belongs to no overlay and no journal entry leaves its 64 bytes in the data words, state 2, and the store. -/
def Obligations.RepairCommands : Prop :=
  ∀ (s : State) (a : Arrival) (rest : List Byte), freshAt s .M a → s.ctl.mode = .run →
    (∀ (c : Instr) (op : Byte) (d : Decision), (c, op) ∈ [(Instr.forceRepairMigrate a rest, (1 : Byte)), (.forceRepairReturn a rest, 2),
        (.forceRepairCondemn a rest, 3), (.forceRepairReinstate a rest, 4)] → rest.length = 7 →
      repairArgs (op :: rest) = some d →
      ((queuedUnit s d.unit = true ∨ s.fix.queue.length < 16) → ∃ t, exec c s = .next t ∧ commandRuns t .M a cForceRepair
        ∧ (∃ x ∈ t.fix.queue, x.unit = d.unit ∧ x.forced = true ∧ x.op = op.toNat) ∧ t.fix.mig = s.fix.mig ∧ t.ctl.mode = .run
        ∧ t.dataPath = s.dataPath)
      ∧ (queuedUnit s d.unit = false → 16 ≤ s.fix.queue.length → ∃ t, exec c s = .next t
        ∧ commandEnds t .M a cForceRepair 0x0B [0x36] ∧ t.fix = s.fix ∧ t.ctl.mode = .run ∧ t.dataPath = s.dataPath))
    ∧ (s.nv.write = none → s.fix.mig = none → s.prt.reconf = [] → s.cls.load = none → nvUnderTest s = false →
        s.nv.restoring = false → s.ctl.entry = none → ∃ t, exec (.restoreFactory a []) s = .next t
      ∧ t.nv.cells = (eraseOverlay s).nv.cells ∧ t.nv.user = none ∧ t.nv.hourCount = min (overlayHour s + 1) 15
      ∧ t.ctl.mode = .run)
    ∧ (∀ l, s.nv.write = some l → s.nv.restoring = false → ∃ t, exec (.restoreFactory a []) s = .next t ∧ commandRuns t .M a cRestore
      ∧ t.nv = { s.nv with restore := some .M } ∧ t.ctl.mode = .run ∧ t.dataPath = s.dataPath)
    ∧ (∀ (x : State) (p : CmdPort) (fn : FnNo) (img : Option (List Byte)), plainWrite x p (calA 0x088) →
      (getF x (calA 0x08C) 1 0 = 1 ∨ x.nv.restore.isSome = true → ∃ t, exec (.calWriteOverlay p fn img) x = .next t
        ∧ getB t (calA 0x08C) 2 = true ∧ (∀ b, b ≠ calA 0x08C → getReg t b = getReg x b) ∧ t.rest = x.rest)
      ∧ (getF x (calA 0x08C) 1 0 ≠ 1 → x.nv.restore = none →
        (8 ≤ overlayHour x → ∃ t, exec (.calWriteOverlay p fn img) x = .next t
          ∧ getReg t (calA 0x08C) = calStatus 0xFFFF 1 3 ∧ t.nv = x.nv ∧ t.ctl.mode = x.ctl.mode)
        ∧ (overlayHour x < 8 → img = none → ∃ t, exec (.calWriteOverlay p fn img) x = .next t
          ∧ getReg t (calA 0x08C) = calStatus 0xFFFF 2 3 ∧ t.nv = x.nv ∧ t.ctl.mode = x.ctl.mode)
        ∧ (∀ d k e, overlayHour x < 8 → img = some d → imageRefusal (slice d 0 (getF x (calA 0x098) 16 0)) = some (k, e) →
          ∃ t, exec (.calWriteOverlay p fn img) x = .next t ∧ getReg t (calA 0x08C) = calStatus e k 3
            ∧ (getReg t (adr pgCal 0x24)).getLsbD 1 = true ∧ t.nv = x.nv ∧ t.ctl.mode = x.ctl.mode)
        ∧ (∀ d, overlayHour x < 8 → img = some d → imageRefusal (slice d 0 (getF x (calA 0x098) 16 0)) = none →
          ∃ t, exec (.calWriteOverlay p fn img) x = .next t ∧ getReg t (calA 0x08C) = calStatus 0 0 1
            ∧ t.nv.write = some (slice d 0 (getF x (calA 0x098) 16 0)) ∧ t.nv.cells = x.nv.cells
            ∧ t.nv.hourCount = min (overlayHour x + 1) 15 ∧ t.ctl.mode = x.ctl.mode)))
    ∧ (∀ (x : State) (l : List Byte), x.nv.write = some l →
      (nvUnderTest x = false → ∃ t, exec .calWriteDone x = .next t ∧ t.nv.write = none
        ∧ t.nv.cells = (writeOverlay l { x with nv := { x.nv with write := none } }).nv.cells
        ∧ getF t (calA 0x08C) 1 0 = 2 ∧ getB t (calA 0x080) 4 = true ∧ (getReg t (adr pgCal 0x24)).getLsbD 0 = true
        ∧ t.ctl.mode = x.ctl.mode ∧ t.dataPath = x.dataPath)
      ∧ (nvUnderTest x = true → exec .calWriteDone x = .next x))
    ∧ (∀ (x : State) (p : CmdPort) (v : Word), plainWrite x p (calA 0x0A0) →
      (bit v 31 = false → exec (.nvRd p v) x = .next x)
      ∧ (bit v 31 = true → overlayLine (bits v 12 0) = false → journalLine (bits v 12 0) = none →
        ∃ t, exec (.nvRd p v) x = .next t ∧ getReg t (calA 0x0A4) = 2
          ∧ (∀ i < 16, getReg t (calA (0x0C0 + 4 * i)) = word (leField (nvBytes x (64 * bits v 12 0) 64) (4 * i) 4))
          ∧ t.nv = x.nv ∧ t.ctl = x.ctl ∧ t.dataPath = x.dataPath))

/-- On port S in RUN, tag and places free. VERSION_LOAD with good arguments of a FREE slot, no load running: the load is recorded, LOAD_STATUS names the slot with state 1, 64 bytes are read on the function's channel, or the read waits while 512 are outstanding there, the command executes and the tables stay. VERSION_COMMIT OP 0 of a slot that no condition refuses: a commit of the slot waits for the dealing boundary and the command executes; OP 1 with a good time ends OK with the commit pending; OP 2 of a LOADED slot that no commit names ends OK with the slot FREE. A slot that may not be committed ends FAILED with the reason. (For OP 2 only sources that exist are pending.) -/
def Obligations.VersionCommands : Prop :=
  ∀ (s : State) (a : Arrival) (args : List Byte) (v : Byte), freshAt s .S a → s.ctl.mode = .run →
    (∀ l : Load, l = { port := .S, slot := (byteAt args 12).toNat, len := leField args 8 4, addr := leField args 0 8
                       fn := leField args 14 2 } →
        args.length = 16 → byteAt args 13 = 0 → l.slot ≤ 3 → l.fn ≤ 255 → l.addr % 64 = 0 → 68 ≤ l.len →
        slotState s l.slot = 0 → s.cls.load = none →
      ∃ t, exec (.versionLoad a args) s = .next t ∧ commandRuns t .S a cLoad ∧ t.cls = { s.cls with load := some l }
        ∧ (Emit.fabricRead (fnChan s l.fn) l.addr 64 ∈ t.out ∨ (l.addr, 64) ∈ readsHeld t (fnChan s l.fn))
        ∧ (readsOut s (fnChan s l.fn) + (readsHeld s (fnChan s l.fn)).length < 512 →
          Emit.fabricRead (fnChan s l.fn) l.addr 64 ∈ t.out) ∧ getReg t (adr pgVersion 0x0A0) = word (4 * l.slot + 1)
        ∧ (∀ b, b ≠ adr pgVersion 0x0A0 → getReg t b = getReg s b) ∧ t.ctl = s.ctl)
    ∧ (v.toNat ≤ 3 → commitRefusal s v.toNat s.cls.commit.isSome false = none →
      ∃ t, exec (.versionCommitNow a v []) s = .next t ∧ commandRuns t .S a cCommit
        ∧ t.cls = { s.cls with commit := some { slot := v.toNat, now := some .S, late := false
                                                before := getReg s (adr pgVersion 0x0A4) } }
        ∧ getReg t (adr pgVersion 0x0A4) = word (4 * v.toNat + 1) ∧ t.ctl = s.ctl)
    ∧ (∀ k, v.toNat ≤ 3 → commitRefusal s v.toNat s.cls.commit.isSome false = some k →
      ∃ t, exec (.versionCommitNow a v []) s = .next t ∧ commandEnds t .S a cCommit 0x0B [BitVec.ofNat 8 k]
        ∧ t.cls = s.cls ∧ t.ctl = s.ctl)
    ∧ (∀ rest, rest.length = 10 → v.toNat ≤ 3 → leField (v :: 0x01 :: rest) 8 4 < 1000000000 →
        commitRefusal s v.toNat s.cls.commit.isSome true = none →
      ∃ t late, exec (.versionCommitAtTime a v rest) s = .next t ∧ commandEnds t .S a cCommit 0x00 []
        ∧ t.cls = { s.cls with commit := some { slot := v.toNat, now := none, late := late
                                                before := getReg s (adr pgVersion 0x0A4) } }
        ∧ getPair t (adr pgVersion 0x0A8) = leField (v :: 0x01 :: rest) 2 6
        ∧ getReg t (adr pgVersion 0x0B0) = word (leField (v :: 0x01 :: rest) 8 4) ∧ t.ctl = s.ctl)
    ∧ (s.irqSane → v.toNat ≤ 3 → slotState s v.toNat = 1 → (∀ c, s.cls.commit = some c → c.slot ≠ v.toNat) →
      ∃ t, exec (.versionDiscard a v []) s = .next t ∧ commandEnds t .S a cCommit 0x00 [] ∧ slotState t v.toNat = 0
        ∧ t.cls.tern = clearTern v.toNat s.cls.tern ∧ t.cls.exact = clearExact v.toNat s.cls.exact
        ∧ (∀ w, w < 4 → w ≠ v.toNat → slotState t w = slotState s w) ∧ t.ctl.mode = .run)

/-- VERSION_LOAD_COMPLETE in RUN or TEST with a load running, the command's port holding nothing else: a whole image leaves its slot LOADED with the image's VERSION_ID and the image's rows and entries; an image that fails or was not read leaves rows and entries as they were and no load running, event 1 latched. TIMED_COMMIT_DUE in RUN: where time is LOCKED the slot becomes CURRENT, else COMMIT_STATUS shows it abandoned, and no commit is left; in STILL it is decided after the wake. SLOT_RETIRE of a drained DRAINING slot makes it LOADED where CTRL keeps it, else FREE. Only sources that exist are pending. -/
def Obligations.VersionEvents : Prop :=
  ∀ s : State, s.irqSane →
    (∀ l d t0, s.cls.load = some l → s.ctl.mode = .run ∨ s.ctl.mode = .test → portsIdle s → (portOf s l.port).wait = none →
        (∀ r, (portOf s l.port).exec = some r → r.req.port = l.port ∧ r.req.relayed = none) → l.slot < 4 →
        loadImage s l.slot l.len (slice d 0 l.len) = .inl t0 →
      ∃ t, exec (.versionLoadComplete (some d)) s = .next t ∧ slotState t l.slot = 1 ∧ t.cls.load = none
        ∧ t.cls.tern = t0.tern ∧ t.cls.exact = t0.exact ∧ getF t (slotA l.slot) 27 0 = leField d 8 4 % 2 ^ 28
        ∧ (∀ w, w < 4 → w ≠ l.slot → slotState t w = slotState s w) ∧ t.ctl.mode = s.ctl.mode)
    ∧ (∀ l img, s.cls.load = some l → s.ctl.mode = .run ∨ s.ctl.mode = .test → portsIdle s → (portOf s l.port).wait = none →
        (∀ r, (portOf s l.port).exec = some r → r.req.port = l.port ∧ r.req.relayed = none) →
        (∀ d, img = some d → ∃ x, loadImage s l.slot l.len (slice d 0 l.len) = .inr x) →
      ∃ t, exec (.versionLoadComplete img) s = .next t ∧ t.cls = { s.cls with load := none }
        ∧ getF t (adr pgVersion 0x0A0) 1 0 = 3 ∧ (getReg t (adr pgVersion 0x24)).getLsbD 1 = true
        ∧ (∀ w, w < 4 → slotState t w = slotState s w) ∧ t.ctl.mode = s.ctl.mode)
    ∧ (∀ c, s.cls.commit = some c → c.now = none → c.late = false → c.slot < 4 → s.ctl.mode = .run →
      ∃ t, exec .timedCommitDue s = .next t ∧ t.cls = { s.cls with commit := none } ∧ t.ctl.mode = .run
        ∧ (s.tim.vstate = 1 → slotState t c.slot = 2 ∧ getF t (adr pgVersion 0x0A4) 1 0 = 2)
        ∧ (s.tim.vstate ≠ 1 → (∀ w, w < 4 → slotState t w = slotState s w) ∧ getF t (adr pgVersion 0x0A4) 1 0 = 3))
    ∧ (∀ c, s.cls.commit = some c → c.now = none → c.late = false → s.ctl.mode = .still →
      exec .timedCommitDue s = .next { s with cls := { s.cls with commit := some { c with late := true } } })
    ∧ ∀ v : Fin 4, slotState s v = 3 → getF s (drainA v) 23 0 = 0 →
      ∃ t, exec (.slotRetire v) s = .next t
        ∧ slotState t v = (if getB s (adr pgVersion 0x010) 1 then 1 else 0)
        ∧ (getReg t (adr pgVersion 0x24)).getLsbD 4 = true
        ∧ (∀ w, w < 4 → w ≠ v.val → slotState t w = slotState s w) ∧ t.ctl.mode = s.ctl.mode

/-- In every state, a step that runs a command other than CORE_PG_RISE leaves POWERED_NS as it was: no register, command or test changes it. CORE_PG_RISE leaves it or restarts it from 0. A step on an empty queue advances it by 1, or by 20 while the time island is powered down, modulo 2^64. That an empty queue is a cycle is the model's choice (log entry 1). -/
def Obligations.PoweredNsCounts : Prop :=
  ∀ s t : State, step s = .next t →
    (∀ c r, s.pending = c :: r → c ≠ .corePgRise → t.tim.powered = s.tim.powered)
    ∧ (∀ r, s.pending = .corePgRise :: r → t.tim.powered = s.tim.powered ∨ t.tim.powered = 0)
    ∧ (s.pending = [] → t.tim.powered = (s.tim.powered + (if s.tim.on then 1 else 20)) % 2 ^ 64)

/-- PROOF neither halted nor waiting for a SAFELIGHT entry, no command waiting. Step 1 drives the outputs and starts the time island, time of day at 0; step 2 notes which records were good, and cold adds one to the start count, and warm changes of FIXER only what it knows to be stored; step 3 halts with reason 3 where the management core's memory is bad and with reason 2 where its firmware fails, and completes where neither does and a factory copy was good (cold); then step 4, step 5 where it is to run in cold PROOF, and step 6, which enters RUN with FAULT_N's cause 0 as PROOF found it. The mode is PROOF until then. In SAFELIGHT the last deferred step of an exit leaves none deferred. -/
def Obligations.ProofSequence : Prop :=
  ∀ (s : State) (r : ProofReport), portsIdle s →
    (s.ctl.mode = .proof → s.ctl.halted = false → s.ctl.entry = none →
      (s.ctl.proof.step = 0 → ∃ t, exec (.proofStepDone r) s = .next t ∧ t.ctl.mode = .proof ∧ t.ctl.proof.step = 1
        ∧ t.ctl.pins.driven = true ∧ t.tim.on = true ∧ t.tim.tod = 0)
      ∧ (s.ctl.proof.step = 1 → ∃ t, exec (.proofStepDone r) s = .next t ∧ t.ctl.mode = .proof ∧ t.ctl.proof.step = 2
        ∧ t.ctl.proof.repairMapOk = (r.mapA || r.mapB) ∧ t.ctl.pins = s.ctl.pins
        ∧ (s.ctl.warm = false → t.ctl.proof.factoryCalOk = (r.factA || r.factB)
          ∧ t.nv.startTag = (s.nv.startTag + 1) % 2 ^ 32)
        ∧ (s.ctl.warm = true → t.nv.startTag = s.nv.startTag 
          ∧ t.fix = { s.fix with stored := t.fix.stored, storedL2 := t.fix.storedL2, storedRows := t.fix.storedRows }))
      ∧ (s.ctl.proof.step = 2 → (r.mgmtBad = true ∨ r.fwBad = true) → ∃ t, exec (.proofStepDone r) s = .next t
        ∧ t.ctl.mode = .proof ∧ t.ctl.proof = { s.ctl.proof with haltReason := if r.mgmtBad then 3 else 2 }
        ∧ t.ctl.halted = true ∧ t.dataPath = s.dataPath)
      ∧ (s.ctl.proof.step = 2 → r.mgmtBad = false → r.fwBad = false → s.ctl.warm = true ∨ s.ctl.proof.factoryCalOk = true →
        ∃ t, exec (.proofStepDone r) s = .next t ∧ t.ctl.mode = .proof ∧ t.ctl.proof.step = 3 ∧ t.ctl.halted = false)
      ∧ (s.ctl.proof.step = 3 → ∃ t, exec (.proofStepDone r) s = .next t ∧ t.ctl.mode = .proof ∧ t.ctl.proof.step = 4)
      ∧ (s.ctl.proof.step = 4 → lbistNext s = true → ∃ t, exec (.proofStepDone r) s = .next t ∧ t.ctl.mode = .proof
        ∧ t.ctl.proof.step = 5 ∧ t.ctl.proof.lbistRun = true ∧ t.ctl.proof.lbistPass = r.failed.isEmpty)
      ∧ ((s.ctl.proof.step = 4 ∧ lbistNext s = false) ∨ s.ctl.proof.step = 5 → ∃ t, exec (.proofStepDone r) s = .next t
        ∧ t.ctl.mode = .run ∧ t.ctl.proof = { s.ctl.proof with step := 6 } ∧ t.ctl.target = none ∧ t.ctl.pins = s.ctl.pins
        ∧ t.ctl.faults.proof = (!s.ctl.proof.userCalOk || s.ctl.proof.safeListFallback || s.ctl.proof.bootRulesFallback
          || s.ctl.proof.unitBad)))
    ∧ (s.ctl.mode = .safelight → s.ctl.exit.isSome = true → s.ctl.deferred = 6 →
      ∃ t, exec (.proofStepDone r) s = .next t ∧ t.ctl.mode = .safelight ∧ t.ctl.deferred = 0 ∧ t.ctl.proof.step = 6)

/-- SLEEP_QUIESCED with a sleep request of MODE_REQ in flight, in RUN, entry not begun, no command waiting: once uncommitted frames are discarded and everything that quiescence waits for has left, entry begins, no planned decision waits and the request stays in flight; else only the discards have happened. SLEEP_STATE_REACHED with entry begun, no wake on record and no request pending: STILL in the requested sleep state, nothing in flight, REQ_STATUS done; for DARK the time island stands still. -/
def Obligations.SleepEntry : Prop :=
  ∀ (s : State) (r : PwrReq) (p : CmdPort), s.pwr.flight = some r → r.sleep = true → r.origin = .modeReq p →
    (s.ctl.mode = .run → s.pwr.entering = false → portsIdle s → drained (emptyQueues (List.range 512) s) = true →
      ∃ t, exec .sleepQuiesced s = .next t ∧ t.pwr.entering = true ∧ t.pwr.flight = some r ∧ t.ctl.mode = .run
        ∧ (∀ d ∈ t.fix.queue, d.kind ≠ 0) ∧ t.tim = s.tim ∧ t.cmd = s.cmd)
    ∧ (s.ctl.mode = .run → s.pwr.entering = false → drained (emptyQueues (List.range 512) s) = false →
      exec .sleepQuiesced s = .next (emptyQueues (List.range 512) s)
        ∧ (emptyQueues (List.range 512) s).pwr = s.pwr ∧ (emptyQueues (List.range 512) s).ctl = s.ctl)
    ∧ (s.pwr.entering = true → s.pwr.wake = none → s.pwr.slot = none → s.ctl.mode = .run →
      ∃ t, exec .sleepStateReached s = .next t ∧ t.ctl.mode = .still ∧ t.ctl.sleep = sleepOf r.value ∧ t.ctl.target = none
        ∧ t.pwr.flight = none ∧ t.pwr.entering = false ∧ getF t (adr pgPower 0x084) 3 0 = 2
        ∧ (r.value = 3 → t.tim.on = false ∧ t.ctl.pins.timeHeld = true) ∧ (r.value ≠ 3 → t.tim.on = s.tim.on)
        ∧ t.tim.powered = s.tim.powered ∧ t.cmd = s.cmd)

/-- WAKE_EVENT of a source of Table 18.6 that can occur, in STILL with no wake on record: source, location and POWERED_NS are on record and RUN is the target; nothing else changes. WAKE_COMPLETE in STILL with a wake on record, no stalled access, no held frame, no pending request and no command waiting: RUN, no sleep state, the spreader, host, management and time islands powered, the level as it was on entry. -/
def Obligations.WakeUp : Prop :=
  ∀ (s : State) (code : BitVec 4) (loc : BitVec 8) (bad : BitVec 4) (l : List ClusterNo), s.ctl.mode = .still →
    (s.pwr.wake = none → wakeFits s code.toNat loc.toNat = true →
      ∃ t, exec (.wakeEvent code loc) s = .next t ∧ t.pwr.wake = some (code.toNat, loc.toNat)
        ∧ t.ctl = { s.ctl with target := some .run } ∧ getF t (adr pgPower 0x094) 15 0 = code.toNat + 256 * loc.toNat
        ∧ getPair t (adr pgPower 0x098) = s.tim.powered % 2 ^ 64 ∧ t.rest = s.rest
        ∧ ∀ b, b ∉ [adr pgPower 0x094, adr pgPower 0x098, adr pgPower 0x09C] → getReg t b = getReg s b)
    ∧ (s.pwr.wake.isSome = true → s.cmd.stalled = [] → s.rx.wakeHeld = [] → s.pwr.slot = none → s.pwr.flight = none →
        s.pwr.entering = false → portsIdle s →
      ∃ t, exec (.wakeComplete bad l) s = .next t ∧ t.ctl.mode = .run ∧ t.ctl.sleep = .none ∧ t.ctl.pl = s.ctl.pl
        ∧ (∀ i ∈ [70, 71, 72, 73], i ∉ t.pwr.off) ∧ t.tim.powered = s.tim.powered ∧ t.pending = s.pending)

/-- An accepted write of PAD_HOLD_CLR with bit 0 set and the time island running releases the time group: its balls take the levels of the pulses in progress; any other value, or the island down, changes nothing. An accepted write of RETAIN_ACK with bit 0 set clears CL_RETAIN_FAIL and cause 4 of FAULT_N and no other register, so the FAIL bits of PG_RETAIN stay; with bit 0 clear it changes nothing. THERM_WARN records the temperature and its signed peak, and latches event 6 from 110 degrees on. -/
def Obligations.PowerRegisters : Prop :=
  ∀ (s : State) (p : CmdPort) (v : Word) (c : BitVec 8),
    (plainWrite s p (adr pgPower 0x0A4) → exec (.padHoldClr p v) s = .next (if bit v 0 = true ∧ s.tim.on = true then
      { s with ctl := { s.ctl with pins := { s.ctl.pins with timeHeld := false, shutter := pulseLevels s } } } else s))
    ∧ (plainWrite s p (adr pgPower 0x0A8) → bit v 0 = true → ∃ t, exec (.retainAck p v) s = .next t
      ∧ (∀ b, getReg t b = if b ∈ [adr pgPower 0x0AC, adr pgPower 0x0B0, adr pgPower 0x0B4] then 0 else getReg s b)
      ∧ t = { s with win := t.win, ctl := { s.ctl with faults := { s.ctl.faults with retain := false } } })
    ∧ (plainWrite s p (adr pgPower 0x0A8) → bit v 0 = false → exec (.retainAck p v) s = .next s)
    ∧ ∃ t, exec (.thermWarn c) s = .next t ∧ getF t (adr pgPower 0x0BC) 7 0 = c.toNat
      ∧ getF t (adr pgPower 0x0BC) 15 8 = (if (BitVec.ofNat 8 (getF s (adr pgPower 0x0BC) 15 8)).toInt < c.toInt then c.toNat
        else getF s (adr pgPower 0x0BC) 15 8)
      ∧ (110 ≤ c.toInt → (getReg t (adr pgPower 0x24)).getLsbD 6 = true)
      ∧ (c.toInt < 110 → ∀ b, b ≠ adr pgPower 0x0BC → getReg t b = getReg s b) ∧ t.rest = s.rest

/-- Reset has no source pending and no ring. From every state in which each pending or collected source is below 2048, each target in service is T0 to T67 and no completion ring names a source beyond 2047, every step that answers next t gives a state t with the same property. -/
def Obligations.SourcesStayReal : Prop :=
  State.reset.sourcesReal ∧ ∀ s t : State, s.sourcesReal → step s = .next t → t.sourcesReal

/-- A served read of CLAIM of target t with candidate n and nothing in service returns n, clears the pending bit of n (a source that the controller or LOUPE raises by the claim itself aside), SERVICE reads n in service with no request, and t requests nothing. With no candidate, or with t in service, it returns 0xFFFF, counts in EMPTY_CLAIM and changes nothing else. -/
def Obligations.ClaimRead : Prop :=
  ∀ (s : State) (p : CmdPort) (t : TargetNo) (n : Nat), readVerdict s p (tgtA t 0x080) true = .served →
    (candidate s t = some n → tabFind s.irq.service t = none →
      ∃ u, exec (.claim p t) s = .next u ∧ Emit.regData p (tgtA t 0x080) (word n) ∈ u.out
        ∧ (n ≠ 13 → (n < 31 ∨ 38 < n) → n ∉ u.irq.pending) ∧ tabFind u.irq.service t = some n ∧ t.val ∉ u.irq.req
        ∧ viewIrqT u t 0x08C = some (fields [(31, 1), (16, 0), (0, n)]) ∧ u.rest = s.rest)
    ∧ ((candidate s t = none ∨ (tabFind s.irq.service t).isSome = true) →
      exec (.claim p t) s = .next (emit (.regData p (tgtA t 0x080) 0xFFFF) (addF (tgtA t 0x0C0) 15 0 1 s)))

/-- LANE_STATUS_CHANGE of a lane whose cluster is off only changes the pins; of one that is on, the sample takes the inputs, each input that differs counts once, and where SIG_DET and ALIGN_OK both hold no other register moves; where they do not, the lane's lock bits clear and its port, with no preemptable frame open, is down. PORT_UP of a port that may rise leaves it up, its lanes locked without high BER, and no other port changed. LOCK_LOSS of an enabled port that is up counts, high BER once as it begins, and takes the port down; of no port, or with the cluster off, it changes nothing. REMOTE_FAULT notes the port, and where frames of it wait the transmit side drops them. DEGRADE_WINDOW_END of an enabled port counts what its FEC counts, latches event 2 for an uncorrectable codeword and sets DEGRADE exactly where the symbols reach a threshold that is not 0. Only sources that exist are pending. -/
def Obligations.LaneRows : Prop :=
  ∀ (s : State) (p : PortNo) (v : BitVec 3), s.irqSane →
    (clusterOn s (p / 8) = false → exec (.laneStatusChange p v) s
      = .next { s with prt := { s.prt with laneIn := tabSet (fun _ => 0) s.prt.laneIn p v } })
    ∧ (clusterOn s (p / 8) = true → v ≠ laneSample s p → v.getLsbD 1 = true → v.getLsbD 2 = true →
      ∃ t, exec (.laneStatusChange p v) s = .next t ∧ laneLevels t p = v ∧ laneSample t p = v
        ∧ getF t (statA p (0x080 + 4 * (p % 8))) 29 20 = satAdd 1023 (getF s (statA p (0x080 + 4 * (p % 8))) 29 20)
          (flag ((v ^^^ laneSample s p).getLsbD 0))
        ∧ getF t (statA p (0x080 + 4 * (p % 8))) 19 10 = satAdd 1023 (getF s (statA p (0x080 + 4 * (p % 8))) 19 10)
          (flag ((v ^^^ laneSample s p).getLsbD 1))
        ∧ getF t (statA p (0x080 + 4 * (p % 8))) 9 0 = satAdd 1023 (getF s (statA p (0x080 + 4 * (p % 8))) 9 0)
          (flag ((v ^^^ laneSample s p).getLsbD 2))
        ∧ (∀ b, b ∉ [laneStA p, statA p (0x080 + 4 * (p % 8))] → getReg t b = getReg s b)
        ∧ t.rest = State.rest { s with prt := t.prt } ∧ t.irq = s.irq)
    ∧ (clusterOn s (p / 8) = true → v ≠ laneSample s p → (v.getLsbD 1 && v.getLsbD 2) = false →
        (∀ q, portOfLane s p = some q → tabFind s.rx.merge q = none ∧ tabFind s.dp.opened q = none) →
      ∃ t, exec (.laneStatusChange p v) s = .next t ∧ laneSample t p = v ∧ getF t (laneStA p) 7 6 = 0
        ∧ (∀ q, portOfLane s p = some q → portUp t q = false ∧ (getF s (laneStA p) 7 6 ≠ 0 →
          getLive t (pcsCnt q 0x28) = satAdd (liveMax (pcsCnt q 0x28)) (getLive s (pcsCnt q 0x28)) 1))
        ∧ t.ctl.mode = s.ctl.mode ∧ t.rx = s.rx ∧ t.dp = s.dp
        ∧ ((∀ q, portOfLane s p = some q → txQueue s q = []) → t.tx = s.tx))
    ∧ (∀ x, portShape s p = some x → mayRise s p = true →
      ∃ t, exec (.portUp p) s = .next t ∧ portUp t p = true ∧ (∀ q, q ≠ p.val → portUp t q = portUp s q)
        ∧ (∀ l ∈ portLanes s p, getB t (laneStA l) 8 = false ∧ getB t (laneStA l) (if usesBlockLock x then 6 else 7) = true)
        ∧ t.ctl.mode = s.ctl.mode ∧ t.rx = s.rx ∧ t.dp = s.dp)
    ∧ (mayRise s p = false → exec (.portUp p) s = .next s)
    ∧ (∀ hiBer, portUp s p = true → (portShape s p).isSome = true → clusterOn s (p / 8) = true →
        tabFind s.rx.merge p = none → tabFind s.dp.opened p = none →
      ∃ t, exec (.lockLoss p hiBer) s = .next t ∧ portUp t p = false
        ∧ (hiBer = false ∨ (∀ l ∈ portLanes s p, getB s (laneStA l) 8 = false) →
          (∀ a, a = pcsCnt p (if hiBer then 0x2C else 0x28) → getLive t a = satAdd (liveMax a) (getLive s a) 1)
          ∧ ∀ l ∈ portLanes s p, if hiBer then getB t (laneStA l) 8 = true else getF t (laneStA l) 7 6 = 0)
        ∧ t.ctl.mode = s.ctl.mode ∧ t.rx = s.rx ∧ t.dp = s.dp ∧ (txQueue s p = [] → t.tx = s.tx))
    ∧ (∀ hiBer, (portShape s p = none ∨ clusterOn s (p / 8) = false) → exec (.lockLoss p hiBer) s = .next s)
    ∧ (∀ start, ∃ t, exec (.remoteFault p start) s = .next t ∧ (p.val ∈ t.prt.remote ↔ start = true)
        ∧ (∀ q, q ≠ p.val → (q ∈ t.prt.remote ↔ q ∈ s.prt.remote)) ∧ t.ctl.mode = s.ctl.mode
        ∧ (start = false ∨ txQueue s p = [] → t = { s with prt := { s.prt with remote := t.prt.remote } }))
    ∧ (∀ (x : Shape) (f g : FecReport) (th : Nat), portShape s p = some x → g = countedBy x.fec f →
        th = getF s (pcsA p 0x0B4) 23 0 →
      ∃ t, exec (.degradeWindowEnd p f) s = .next t
        ∧ getLive t (pcsCnt p 0) = satAdd (liveMax (pcsCnt p 0)) (getLive s (pcsCnt p 0)) g.codewords
        ∧ getLive t (pcsCnt p 0x10) = satAdd (liveMax (pcsCnt p 0x10)) (getLive s (pcsCnt p 0x10)) g.uncorrected
        ∧ (g.uncorrected ≠ 0 → (getReg t (adr (pgCl (p / 8) 1) 0x24)).getLsbD 2 = true)
        ∧ getB t (pcsA p 0x0B0) (8 + p % 8) = decide (th ≠ 0 ∧ th ≤ g.symbols)
        ∧ (th ≠ 0 → th ≤ g.symbols →
          getLive t (pcsCnt p 0x34) = satAdd (liveMax (pcsCnt p 0x34)) (getLive s (pcsCnt p 0x34)) 1
            ∧ (getB s (pcsA p 0x0B0) (8 + p % 8) = false → (getReg t (adr (pgCl (p / 8) 1) 0x24)).getLsbD 3 = true))
        ∧ t.ctl.mode = s.ctl.mode ∧ t.rx = s.rx ∧ t.dp = s.dp ∧ t.tx = s.tx)

/-- An accepted write of RECONFIG with GO: while STATE is 1 it sets GO_LOST and nothing else; where a check of Table 5.3 fails, STATE is 3 with the lowest failing reason and its lane, event 1 is latched and nothing else of lanes and ports changes; where none fails, STATE is 1, the mask and the eight words sampled now wait, the enabled ports that meet the mask admit nothing and their waiting frames are dropped; with none waiting nothing else changes. Without GO it changes nothing. RECONFIG_RESTART, no frame of those ports on the line and none open in reassembly: PORT_LIVE of the masked lanes takes the sampled words and no other lane's does, the ports are down, the cluster has no stopped port, and the counters of the masked slots are 0; before that it does nothing. -/
def Obligations.ReconfigRows : Prop :=
  ∀ (s : State) (p : CmdPort) (cl : ClusterNo) (v : Word) (n m : Nat), s.irqSane → n = home s cl → m = bits v 7 0 →
    (∀ w : List Word, w = (List.range 8).map (fun i => getReg s (adr (pgCl n 1) (0x080 + 4 * i))) →
        plainWrite s p (adr (pgCl cl 1) 0x0A0) →
      (bit v 31 = false → exec (.reconfigGo p cl v) s = .next s)
      ∧ (bit v 31 = true → getF s (recStA n) 1 0 = 1 → exec (.reconfigGo p cl v) s = .next (setB (recStA n) 2 true s))
      ∧ (∀ r l, bit v 31 = true → getF s (recStA n) 1 0 ≠ 1 → reconfRefusal s n m w false = some (r, l) →
        ∃ t, exec (.reconfigGo p cl v) s = .next t ∧ getReg t (recStA n) = recStatus l r 3
          ∧ (getReg t (adr (pgCl n 1) 0x24)).getLsbD 1 = true ∧ t.rest = s.rest
          ∧ ∀ i, i < 8 → getReg t (adr (pgCl n 1) (0x0E0 + 4 * i)) = getReg s (adr (pgCl n 1) (0x0E0 + 4 * i)))
      ∧ (bit v 31 = true → getF s (recStA n) 1 0 ≠ 1 → reconfRefusal s n m w false = none →
        ∃ t, exec (.reconfigGo p cl v) s = .next t ∧ getReg t (recStA n) = recStatus 0 0 1
          ∧ tabFind t.prt.reconf n = some { mask := m, restarted := false, words := w, factory := false, since := s.tim.powered }
          ∧ (∀ q ∈ maskPorts s n m, q ∈ t.prt.stopped) ∧ (∀ q ∈ s.prt.stopped, q ∈ t.prt.stopped)
          ∧ t.ctl.mode = s.ctl.mode
          ∧ ((∀ q ∈ maskPorts s n m, txQueue s q = []) → (∀ b, b ≠ recStA n → getReg t b = getReg s b)
            ∧ t = { s with win := { s.win with regs := t.win.regs },
                           prt := { s.prt with reconf := t.prt.reconf, stopped := t.prt.stopped } })))
    ∧ (∀ r, tabFind s.prt.reconf cl = some r → r.restarted = false → (maskPorts s cl r.mask).any (lineBusy s) = false →
        (∀ q ∈ maskPorts s cl r.mask, tabFind s.rx.merge q = none ∧ tabFind s.dp.opened q = none) →
      ∃ t, exec (.reconfigRestart cl) s = .next t
        ∧ (∀ i, i < 8 → getReg t (adr (pgCl cl 1) (0x0E0 + 4 * i))
          = if r.mask.testBit i then r.words.getD i 0 else getReg s (adr (pgCl cl 1) (0x0E0 + 4 * i)))
        ∧ (∀ q ∈ maskPorts s cl r.mask, portUp t q = false) ∧ (∀ q ∈ t.prt.stopped, q / 8 ≠ cl.val)
        ∧ (∀ i a, i < 8 → r.mask.testBit i = true → slotCounters (8 * cl + i) a = true → getLive t a = 0)
        ∧ t.ctl.mode = s.ctl.mode ∧ t.dp = s.dp)
    ∧ ((tabFind s.prt.reconf cl = none
        ∨ ∃ r, tabFind s.prt.reconf cl = some r ∧ (r.restarted = true ∨ (maskPorts s cl r.mask).any (lineBusy s) = true)) →
      exec (.reconfigRestart cl) s = .next s)

/-- An accepted write of SNAP.GO on a page that has one, the live counts in canonical form: each counter of the page reads what it had counted, a counter that had counted nothing reads its reset value, live counts stay, and no register but the page's counters changes. An accepted CNT_CLR clears live count and captured value of exactly the counters its word names. An accepted LOUPE SNAP.GO copies every LOUPE counter into its CAP and changes nothing else; a CFG_c that changes clears VAL_c; CLR_w clears the counters it names. BW_WINDOW_END leaves in BW_p the utilisation of each port in the window that ended and starts the next. ARCHIVE_CAPTURE while disabled or with no valid region changes nothing; in SAFELIGHT and STILL the period is missed; in RUN or TEST the record takes the next index where the ring, the queue and the region admit it. -/
def Obligations.CounterRows : Prop :=
  (∀ (s : State) (p : CmdPort) (page : Fin 1024) (v : Word) (o g : Nat), snapOff (pageInfo page).kind = some o →
     (plainWrite s p (adr page o) → g = pageOf (aliasOf s (adr page o)) → tabWf (fun _ => 0) s.win.live →
       ∃ t, exec (.counterSnap p page) s = .next t
         ∧ (∀ a, pageCounter g a = true → liveMax a = 2 ^ 32 - 1 → liveMax (a - 4) = 2 ^ 32 - 1 →
           getReg t a = if getLive s a = 0 then regReset a else word (getLive s a))
         ∧ (∀ a, pageCounter g a = true → liveMax a = 2 ^ 64 - 1 → liveMax (a - 4) = 2 ^ 32 - 1 → getLive s a ≠ 0 →
           getLive s (a + 4) = 0 → getPair t a = getLive s a % 2 ^ 64)
         ∧ (∀ b, pageCounter g b = false → pageCounter g (b - 4) = false → getReg t b = getReg s b)
         ∧ t = { s with win := { s.win with regs := t.win.regs } })
     ∧ (plainWrite s p (adr page (o + 4)) → g = pageOf (aliasOf s (adr page (o + 4))) →
       ∃ t, exec (.counterClear p page v) s = .next t
         ∧ (∀ a, getLive t a = if clearNamed g v a then 0 else getLive s a)
         ∧ (∀ a, getReg t a = if clearNamed g v a then regReset a else getReg s a)
         ∧ t = { s with win := { s.win with regs := t.win.regs, live := t.win.live } }))
  ∧ (∀ (s : State) (p : CmdPort) (v : Word), plainWrite s p (adr pgLoupe 0x080) → tabWf regReset s.win.regs →
    (bit v 0 = true → ∃ t, exec (.loupeSnap p v) s = .next t ∧ (∀ c < 1024, getPair t (lpCap c) = getPair s (lpVal c))
      ∧ (∀ b, isBankWord 0x800 0xC00 b = false → getReg t b = getReg s b)
      ∧ t = { s with win := { s.win with regs := t.win.regs } })
    ∧ (bit v 0 = false → exec (.loupeSnap p v) s = .next s))
  ∧ (∀ (s : State) (p : CmdPort) (b : Fin 8) (c : Fin 128) (v : Word), plainWrite s p (lpCfg (128 * b.val + c.val)) →
    ∃ t, exec (.loupeCfgWrite p b c v) s = .next t
      ∧ (getReg t (lpCfg (128 * b.val + c.val)) ≠ getReg s (lpCfg (128 * b.val + c.val)) →
        getPair t (lpVal (128 * b.val + c.val)) = 0)
      ∧ (getReg t (lpCfg (128 * b.val + c.val)) = getReg s (lpCfg (128 * b.val + c.val)) → ∀ x, getReg t x = getReg s x)
      ∧ (∀ r, rowAt (lpCfg (128 * b.val + c.val)) = some r → getReg t (lpCfg (128 * b.val + c.val))
        = (getReg s (lpCfg (128 * b.val + c.val)) &&& ~~~r.rw) ||| (v &&& r.rw))
      ∧ (∀ x, x ∉ [lpCfg (128 * b.val + c.val), lpVal (128 * b.val + c.val), lpVal (128 * b.val + c.val) + 4] →
        getReg t x = getReg s x)
      ∧ t = { s with win := { s.win with regs := t.win.regs } })
  ∧ (∀ (s : State) (p : CmdPort) (b : Fin 8) (w : Fin 4) (v : Word), plainWrite s p (adr (pgBank b) (0x0C0 + 4 * w.val)) →
    ∃ t, exec (.loupeClr p b w v) s = .next t
      ∧ (∀ c < 1024, getPair t (lpVal c) = if c / 32 = 4 * b.val + w.val ∧ bit v (c % 32) = true then 0 else getPair s (lpVal c))
      ∧ (∀ x, isBankWord 0x400 0x800 x = false → getReg t x = getReg s x)
      ∧ t = { s with win := { s.win with regs := t.win.regs } })
  ∧ (∀ s : State, ∃ t, exec .bwWindowEnd s = .next t
      ∧ (∀ p < 512, ∀ n, n = (match portShape s p with | some x => speedGb x.speed | none => 0) →
        getReg t (adr pgLoupe (0x800 + 4 * p)) = word (utilisation (tabGet (fun _ => 0) s.loupe.txSum p) s.loupe.window n * 2 ^ 16
          + utilisation (tabGet (fun _ => 0) s.loupe.rxSum p) s.loupe.window n))
      ∧ (∀ b, (pageOf b ≠ pgLoupe ∨ offOf b < 0x800) → getReg t b = getReg s b)
      ∧ t.loupe = { s.loupe with rxSum := [], txSum := [], window := windowUs s }
      ∧ t = { s with win := { s.win with regs := t.win.regs }, loupe := t.loupe })
  ∧ ∀ s : State,
    ((getB s (adr pgLoupe 0x088) 31 = false ∨ regionValid s 0 = false) → exec .archiveCapture s = .next s)
    ∧ (getB s (adr pgLoupe 0x088) 31 = true → regionValid s 0 = true → s.ctl.mode = .safelight ∨ s.ctl.mode = .still →
      exec .archiveCapture s = .next { s with loupe := { s.loupe with missed := true } })
    ∧ (getB s (adr pgLoupe 0x088) 31 = true → regionValid s 0 = true → s.ctl.mode = .run ∨ s.ctl.mode = .test →
      ∃ t, exec .archiveCapture s = .next t ∧ t.loupe.missed = false ∧ t.loupe.recLen = archLen s ∧ t.ctl.mode = s.ctl.mode
        ∧ t.dataPath = s.dataPath
        ∧ (s.mem.closing.contains 0 = false → s.mem.queue.length < 256 →
            (nextIndex s 0 + 1 + 2 ^ 32 - (getReg s (rdA 0)).toNat) % 2 ^ 32 ≤ regionSize s 0 / archLen s →
          nextIndex t 0 = (nextIndex s 0 + 1) % 2 ^ 64))

/-- RX_FRAME of a port in HOLD or PROOF, in STILL at a port that does not listen, in RUN at a port that is down and has no frame from before its fall, or at a port that refuses it, changes nothing. In RUN at a port that is up and takes the frame, a frame below 64 octets is counted as undersize or fragment and goes no further; a good frame of 64 to 16383 octets without error is dropped and counted where fewer than 64 cells are free or the address filter fails, sets the PAUSE timer where it is a PAUSE frame that the port obeys, and else, the SecY off and the VLAN filter passed, joins its cluster's spreader queue without its FCS, stamped at the lane of its start block. PAUSE_TIMER_EXPIRY ends one timer and its watchdog trip, and the switch core is told. MAC_TABLE_WRITE and MAC_TABLE_READ move one named entry, or end with BAD_INDEX. Only sources that exist are pending. -/
def Obligations.MacReceive : Prop :=
  ∀ (s : State) (p : PortNo) (frag : Byte) (o f : List Byte) (headLeft : Bool) (age : Nat) (lane : Fin 8), s.irqSane →
    tabFind s.dp.opened p = none →
    (∀ start codeErr, s.ctl.mode = .hold ∨ s.ctl.mode = .proof
        ∨ (s.ctl.mode = .still ∧ (s.ctl.sleep ≠ .dim ∨ portShape s p = none ∨ bit (rxCfg s p) 12 = false))
        ∨ (s.ctl.mode = .run ∧ portUp s p = false ∧ tabFind s.prt.fell p = none)
        ∨ (s.ctl.mode = .run ∧ portUp s p = true ∧ refuses s p start age = true) →
      exec (.rxFrame p start frag o codeErr headLeft ⟨age, lane⟩) s = .next s)
    ∧ (s.ctl.mode = .run → portUp s p = true → refuses s p 0xD5 age = false → f = o.take (o.length - 4) →
      (o.length < 64 → ∃ t, exec (.rxFrame p 0xD5 frag o false headLeft ⟨age, lane⟩) s = .next t ∧ t.dp = s.dp ∧ t.sec = s.sec
        ∧ (∀ a, a = rxCnt p (if fcsGood o then 0x80 else 0x84) → getLive t a = satAdd (liveMax a) (getLive s a) 1)
        ∧ getLive t (rxCnt p 0) = satAdd (liveMax (rxCnt p 0)) (getLive s (rxCnt p 0)) o.length)
      ∧ (64 ≤ o.length → o.length ≤ 16383 → fcsGood o = true →
        (admits s (p / 8) = false → ∃ t, exec (.rxFrame p 0xD5 frag o false headLeft ⟨age, lane⟩) s = .next t ∧ t.dp = s.dp
          ∧ getLive t (rxCnt p 0xAC) = satAdd (liveMax (rxCnt p 0xAC)) (getLive s (rxCnt p 0xAC)) 1)
        ∧ (admits s (p / 8) = true → isMacCtrl s p f = true → beField f 14 2 = 1 → bits (rxCfg s p) 9 8 = 1 →
          ∃ t, exec (.rxFrame p 0xD5 frag o false headLeft ⟨age, lane⟩) s = .next t ∧ t.dp = s.dp
            ∧ pauseOf t (16 * p + 8) = beField f 16 2)
        ∧ (admits s (p / 8) = true → isMacCtrl s p f = false → addrPass s p f = false →
          ∃ t, exec (.rxFrame p 0xD5 frag o false headLeft ⟨age, lane⟩) s = .next t ∧ t.dp = s.dp
            ∧ getLive t (rxCnt p 0xA4) = satAdd (liveMax (rxCnt p 0xA4)) (getLive s (rxCnt p 0xA4)) 1)
        ∧ (admits s (p / 8) = true → isMacCtrl s p f = false → addrPass s p f = true → bit (secCfg s p) 16 = false →
            vlanPass s p f = true → (queueOf s (p / 8)).length < 32 →
          ∃ t x, exec (.rxFrame p 0xD5 frag o false headLeft ⟨age, lane⟩) s = .next t
            ∧ queueOf t (p / 8) = queueOf s (p / 8) ++ [x] ∧ (∀ c, c ≠ p / 8 → queueOf t c = queueOf s c)
            ∧ x.port = p.val ∧ x.data = f ∧ x.fcs = (if bit (rxCfg s p) 2 then o.drop (o.length - 4) else [])
            ∧ x.macDiscard = false ∧ x.endMarks = 0 ∧ x.secTag = false ∧ x.pend = false
            ∧ x.ts = stampRx s p (startLane s p lane) age ∧ x.unlocked = unlockedAt s (serving s (p / 8)) ∧ x.cfg = parseCfgWords s
            ∧ getLive t (rxCnt p 0x10) = satAdd (liveMax (rxCnt p 0x10)) (getLive s (rxCnt p 0x10)) 1
            ∧ t.sec = s.sec ∧ t.ctl.mode = .run)))
    ∧ (∀ i : Fin 9, (pauseOf s (16 * p.val + i.val) = 0 → exec (.pauseTimerExpiry p i) s = .next s)
      ∧ (pauseOf s (16 * p.val + i.val) ≠ 0 → ∃ t, exec (.pauseTimerExpiry p i) s = .next t ∧ pauseOf t (16 * p.val + i.val) = 0
        ∧ (∀ k, k ≠ 16 * p.val + i.val → pauseOf t k = pauseOf s k)
        ∧ (if i = 8 then getF t (txStA p) 23 16 = 0 else getB t (txStA p) (16 + i.val) = false)
        ∧ (∀ b, b ≠ txStA p → getReg t b = getReg s b) ∧ t.out = s.out ++ [.pause p (pauseBits t p)]
        ∧ t = { s with win := { s.win with regs := t.win.regs }, rx := t.rx, out := t.out }))
    ∧ (∀ (q : CmdPort) (cl : ClusterNo) (n : Nat), n = home s cl → plainWrite s q (adr (pgCl cl 0) 0x0CC) →
      (∀ t sl i, tblNamed s n = some (t, sl, i) →
        (∃ u, exec (.macTableWrite q cl) s = .next u
          ∧ tblGet u n t sl i = BitVec.ofNat 64 (getPair s (adr (pgCl n 0) 0x0C4)) &&& tblMask t
          ∧ (∀ k, k ≠ tblKey n t sl i → tabGet (fun _ => 0) u.rx.tables k = tabGet (fun _ => 0) s.rx.tables k)
          ∧ getReg u (adr (pgCl n 0) 0x0D8) = 2 ∧ u.dp = s.dp)
        ∧ ∃ u, exec (.macTableRead q cl) s = .next u ∧ getPair u (adr (pgCl n 0) 0x0D0) = (tblGet s n t sl i).toNat
          ∧ getReg u (adr (pgCl n 0) 0x0D8) = 2 ∧ u.rx = s.rx ∧ u.dp = s.dp)
      ∧ (tblNamed s n = none → ∀ c, c = Instr.macTableWrite q cl ∨ c = .macTableRead q cl →
        ∃ u, exec c s = .next u ∧ getReg u (adr (pgCl n 0) 0x0D8) = 11
          ∧ (getReg u (adr (pgCl n 0) 0x24)).getLsbD 4 = true ∧ u.rest = s.rest))

/-- SPREAD_DEAL in a mode that deals, no commit waiting: the first frame of the next cluster goes to the next pipe in rotation with its port's number and the CURRENT version's tag, the number moves on, and the version's drain count goes up; with nothing queued, or in another mode, nothing changes. With a commit waiting for the boundary and nothing queued, an allowed commit makes its slot CURRENT. PARSE_RECORD_DONE of a pipe that owes a record of a lost frame counts it late and changes neither the pipes nor the store. Else it takes the pipe's oldest frame, and where the store of its quarter is not full the drain count of its version goes down, and where its number is still open one entry for it joins the reorder store: a discarded one for a frame with a MAC error, and for a good frame without a data tag in RUN what the first match of the lookup says; a control frame is then handed to the management core. -/
def Obligations.DealAndParse : Prop :=
  ∀ s : State, s.irqSane →
    (dealing s = false → exec .spreadDeal s = .next s ∧ ∀ p differs, exec (.parseRecordDone p differs) s = .next s)
    ∧ (s.cls.commit = none → nextCluster s = none → exec .spreadDeal s = .next s)
    ∧ (∀ c f rest k pp, dealing s = true → s.cls.commit = none → nextCluster s = some c → queueOf s c = f :: rest →
        nextPos s 48 (s.dp.lastPos + 1) = some (k, pp) →
      ∃ t, exec .spreadDeal s = .next t
        ∧ t.dp.dealt = s.dp.dealt ++ [{ frm := f, seq := tabGet (fun _ => 0) s.dp.seq f.port, tag := currentTag s, pipe := pp, lost := false, shadow := shadowFed s pp }]
        ∧ tabGet (fun _ => 0) t.dp.seq f.port = (tabGet (fun _ => 0) s.dp.seq f.port + 1) % 2 ^ 24
        ∧ queueOf t c = rest ∧ (∀ d, d ≠ c → queueOf t d = queueOf s d) ∧ t.dp.lastPos = k ∧ t.dp.lastCl = c
        ∧ t.dp.held = s.dp.held ∧ (∀ q, q ≠ f.port → tabGet (fun _ => 0) t.dp.seq q = tabGet (fun _ => 0) s.dp.seq q)
        ∧ (∀ v, v = (currentTag s).toNat / 2 ^ 30 → getF t (drainA v) 23 0 = satAdd (2 ^ 24 - 1) (getF s (drainA v) 23 0) 1
          ∧ ∀ b, b ≠ drainA v → getReg t b = getReg s b)
        ∧ t.rest = State.rest { s with dp := t.dp, win := t.win })
    ∧ (∀ c p, dealing s = true → s.cls.commit = some c → c.now = some p → c.slot < 4 → nextCluster s = none →
        commitRefusal s c.slot false false = none →
      ∃ t, exec .spreadDeal s = .next t ∧ slotState t c.slot = 2 ∧ t.cls.commit = none
        ∧ (∀ w, currentSlot s = some w → slotState t w = 3) ∧ t.dp = s.dp ∧ t.ctl.mode = s.ctl.mode)
    ∧ ∀ (p : PipeNo) (differs : Bool), dealing s = true →
      (0 < tabGet (fun _ => 0) s.dp.overdue p →
        ∃ t, exec (.parseRecordDone p differs) s = .next t ∧ t.dp.held = s.dp.held ∧ t.dp.dealt = s.dp.dealt
          ∧ (∀ a, a = adr pgReorder 0x0AC → getLive t a = satAdd (liveMax a) (getLive s a) 1)
          ∧ tabGet (fun _ => 0) t.dp.overdue p = tabGet (fun _ => 0) s.dp.overdue p - 1)
      ∧ (tabGet (fun _ => 0) s.dp.overdue p = 0 →
        (takeDealt p s.dp.dealt = none → exec (.parseRecordDone p differs) s = .next s)
        ∧ (∀ d rest x rec r, takeDealt p s.dp.dealt = some (d, rest) → (d.shadow && differs) = false →
            storeFill s (d.pipe / 12) < 8192 → x = parseFrame (cfgOf s d) d.frm.data →
            rec = parseRecord (cfgOf s d).csum d.frm.secTag d.frm.encrypted d.frm.data.length x → r = (lookup d rec s).1 →
          ∃ t, exec (.parseRecordDone p differs) s = .next (handOn (controlOf s d) t)
            ∧ t.dp.dealt = rest ∧ t.dp.queues = s.dp.queues
            ∧ getF t (drainA (d.tag.toNat / 2 ^ 30)) 23 0 = getF s (drainA (d.tag.toNat / 2 ^ 30)) 23 0 - 1
            ∧ ((d.lost = true ∨ seqBelow d.seq (expectOf s d.frm.port) = true) → t.dp.held = s.dp.held)
            ∧ (d.lost = false → seqBelow d.seq (expectOf s d.frm.port) = false → heldAt s d.frm.port d.seq = none →
              ∃ h, t.dp.held = s.dp.held ++ [h] ∧ h.port = d.frm.port ∧ h.seq = d.seq ∧ h.quarter = d.pipe / 12
                ∧ (d.frm.macDiscard = true ∨ x.control.isSome = true → h.fate = .discard)
                ∧ (d.frm.macDiscard = false → x.control = none → x.malf = 0 → x.fedTag = false → s.ctl.mode = .run →
                  h.fate = (if r.disp = 0 then .forward r.mirror else if r.disp = 2 then .punt r.queue r.reason else .discard)))))

/-- REORDER_RELEASE of a port whose next number has no entry, or in a mode that does not release, changes nothing; a record with that number leaves the store and the number moves on: a forwarded one waits in order at its cluster's packet interface where no credit is left, a punted one enters the staging buffer where it fits and its queue takes it, is counted as dropped where its queue is not enabled, and one whose frame has not ended waits for the end. GAP_TIMEOUT of a port with no gap changes nothing; else the next number is that of the lowest held record, the outstanding numbers count as lost and LAST_LOST_PORT names port and cause. RX_CREDIT_GRANT sends as many waiting cells as there are credits, in order. -/
def Obligations.ReleaseRows : Prop :=
  ∀ (s : State) (p : PortNo), s.irqSane →
    (dealing s = false → exec (.reorderRelease p) s = .next s ∧ exec (.gapTimeout p) s = .next s)
    ∧ (heldAt s p (expectOf s p) = none → exec (.reorderRelease p) s = .next s)
    ∧ (∀ h, dealing s = true → heldAt s p (expectOf s p) = some h → isRecord h = true →
      ∃ t, exec (.reorderRelease p) s = .next t ∧ expectOf t p = (expectOf s p + 1) % 2 ^ 24
        ∧ t.dp.held = s.dp.held.filter (fun x => !(x.port == p.val && x.seq == h.seq)) ∧ t.dp.dealt = s.dp.dealt
        ∧ t.ctl.mode = s.ctl.mode
        ∧ (h.frm.pend = false → h.fate = .forward none → safeStopped s p = false → h.frm.port = p.val → creditsOf s (p / 8) = 0 →
          cellsAt t (p / 8) = cellsAt s (p / 8)
              ++ cutCells p h.frm.endMarks (h.side ++ [0, 0]) 65 (h.frm.data ++ h.frm.fcs) ∧ t.out = s.out ∧ t.dma = s.dma)
        ∧ (∀ q n d, h.frm.pend = false → h.fate = .punt q n → safeStopped s p = false → d = h.frm.data ++ h.frm.fcs →
            stagedBytes s + d.length ≤ 4 * 2 ^ 20 →
          (s.dma.staging.any (fun y => y.queue == q) = true ∨ rxRefusal s q d.length = none →
            t.dma.staging = s.dma.staging ++ [{ queue := q, reason := n, port := p, data := d, side := h.side }]
              ∧ t.dp.cells = s.dp.cells)
          ∧ (s.dma.staging.any (fun y => y.queue == q) = false → ctxOn (getQ s true q).word2 = false →
            t.dma.staging = s.dma.staging ∧ t.dp.cells = s.dp.cells
              ∧ getLive t (adr pgClass 0x0C4) = satAdd (liveMax (adr pgClass 0x0C4)) (getLive s (adr pgClass 0x0C4)) 1
              ∧ (getReg t (adr pgClass 0x24)).getLsbD 0 = true))
        ∧ (h.frm.pend = true → tabFind t.dp.opened p = some h ∧ t.dp.cells = s.dp.cells ∧ t.dma = s.dma ∧ t.out = s.out))
    ∧ (gapOf s p = none → exec (.gapTimeout p) s = .next s)
    ∧ (∀ n l, dealing s = true → gapOf s p = some (n, l) →
      ∃ t, exec (.gapTimeout p) s = .next t ∧ expectOf t p = l % 2 ^ 24
        ∧ (∀ a, a = adr pgReorder 0x0A0 → getLive t a = satAdd (liveMax a) (getLive s a) n)
        ∧ getReg t (adr pgReorder 0x0B8) = word (2 ^ 31 + 2 ^ 16 + p)
        ∧ (getReg t (adr pgReorder 0x24)).getLsbD 0 = true
        ∧ (∀ h, h ∈ t.dp.held ↔ h ∈ s.dp.held ∧ (h.port = p.val → seqDist (expectOf s p) l ≤ seqDist (expectOf s p) h.seq))
        ∧ t.dp.queues = s.dp.queues ∧ t.ctl.mode = s.ctl.mode)
    ∧ ∀ (cl : ClusterNo) (n m : Nat), m = min (creditsOf s cl + n) (cellsAt s cl).length →
      ∃ t, exec (.rxCreditGrant cl n) s = .next t ∧ cellsAt t cl = (cellsAt s cl).drop m
        ∧ creditsOf t cl = creditsOf s cl + n - m
        ∧ t.out = s.out ++ ((cellsAt s cl).take m).map (fun c => .rxCell cl c.side c.first c.data)
        ∧ (∀ d, d ≠ cl.val → cellsAt t d = cellsAt s d ∧ creditsOf t d = creditsOf s d)
        ∧ t = { s with out := t.out, rx := { s.rx with credits := t.rx.credits }, dp := { s.dp with cells := t.dp.cells } }

/-- The other quarters quiet, in RUN, no quarter on its way down. PIPE_STALL of a pipe in rotation with a frame in it, no migration: no frame is left in it, it shows under test, LAST_STALL names it and the substitute, which takes its place in the ring, and a test decision waits; with no frame in it nothing changes. PIPE_TEST: refused with its reason, or the pipe's test waits, the lowest free spare in its place. QUARTER_OFF of a quarter that holds no frame powers it down with no pipe in rotation or spare; QUARTER_ON powers it up and its pipes rejoin; QUARTER_IDLE_TIMEOUT powers a woken one down again. FLOWKEY_READY_CHANGE sends what waits when ready. CLASS_ROW_READ gives the row or entry and STATUS 2, or 7 past the end. HASH_SEED_WRITE stores the seed and shows it set. -/
def Obligations.PipeAndQuarterRows : Prop :=
  ∀ (s : State) (c : CmdPort) (v : Word), s.irqSane →
    (∀ p : PipeNo, (dealing s = false ∨ inFlight s p = 0) → s.fix.mig = none → exec (.pipeStall p) s = .next s)
    ∧ (∀ (p : PipeNo) (sub : Option Nat), s.ctl.mode = .run → s.fix.mig = none → 0 < inFlight s p → pipeState s p = 1 →
        sub = (freeSpares s).head? → (∀ q ∈ [1, 2, 3], quarterQuiet s q) → s.prt.quarterMoving = [] → s.fix.queue.length < 16 →
      ∃ t, exec (.pipeStall p) s = .next t ∧ (∀ d ∈ t.dp.dealt, d.pipe ≠ p.val) ∧ pipeState t p = 3
        ∧ getReg t (adr pgSpread 0x0A4) = word (2 ^ 31 + sub.getD 0x3F * 2 ^ 16 + p)
        ∧ (∀ k x, posOf s p = some k → sub = some x → ringAt t k = some x ∧ pipeState t x = 1)
        ∧ queuedUnit t (pipeId p) = true ∧ t.dp.queues = s.dp.queues ∧ t.ctl.mode = .run)
    ∧ (plainWrite s c (adr pgSpread 0x090) → bit v 31 = true → ∀ n, n = bits v 5 0 →
      (∀ r, pipeTestRefusal s n = some r → ∃ t, exec (.pipeTest c v) s = .next t
        ∧ getReg t (adr pgSpread 0x094) = word (2 ^ 24 + n * 2 ^ 16 + r * 16 + 3)
        ∧ (∀ b, b ≠ adr pgSpread 0x094 → getReg t b = getReg s b) ∧ t = { s with win := { s.win with regs := t.win.regs } })
      ∧ (pipeTestRefusal s n = none → ∀ x, x = (freeSpares s).headD 0 → ∃ t, exec (.pipeTest c v) s = .next t
        ∧ getReg t (adr pgSpread 0x094) = word (n * 2 ^ 16 + x * 2 ^ 8 + 1) ∧ pipeState t n = 3
        ∧ (∀ k, posOf s n = some k → ringAt t k = some x ∧ pipeState t x = 1)
        ∧ t.dark.wait = s.dark.wait ++ [{ unit := { type := 2, unit := n, slice := 0xFF }, tests := 3, origin := 1 }]
        ∧ t.ctl.mode = .run))
    ∧ (∀ q, q ∈ [1, 2, 3] → s.ctl.mode = .run → (∀ r ∈ [1, 2, 3], r ≠ q → quarterQuiet s r) → s.prt.quarterWoken = [] →
        s.prt.quarterMoving = [] → quarterBusy s q = false →
      (plainWrite s c (adr pgSpread 0x08C) → (∀ r ∈ [1, 2, 3], bit v r = decide (r = q)) → quarterOn s q = true →
          quarterInFlight s q = false →
        ∃ t, exec (.quarterOff c v) s = .next t ∧ quarterOn t q = false ∧ 66 + q ∈ t.pwr.off
          ∧ (∀ i, i < 12 → pipeState t (12 * q + i) ≠ 1 ∧ pipeState t (12 * q + i) ≠ 2) ∧ t.dp = s.dp ∧ t.ctl.mode = .run)
      ∧ (plainWrite s c (adr pgSpread 0x08C) → (∀ r ∈ [1, 2, 3], bit v r = false) → quarterOn s q = false →
        ∃ t, exec (.quarterOn c v) s = .next t ∧ quarterOn t q = true ∧ 66 + q ∉ t.pwr.off
          ∧ (∀ i, i < 12 → pipeState s (12 * q + i) = 0 →
            pipeState t (12 * q + i) = if (posOf s (12 * q + i)).isSome then 1 else 2) ∧ t.dp = s.dp ∧ t.ctl.mode = .run))
    ∧ (∀ q : Fin 4, q.val ∉ s.prt.quarterWoken → exec (.quarterIdleTimeout q) s = .next s)
    ∧ (∀ q : Fin 4, q ≠ 0 → s.ctl.mode = .run → (∀ r : Nat, r ∈ [1, 2, 3] → r ≠ q.val → quarterQuiet s r) → s.prt.quarterWoken = [q.val] →
        s.prt.quarterMoving = [] → quarterBusy s q = false → getB s (adr pgSpread 0x08C) q = true → quarterOn s q = true → quarterInFlight s q = false →
      ∃ t, exec (.quarterIdleTimeout q) s = .next t ∧ quarterOn t q = false ∧ 66 + q.val ∈ t.pwr.off ∧ t.prt.quarterWoken = []
        ∧ t.dp = s.dp ∧ t.ctl.mode = .run)
    ∧ (∀ (q : Fin 4) (on : Bool), ∃ t, exec (.flowkeyReadyChange q on) s = .next t ∧ fkReady t q = on
      ∧ (on = true → fifoOf t q = [] ∧ t.out = s.out ++ (fifoOf s q).map (.keyWord q))
      ∧ (on = false → t.dp = s.dp ∧ t.out = s.out) ∧ (∀ r, r ≠ q.val → fifoOf t r = fifoOf s r)
      ∧ ∀ b, b ≠ adr pgFlow 0x090 → getReg t b = getReg s b)
    ∧ (plainWrite s c (adr pgClass 0x080) → bit v 31 = true →
      (bit v 30 = false → ∀ x, x = (tabFind s.cls.tern (bits v 10 0)).getD { value := 0, mask := 0, action := 0, valid := 0 } →
        ∃ t, exec (.classRowRead c v) s = .next t ∧ getReg t (adr pgClass 0x084) = word (x.valid * 2 ^ 16 + 2)
          ∧ (∀ k, k < 24 → getReg t (adr pgClass (0x200 + 4 * k)) = word (leField (ternBytes (bits v 10 0) x) (4 * k) 4))
          ∧ (getReg t (adr pgClass 0x24)).getLsbD 1 = true ∧ t.rest = s.rest)
      ∧ (bit v 30 = true → bits v 10 0 < 64 →
          ∀ x, x = (tabFind s.cls.exact (64 * bits v 24 16 + bits v 10 0)).getD { key := 0, action := 0, valid := 0 } →
        ∃ t, exec (.classRowRead c v) s = .next t ∧ getReg t (adr pgClass 0x084) = word (x.valid * 2 ^ 16 + 2)
          ∧ (∀ k, k < 4 → getReg t (adr pgClass (0x200 + 4 * k)) = word (leField (exactBytes (bits v 24 16) (bits v 10 0) x) (4 * k) 4))
          ∧ (getReg t (adr pgClass 0x24)).getLsbD 1 = true ∧ t.rest = s.rest)
      ∧ (bit v 30 = true → 64 ≤ bits v 10 0 → ∃ t, exec (.classRowRead c v) s = .next t ∧ getReg t (adr pgClass 0x084) = 7
        ∧ t.rest = s.rest))
    ∧ (plainWrite s c (adr pgFlow 0x080) → ∃ t, exec (.hashSeedWrite c v) s = .next t ∧ getReg t (adr pgFlow 0x080) = v
      ∧ getB t (adr pgFlow 0x090) 8 = true ∧ (∀ b, b ∉ [adr pgFlow 0x080, adr pgFlow 0x090] → getReg t b = getReg s b)
      ∧ t = { s with win := { s.win with regs := t.win.regs } })

/-- No host frame waiting. TX_CELL_ACCEPT without a credit, or in a mode that does not send, takes nothing; a first cell joins its port's queue, or at a stopped port is discarded with its frame and counted, or for a port that is not there is counted and its credit returned; a later cell is added to its frame. TX_FRAME_COMMIT of a port whose one queued frame is ready, not paused and not discarded, on a free line with MACsec and data tag off, puts it on the line, behind the gap that R190 asks for, stamped with its departure; a paused one is counted once and stays; one that meets R188 or rows 2 to 4 of Table 10.2 is counted and its cells freed. TX_FRAME_END with nothing on the line does nothing; else the line takes the frame with its FCS, or the last fragment of a preempted one, counted, or what was sent of it with an error. -/
def Obligations.TransmitQueue : Prop :=
  ∀ (s : State) (p : PortNo), s.irqSane → s.dma.txq = [] →
    (∀ (cl : ClusterNo) (side : Word) (first data : List Byte),
      ((txMode s = false ∨ 128 ≤ txUsed s cl) → exec (.txCellAccept cl side first data) s = .next s)
      ∧ (txMode s = true → txUsed s cl < 128 →
        (∀ q, bit side 31 = true → q = leField first 0 2 % 512 → q / 8 = cl.val → (portShape s q).isSome = true → portStop s q = none →
            tripped s q (firstCell s q side first (cellData side data)).prio = false →
          ∃ t, exec (.txCellAccept cl side first data) s = .next t
            ∧ txQueue t q = txQueue s q ++ [firstCell s q side first (cellData side data)]
            ∧ (∀ r, r ≠ q → txQueue t r = txQueue s r) ∧ txUsed t cl = txUsed s cl + 1
            ∧ getLive t (txCnt q 0xC0)
              = (if 16 < unstarted t q then satAdd (liveMax (txCnt q 0xC0)) (getLive s (txCnt q 0xC0)) 1 else getLive s (txCnt q 0xC0))
            ∧ (∀ b, b ≠ adr (pgCl cl 0) 0x2AC → getReg t b = getReg s b) ∧ t = { s with tx := t.tx, win := t.win })
        ∧ (∀ q k, bit side 31 = true → bit side 30 = true → q = leField first 0 2 % 512 → q / 8 = cl.val → txQueue s q = [] →
            (portShape s q).isSome = true → portStop s q = some k → isFedCtrl s (cellData side data) = false →
          ∃ t, exec (.txCellAccept cl side first data) s = .next t ∧ (∀ r, txQueue t r = txQueue s r) ∧ txUsed t cl = txUsed s cl
            ∧ Emit.credit cl 1 ∈ t.out
            ∧ (∀ a, a = txCnt q (if k = 2 then 0xB4 else 0xB0) → getLive t a = satAdd (liveMax a) (getLive s a) 1)
            ∧ t.tx.flight = s.tx.flight)
        ∧ (∀ q, bit side 31 = true → q = leField first 0 2 % 512 → (q / 8 ≠ cl.val ∨ portShape s q = none) →
          ∃ t, exec (.txCellAccept cl side first data) s = .next t ∧ (∀ r, txQueue t r = txQueue s r) ∧ txUsed t cl = txUsed s cl
            ∧ Emit.credit cl 1 ∈ t.out
            ∧ getF t (adr (pgCl cl 0) 0x2A8) 31 0 = satAdd (2 ^ 32 - 1) (getF s (adr (pgCl cl 0) 0x2A8) 31 0) 1
            ∧ (getReg t (adr (pgCl cl 0) 0x24)).getLsbD 9 = true ∧ t.tx.flight = s.tx.flight
            ∧ t.rest = State.rest { s with tx := t.tx, win := t.win })
        ∧ (∀ q f, bit side 31 = false → q = bits side 21 13 → tabFind s.tx.refused cl = none → growingAt s.tx.flight q = none →
            growingAt s.tx.open_ q = none → (txQueue s q).find? growing = some f → f.dropping = false →
          ∃ t, exec (.txCellAccept cl side first data) s = .next t
            ∧ txQueue t q = (txQueue s q).map (fun x => if growing x then addCell side (cellData side data) x else x)
            ∧ (∀ r, r ≠ q → txQueue t r = txQueue s r) ∧ txUsed t cl = txUsed s cl + 1 ∧ t.tx.flight = s.tx.flight
            ∧ t = { s with tx := t.tx, win := t.win })))
    ∧ (∀ (f : TxFrm) (lane : Fin 8) (inStream laid left : Nat), txMode s = true → txQueue s p = [f] → f.src = .switch → f.dropping = false →
        tabFind s.tx.flight p = none → tabFind s.tx.open_ p = none → tabGet (fun _ => 0) s.tx.fcPend p = 0 →
        tabGet (fun _ => 0) s.tx.smdR p = 0 →
      (discardOf s p f = none → portStop s p = none → pausedFrm s p f = false → ready f = true → f.ptpAction = 0 →
          bit (secCfg s p) 16 = false → getB s (adr pgClass (0x800 + 4 * p)) 5 = false →
        ∃ t c, exec (.txFrameCommit p ⟨inStream, lane⟩ laid left) s = .next t ∧ tabFind t.tx.flight p = some c ∧ c.frm = f
          ∧ c.line = framed f ∧ c.whole = f.eof ∧ c.sec = none ∧ c.ts = stampOf (departure s p (startLane s p lane) inStream)
          ∧ c.unlocked = unlockedAt s (serving s (p / 8)) ∧ c.base = 0 ∧ c.frags = 0 ∧ c.gone = 0 ∧ txQueue t p = []
          ∧ (∀ q, q ≠ p.val → txQueue t q = txQueue s q ∧ tabFind t.tx.flight q = tabFind s.tx.flight q)
          ∧ (tabFind s.tx.gaps p = none → t.out = s.out)
          ∧ (∀ g, tabFind s.tx.gaps p = some g → lineOctets s p (s.tim.powered - g.ended) < ipgOf s p + 4 →
            t.out = s.out ++ [.gap p (gapFrom (startStep s p) (ipgOf s p) g.pos g.deficit).1])
          ∧ t.tx.used = s.tx.used ∧ t = { s with tx := t.tx, out := t.out })
      ∧ (discardOf s p f = none → portStop s p = none → pausedFrm s p f = true → f.waited = false →
        ∃ t, exec (.txFrameCommit p ⟨inStream, lane⟩ laid left) s = .next t ∧ txQueue t p = [{ f with waited := true }]
          ∧ tabFind t.tx.flight p = none
          ∧ getLive t (txCnt p 0xBC) = satAdd (liveMax (txCnt p 0xBC)) (getLive s (txCnt p 0xBC)) 1
          ∧ (∀ b, getReg t b = getReg s b) ∧ t = { s with tx := t.tx, win := t.win })
      ∧ (∀ cnt reason, discardOf s p f = some (cnt, reason) → f.eof = true →
        ∃ t, exec (.txFrameCommit p ⟨inStream, lane⟩ laid left) s = .next t ∧ txQueue t p = [] ∧ tabFind t.tx.flight p = none
          ∧ getLive t (txCnt p cnt) = satAdd (liveMax (txCnt p cnt)) (getLive s (txCnt p cnt)) 1
          ∧ txUsed t (p / 8) = txUsed s (p / 8) - f.cells ∧ (0 < f.cells → Emit.credit (p / 8) f.cells ∈ t.out)
          ∧ t.rest = State.rest { s with tx := t.tx, win := t.win }))
    ∧ (tabFind s.tx.flight p = none → exec (.txFrameEnd p) s = .next s)
    ∧ ∀ c, tabFind s.tx.flight p = some c → c.frm.src = .switch → c.frm.eof = true → c.frm.fcsSupplied = false →
        tabGet (fun _ => 0) s.tx.fcPend p = 0 → tabGet (fun _ => 0) s.tx.smdR p = 0 →
      (txEndOf s p c.frm = .sent → c.sec = none → c.secy = false →
        ∃ t, exec (.txFrameEnd p) s = .next t ∧ tabFind t.tx.flight p = none
          ∧ (c.preemptable = false → Emit.lineFrame p (c.line ++ fcsOf c.line) false ∈ t.out)
          ∧ (c.preemptable = true → c.frags = 0 → Emit.fragment p (smdOctet c.smd) none (c.line ++ fcsOf c.line) false ∈ t.out)
          ∧ (c.preemptable = true → 0 < c.frags →
            Emit.fragment p (contOctet c.smd) (some (smdOctet (c.frags - 1))) ((c.line ++ fcsOf c.line).drop c.base) false ∈ t.out)
          ∧ getLive t (txCnt p 0x08) = satAdd (liveMax (txCnt p 0x08)) (getLive s (txCnt p 0x08)) 1
          ∧ getLive t (txCnt p 0) = satAdd (liveMax (txCnt p 0)) (getLive s (txCnt p 0)) (c.line.length + 4)
          ∧ txUsed t (p / 8) = txUsed s (p / 8) - (c.frm.cells - c.gone) ∧ (∀ q, txQueue t q = txQueue s q)
          ∧ t.rest = State.rest { s with tx := t.tx, win := t.win, loupe := t.loupe })
      ∧ ∀ cnt, txEndOf s p c.frm = .error cnt → c.sec = none →
        ∃ t, exec (.txFrameEnd p) s = .next t ∧ tabFind t.tx.flight p = none
          ∧ (c.preemptable = false → Emit.lineFrame p (c.line.take 16383) true ∈ t.out)
          ∧ getLive t (txCnt p cnt) = satAdd (liveMax (txCnt p cnt)) (getLive s (txCnt p cnt)) 1
          ∧ txUsed t (p / 8) = txUsed s (p / 8) - (c.frm.cells - c.gone) ∧ (∀ q, txQueue t q = txQueue s q)
          ∧ t.rest = State.rest { s with tx := t.tx, win := t.win, loupe := t.loupe }

/-- XOFF_REQUEST_CHANGE stores the request; with PFC generated on a free line of a port that sends, the PFC frame goes out at once, the changed classes are counted and TX_STATUS shows the request; a change that asks for no frame sends none. FC_REFRESH does nothing without a request, in another mode or on a stopped port, and else repeats the PFC or PAUSE frame, behind a frame in flight once that has ended. PAUSE_WDOG_TRIP does nothing without a limit or a pause, and else shows the trip and discards the queued frame of the priority. VERIFY_TIMER does nothing unless the port verifies; below the limit it sends SMD-V again, at the limit verification has failed. -/
def Obligations.TransmitFlow : Prop :=
  ∀ (s : State) (p : PortNo) (pfc : Nat → Nat → List Byte) (q : Nat), s.irqSane → s.dma.txq = [] →
    q = getF s (macA p (0x220 + 4 * (p % 8))) 31 16 →
    (∀ m r, pfc m r = slice ([0x01, 0x80, 0xC2, 0x00, 0x00, 0x01] ++ exactAddr s p 0 ++ [0x88, 0x08] ++ (beBytes 0x0101 2
      ++ beBytes m 2 ++ ((List.range 8).map (fun i => beBytes (if m.testBit i && r.testBit i then q else 0) 2)).flatten)) 0 60) →
    (∀ (v : BitVec 8) (r m : Nat), r = (v.toNat ||| getF s (macA p (0x240 + 4 * (p % 8))) 7 0) → m = xoffReq s p ^^^ r →
      ((m = 0 ∨ fcGen s p = 0) → ∃ t, exec (.xoffRequestChange p v) s = .next t ∧ xoffReq t p = r
        ∧ t = { s with tx := { s.tx with xoff := t.tx.xoff } })
      ∧ (m ≠ 0 → fcGen s p = 2 → txMode s = true → portStop s p = none → tabFind s.tx.flight p = none →
          tabGet (fun _ => 0) s.tx.fcPend p = 0 →
        ∃ t, exec (.xoffRequestChange p v) s = .next t ∧ xoffReq t p = r
          ∧ Emit.lineFrame p (pfc m r ++ fcsOf (pfc m r)) false ∈ t.out ∧ getF t (txStA p) 31 24 = r
          ∧ (∀ i, i < 8 → m.testBit i = true →
            getLive t (txCnt p (0x7C + 4 * i)) = satAdd (liveMax (txCnt p (0x7C + 4 * i))) (getLive s (txCnt p (0x7C + 4 * i))) 1)
          ∧ tabGet (fun _ => 0) t.tx.fcPend p = 0 ∧ (∀ x, txQueue t x = txQueue s x)
          ∧ t.rest = State.rest { s with tx := t.tx, win := t.win, loupe := t.loupe })
      ∧ (m ≠ 0 → fcGen s p = 2 → (tabFind s.tx.flight p).isSome = true → ∃ t, exec (.xoffRequestChange p v) s = .next t
        ∧ xoffReq t p = r ∧ tabGet (fun _ => 0) t.tx.fcPend p = (tabGet (fun _ => 0) s.tx.fcPend p ||| m)
        ∧ t = { s with tx := { s.tx with xoff := t.tx.xoff, fcPend := t.tx.fcPend } }))
    ∧ ((xoffReq s p = 0 ∨ (portStop s p).isSome = true ∨ txMode s = false ∨ (fcGen s p ≠ 1 ∧ fcGen s p ≠ 2)) →
      exec (.fcRefresh p) s = .next s)
    ∧ (xoffReq s p ≠ 0 → portStop s p = none → txMode s = true → ∀ r, r = xoffReq s p →
      (tabFind s.tx.flight p = none → tabGet (fun _ => 0) s.tx.fcPend p = 0 →
        (fcGen s p = 2 → ∃ t, exec (.fcRefresh p) s = .next t ∧ Emit.lineFrame p (pfc r r ++ fcsOf (pfc r r)) false ∈ t.out
          ∧ getF t (txStA p) 31 24 = r % 256 ∧ tabGet (fun _ => 0) t.tx.fcPend p = 0 ∧ (∀ x, txQueue t x = txQueue s x)
          ∧ t.rest = State.rest { s with tx := t.tx, win := t.win, loupe := t.loupe })
        ∧ (fcGen s p = 1 → ∀ f, f = slice ([0x01, 0x80, 0xC2, 0x00, 0x00, 0x01] ++ exactAddr s p 0 ++ [0x88, 0x08]
              ++ ([0x00, 0x01] ++ beBytes q 2)) 0 60 →
          ∃ t, exec (.fcRefresh p) s = .next t ∧ Emit.lineFrame p (f ++ fcsOf f) false ∈ t.out
            ∧ getF t (txStA p) 31 24 = 0xFF
            ∧ getLive t (txCnt p 0x78) = satAdd (liveMax (txCnt p 0x78)) (getLive s (txCnt p 0x78)) 1
            ∧ tabGet (fun _ => 0) t.tx.fcPend p = 0 ∧ (∀ x, txQueue t x = txQueue s x)
            ∧ t.rest = State.rest { s with tx := t.tx, win := t.win, loupe := t.loupe }))
      ∧ ((tabFind s.tx.flight p).isSome = true → fcGen s p = 1 ∨ fcGen s p = 2 → ∃ t, exec (.fcRefresh p) s = .next t
        ∧ tabGet (fun _ => 0) t.tx.fcPend p = (tabGet (fun _ => 0) s.tx.fcPend p ||| r)
        ∧ t = { s with tx := { s.tx with fcPend := t.tx.fcPend } }))
    ∧ (∀ i : Fin 9,
      ((getF s (adr (pgCl (p / 8) 0) 0x2A0) 9 0 = 0 ∨ pauseOf s (16 * p.val + i.val) = 0) → exec (.pauseWdogTrip p i) s = .next s)
      ∧ (getF s (adr (pgCl (p / 8) 0) 0x2A0) 9 0 ≠ 0 → pauseOf s (16 * p.val + i.val) ≠ 0 → ∀ f, txQueue s p = [f] → f.src = .switch →
          f.dropping = false → f.eof = true → (f.prio = i.val ∨ (i = 8 ∧ f.prio < 8)) → isFedCtrl s f.data = false →
          portStop s p = none → 64 ≤ f.data.length →
        ∃ t, exec (.pauseWdogTrip p i) s = .next t ∧ tripped t p f.prio = true ∧ (getReg t (adr (pgCl (p / 8) 0) 0x24)).getLsbD 8 = true
          ∧ txQueue t p = [] ∧ txUsed t (p / 8) = txUsed s (p / 8) - f.cells
          ∧ getLive t (txCnt p 0xB8) = satAdd (liveMax (txCnt p 0xB8)) (getLive s (txCnt p 0xB8)) 1
          ∧ t.rx = s.rx ∧ t.rest = State.rest { s with tx := t.tx, win := t.win }))
    ∧ ((getF s (txStA p) 5 4 ≠ 1 ∨ mergeTx s p = false) → exec (.verifyTimer p) s = .next s)
    ∧ (getF s (txStA p) 5 4 = 1 → mergeTx s p = true → ∀ n, n = tabGet (fun _ => 0) s.tx.verify p →
      (n < verifyLimit s (p / 8) → ∃ t, exec (.verifyTimer p) s = .next t ∧ Emit.smd p 0x07 ∈ t.out
        ∧ tabGet (fun _ => 0) t.tx.verify p = n + 1
        ∧ getLive t (txCnt p 0xCC) = satAdd (liveMax (txCnt p 0xCC)) (getLive s (txCnt p 0xCC)) 1
        ∧ (∀ b, getReg t b = getReg s b) ∧ t = { s with out := t.out, win := t.win, tx := { s.tx with verify := t.tx.verify, gaps := t.tx.gaps } })
      ∧ (verifyLimit s (p / 8) ≤ n → ∃ t, exec (.verifyTimer p) s = .next t ∧ getF t (txStA p) 5 4 = 3
        ∧ getB t (txStA p) 3 = false ∧ (getReg t (adr (pgCl (p / 8) 0) 0x24)).getLsbD 7 = true
        ∧ getLive t (txCnt p 0xD0) = satAdd (liveMax (txCnt p 0xD0)) (getLive s (txCnt p 0xD0)) 1
        ∧ t.rest = State.rest { s with win := t.win }))

/-- On a SEC page, the write accepted and no command busy: INSTALL_RX_SA, INSTALL_TX_SA, REMOVE_RX_SA and REMOVE_TX_SA that R210 refuses end with STATE 3, the reason and event 1 and change no SA and no SC; else the staged SA is installed in the store of the cluster that serves the page, or the SA is gone, with SA_INSTALLED, STATE 2 and event 0; an install shows its check value. The staging registers are cleared either way and no other SA changes. SA_READ gives the next PN and the status of the named SA. ENCODING_SA_WRITE of an SA installed and not exhausted makes it ENCODING_SA with a switch pending; else ENCODING_SA stays; the other fields are written. -/
def Obligations.KeyRows : Prop :=
  ∀ (s : State) (q : CmdPort) (cl : ClusterNo) (n : Nat), s.irqSane → n = home s cl →
    (plainWrite s q (secPg cl 0x130) → getF s (secPg n 0x134) 1 0 ≠ 1 → ∀ (sc : Fin 64) (an : Fin 4) (c : Instr) (k : KeyOp),
      k.sc = sc.val → k.an = an.val →
      ((k.op = 1 ∧ c = .installRxSa q cl sc an) ∨ (k.op = 2 ∧ c = .installTxSa q cl sc an)
        ∨ (k.op = 3 ∧ c = .removeRxSa q cl sc an) ∨ (k.op = 4 ∧ c = .removeTxSa q cl sc an)) →
      ∃ t, exec c s = .next t ∧ (∀ i, i < 12 → getReg t (secPg n (0x100 + 4 * i)) = 0) ∧ getPair t (secPg n 0x140) = 0
        ∧ t.rest = State.rest { s with sec := t.sec }
        ∧ (keyRefusal s n k ≠ 0 → getReg t (secPg n 0x134) = word (keyRefusal s n k * 256 + 3) ∧ t.sec = s.sec
          ∧ getReg t (keyScA n k) = getReg s (keyScA n k) ∧ (getReg t (adr (pgCl n 2) 0x24)).getLsbD 1 = true)
        ∧ (keyRefusal s n k = 0 → getReg t (secPg n 0x134) = 2 ∧ (getReg t (adr (pgCl n 2) 0x24)).getLsbD 0 = true
          ∧ getB t (keyScA n k) an = decide (k.op ≤ 2)
          ∧ (∀ x, x ≠ saKey (serving s n) (k.op % 2 == 0) sc an → tabFind t.sec.sas x = tabFind s.sec.sas x)
          ∧ (2 < k.op → saGet t (serving s n) (k.op % 2 == 0) sc an = none)
          ∧ (k.op ≤ 2 → ∀ key, key = stagedOctets s (secPg n 0x100)
              (if scCipher s n (getReg s (keyScA n k)) % 2 = 1 then 8 else 4) →
            saGet t (serving s n) (k.op % 2 == 0) sc an
              = some { key := key, salt := stagedOctets s (secPg n 0x120) 3, ssci := (getReg s (secPg n 0x12C)).toNat
                       nextPn := getPair s (secPg n 0x140) }
            ∧ getReg t (secPg n 0x138) = word (beNat ((aesBlock key (List.replicate 16 0xA5)).take 4)))))
    ∧ (∀ v : Word, plainWrite s q (secPg cl 0x148) → bit v 31 = true →
      (saGet s (serving s n) (bit v 30) (bits v 13 8) (bits v 1 0) = none → ∃ t, exec (.saRead q cl v) s = .next t
        ∧ getReg t (secPg n 0x154) = 2 ∧ getPair t (secPg n 0x14C) = 0
        ∧ (∀ b, b ∉ [secPg n 0x14C, secPg n 0x150, secPg n 0x154] → getReg t b = getReg s b)
        ∧ t = { s with win := { s.win with regs := t.win.regs } })
      ∧ (∀ x, saGet s (serving s n) (bit v 30) (bits v 13 8) (bits v 1 0) = some x → ∃ t, exec (.saRead q cl v) s = .next t
        ∧ getReg t (secPg n 0x154)
          = word ((if bit v 30 && getB s (txScA n (bits v 13 8)) (4 + bits v 1 0) then 32 else 0) + 18)
        ∧ getPair t (secPg n 0x14C) = x.nextPn % 2 ^ 64
        ∧ (∀ b, b ∉ [secPg n 0x14C, secPg n 0x150, secPg n 0x154] → getReg t b = getReg s b)
        ∧ t = { s with win := { s.win with regs := t.win.regs } }))
    ∧ ∀ (sc : Fin 32) (v : Word) (a : Nat), a = txScA n sc → plainWrite s q (txScA cl sc) →
      ∃ t, exec (.encodingSaWrite q cl sc v) s = .next t
        ∧ (txSaUsable s n sc (bits v 17 16) = true → getF t a 17 16 = bits v 17 16 ∧ getB t a 8 = true)
        ∧ (txSaUsable s n sc (bits v 17 16) = false → getF t a 17 16 = getF s a 17 16 ∧ getB t a 8 = getB s a 8)
        ∧ getB t a 31 = bit v 31 ∧ getF t a 26 24 = bits v 26 24 ∧ getF t a 20 18 = bits v 20 18 ∧ getF t a 7 0 = getF s a 7 0
        ∧ getF t a 23 22 = getF s a 23 22 ∧ (∀ b, b ≠ a → getReg t b = getReg s b)
        ∧ t = { s with win := { s.win with regs := t.win.regs } }

/-- A doorbell write accepted: one that names a queue or ring of another function, or one disabled, in ERROR or in reset, is counted and changes no context; DB_TX moves PI forward by at most the ring, is a no-op at PI, is counted where it goes backward and puts the queue in ERROR 1 where it overfills the ring; DB_CQ moves CI up to the written-back PI and is counted beyond it; DB_STABLE sets the stable mark alone. DESCRIPTOR_FETCH_DONE of no read changes nothing; it ends the read, whose entries are kept and the queue goes on, or with an error puts the queue in ERROR 6. TX_HOST_FRAME_FETCHED puts the buffers' octets on the oldest frame being read, or ERROR 6. RX_QUEUE_DELIVERY with nothing staged for the queue changes nothing; a frame that the queue takes leaves the staging buffer, moves CI behind its buffers and completes in the ring; one for a disabled queue is dropped and counted. -/
def Obligations.RingRows : Prop :=
  ∀ (s : State), s.irqSane →
    (∀ (p : CmdPort) (f : FnNo) (rx : Bool) (v : Word) (q n : Nat) (x : Queue), q = bits v 28 17 → x = getQ s rx q →
        n = wrap (ctxK x.word2) (bits v 16 0) → ∀ dis : Prop, (dis ↔ ctxOn x.word2 = false ∨ x.reason ≠ 0 ∨ inReset s f = true) →
      (plainWrite s p (adr (pgFn f) (if rx then 0x104 else 0x100)) →
        (ctxFn x.word2 ≠ f.val → ∃ t, exec (.dbTx p f rx v) s = .next t ∧ t.dma = s.dma
          ∧ ∀ a, a = adr (pgFn f) 0x184 → getF t a 31 0 = satAdd (2 ^ 32 - 1) (getF s a 31 0) 1)
        ∧ (ctxFn x.word2 = f.val → dis → ∃ t, exec (.dbTx p f rx v) s = .next t ∧ t.dma = s.dma
          ∧ (getReg t (adr (pgFn f) 0x24)).getLsbD 3 = true
          ∧ ∀ a, a = adr (pgFn f) 0x188 → getF t a 31 0 = satAdd (2 ^ 32 - 1) (getF s a 31 0) 1)
        ∧ (ctxFn x.word2 = f.val → ¬dis →
          (n = x.pi % 2 ^ (ctxK x.word2 + 1) → exec (.dbTx p f rx v) s = .next s)
          ∧ (2 ^ ctxK x.word2 < ringDist (ctxK x.word2) x.pi n → ∃ t, exec (.dbTx p f rx v) s = .next t ∧ t.dma = s.dma
            ∧ ∀ a, a = adr (pgFn f) 0x180 → getF t a 31 0 = satAdd (2 ^ 32 - 1) (getF s a 31 0) 1)
          ∧ (n ≠ x.pi % 2 ^ (ctxK x.word2 + 1) → ringDist (ctxK x.word2) x.pi n ≤ 2 ^ ctxK x.word2 →
            (2 ^ ctxK x.word2 < ringDist (ctxK x.word2) x.ci n → ∃ t, exec (.dbTx p f rx v) s = .next t
              ∧ getQ t rx q = { x with reason := 1, errIndex := n, chain := [], pre := [] }
              ∧ (getReg t (adr (pgFn f) 0x24)).getLsbD 0 = true)
            ∧ (ringDist (ctxK x.word2) x.ci n ≤ 2 ^ ctxK x.word2 → ∃ t, exec (.dbTx p f rx v) s = .next t
              ∧ (getQ t rx q).pi = n ∧ (getQ t rx q).ci = x.ci ∧ (getQ t rx q).stable = x.stable
              ∧ (getQ t rx q).word2 = x.word2 ∧ t.dma.cq = s.dma.cq ∧ t.tx = s.tx))))
      ∧ (plainWrite s p (adr (pgFn f) (if rx then 0x110 else 0x10C)) →
        (ctxFn x.word2 = f.val → ¬dis → ∃ t, exec (.dbStableTx p f rx v) s = .next t
          ∧ getQ t rx q = { x with stable := n } ∧ (∀ k, k ≠ q → getQ t rx k = getQ s rx k)
          ∧ (∀ k, getQ t (!rx) k = getQ s (!rx) k) ∧ t = { s with dma := t.dma })
        ∧ (ctxFn x.word2 ≠ f.val ∨ dis → ∃ t, exec (.dbStableTx p f rx v) s = .next t ∧ t.dma = s.dma)))
    ∧ (∀ (p : CmdPort) (f : FnNo) (v : Word) (c n : Nat) (x : Ring), c = bits v 28 17 → x = getR s c →
        n = wrap (ctxK x.word2) (bits v 16 0) → plainWrite s p (adr (pgFn f) 0x108) →
      (ctxFn x.word2 ≠ f.val ∨ ctxOn x.word2 = false ∨ inReset s f = true →
        ∃ t, exec (.dbCq p f v) s = .next t ∧ t.dma = s.dma)
      ∧ (ctxFn x.word2 = f.val → ctxOn x.word2 = true → inReset s f = false →
        (ringDist (ctxK x.word2) x.ci x.wb < ringDist (ctxK x.word2) x.ci n → ∃ t, exec (.dbCq p f v) s = .next t ∧ t.dma = s.dma
          ∧ ∀ a, a = adr (pgFn f) 0x1A4 → getF t a 31 0 = satAdd (2 ^ 32 - 1) (getF s a 31 0) 1)
        ∧ (ringDist (ctxK x.word2) x.ci n ≤ ringDist (ctxK x.word2) x.ci x.wb → ∃ t, exec (.dbCq p f v) s = .next t
          ∧ (getR t c).ci = n ∧ (getR t c).word2 = x.word2 ∧ (getR t c).base = x.base)))
    ∧ (∀ (rx : Bool) (q : QueueNo) (i : Nat) (x : Queue), x = getQ s rx q →
      (x.fetches[i]? = none → ∀ data, exec (.descriptorFetchDone rx q i data) s = .next s)
      ∧ (∀ f, x.fetches[i]? = some f →
        ((ctxOn x.word2 = false ∨ inReset s (ctxFn x.word2) = true ∨ x.reason ≠ 0) → ∀ data,
          ∃ t, exec (.descriptorFetchDone rx q i data) s = .next t ∧ getQ t rx q = { x with fetches := x.fetches.eraseIdx i })
        ∧ (ctxOn x.word2 = true → inReset s (ctxFn x.word2) = false → x.reason = 0 →
          (∃ t, exec (.descriptorFetchDone rx q i none) s = .next t
            ∧ getQ t rx q = { x with fetches := x.fetches.eraseIdx i, reason := 6, errIndex := f.idx, chain := [], pre := [] })
          ∧ ∀ d, ∃ u, exec (.descriptorFetchDone rx q i (some d)) s = .next (runQueue rx q u)
            ∧ getQ u rx q = { x with fetches := x.fetches.eraseIdx i
                                     pre := markEntries { x with fetches := x.fetches.eraseIdx i } f d (if f.single then 1 else 16) x.pre }
            ∧ (∀ k, k ≠ q.val → getQ u rx k = getQ s rx k) ∧ u.win = s.win ∧ u.tx = s.tx)))
    ∧ (∀ (q : QueueNo) (x : Queue), x = getQ s false q →
      (readingFrame x = none → ∀ data, exec (.txHostFrameFetched q data) s = .next s)
      ∧ (∀ h, readingFrame x = some h → inReset s (ctxFn x.word2) = false →
        (x.reason = 0 → ∃ t, exec (.txHostFrameFetched q none) s = .next t ∧ (getQ t false q).reason = 6
          ∧ (getQ t false q).errIndex = h.first ∧ t.tx = s.tx)
        ∧ ∀ d, leField h.desc 24 1 % 4 = 0 → ∃ u, exec (.txHostFrameFetched q (some d)) s = .next (handQueue q 64 u)
          ∧ getQ u false q = { x with frames := storeData h.first (slice d 0 (h.bufs.map (fun b => b.2)).sum) x.frames }
          ∧ u.tx = s.tx ∧ u.win = s.win))
    ∧ ∀ (q : QueueNo) (x : Queue), x = getQ s true q →
      ((∀ y ∈ s.dma.staging, y.queue ≠ q.val) → exec (.rxQueueDelivery q) s = .next s)
      ∧ (∀ y rest, s.dma.staging = y :: rest → y.queue = q.val → dmaRuns s = true →
        (ctxOn x.word2 = false → ∃ t, exec (.rxQueueDelivery q) s = .next t
          ∧ t.dma.staging = rest ∧ getQ t true q = x
          ∧ getF t (adr (pgDma 0) 0x098) 31 0 = satAdd (2 ^ 32 - 1) (getF s (adr (pgDma 0) 0x098) 31 0) 1
          ∧ getLive t (adr pgClass 0x0C4) = satAdd (liveMax (adr pgClass 0x0C4)) (getLive s (adr pgClass 0x0C4)) 1)
        ∧ (∀ l c k, fitFrom x 128 x.next y.data.length [] = .fits l → rxRefusal s q y.data.length = none → c = ctxRing x.word2 →
            k = ctxK (getR s c).word2 → ∃ t r, exec (.rxQueueDelivery q) s = .next t ∧ t.dma.staging = rest
          ∧ (getQ t true q).ci = wrap (ctxK x.word2) (x.next + l.length) ∧ (getQ t true q).next = (getQ t true q).ci
          ∧ (getR t c).pi = wrap k ((getR s c).pi + 1) ∧ (getR t c).wb = (getR t c).pi
          ∧ Emit.fabricWrite (fnChan s (ctxFn (getR s c).word2)) ((getR s c).base + 32 * ((getR s c).pi % 2 ^ k)) r ∈ t.out
          ∧ leField r 0 2 = q + 4096 ∧ leField r 12 2 = y.data.length % 65536 ∧ r.length = 32))

/-- FUNCTION_RESET with GO of a function in reset changes nothing; else, with no host frame waiting for room at a port, it sets IN_RESET and MODE, drops what its queues have prefetched, withdraws its frames from the port queues and ends its check-value jobs with reason 4. RESET_DONE does nothing while no reset runs or a read or a committed frame is outstanding; else every queue and ring of the function is at index 0 without error, enabled as before or with MODE 1 not, and event 1 is latched. CTX_READ gives the eight words of a context, CTX_WRITE sets it or fails with its reason; TYPE 3 is reason 7. CV_JOB_START of a busy unit is counted; else it fails with reason 1, 2 or 6, or the job runs; CV_JOB_ABORT ends a running job with reason 5, CV_JOB_DONE with the check value of R298 or reason 3. -/
def Obligations.FunctionRows : Prop :=
  ∀ (s : State) (p : CmdPort), s.irqSane →
    (∀ (f : FnNo) (v : Word), plainWrite s p (fnA f 0x080) → bit v 31 = true →
      (inReset s f = true → exec (.functionReset p f v) s = .next s)
      ∧ (inReset s f = false → (∀ e ∈ s.dma.txq, ∀ h ∈ e.2.frames, h.phase ≠ 1) → ∃ t, exec (.functionReset p f v) s = .next t
        ∧ getReg t (fnA f 0x084) = word (if bit v 0 then 5 else 1) ∧ inReset t f = true
        ∧ (∀ rx q, q ∈ fnQueues s rx f → (getQ t rx q).pre = [] ∧ (getQ t rx q).chain = []
          ∧ (getQ t rx q).frames = (getQ s rx q).frames.filter (fun h => h.phase == 0)
          ∧ (getQ t rx q).fetches = (getQ s rx q).fetches ∧ (getQ t rx q).word2 = (getQ s rx q).word2)
        ∧ (∀ rx q, q ∉ fnQueues s rx f → getQ t rx q = getQ s rx q)
        ∧ (∀ r, txQueue t r = (txQueue s r).filter (fun x =>
            match x.src with | .host q _ => !(fnQueues s false f).contains q | _ => true))
        ∧ (∀ u j, u < 8 → tabFind s.dma.jobs u = some j → (j.fn = f.val → tabFind t.dma.jobs u = none
            ∧ getF t (cvA u 0x0B0) 1 0 = 3 ∧ getF t (cvA u 0x0B0) 11 8 = 4)
          ∧ (j.fn ≠ f.val → tabFind t.dma.jobs u = some j))
        ∧ t.ctl = s.ctl ∧ t.dp = s.dp ∧ t.rx = s.rx))
    ∧ (∀ f : FnNo, (inReset s f = false ∨ fnBusy s f = true → exec (.resetDone f) s = .next s)
      ∧ (inReset s f = true → fnBusy s f = false → ∀ m, m = getB s (fnA f 0x084) 2 → ∃ t, exec (.resetDone f) s = .next t
        ∧ getF t (fnA f 0x084) 1 0 = 2 ∧ inReset t f = false
        ∧ (∀ rx q x y, q ∈ fnQueues s rx f → x = getQ s rx q → y = getQ t rx q → y.pi = 0 ∧ y.ci = 0 ∧ y.stable = 0 ∧ y.reason = 0
          ∧ y.next = 0 ∧ y.pre = [] ∧ y.held = [] ∧ y.chain = [] ∧ y.base = x.base ∧ ctxOn y.word2 = (ctxOn x.word2 && !m)
          ∧ ctxFn y.word2 = ctxFn x.word2 ∧ ctxK y.word2 = ctxK x.word2)
        ∧ (∀ rx q, q ∉ fnQueues s rx f → getQ t rx q = getQ s rx q)
        ∧ (∀ c x y, ctxFn (getR s c).word2 = f.val → x = getR s c → y = getR t c → y.pi = 0 ∧ y.ci = 0 ∧ y.wb = 0
          ∧ y.base = x.base ∧ y.wbAddr = x.wbAddr ∧ ctxOn y.word2 = (ctxOn x.word2 && !m))
        ∧ (∀ c, ctxFn (getR s c).word2 ≠ f.val → getR t c = getR s c)
        ∧ (getReg t (adr (pgFn f) 0x24)).getLsbD 1 = true ∧ t.tx = s.tx ∧ t.rest = State.rest { s with dma := t.dma }))
    ∧ (plainWrite s p (adr (pgDma 0) 0x084) → ∀ ty n, ty = ctxType s → n = ctxNumber s →
      (ty = 3 → ∀ c, c = Instr.ctxRead p ∨ c = .ctxWrite p → ∃ t, exec c s = .next t
        ∧ getReg t (adr (pgDma 0) 0x088) = word (7 * 256 + 3) ∧ (getReg t (adr (pgDma 0) 0x24)).getLsbD 2 = true ∧ t.rest = s.rest)
      ∧ (ty ≠ 3 → ∃ t, exec (.ctxRead p) s = .next t ∧ getReg t (adr (pgDma 0) 0x088) = 2
        ∧ (∀ i, i < 8 → getReg t (ctxA i)
          = (if ty = 2 then ringWords (getR s n) else queueWords (ty == 1) (getQ s (ty == 1) n)).getD i 0)
        ∧ (getReg t (adr (pgDma 0) 0x24)).getLsbD 1 = true ∧ t.rest = s.rest)
      ∧ (∀ w old, ty ≠ 3 → w = ctxWord2 ty (getReg s (ctxA 2) &&& 0xE1FFFFFF) →
          old = (if ty = 2 then (getR s n).word2 else (getQ s (ty == 1) n).word2) →
        (ctxRefusal s ty old w ≠ 0 → ∃ t, exec (.ctxWrite p) s = .next t
          ∧ getReg t (adr (pgDma 0) 0x088) = word (ctxRefusal s ty old w * 256 + 3)
          ∧ (getReg t (adr (pgDma 0) 0x24)).getLsbD 2 = true ∧ t.rest = s.rest)
        ∧ (ctxRefusal s ty old w = 0 → ∃ t, exec (.ctxWrite p) s = .next t ∧ getReg t (adr (pgDma 0) 0x088) = 2
          ∧ (getReg t (adr (pgDma 0) 0x24)).getLsbD 1 = true
          ∧ (ty = 2 → getR t n = { ring0 with base := getPair s (ctxA 0), word2 := w, wbAddr := getPair s (ctxA 3) }
            ∧ t.dma.txq = s.dma.txq ∧ t.dma.rxq = s.dma.rxq)
          ∧ (ty ≠ 2 → getQ t (ty == 1) n = { queue0 with base := getPair s (ctxA 0), word2 := w
                                                         frozen := decide (s.ctl.mode = .safelight) && !ctxSafe w }
            ∧ (∀ k, k ≠ n → getQ t (ty == 1) k = getQ s (ty == 1) k) ∧ (∀ k, getQ t (ty == 0) k = getQ s (ty == 0) k)
            ∧ t.dma.cq = s.dma.cq)
          ∧ t.rest = State.rest { s with dma := t.dma })))
    ∧ ∀ u : Fin 8, ∀ failed : State → Nat → Prop,
      (∀ t r, failed t r ↔ getF t (cvA u 0x0B0) 1 0 = 3 ∧ getF t (cvA u 0x0B0) 11 8 = r ∧ getPair t (cvA u 0x0B4) = 0
        ∧ tabFind t.dma.jobs u = none ∧ (getReg t (adr (pgCv u) 0x24)).getLsbD 1 = true
        ∧ t.rest = State.rest { s with dma := t.dma }) →
      (plainWrite s p (cvA u 0x0AC) →
        (getF s (cvA u 0x0B0) 1 0 = 1 → ∃ t, exec (.cvJobStart p u) s = .next t ∧ getB t (cvA u 0x0B0) 2 = true
          ∧ getF t (cvA u 0x0BC) 15 0 = satAdd (2 ^ 16 - 1) (getF s (cvA u 0x0BC) 15 0) 1 ∧ getF t (cvA u 0x0B0) 1 0 = 1
          ∧ (getReg t (adr (pgCv u) 0x24)).getLsbD 2 = true ∧ t.rest = s.rest)
        ∧ (getF s (cvA u 0x0B0) 1 0 ≠ 1 → tabFind s.dma.jobs u = none →
            ∀ w len, w = getF s (cvA u 0x080) 6 0 → len = getF s (cvA u 0x0A4) 27 0 →
          (w = 0 ∨ 64 < w → ∃ t, exec (.cvJobStart p u) s = .next t ∧ failed t 1)
          ∧ (0 < w → w ≤ 64 → len = 0 → ∃ t, exec (.cvJobStart p u) s = .next t ∧ failed t 2)
          ∧ (0 < w → w ≤ 64 → 0 < len → s.ctl.mode = .safelight → ∃ t, exec (.cvJobStart p u) s = .next t ∧ failed t 6)
          ∧ (0 < w → w ≤ 64 → 0 < len → s.ctl.mode ≠ .safelight → ∃ t j, exec (.cvJobStart p u) s = .next t
            ∧ getReg t (cvA u 0x0B0) = 1 ∧ tabFind t.dma.jobs u = some j ∧ j.cfg = getReg s (cvA u 0x080)
            ∧ j.poly = getPair s (cvA u 0x084) ∧ j.init = getPair s (cvA u 0x08C) ∧ j.xorout = getPair s (cvA u 0x094)
            ∧ j.fn = getF s (cvA u 0x0A8) 7 0 ∧ (∀ k, k ≠ u.val → tabFind t.dma.jobs k = tabFind s.dma.jobs k)
            ∧ (∀ b, b ≠ cvA u 0x0B0 → getReg t b = getReg s b) ∧ t.rest = State.rest { s with dma := t.dma }))
        ∧ (getF s (cvA u 0x0B0) 1 0 ≠ 1 → exec (.cvJobAbort p u) s = .next s)
        ∧ (getF s (cvA u 0x0B0) 1 0 = 1 → ∃ t, exec (.cvJobAbort p u) s = .next t ∧ failed t 5))
      ∧ (tabFind s.dma.jobs u = none → ∀ data, exec (.cvJobDone u data) s = .next s)
      ∧ ∀ x, tabFind s.dma.jobs u = some x → (∃ t, exec (.cvJobDone u none) s = .next t ∧ failed t 3)
        ∧ ∀ d, ∃ t, exec (.cvJobDone u (some d)) s = .next t ∧ getF t (cvA u 0x0B0) 1 0 = 2
          ∧ getPair t (cvA u 0x0B4) = cvRun x d % 2 ^ 64 ∧ tabFind t.dma.jobs u = none
          ∧ (getReg t (adr (pgCv u) 0x24)).getLsbD 0 = true ∧ t.rest = State.rest { s with dma := t.dma }

/-- Outside RUN, TEST and SAFELIGHT the monitors change nothing. AGING_SAMPLE takes its readings one by one: of a unit that is sampled it stores them, counts the seconds in a row at the migrate limits, alarms at the warn limits and, with planned repairs on and the unit in service, queues a planned decision. LOCKSTEP_MISCOMPARE of a slice or pipe and UNCORRECTABLE_ERROR of a unit queue an urgent decision, or make a planned migration of it urgent; an error of an island is recorded as pending, and a frame's word is dropped. MIGRATION_START takes the first eligible decision: its spare is taken at step 1, or the test of a unit is asked for, or no spare is reported. SHADOW_COMPARE_START begins the comparison and a difference ends it with a test of the spare. MIGRATION_SWITCHOVER puts the spare in the unit's place and asks for the unit's test. RETIRED_UNIT_FATE condemns a unit that failed; one that passed is spare or standby. JOURNAL_HOUR_ROLLOVER starts the hour's count again, JRNL_RD reads an entry back. -/
def Obligations.FixerRows : Prop :=
  ∀ s : State, s.irqSane →
    (repairing s = false → (∀ l, exec (.agingSample l) s = .next s) ∧ (∀ u, exec (.lockstepMiscompare u) s = .next s)
      ∧ (∀ u c, exec (.uncorrectableError u c) s = .next s) ∧ exec .migrationStart s = .next s)
    ∧ (exec (.agingSample []) s = .next s)
    ∧ (∀ x l, repairing s = true → (sampled s x.unit = false → exec (.agingSample (x :: l)) s = exec (.agingSample l) s)
      ∧ (∀ k c ro ec, sampled s x.unit = true → k = unitKey x.unit → c = getReg s (adr pgFixer 0x0A0) →
          ro = (if bits c 15 8 ≤ x.slow then min (tabGet (fun _ => 0) s.fix.roRun k + 1) 60 else 0) →
          ec = (if bits c 31 24 ≤ x.ecc then min (tabGet (fun _ => 0) s.fix.eccRun k + 1) 60 else 0) →
        ∃ t, exec (.agingSample [x]) s = .next t ∧ exec (.agingSample (x :: l)) s = exec (.agingSample l) t
          ∧ tabGet (fun _ => 0) t.fix.slow k = x.slow ∧ tabGet (fun _ => 0) t.fix.ecc k = x.ecc
          ∧ tabGet (fun _ => 0) t.fix.roRun k = ro ∧ tabGet (fun _ => 0) t.fix.eccRun k = ec
          ∧ (bits c 7 0 ≤ x.slow ∨ bits c 23 16 ≤ x.ecc → t.fix.alarms.contains k = true)
          ∧ (ro < decisionSecs (getF s (adr pgFixer 0x0A4) 15 8) → ec < decisionSecs (getF s (adr pgFixer 0x0A4) 7 0) →
            t.fix.queue = s.fix.queue)
          ∧ (decisionSecs (getF s (adr pgFixer 0x0A4) 15 8) ≤ ro → getB s (adr pgFixer 0x010) 1 = true →
              inService s x.unit = true → inMigration s x.unit = false → queuedUnit s x.unit = false → s.fix.queue.length < 16 →
            t.fix.queue = s.fix.queue ++ [{ newDecision x.unit 0 1 with detail := x.slow }])
          ∧ t.fix.mig = s.fix.mig ∧ t.rest = State.rest { s with fix := t.fix }))
    ∧ (∀ u, repairing s = true → u.type = 0 ∨ u.type = 2 → ∃ t, exec (.lockstepMiscompare u) s = .next t
        ∧ (s.fix.mig = none → inService s u = true → queuedUnit s u = false → s.fix.queue.length < 16 →
          t.fix.queue = s.fix.queue ++ [newDecision u 1 3] ∧ t = { s with fix := t.fix }
            ∧ tabGet (fun _ => 0) t.fix.lockstep (unitKey u) = tabGet (fun _ => 0) s.fix.lockstep (unitKey u) + 1)
        ∧ (s.fix.mig = none → inService s u = false → t.fix.queue = s.fix.queue ∧ t = { s with fix := t.fix })
        ∧ (∀ m, s.fix.mig = some m → m.dec.unit = u → m.step ≤ 2 → m.dec.op ≠ 2 →
          t.fix.mig = some { m with dec := { m.dec with kind := 1, cause := 3 }, step := if m.step = 2 then 3 else 1 }))
    ∧ (∀ u c, repairing s = true → ∃ t, exec (.uncorrectableError u c) s = .next t
        ∧ (u.type < 3 → s.fix.mig = none → inService s u = true → queuedUnit s u = false → s.fix.queue.length < 16 →
          t.fix.queue = s.fix.queue ++ [newDecision u 1 4] ∧ (getReg t (adr pgFixer 0x24)).getLsbD 7 = true)
        ∧ (3 ≤ u.type → t.fix.l2Pending = s.fix.l2Pending ++ [u.unit] ∧ t.ctl.faults.spares = true ∧ t.fix.queue = s.fix.queue
          ∧ (∀ p n, c = .frame p n → (getReg t (adr pgFixer 0x24)).getLsbD 7 = true
            ∧ t.dp.dealt = s.dp.dealt.filter (fun d => !(d.frm.port == p.val && d.seq == n.toNat)))))
    ∧ (∀ d s', repairing s = true → s.fix.mig = none → firstDecision s s.fix.queue = some d →
        s' = { s with fix := { s.fix with queue := s.fix.queue.filter (fun x => !(x.unit == d.unit)) } } → reclaim d s' = s' →
        d.op ≠ 2 → d.op ≠ 3 → d.op ≠ 4 → ∃ t, exec .migrationStart s = .next t ∧ t.ctl.mode = s.ctl.mode
        ∧ (∀ v x, d.testOnly = false → inService s d.unit = true → chooseSpare s d [] = .use v x →
          t.fix.mig = some { dec := { d with unit := v }, spare := x, step := 1, failed := [] } ∧ t.fix.queue = s'.fix.queue
            ∧ getReg t (adr pgFixer 0x088) = 0 ∧ getReg t (adr pgFixer 0x08C) = 0
            ∧ (v.type = 0 → unitState t (slice8 v.unit) = 2) ∧ (v.type = 1 → unitState t (clusterId x) = 2))
        ∧ (d.testOnly = true → t.fix.mig = some { dec := d, spare := 0xFF, step := 4, failed := [] } ∧ t.fix.queue = s'.fix.queue
          ∧ t.dark.wait = s.dark.wait ++ [{ unit := d.unit, tests := 3, origin := 2 }])
        ∧ (d.testOnly = false → d.kind = 0 → inService s d.unit = true → chooseSpare s d [] = .none →
          t.fix.mig = none ∧ t.fix.queue = s'.fix.queue ∧ t.ctl.faults.spares = true
            ∧ (getReg t (adr pgFixer 0x24)).getLsbD 4 = true))
    ∧ ((s.fix.mig ≠ none ∨ firstDecision s s.fix.queue = none) → exec .migrationStart s = .next s)
    ∧ (s.fix.mig = none → (∀ n, exec (.shadowCompareStart n) s = .next s) ∧ ∀ n, exec (.migrationSwitchover n) s = .next s)
    ∧ (∀ m, s.fix.mig = some m → repairing s = true →
      ((compares m.dec = false ∨ awaitsReconf s m.dec.unit = true) → ∀ n, exec (.shadowCompareStart n) s = .next s)
      ∧ (compares m.dec = true → awaitsReconf s m.dec.unit = false → m.step = 1 →
        (∃ t, exec (.shadowCompareStart none) s = .next t ∧ t.fix = { s.fix with mig := some { m with step := 2 } }
          ∧ t.ctl = s.ctl ∧ t.prt = s.prt ∧ t.dp = s.dp)
        ∧ (∀ n, m.dec.op ≠ 2 → ∃ t x, exec (.shadowCompareStart (some n)) s = .next t ∧ t.fix.mig = some x ∧ x.step = 6
          ∧ x.dec = m.dec ∧ x.spare = m.spare ∧ t.dark.wait = s.dark.wait ++ [{ unit := spareUnit m.dec.unit m.spare, tests := 3, origin := 2 }]
          ∧ (getReg t (adr pgFixer 0x24)).getLsbD 2 = true
          ∧ getF t (adr pgFixer 0x08C) 31 0 = satAdd (2 ^ 32 - 1) (getF s (adr pgFixer 0x08C) 31 0) 1))
      ∧ (maySwitch s m = false → ∀ n, exec (.migrationSwitchover n) s = .next s)
      ∧ (∀ n, maySwitch s m = true → s.ctl.mode ≠ .safelight → m.dec.op ≠ 2 → m.dec.op ≠ 3 → m.dec.op ≠ 5 → m.dec.kind ≠ 1 →
          m.dec.forced = false → ∃ t, exec (.migrationSwitchover n) s = .next t ∧ t.fix.mig = some { m with step := 4 }
        ∧ t.dark.wait = s.dark.wait ++ [{ unit := m.dec.unit, tests := 3, origin := 2 }]
        ∧ getReg t (adr pgFixer 0x090) = word (2 ^ 29 + activityBits m.dec m.spare)
        ∧ getPair t (adr pgFixer 0x094) = s.tim.powered % 2 ^ 64 ∧ (getReg t (adr pgFixer 0x24)).getLsbD 0 = true
        ∧ (∀ k, m.dec.unit.type = 2 → m.spare ≠ m.dec.unit.unit → posOf s m.dec.unit.unit = some k →
          ringAt t k = some m.spare ∧ pipeState t m.spare = 1 ∧ pipeState t m.dec.unit.unit = 3)
        ∧ (m.dec.unit.type = 0 → m.dec.unit.slice < 8 → unitState t m.dec.unit = 6
          ∧ unitState t (slice8 m.dec.unit.unit) = 0
          ∧ (unitMap t (slice8 m.dec.unit.unit)).standsFor = some m.dec.unit.slice)
        ∧ (∀ h, m.dec.unit = clusterId h → h ≠ m.spare → home s h = h → unitState t m.dec.unit = 6
          ∧ unitState t (clusterId m.spare) = 0 ∧ tabFind t.prt.standIn m.spare = some h)))
    ∧ (s.fix.tested = [] → exec .retiredUnitFate s = .next s)
    ∧ (∀ u pass r, s.fix.tested = (u, pass) :: r → (fateOf s u).1.op ≠ 4 → ∃ t, exec .retiredUnitFate s = .next t
        ∧ t.fix.tested = r ∧ inMigration t u = false
        ∧ (pass = false → condemned t u = true ∧ (getReg t (adr pgFixer 0x24)).getLsbD 5 = true)
        ∧ (pass = true → (unitMap s u).hardBefore = false →
            stillWorn s u = false ∨ tabGet (fun _ => 0) s.fix.causes (unitKey u) ∉ [1, 2] →
          (u.type = 2 → posOf s u.unit = none → pipeState t u.unit = if quarterOn s (u.unit / 12) then 2 else 0)
          ∧ (u.type < 2 → isHome u = false → unitState t u = 1)
          ∧ (u.type < 2 → isHome u = true → stoodFor s u = true → unitState t u = 5)))
    ∧ (s.tim.powered / hourNs = s.fix.hour → exec .journalHourRollover s = .next s)
    ∧ (s.tim.powered / hourNs ≠ s.fix.hour → s.fix.heldJrnl = [] → ∃ t, exec .journalHourRollover s = .next t
        ∧ getF t jrnlA 6 0 = 0 ∧ (∀ b, b ≠ jrnlA → getReg t b = getReg s b)
        ∧ t = { s with win := { s.win with regs := t.win.regs }, fix := { s.fix with hour := s.tim.powered / hourNs } })
    ∧ ∀ (p : CmdPort) (v : Word) (i : Nat), plainWrite s p (adr pgFixer 0x0C0) → bit v 31 = true → i = bits v 10 0 →
      (∀ x, entryCopy s false i = some x →
          entryCopy s true i = none ∨ (∃ y, entryCopy s true i = some y ∧ leField y 0 4 ≤ leField x 0 4) →
        ∃ t, exec (.jrnlRd p v) s = .next t ∧ getReg t (adr pgFixer 0x0C4) = 2
          ∧ (∀ k, k < 8 → getReg t (adr pgFixer (0x0E0 + 4 * k)) = word (leField x (4 * k) 4)) ∧ t.fix = s.fix ∧ t.ctl = s.ctl)
      ∧ (entryCopy s false i = none → entryCopy s true i = none → ∃ t, exec (.jrnlRd p v) s = .next t
        ∧ getReg t (adr pgFixer 0x0C4) = 3 ∧ (getReg t (adr pgNv 0x24)).getLsbD 1 = true
        ∧ getF t (adr pgNv 0x088) 15 0 = satAdd (2 ^ 16 - 1) (getF s (adr pgNv 0x088) 15 0) 1 ∧ t.fix = s.fix)

/-- HEARTBEAT_SEND of an agent that acts sends the heartbeat on every federation port that is up and sends, counts it and moves the sequence on; else nothing. A frame on a port that the agent does not hear changes nothing. No command waiting: one beyond the agent's rate, of a member that cannot be, not new, or of the own number is counted, the last as a conflict unless it is an echo; HEARTBEAT_RECEIVE else enters the member as present, and a notice records its pair and, obeyed, starts a SAFELIGHT entry where no command executes. RELAYED_COMMAND is entered and executed at its target or counted as a dropped frame; RELAYED_RESPONSE is handed up there. MEMBER_ABSENT marks a present member absent. DIGEST_RECOMPUTE stores the digest, ID_CONFLICT_CLEAR ends the conflict, MEMBER_RD shows the member. -/
def Obligations.FederationRows : Prop :=
  ∀ s : State, s.irqSane → ∀ cnt : State → State → Nat → Prop,
    (∀ t u o, cnt t u o ↔ getF t (fedA o) 31 0 = satAdd (2 ^ 32 - 1) (getF u (fedA o) 31 0) 1) →
    ((fedEnabled s = false ∨ fedActive s = false) → exec .heartbeatSend s = .next s)
    ∧ (fedEnabled s = true → fedActive s = true → ∃ t, exec .heartbeatSend s = .next t
      ∧ t.fed = { s.fed with hbSeq := (s.fed.hbSeq + 1) % 65536, recent := (s.fed.hbSeq :: s.fed.recent).take 32 }
      ∧ cnt t s 0x100 ∧ t.ctl = s.ctl
      ∧ ∀ p ∈ fedPorts s, (portShape s p).isSome = true → portStop s p = none →
        tripped s p (bits (getReg s (fedA (0x800 + 4 * p))) 10 8) = false → fedFrame s p false (hbBody s) ∈ txQueue t p)
    ∧ (∀ (p : PortNo) (body : List Byte) (c : Instr), (∃ late, c = .heartbeatReceive p body late ∨ c = .relayedCommand p body late
          ∨ c = .relayedResponse p body late) → fedHears s p = false → exec c s = .next s)
    ∧ (∀ (p : PortNo) (body : List Byte) (m seq tag : Nat), fedHears s p = true → portsIdle s → m = beField body 4 2 →
        seq = beField body 6 2 → tag = beField body 50 4 →
      (∀ c, c = Instr.heartbeatReceive p body true ∨ c = .relayedCommand p body true ∨ c = .relayedResponse p body true →
        ∃ t, exec c s = .next t ∧ cnt t s 0x114 ∧ t = { s with win := { s.win with regs := t.win.regs } })
      ∧ (fedEnabled s = false ∨ fedSize s ≤ m → ∀ c, c = Instr.heartbeatReceive p body false ∨ c = .relayedCommand p body false
          ∨ c = .relayedResponse p body false →
        ∃ t, exec c s = .next t ∧ cnt t s 0x10C ∧ t = { s with win := { s.win with regs := t.win.regs } })
      ∧ (fedEnabled s = true → m < fedSize s →
        (m = ownId s → ∀ c, c = Instr.relayedCommand p body false ∨ c = .relayedResponse p body false
            ∨ (c = .heartbeatReceive p body false ∧ tag = s.nv.startTag ∧ s.fed.recent.contains seq = true) →
          ∃ t, exec c s = .next t ∧ cnt t s 0x108 ∧ t = { s with win := { s.win with regs := t.win.regs } })
        ∧ (m = ownId s → (tag ≠ s.nv.startTag ∨ s.fed.recent.contains seq = false) →
          ∃ t, exec (.heartbeatReceive p body false) s = .next t ∧ cnt t s 0x11C
            ∧ t.fed = { s.fed with conflictNs := some s.tim.powered } ∧ (getReg t (fedA 0x24)).getLsbD 6 = true)
        ∧ (∀ x, m ≠ ownId s → tabFind s.fed.members m = some x → x.startTag = tag → seqNew seq x.hbSeq = false →
          ∃ t, exec (.heartbeatReceive p body false) s = .next t ∧ cnt t s 0x108
            ∧ t = { s with win := { s.win with regs := t.win.regs } })
        ∧ (m ≠ ownId s → (∀ x, tabFind s.fed.members m = some x → x.startTag ≠ tag ∨ seqNew seq x.hbSeq = true) →
          ((byteAt body 9).getLsbD 3 = false → ∃ t, exec (.heartbeatReceive p body false) s = .next t ∧ cnt t s 0x104
            ∧ tabFind t.fed.members m
              = some { body := slice body 0 64, lastNs := s.tim.powered, present := true, startTag := tag, hbSeq := seq }
            ∧ (tabFind s.fed.members m = none → (getReg t (fedA 0x24)).getLsbD 1 = true) ∧ t.ctl.mode = s.ctl.mode)
          ∧ ((byteAt body 9).getLsbD 3 = true → tabFind s.fed.pairs m ≠ some (tag, beField body 10 2) → s.ctl.mode = .run →
              s.ctl.entry = none → s.ctl.halted = false → (∀ q, (portOf s q).exec = none ∧ (portOf s q).wait = none) →
            ∃ t, exec (.heartbeatReceive p body false) s = .next t ∧ cnt t s 0x118
              ∧ tabFind t.fed.pairs m = some (tag, beField body 10 2) ∧ (getReg t (fedA 0x24)).getLsbD 5 = true
              ∧ (getB s (fedA 0x010) 1 = true → t.ctl.entry = some { cause := 3, fromMode := 2 })
              ∧ (getB s (fedA 0x010) 1 = false → t.ctl.entry = none)))
        ∧ (∀ q, m ≠ ownId s → (∀ l, tabFind s.fed.relayCmd m = some l → seqNew seq l = true) → beField body 10 2 = ownId s →
          (relayedReq p m seq body = some q → ∃ u, exec (.relayedCommand p body false) s = .next (settle (takeCommand q u))
            ∧ tabFind u.fed.relayCmd m = some seq ∧ cnt u s 0x104
            ∧ u = { s with win := { s.win with regs := u.win.regs }, fed := { s.fed with relayCmd := u.fed.relayCmd } })
          ∧ (relayedReq p m seq body = none → ∃ t, exec (.relayedCommand p body false) s = .next t
            ∧ tabFind t.fed.relayCmd m = some seq ∧ cnt t s 0x104 ∧ (getReg t (adr pgCmd 0x24)).getLsbD 3 = true
            ∧ getF t (adr pgCmd 0x0CC) 15 0 = satAdd (2 ^ 16 - 1) (getF s (adr pgCmd 0x0CC) 15 0) 1))
        ∧ (m ≠ ownId s → beField body 10 2 = ownId s →
            (∀ l, tabFind s.fed.relayResp (m * 65536 + ownId s) = some l → seqNew seq l = true) →
          ∃ t, exec (.relayedResponse p body false) s = .next t ∧ t.fed.handedUp = body :: s.fed.handedUp
            ∧ tabFind t.fed.relayResp (m * 65536 + ownId s) = some seq ∧ cnt t s 0x104
            ∧ t = { s with win := { s.win with regs := t.win.regs }
                           fed := { s.fed with relayResp := t.fed.relayResp, handedUp := t.fed.handedUp } })))
    ∧ (∀ m : Fin 1024, ((∀ x, tabFind s.fed.members m = some x → x.present = false) ∨ fedActive s = false →
        exec (.memberAbsent m) s = .next s)
      ∧ ∀ x, tabFind s.fed.members m = some x → x.present = true → fedActive s = true → ∃ t, exec (.memberAbsent m) s = .next t
        ∧ tabFind t.fed.members m = some { x with present := false } ∧ (getReg t (fedA 0x24)).getLsbD 0 = true
        ∧ (∀ k, k ≠ m.val → tabFind t.fed.members k = tabFind s.fed.members k) ∧ t.ctl.mode = s.ctl.mode ∧ t.dataPath = s.dataPath)
    ∧ (fedActive s = false → exec .digestRecompute s = .next s)
    ∧ (fedActive s = true → ∃ t, exec .digestRecompute s = .next t ∧ ownDigest t = configDigest s
      ∧ t.fed.members = s.fed.members ∧ t.ctl.mode = s.ctl.mode ∧ t.dataPath = s.dataPath)
    ∧ (s.fed.conflictNs = none → exec .idConflictClear s = .next s)
    ∧ (s.fed.conflictNs ≠ none → ∃ t, exec .idConflictClear s = .next t ∧ t.fed = { s.fed with conflictNs := none }
      ∧ t.freeCount = s.freeCount + 1 ∧ t.ctl.mode = s.ctl.mode ∧ t.dataPath = s.dataPath)
    ∧ ∀ (p : CmdPort) (v : Word) (m : Nat), plainWrite s p (fedA 0x0B4) → bit v 31 = true → m = bits v 9 0 →
      (∀ x, tabFind s.fed.members m = some x → ∃ t, exec (.memberRd p v) s = .next t
        ∧ getReg t (fedA 0x0B8) = word (if m = ownId s ∨ x.present = true then 14 else 10)
        ∧ getReg t (fedA 0x0BC) = word (min (2 ^ 32 - 1) ((s.tim.powered - x.lastNs) / 1000))
        ∧ (∀ k, k < 16 → getReg t (fedA (0x0C0 + 4 * k)) = word (leField x.body (4 * k) 4))
        ∧ t = { s with win := { s.win with regs := t.win.regs } })
      ∧ (tabFind s.fed.members m = none → ∃ t, exec (.memberRd p v) s = .next t
        ∧ getReg t (fedA 0x0B8) = word (if m = ownId s then 6 else 2) ∧ t.fed = s.fed ∧ t.freeCount = s.freeCount + 1)
end

