-- ==== Sys2Proof/Laws/State.lean ====
section
/-! SUPPORT. What each named update of State leaves alone, field by field. -/

namespace Sys2Proof.Machine

/-! ### setReg -/

@[simp] theorem setReg_ctl (a : Nat) (w : Word) (s : State) : (setReg a w s).ctl = s.ctl := rfl
@[simp] theorem setReg_cmd (a : Nat) (w : Word) (s : State) : (setReg a w s).cmd = s.cmd := rfl
@[simp] theorem setReg_irq (a : Nat) (w : Word) (s : State) : (setReg a w s).irq = s.irq := rfl
@[simp] theorem setReg_pwr (a : Nat) (w : Word) (s : State) : (setReg a w s).pwr = s.pwr := rfl
@[simp] theorem setReg_tim (a : Nat) (w : Word) (s : State) : (setReg a w s).tim = s.tim := rfl
@[simp] theorem setReg_prt (a : Nat) (w : Word) (s : State) : (setReg a w s).prt = s.prt := rfl
@[simp] theorem setReg_rx (a : Nat) (w : Word) (s : State) : (setReg a w s).rx = s.rx := rfl
@[simp] theorem setReg_dp (a : Nat) (w : Word) (s : State) : (setReg a w s).dp = s.dp := rfl
@[simp] theorem setReg_cls (a : Nat) (w : Word) (s : State) : (setReg a w s).cls = s.cls := rfl
@[simp] theorem setReg_tx (a : Nat) (w : Word) (s : State) : (setReg a w s).tx = s.tx := rfl
@[simp] theorem setReg_sec (a : Nat) (w : Word) (s : State) : (setReg a w s).sec = s.sec := rfl
@[simp] theorem setReg_shut (a : Nat) (w : Word) (s : State) : (setReg a w s).shut = s.shut := rfl
@[simp] theorem setReg_dma (a : Nat) (w : Word) (s : State) : (setReg a w s).dma = s.dma := rfl
@[simp] theorem setReg_mem (a : Nat) (w : Word) (s : State) : (setReg a w s).mem = s.mem := rfl
@[simp] theorem setReg_loupe (a : Nat) (w : Word) (s : State) : (setReg a w s).loupe = s.loupe := rfl
@[simp] theorem setReg_fix (a : Nat) (w : Word) (s : State) : (setReg a w s).fix = s.fix := rfl
@[simp] theorem setReg_dark (a : Nat) (w : Word) (s : State) : (setReg a w s).dark = s.dark := rfl
@[simp] theorem setReg_nv (a : Nat) (w : Word) (s : State) : (setReg a w s).nv = s.nv := rfl
@[simp] theorem setReg_fed (a : Nat) (w : Word) (s : State) : (setReg a w s).fed = s.fed := rfl
@[simp] theorem setReg_out (a : Nat) (w : Word) (s : State) : (setReg a w s).out = s.out := rfl
@[simp] theorem setReg_freeCount (a : Nat) (w : Word) (s : State) : (setReg a w s).freeCount = s.freeCount := rfl
@[simp] theorem setReg_pending (a : Nat) (w : Word) (s : State) : (setReg a w s).pending = s.pending := rfl

/-! ### setF -/

@[simp] theorem setF_ctl (a hi lo v : Nat) (s : State) : (setF a hi lo v s).ctl = s.ctl := rfl
@[simp] theorem setF_cmd (a hi lo v : Nat) (s : State) : (setF a hi lo v s).cmd = s.cmd := rfl
@[simp] theorem setF_irq (a hi lo v : Nat) (s : State) : (setF a hi lo v s).irq = s.irq := rfl
@[simp] theorem setF_pwr (a hi lo v : Nat) (s : State) : (setF a hi lo v s).pwr = s.pwr := rfl
@[simp] theorem setF_tim (a hi lo v : Nat) (s : State) : (setF a hi lo v s).tim = s.tim := rfl
@[simp] theorem setF_prt (a hi lo v : Nat) (s : State) : (setF a hi lo v s).prt = s.prt := rfl
@[simp] theorem setF_rx (a hi lo v : Nat) (s : State) : (setF a hi lo v s).rx = s.rx := rfl
@[simp] theorem setF_dp (a hi lo v : Nat) (s : State) : (setF a hi lo v s).dp = s.dp := rfl
@[simp] theorem setF_cls (a hi lo v : Nat) (s : State) : (setF a hi lo v s).cls = s.cls := rfl
@[simp] theorem setF_tx (a hi lo v : Nat) (s : State) : (setF a hi lo v s).tx = s.tx := rfl
@[simp] theorem setF_sec (a hi lo v : Nat) (s : State) : (setF a hi lo v s).sec = s.sec := rfl
@[simp] theorem setF_shut (a hi lo v : Nat) (s : State) : (setF a hi lo v s).shut = s.shut := rfl
@[simp] theorem setF_dma (a hi lo v : Nat) (s : State) : (setF a hi lo v s).dma = s.dma := rfl
@[simp] theorem setF_mem (a hi lo v : Nat) (s : State) : (setF a hi lo v s).mem = s.mem := rfl
@[simp] theorem setF_loupe (a hi lo v : Nat) (s : State) : (setF a hi lo v s).loupe = s.loupe := rfl
@[simp] theorem setF_fix (a hi lo v : Nat) (s : State) : (setF a hi lo v s).fix = s.fix := rfl
@[simp] theorem setF_dark (a hi lo v : Nat) (s : State) : (setF a hi lo v s).dark = s.dark := rfl
@[simp] theorem setF_nv (a hi lo v : Nat) (s : State) : (setF a hi lo v s).nv = s.nv := rfl
@[simp] theorem setF_fed (a hi lo v : Nat) (s : State) : (setF a hi lo v s).fed = s.fed := rfl
@[simp] theorem setF_out (a hi lo v : Nat) (s : State) : (setF a hi lo v s).out = s.out := rfl
@[simp] theorem setF_freeCount (a hi lo v : Nat) (s : State) : (setF a hi lo v s).freeCount = s.freeCount := rfl
@[simp] theorem setF_pending (a hi lo v : Nat) (s : State) : (setF a hi lo v s).pending = s.pending := rfl

/-! ### setB -/

@[simp] theorem setB_ctl (a n : Nat) (b : Bool) (s : State) : (setB a n b s).ctl = s.ctl := rfl
@[simp] theorem setB_cmd (a n : Nat) (b : Bool) (s : State) : (setB a n b s).cmd = s.cmd := rfl
@[simp] theorem setB_irq (a n : Nat) (b : Bool) (s : State) : (setB a n b s).irq = s.irq := rfl
@[simp] theorem setB_pwr (a n : Nat) (b : Bool) (s : State) : (setB a n b s).pwr = s.pwr := rfl
@[simp] theorem setB_tim (a n : Nat) (b : Bool) (s : State) : (setB a n b s).tim = s.tim := rfl
@[simp] theorem setB_prt (a n : Nat) (b : Bool) (s : State) : (setB a n b s).prt = s.prt := rfl
@[simp] theorem setB_rx (a n : Nat) (b : Bool) (s : State) : (setB a n b s).rx = s.rx := rfl
@[simp] theorem setB_dp (a n : Nat) (b : Bool) (s : State) : (setB a n b s).dp = s.dp := rfl
@[simp] theorem setB_cls (a n : Nat) (b : Bool) (s : State) : (setB a n b s).cls = s.cls := rfl
@[simp] theorem setB_tx (a n : Nat) (b : Bool) (s : State) : (setB a n b s).tx = s.tx := rfl
@[simp] theorem setB_sec (a n : Nat) (b : Bool) (s : State) : (setB a n b s).sec = s.sec := rfl
@[simp] theorem setB_shut (a n : Nat) (b : Bool) (s : State) : (setB a n b s).shut = s.shut := rfl
@[simp] theorem setB_dma (a n : Nat) (b : Bool) (s : State) : (setB a n b s).dma = s.dma := rfl
@[simp] theorem setB_mem (a n : Nat) (b : Bool) (s : State) : (setB a n b s).mem = s.mem := rfl
@[simp] theorem setB_loupe (a n : Nat) (b : Bool) (s : State) : (setB a n b s).loupe = s.loupe := rfl
@[simp] theorem setB_fix (a n : Nat) (b : Bool) (s : State) : (setB a n b s).fix = s.fix := rfl
@[simp] theorem setB_dark (a n : Nat) (b : Bool) (s : State) : (setB a n b s).dark = s.dark := rfl
@[simp] theorem setB_nv (a n : Nat) (b : Bool) (s : State) : (setB a n b s).nv = s.nv := rfl
@[simp] theorem setB_fed (a n : Nat) (b : Bool) (s : State) : (setB a n b s).fed = s.fed := rfl
@[simp] theorem setB_out (a n : Nat) (b : Bool) (s : State) : (setB a n b s).out = s.out := rfl
@[simp] theorem setB_freeCount (a n : Nat) (b : Bool) (s : State) : (setB a n b s).freeCount = s.freeCount := rfl
@[simp] theorem setB_pending (a n : Nat) (b : Bool) (s : State) : (setB a n b s).pending = s.pending := rfl

/-! ### addF -/

@[simp] theorem addF_ctl (a hi lo n : Nat) (s : State) : (addF a hi lo n s).ctl = s.ctl := rfl
@[simp] theorem addF_cmd (a hi lo n : Nat) (s : State) : (addF a hi lo n s).cmd = s.cmd := rfl
@[simp] theorem addF_irq (a hi lo n : Nat) (s : State) : (addF a hi lo n s).irq = s.irq := rfl
@[simp] theorem addF_pwr (a hi lo n : Nat) (s : State) : (addF a hi lo n s).pwr = s.pwr := rfl
@[simp] theorem addF_tim (a hi lo n : Nat) (s : State) : (addF a hi lo n s).tim = s.tim := rfl
@[simp] theorem addF_prt (a hi lo n : Nat) (s : State) : (addF a hi lo n s).prt = s.prt := rfl
@[simp] theorem addF_rx (a hi lo n : Nat) (s : State) : (addF a hi lo n s).rx = s.rx := rfl
@[simp] theorem addF_dp (a hi lo n : Nat) (s : State) : (addF a hi lo n s).dp = s.dp := rfl
@[simp] theorem addF_cls (a hi lo n : Nat) (s : State) : (addF a hi lo n s).cls = s.cls := rfl
@[simp] theorem addF_tx (a hi lo n : Nat) (s : State) : (addF a hi lo n s).tx = s.tx := rfl
@[simp] theorem addF_sec (a hi lo n : Nat) (s : State) : (addF a hi lo n s).sec = s.sec := rfl
@[simp] theorem addF_shut (a hi lo n : Nat) (s : State) : (addF a hi lo n s).shut = s.shut := rfl
@[simp] theorem addF_dma (a hi lo n : Nat) (s : State) : (addF a hi lo n s).dma = s.dma := rfl
@[simp] theorem addF_mem (a hi lo n : Nat) (s : State) : (addF a hi lo n s).mem = s.mem := rfl
@[simp] theorem addF_loupe (a hi lo n : Nat) (s : State) : (addF a hi lo n s).loupe = s.loupe := rfl
@[simp] theorem addF_fix (a hi lo n : Nat) (s : State) : (addF a hi lo n s).fix = s.fix := rfl
@[simp] theorem addF_dark (a hi lo n : Nat) (s : State) : (addF a hi lo n s).dark = s.dark := rfl
@[simp] theorem addF_nv (a hi lo n : Nat) (s : State) : (addF a hi lo n s).nv = s.nv := rfl
@[simp] theorem addF_fed (a hi lo n : Nat) (s : State) : (addF a hi lo n s).fed = s.fed := rfl
@[simp] theorem addF_out (a hi lo n : Nat) (s : State) : (addF a hi lo n s).out = s.out := rfl
@[simp] theorem addF_freeCount (a hi lo n : Nat) (s : State) : (addF a hi lo n s).freeCount = s.freeCount := rfl
@[simp] theorem addF_pending (a hi lo n : Nat) (s : State) : (addF a hi lo n s).pending = s.pending := rfl

/-! ### setPair -/

@[simp] theorem setPair_ctl (a v : Nat) (s : State) : (setPair a v s).ctl = s.ctl := rfl
@[simp] theorem setPair_cmd (a v : Nat) (s : State) : (setPair a v s).cmd = s.cmd := rfl
@[simp] theorem setPair_irq (a v : Nat) (s : State) : (setPair a v s).irq = s.irq := rfl
@[simp] theorem setPair_pwr (a v : Nat) (s : State) : (setPair a v s).pwr = s.pwr := rfl
@[simp] theorem setPair_tim (a v : Nat) (s : State) : (setPair a v s).tim = s.tim := rfl
@[simp] theorem setPair_prt (a v : Nat) (s : State) : (setPair a v s).prt = s.prt := rfl
@[simp] theorem setPair_rx (a v : Nat) (s : State) : (setPair a v s).rx = s.rx := rfl
@[simp] theorem setPair_dp (a v : Nat) (s : State) : (setPair a v s).dp = s.dp := rfl
@[simp] theorem setPair_cls (a v : Nat) (s : State) : (setPair a v s).cls = s.cls := rfl
@[simp] theorem setPair_tx (a v : Nat) (s : State) : (setPair a v s).tx = s.tx := rfl
@[simp] theorem setPair_sec (a v : Nat) (s : State) : (setPair a v s).sec = s.sec := rfl
@[simp] theorem setPair_shut (a v : Nat) (s : State) : (setPair a v s).shut = s.shut := rfl
@[simp] theorem setPair_dma (a v : Nat) (s : State) : (setPair a v s).dma = s.dma := rfl
@[simp] theorem setPair_mem (a v : Nat) (s : State) : (setPair a v s).mem = s.mem := rfl
@[simp] theorem setPair_loupe (a v : Nat) (s : State) : (setPair a v s).loupe = s.loupe := rfl
@[simp] theorem setPair_fix (a v : Nat) (s : State) : (setPair a v s).fix = s.fix := rfl
@[simp] theorem setPair_dark (a v : Nat) (s : State) : (setPair a v s).dark = s.dark := rfl
@[simp] theorem setPair_nv (a v : Nat) (s : State) : (setPair a v s).nv = s.nv := rfl
@[simp] theorem setPair_fed (a v : Nat) (s : State) : (setPair a v s).fed = s.fed := rfl
@[simp] theorem setPair_out (a v : Nat) (s : State) : (setPair a v s).out = s.out := rfl
@[simp] theorem setPair_freeCount (a v : Nat) (s : State) : (setPair a v s).freeCount = s.freeCount := rfl
@[simp] theorem setPair_pending (a v : Nat) (s : State) : (setPair a v s).pending = s.pending := rfl

/-! ### setLive -/

@[simp] theorem setLive_ctl (a v : Nat) (s : State) : (setLive a v s).ctl = s.ctl := rfl
@[simp] theorem setLive_cmd (a v : Nat) (s : State) : (setLive a v s).cmd = s.cmd := rfl
@[simp] theorem setLive_irq (a v : Nat) (s : State) : (setLive a v s).irq = s.irq := rfl
@[simp] theorem setLive_pwr (a v : Nat) (s : State) : (setLive a v s).pwr = s.pwr := rfl
@[simp] theorem setLive_tim (a v : Nat) (s : State) : (setLive a v s).tim = s.tim := rfl
@[simp] theorem setLive_prt (a v : Nat) (s : State) : (setLive a v s).prt = s.prt := rfl
@[simp] theorem setLive_rx (a v : Nat) (s : State) : (setLive a v s).rx = s.rx := rfl
@[simp] theorem setLive_dp (a v : Nat) (s : State) : (setLive a v s).dp = s.dp := rfl
@[simp] theorem setLive_cls (a v : Nat) (s : State) : (setLive a v s).cls = s.cls := rfl
@[simp] theorem setLive_tx (a v : Nat) (s : State) : (setLive a v s).tx = s.tx := rfl
@[simp] theorem setLive_sec (a v : Nat) (s : State) : (setLive a v s).sec = s.sec := rfl
@[simp] theorem setLive_shut (a v : Nat) (s : State) : (setLive a v s).shut = s.shut := rfl
@[simp] theorem setLive_dma (a v : Nat) (s : State) : (setLive a v s).dma = s.dma := rfl
@[simp] theorem setLive_mem (a v : Nat) (s : State) : (setLive a v s).mem = s.mem := rfl
@[simp] theorem setLive_loupe (a v : Nat) (s : State) : (setLive a v s).loupe = s.loupe := rfl
@[simp] theorem setLive_fix (a v : Nat) (s : State) : (setLive a v s).fix = s.fix := rfl
@[simp] theorem setLive_dark (a v : Nat) (s : State) : (setLive a v s).dark = s.dark := rfl
@[simp] theorem setLive_nv (a v : Nat) (s : State) : (setLive a v s).nv = s.nv := rfl
@[simp] theorem setLive_fed (a v : Nat) (s : State) : (setLive a v s).fed = s.fed := rfl
@[simp] theorem setLive_out (a v : Nat) (s : State) : (setLive a v s).out = s.out := rfl
@[simp] theorem setLive_freeCount (a v : Nat) (s : State) : (setLive a v s).freeCount = s.freeCount := rfl
@[simp] theorem setLive_pending (a v : Nat) (s : State) : (setLive a v s).pending = s.pending := rfl

/-! ### addLive -/

@[simp] theorem addLive_ctl (a n : Nat) (s : State) : (addLive a n s).ctl = s.ctl := rfl
@[simp] theorem addLive_cmd (a n : Nat) (s : State) : (addLive a n s).cmd = s.cmd := rfl
@[simp] theorem addLive_irq (a n : Nat) (s : State) : (addLive a n s).irq = s.irq := rfl
@[simp] theorem addLive_pwr (a n : Nat) (s : State) : (addLive a n s).pwr = s.pwr := rfl
@[simp] theorem addLive_tim (a n : Nat) (s : State) : (addLive a n s).tim = s.tim := rfl
@[simp] theorem addLive_prt (a n : Nat) (s : State) : (addLive a n s).prt = s.prt := rfl
@[simp] theorem addLive_rx (a n : Nat) (s : State) : (addLive a n s).rx = s.rx := rfl
@[simp] theorem addLive_dp (a n : Nat) (s : State) : (addLive a n s).dp = s.dp := rfl
@[simp] theorem addLive_cls (a n : Nat) (s : State) : (addLive a n s).cls = s.cls := rfl
@[simp] theorem addLive_tx (a n : Nat) (s : State) : (addLive a n s).tx = s.tx := rfl
@[simp] theorem addLive_sec (a n : Nat) (s : State) : (addLive a n s).sec = s.sec := rfl
@[simp] theorem addLive_shut (a n : Nat) (s : State) : (addLive a n s).shut = s.shut := rfl
@[simp] theorem addLive_dma (a n : Nat) (s : State) : (addLive a n s).dma = s.dma := rfl
@[simp] theorem addLive_mem (a n : Nat) (s : State) : (addLive a n s).mem = s.mem := rfl
@[simp] theorem addLive_loupe (a n : Nat) (s : State) : (addLive a n s).loupe = s.loupe := rfl
@[simp] theorem addLive_fix (a n : Nat) (s : State) : (addLive a n s).fix = s.fix := rfl
@[simp] theorem addLive_dark (a n : Nat) (s : State) : (addLive a n s).dark = s.dark := rfl
@[simp] theorem addLive_nv (a n : Nat) (s : State) : (addLive a n s).nv = s.nv := rfl
@[simp] theorem addLive_fed (a n : Nat) (s : State) : (addLive a n s).fed = s.fed := rfl
@[simp] theorem addLive_out (a n : Nat) (s : State) : (addLive a n s).out = s.out := rfl
@[simp] theorem addLive_freeCount (a n : Nat) (s : State) : (addLive a n s).freeCount = s.freeCount := rfl
@[simp] theorem addLive_pending (a n : Nat) (s : State) : (addLive a n s).pending = s.pending := rfl

/-! ### emit -/

@[simp] theorem emit_ctl (e : Emit) (s : State) : (emit e s).ctl = s.ctl := rfl
@[simp] theorem emit_win (e : Emit) (s : State) : (emit e s).win = s.win := rfl
@[simp] theorem emit_cmd (e : Emit) (s : State) : (emit e s).cmd = s.cmd := rfl
@[simp] theorem emit_irq (e : Emit) (s : State) : (emit e s).irq = s.irq := rfl
@[simp] theorem emit_pwr (e : Emit) (s : State) : (emit e s).pwr = s.pwr := rfl
@[simp] theorem emit_tim (e : Emit) (s : State) : (emit e s).tim = s.tim := rfl
@[simp] theorem emit_prt (e : Emit) (s : State) : (emit e s).prt = s.prt := rfl
@[simp] theorem emit_rx (e : Emit) (s : State) : (emit e s).rx = s.rx := rfl
@[simp] theorem emit_dp (e : Emit) (s : State) : (emit e s).dp = s.dp := rfl
@[simp] theorem emit_cls (e : Emit) (s : State) : (emit e s).cls = s.cls := rfl
@[simp] theorem emit_tx (e : Emit) (s : State) : (emit e s).tx = s.tx := rfl
@[simp] theorem emit_sec (e : Emit) (s : State) : (emit e s).sec = s.sec := rfl
@[simp] theorem emit_shut (e : Emit) (s : State) : (emit e s).shut = s.shut := rfl
@[simp] theorem emit_dma (e : Emit) (s : State) : (emit e s).dma = s.dma := rfl
@[simp] theorem emit_mem (e : Emit) (s : State) : (emit e s).mem = s.mem := rfl
@[simp] theorem emit_loupe (e : Emit) (s : State) : (emit e s).loupe = s.loupe := rfl
@[simp] theorem emit_fix (e : Emit) (s : State) : (emit e s).fix = s.fix := rfl
@[simp] theorem emit_dark (e : Emit) (s : State) : (emit e s).dark = s.dark := rfl
@[simp] theorem emit_nv (e : Emit) (s : State) : (emit e s).nv = s.nv := rfl
@[simp] theorem emit_fed (e : Emit) (s : State) : (emit e s).fed = s.fed := rfl
@[simp] theorem emit_freeCount (e : Emit) (s : State) : (emit e s).freeCount = s.freeCount := rfl
@[simp] theorem emit_pending (e : Emit) (s : State) : (emit e s).pending = s.pending := rfl

/-! ### nextFree -/

@[simp] theorem nextFree_ctl (s : State) : (nextFree s).ctl = s.ctl := rfl
@[simp] theorem nextFree_win (s : State) : (nextFree s).win = s.win := rfl
@[simp] theorem nextFree_cmd (s : State) : (nextFree s).cmd = s.cmd := rfl
@[simp] theorem nextFree_irq (s : State) : (nextFree s).irq = s.irq := rfl
@[simp] theorem nextFree_pwr (s : State) : (nextFree s).pwr = s.pwr := rfl
@[simp] theorem nextFree_tim (s : State) : (nextFree s).tim = s.tim := rfl
@[simp] theorem nextFree_prt (s : State) : (nextFree s).prt = s.prt := rfl
@[simp] theorem nextFree_rx (s : State) : (nextFree s).rx = s.rx := rfl
@[simp] theorem nextFree_dp (s : State) : (nextFree s).dp = s.dp := rfl
@[simp] theorem nextFree_cls (s : State) : (nextFree s).cls = s.cls := rfl
@[simp] theorem nextFree_tx (s : State) : (nextFree s).tx = s.tx := rfl
@[simp] theorem nextFree_sec (s : State) : (nextFree s).sec = s.sec := rfl
@[simp] theorem nextFree_shut (s : State) : (nextFree s).shut = s.shut := rfl
@[simp] theorem nextFree_dma (s : State) : (nextFree s).dma = s.dma := rfl
@[simp] theorem nextFree_mem (s : State) : (nextFree s).mem = s.mem := rfl
@[simp] theorem nextFree_loupe (s : State) : (nextFree s).loupe = s.loupe := rfl
@[simp] theorem nextFree_fix (s : State) : (nextFree s).fix = s.fix := rfl
@[simp] theorem nextFree_dark (s : State) : (nextFree s).dark = s.dark := rfl
@[simp] theorem nextFree_nv (s : State) : (nextFree s).nv = s.nv := rfl
@[simp] theorem nextFree_fed (s : State) : (nextFree s).fed = s.fed := rfl
@[simp] theorem nextFree_out (s : State) : (nextFree s).out = s.out := rfl
@[simp] theorem nextFree_pending (s : State) : (nextFree s).pending = s.pending := rfl

/-! ### popped -/

@[simp] theorem popped_ctl (s : State) : (s.popped).ctl = s.ctl := rfl
@[simp] theorem popped_win (s : State) : (s.popped).win = s.win := rfl
@[simp] theorem popped_cmd (s : State) : (s.popped).cmd = s.cmd := rfl
@[simp] theorem popped_irq (s : State) : (s.popped).irq = s.irq := rfl
@[simp] theorem popped_pwr (s : State) : (s.popped).pwr = s.pwr := rfl
@[simp] theorem popped_tim (s : State) : (s.popped).tim = s.tim := rfl
@[simp] theorem popped_prt (s : State) : (s.popped).prt = s.prt := rfl
@[simp] theorem popped_rx (s : State) : (s.popped).rx = s.rx := rfl
@[simp] theorem popped_dp (s : State) : (s.popped).dp = s.dp := rfl
@[simp] theorem popped_cls (s : State) : (s.popped).cls = s.cls := rfl
@[simp] theorem popped_tx (s : State) : (s.popped).tx = s.tx := rfl
@[simp] theorem popped_sec (s : State) : (s.popped).sec = s.sec := rfl
@[simp] theorem popped_shut (s : State) : (s.popped).shut = s.shut := rfl
@[simp] theorem popped_dma (s : State) : (s.popped).dma = s.dma := rfl
@[simp] theorem popped_mem (s : State) : (s.popped).mem = s.mem := rfl
@[simp] theorem popped_loupe (s : State) : (s.popped).loupe = s.loupe := rfl
@[simp] theorem popped_fix (s : State) : (s.popped).fix = s.fix := rfl
@[simp] theorem popped_dark (s : State) : (s.popped).dark = s.dark := rfl
@[simp] theorem popped_nv (s : State) : (s.popped).nv = s.nv := rfl
@[simp] theorem popped_fed (s : State) : (s.popped).fed = s.fed := rfl
@[simp] theorem popped_out (s : State) : (s.popped).out = s.out := rfl
@[simp] theorem popped_freeCount (s : State) : (s.popped).freeCount = s.freeCount := rfl

/-! ### withCommand -/

@[simp] theorem withCommand_ctl (s : State) (c : Instr) : (s.withCommand c).ctl = s.ctl := rfl
@[simp] theorem withCommand_win (s : State) (c : Instr) : (s.withCommand c).win = s.win := rfl
@[simp] theorem withCommand_cmd (s : State) (c : Instr) : (s.withCommand c).cmd = s.cmd := rfl
@[simp] theorem withCommand_irq (s : State) (c : Instr) : (s.withCommand c).irq = s.irq := rfl
@[simp] theorem withCommand_pwr (s : State) (c : Instr) : (s.withCommand c).pwr = s.pwr := rfl
@[simp] theorem withCommand_tim (s : State) (c : Instr) : (s.withCommand c).tim = s.tim := rfl
@[simp] theorem withCommand_prt (s : State) (c : Instr) : (s.withCommand c).prt = s.prt := rfl
@[simp] theorem withCommand_rx (s : State) (c : Instr) : (s.withCommand c).rx = s.rx := rfl
@[simp] theorem withCommand_dp (s : State) (c : Instr) : (s.withCommand c).dp = s.dp := rfl
@[simp] theorem withCommand_cls (s : State) (c : Instr) : (s.withCommand c).cls = s.cls := rfl
@[simp] theorem withCommand_tx (s : State) (c : Instr) : (s.withCommand c).tx = s.tx := rfl
@[simp] theorem withCommand_sec (s : State) (c : Instr) : (s.withCommand c).sec = s.sec := rfl
@[simp] theorem withCommand_shut (s : State) (c : Instr) : (s.withCommand c).shut = s.shut := rfl
@[simp] theorem withCommand_dma (s : State) (c : Instr) : (s.withCommand c).dma = s.dma := rfl
@[simp] theorem withCommand_mem (s : State) (c : Instr) : (s.withCommand c).mem = s.mem := rfl
@[simp] theorem withCommand_loupe (s : State) (c : Instr) : (s.withCommand c).loupe = s.loupe := rfl
@[simp] theorem withCommand_fix (s : State) (c : Instr) : (s.withCommand c).fix = s.fix := rfl
@[simp] theorem withCommand_dark (s : State) (c : Instr) : (s.withCommand c).dark = s.dark := rfl
@[simp] theorem withCommand_nv (s : State) (c : Instr) : (s.withCommand c).nv = s.nv := rfl
@[simp] theorem withCommand_fed (s : State) (c : Instr) : (s.withCommand c).fed = s.fed := rfl
@[simp] theorem withCommand_out (s : State) (c : Instr) : (s.withCommand c).out = s.out := rfl
@[simp] theorem withCommand_freeCount (s : State) (c : Instr) : (s.withCommand c).freeCount = s.freeCount := rfl

end Sys2Proof.Machine
end

