-- ==== Sys2Proof/Laws/Tables.lean ====
section
/-! SUPPORT. Reading a sparse table after a write, and its canonical form: what every store of the model rests on. -/

namespace Sys2Proof.Machine

theorem tabGet_erase {α : Type} (d : Nat → α) (t : Tab α) (k j : Nat) :
    tabGet d (tabErase t k) j = if j = k then d j else tabGet d t j := by
  induction t with
  | nil => simp [tabErase, tabGet]
  | cons x r ih =>
    obtain ⟨a, v⟩ := x
    by_cases h : a = k
    · subst h
      by_cases h2 : j = a <;> simp_all [tabErase, tabGet, eq_comm]
    · by_cases h2 : j = k
      · subst h2
        simp_all [tabErase, tabGet, eq_comm]
      · by_cases h3 : a = j <;> simp_all [tabErase, tabGet, eq_comm]

theorem tabErase_absent {α : Type} (t : Tab α) (k : Nat) : ∀ x ∈ tabErase t k, x.1 ≠ k := by
  induction t with
  | nil => simp [tabErase]
  | cons x r ih =>
    intro y hy
    by_cases h : x.1 = k
    · exact ih y (by simpa [tabErase, h] using hy)
    · simp only [tabErase, h, if_false, List.mem_cons] at hy
      rcases hy with rfl | hy
      · exact h
      · exact ih y hy

theorem tabGet_insert {α : Type} (d : Nat → α) (t : Tab α) (k j : Nat) (v : α) (h : ∀ x ∈ t, x.1 ≠ k) :
    tabGet d (tabInsert t k v) j = if j = k then v else tabGet d t j := by
  induction t with
  | nil => simp only [tabInsert, tabGet, @eq_comm _ k j]
  | cons x r ih =>
    obtain ⟨a, w⟩ := x
    have ha : a ≠ k := h (a, w) (by simp)
    have ih' := ih (fun x hx => h x (by simp [hx]))
    by_cases hk : k < a
    · simp only [tabInsert, hk, if_true, tabGet, @eq_comm _ k j]
    · simp only [tabInsert, hk, if_false, tabGet, ih']
      by_cases h2 : j = k
      · subst h2
        simp [ha]
      · simp [h2]

/-- Reading a table after a write. -/
theorem tabGet_set {α : Type} [DecidableEq α] (d : Nat → α) (t : Tab α) (k j : Nat) (v : α) :
    tabGet d (tabSet d t k v) j = if j = k then v else tabGet d t j := by
  unfold tabSet
  split
  · rw [tabGet_erase]
    split <;> simp_all
  · rw [tabGet_insert _ _ _ _ _ (tabErase_absent t k), tabGet_erase]
    split <;> simp_all

theorem tabErase_sublist {α : Type} (t : Tab α) (k : Nat) : (tabErase t k).Sublist t := by
  induction t with
  | nil => simp [tabErase]
  | cons x r ih =>
    obtain ⟨a, v⟩ := x
    by_cases h : a = k
    · simp only [tabErase, h, if_true]
      exact ih.cons _
    · simp only [tabErase, h, if_false]
      exact ih.cons_cons _

theorem mem_tabInsert {α : Type} (t : Tab α) (k : Nat) (v : α) (x : Nat × α) :
    x ∈ tabInsert t k v ↔ x = (k, v) ∨ x ∈ t := by
  induction t with
  | nil => simp [tabInsert]
  | cons y r ih =>
    obtain ⟨a, w⟩ := y
    by_cases h : k < a
    · simp [tabInsert, h]
    · simp only [tabInsert, h, if_false, List.mem_cons, ih]
      tauto

theorem tabInsert_sorted {α : Type} (t : Tab α) (k : Nat) (v : α) (h : t.Pairwise (fun x y => x.1 < y.1))
    (hk : ∀ x ∈ t, x.1 ≠ k) : (tabInsert t k v).Pairwise (fun x y => x.1 < y.1) := by
  induction t with
  | nil => simp [tabInsert]
  | cons y r ih =>
    obtain ⟨a, w⟩ := y
    rw [List.pairwise_cons] at h
    have ha : a ≠ k := hk (a, w) (by simp)
    by_cases hlt : k < a
    · simp only [tabInsert, hlt, if_true, List.pairwise_cons]
      refine ⟨?_, h.1, h.2⟩
      intro x hx
      rcases List.mem_cons.mp hx with rfl | hx
      · exact hlt
      · exact Nat.lt_trans hlt (h.1 x hx)
    · simp only [tabInsert, hlt, if_false, List.pairwise_cons]
      refine ⟨?_, ih h.2 (fun x hx => hk x (by simp [hx]))⟩
      intro x hx
      rcases (mem_tabInsert r k v x).mp hx with rfl | hx
      · simp only
        omega
      · exact h.1 x hx

/-- Erasing keeps the canonical form. -/
theorem tabWf_erase {α : Type} [DecidableEq α] (d : Nat → α) (t : Tab α) (k : Nat) (h : tabWf d t) :
    tabWf d (tabErase t k) :=
  ⟨h.1.sublist (tabErase_sublist t k), fun x hx => h.2 x ((tabErase_sublist t k).subset hx)⟩

/-- Every write keeps the canonical form. -/
theorem tabWf_set {α : Type} [DecidableEq α] (d : Nat → α) (t : Tab α) (k : Nat) (v : α) (h : tabWf d t) :
    tabWf d (tabSet d t k v) := by
  unfold tabSet
  split
  · exact tabWf_erase d t k h
  · rename_i hv
    refine ⟨tabInsert_sorted _ k v (tabWf_erase d t k h).1 (tabErase_absent t k), ?_⟩
    intro x hx
    rcases (mem_tabInsert _ k v x).mp hx with rfl | hx
    · exact hv
    · exact (tabWf_erase d t k h).2 x hx

theorem tabKeep_sublist {α : Type} (p : Nat → Bool) (t : Tab α) : (tabKeep p t).Sublist t := by
  induction t with
  | nil => simp [tabKeep]
  | cons x r ih =>
    obtain ⟨a, v⟩ := x
    by_cases h : p a
    · simp only [tabKeep, h, if_true]
      exact ih.cons_cons _
    · simp only [tabKeep, h]
      exact ih.cons _

/-- Dropping entries keeps the canonical form. -/
theorem tabWf_keep {α : Type} [DecidableEq α] (d : Nat → α) (p : Nat → Bool) (t : Tab α) (h : tabWf d t) :
    tabWf d (tabKeep p t) :=
  ⟨h.1.sublist (tabKeep_sublist p t), fun x hx => h.2 x ((tabKeep_sublist p t).subset hx)⟩

/-- A write of the NV store keeps its canonical form (R369). -/
theorem tabWf_putNv (d : List Byte) (a : Nat) (t : Tab Byte) (h : tabWf (shippedByte 0) t) :
    tabWf (shippedByte 0) (putNv a d t) := by
  induction d generalizing a t with
  | nil => exact h
  | cons b r ih => exact ih (a + 1) _ (tabWf_set _ t a b h)

theorem reset_tablesWf : State.reset.tablesWf := by decide

end Sys2Proof.Machine
end

