-- ==== Sys2Proof/Laws/Regs.lean ====
section
/-! SUPPORT. What reading a register gives after each operation on registers (R32, R35). -/

namespace Sys2Proof.Machine

/-- Reading a register after a register write. -/
theorem getReg_setReg (a b : Nat) (w : Word) (s : State) :
    getReg (setReg a w s) b = if b = a then w else getReg s b := tabGet_set regReset s.win.regs a b w

@[simp] theorem getReg_setReg_same (a : Nat) (w : Word) (s : State) : getReg (setReg a w s) a = w := by
  simp [getReg_setReg]

theorem getReg_setReg_other {a b : Nat} (w : Word) (s : State) (h : b ≠ a) :
    getReg (setReg a w s) b = getReg s b := by
  simp [getReg_setReg, h]

/-- A field write leaves every other register alone. -/
theorem getReg_setF_other {a b : Nat} (hi lo v : Nat) (s : State) (h : b ≠ a) :
    getReg (setF a hi lo v s) b = getReg s b := getReg_setReg_other _ s h

theorem getReg_setB_other {a b : Nat} (n : Nat) (v : Bool) (s : State) (h : b ≠ a) :
    getReg (setB a n v s) b = getReg s b := getReg_setReg_other _ s h

theorem getReg_addF_other {a b : Nat} (hi lo n : Nat) (s : State) (h : b ≠ a) :
    getReg (addF a hi lo n s) b = getReg s b := getReg_setReg_other _ s h

@[simp] theorem getReg_emit (e : Emit) (s : State) (a : Nat) : getReg (emit e s) a = getReg s a := rfl

@[simp] theorem getReg_nextFree (s : State) (a : Nat) : getReg (nextFree s) a = getReg s a := rfl

/-- A live counter after a write to it. -/
theorem getLive_setLive (a b v : Nat) (s : State) :
    getLive (setLive a v s) b = if b = a then v else getLive s b := tabGet_set (fun _ => 0) s.win.live a b v

/-- A live counter after a count: it saturates (R102, R160). -/
theorem getLive_addLive (a b n : Nat) (s : State) :
    getLive (addLive a n s) b = if b = a then satAdd (liveMax a) (getLive s a) n else getLive s b :=
  getLive_setLive a b _ s

@[simp] theorem getReg_addLive (a n : Nat) (s : State) (b : Nat) : getReg (addLive a n s) b = getReg s b := rfl

/-- Ports with nothing to do: settling changes nothing. -/
theorem settle_idle (s : State) (h : cmdWork s = false) : settle s = s := by
  simp [settle, h]

theorem settle_portsIdle (s : State) (h : portsIdle s) : settle s = s :=
  settle_idle s (by simp [cmdWork, h.1, h.2.1, h.2.2.1, h.2.2.2.1, h.2.2.2.2.1, h.2.2.2.2.2.1, h.2.2.2.2.2.2.1,
    h.2.2.2.2.2.2.2])

/-- A write that passes every check has its effect on the state as R410 leaves it. -/
theorem gatedWrite_accepted (p : CmdPort) (a : Nat) (ok : Bool) (v : Word) (eff : State → State) (s : State)
    (h : writeVerdict s p a ok = .accepted) : gatedWrite p a ok v eff s = eff (beforeWrite p a s) := by
  simp [gatedWrite, h]

end Sys2Proof.Machine
end

