-- ==== Sys2Proof/Laws/Events.lean ====
section
/-! SUPPORT. Once for all what latching an event can move: the latch and count registers of its page, the interrupt
controller, LOUPE's counters, the wake on record and the record of what is driven. Everything else stays (`State.rest`), and so
does every register of `eventFree` that is not the page's own. -/

namespace Sys2Proof.Machine

@[simp] theorem rest_mk (s : State) (tgt : Option Mode) (regs irq wake edges out) :
    State.rest (State.mk
      (Ctl.mk s.ctl.mode s.ctl.warm s.ctl.halted s.ctl.proof s.ctl.deferred tgt s.ctl.entry s.ctl.exit s.ctl.pl s.ctl.sleep
        s.ctl.safe s.ctl.faults s.ctl.pins s.ctl.wdogSince s.ctl.wdogExpired)
      (Win.mk regs s.win.live s.win.snap s.win.tod s.win.held) s.cmd irq
      (Pwr.mk s.pwr.flight s.pwr.slot s.pwr.since s.pwr.entering wake s.pwr.round s.pwr.saved s.pwr.off) s.tim s.prt s.rx s.dp s.cls s.tx s.sec s.shut
      s.dma s.mem s.loupe s.fix
      (Dark.mk s.dark.now s.dark.wait s.dark.list s.dark.scan s.dark.testPort s.dark.results s.dark.saved edges s.dark.ending)
      s.nv s.fed out s.freeCount s.pending) = s.rest := rfl

@[simp] theorem rest_irq (s : State) (i) : State.rest { s with irq := i } = s.rest := rfl
@[simp] theorem rest_out (s : State) (o) : State.rest { s with out := o } = s.rest := rfl
@[simp] theorem rest_setReg (a : Nat) (w : Word) (s : State) : (setReg a w s).rest = s.rest := rfl
@[simp] theorem rest_wake (s : State) (w) : State.rest { s with pwr := { s.pwr with wake := w } } = s.rest := rfl
@[simp] theorem rest_edges (s : State) (w) : State.rest { s with dark := { s.dark with edges := w } } = s.rest := rfl
@[simp] theorem rest_ite (c : Prop) [Decidable c] (a b : State) :
    State.rest (if c then a else b) = if c then a.rest else b.rest := by split <;> rfl

/-! ### What events leave alone -/

@[simp] theorem setF_rest (a hi lo v : Nat) (s : State) : (setF a hi lo v s).rest = s.rest := rfl
@[simp] theorem setB_rest (a n : Nat) (b : Bool) (s : State) : (setB a n b s).rest = s.rest := rfl
@[simp] theorem addF_rest (a hi lo n : Nat) (s : State) : (addF a hi lo n s).rest = s.rest := rfl
@[simp] theorem peakF_rest (a hi lo v : Nat) (s : State) : (peakF a hi lo v s).rest = s.rest := by
  simp [peakF]
@[simp] theorem setPair_rest (a v : Nat) (s : State) : (setPair a v s).rest = s.rest := rfl
@[simp] theorem emit_rest (e : Emit) (s : State) : (emit e s).rest = s.rest := rfl
@[simp] theorem setWords_rest (a : Nat) (l : List Word) (s : State) : (setWords a l s).rest = s.rest := by
  induction l generalizing a s with
  | nil => rfl
  | cons w r ih => simp [setWords, ih]
@[simp] theorem countSource_rest (n : Nat) (s : State) : (countSource n s).rest = s.rest := rfl
@[simp] theorem setPending_rest (n : Nat) (s : State) : (setPending n s).rest = s.rest := rfl
@[simp] theorem lpAdd_rest (f c n : Nat) (s : State) : (lpAdd f c n s).1.rest = s.rest := by
  induction f generalizing c n s with
  | zero => rfl
  | succ f ih =>
    unfold lpAdd
    simp only
    split
    · rfl
    · split
      · rfl
      · split
        · rw [ih]; rfl
        · rfl
@[simp] theorem lpAddAll_rest (n : Nat) (l : List Nat) (s : State) : (lpAddAll n l s).1.rest = s.rest := by
  induction l generalizing s with
  | nil => rfl
  | cons c r ih =>
    simp only [lpAddAll]
    rw [ih, lpAdd_rest]
theorem latchBit_rest (f : Nat → State → State) (h : ∀ k s, (f k s).rest = s.rest) (page n : Nat) (s : State) :
    (latchBit f page n s).rest = s.rest := by
  unfold latchBit
  simp only
  split
  · split
    · rw [h]; simp
    · simp
  · simp
theorem latchBanks_rest (f : Nat → State → State) (h : ∀ k s, (f k s).rest = s.rest) (n : Nat) (l : List Nat) (s : State) :
    (latchBanks f n l s).rest = s.rest := by
  induction n generalizing l s with
  | zero => rfl
  | succ n ih =>
    cases l with
    | nil => rfl
    | cons b r =>
      simp only [latchBanks]
      rw [ih, lpAddAll_rest, latchBit_rest f h]
theorem latchWith_rest (f : Nat → State → State) (h : ∀ k s, (f k s).rest = s.rest) (page n : Nat) (s : State) :
    (latchWith f page n s).rest = s.rest := by
  simp only [latchWith]
  rw [latchBanks_rest f h, lpAddAll_rest, latchBit_rest f h]
@[simp] theorem irqOwnEvent_rest (n : Nat) (s : State) : (irqOwnEvent n s).rest = s.rest :=
  latchWith_rest setPending setPending_rest pgIrq n s
@[simp] theorem loupePlain_rest (u i g n : Nat) (s : State) : (loupePlain u i g n s).rest = s.rest := by
  simp only [loupePlain]
  rw [latchBanks_rest setPending setPending_rest, lpAddAll_rest]
@[simp] theorem notify_rest (t o b : Nat) (s : State) : (notify t o b s).rest = s.rest := by
  unfold notify
  split <;> simp
@[simp] theorem writeRecord_rest (n t : Nat) (s : State) : (writeRecord n t s).rest = s.rest := rfl
@[simp] theorem waitRecord_rest (n t : Nat) (s : State) : (waitRecord n t s).rest = s.rest := by
  unfold waitRecord
  split
  · rfl
  · rw [irqOwnEvent_rest]; rfl
@[simp] theorem serveData_rest (l : List Nat) (s : State) : (serveData l s).rest = s.rest := by
  induction l generalizing s with
  | nil => rfl
  | cons n r ih =>
    unfold serveData
    split
    · rw [ih]
    · split
      · rw [ih]
      · rw [ih]; split <;> simp
@[simp] theorem writeBacks_rest (l : List Nat) (s : State) : (writeBacks l s).rest = s.rest := by
  induction l generalizing s with
  | nil => rfl
  | cons t r ih =>
    unfold writeBacks
    simp only
    split
    · rw [ih]
    · rw [ih]; split
      · rw [notify_rest]; rfl
      · rfl
@[simp] theorem notifyRises_rest (o l : List Nat) (s : State) : (notifyRises o l s).rest = s.rest := by
  induction l generalizing s with
  | nil => rfl
  | cons t r ih =>
    unfold notifyRises
    rw [ih]; split <;> simp
@[simp] theorem irqPass_rest (s : State) : (irqPass s).rest = s.rest := by
  simp only [irqPass]
  rw [writeBacks_rest, serveData_rest, notifyRises_rest, rest_irq]
  split
  · rw [irqOwnEvent_rest]; rfl
  · rfl
@[simp] theorem irqSettle_rest (s : State) : (irqSettle s).rest = s.rest := by
  unfold irqSettle
  split <;> simp
@[simp] theorem noteWake_rest (c l : Nat) (s : State) : (noteWake c l s).rest = s.rest := by
  unfold noteWake
  split
  · rfl
  · split
    · rfl
    · split <;> rfl
@[simp] theorem irqEdge_rest (n : Nat) (s : State) : (irqEdge n s).rest = s.rest := by
  unfold irqEdge
  split
  · rfl
  · simp only
    rw [irqSettle_rest, noteWake_rest, setPending_rest]

/-- Latching an event moves nothing but what `State.rest` leaves out (R37, R39, R281). -/
@[simp] theorem hwEvent_rest (page n : Nat) (s : State) : (hwEvent page n s).rest = s.rest :=
  latchWith_rest irqEdge irqEdge_rest page n s
@[simp] theorem loupe_rest (u i g n : Nat) (s : State) : (loupe u i g n s).rest = s.rest := by
  simp only [loupe]
  rw [latchBanks_rest irqEdge irqEdge_rest, lpAddAll_rest]


/-! ### Registers that events leave alone -/

theorem getReg_setReg_free {a b : Nat} (w : Word) (s : State) (h : eventFree b) (ha : ¬ eventFree a) :
    getReg (setReg a w s) b = getReg s b :=
  getReg_setReg_other w s (fun e => ha (e ▸ h))

theorem not_free_high {a : Nat} (ha : adr pgCount 0x800 ≤ a) : ¬ eventFree a := fun h => absurd h.1 (by omega)

@[simp] theorem getReg_irq (s : State) (i) (b : Nat) : getReg { s with irq := i } b = getReg s b := rfl

theorem getReg_setF_free {a b : Nat} (hi lo v : Nat) (s : State) (h : eventFree b) (ha : ¬ eventFree a) :
    getReg (setF a hi lo v s) b = getReg s b := getReg_setReg_free _ s h ha
theorem getReg_addF_free {a b : Nat} (hi lo n : Nat) (s : State) (h : eventFree b) (ha : ¬ eventFree a) :
    getReg (addF a hi lo n s) b = getReg s b := getReg_setReg_free _ s h ha
theorem getReg_setPair_free {a b : Nat} (v : Nat) (s : State) (h : eventFree b) (ha : ¬ eventFree a)
    (ha' : ¬ eventFree (a + 4)) : getReg (setPair a v s) b = getReg s b := by
  rw [setPair, getReg_setReg_free _ _ h ha', getReg_setReg_free _ _ h ha]

theorem countSource_free {b : Nat} (h : eventFree b) (n : Nat) (s : State) :
    getReg (countSource n s) b = getReg s b :=
  getReg_addF_free _ _ _ s h (not_free_high (by simp only [adr, pgCount]; omega))
theorem setPending_free {b : Nat} (h : eventFree b) (n : Nat) (s : State) :
    getReg (setPending n s) b = getReg s b := countSource_free h n s
theorem lpVal_high (c : Nat) : adr pgCount 0x800 ≤ lpVal c := by simp only [lpVal, adr, pgCount, pgBank]; omega
theorem lpAdd_free {b : Nat} (h : eventFree b) (f c n : Nat) (s : State) :
    getReg (lpAdd f c n s).1 b = getReg s b := by
  induction f generalizing c n s with
  | zero => rfl
  | succ f ih =>
    have h1 := not_free_high (lpVal_high c)
    have h2 := not_free_high (Nat.le_trans (lpVal_high c) (Nat.le_add_right _ 4))
    unfold lpAdd
    simp only
    split
    · rfl
    · split
      · exact getReg_setPair_free _ s h h1 h2
      · split
        · rw [ih, getReg_setPair_free _ s h h1 h2]
        · rw [setB, getReg_setF_free _ _ _ _ h (not_free_high (by simp only [adr, pgCount, pgBank]; omega)),
            getReg_setPair_free _ s h h1 h2]
theorem lpAddAll_free {b : Nat} (h : eventFree b) (n : Nat) (l : List Nat) (s : State) :
    getReg (lpAddAll n l s).1 b = getReg s b := by
  induction l generalizing s with
  | nil => rfl
  | cons c r ih =>
    simp only [lpAddAll]
    rw [ih, lpAdd_free h]
theorem latchBit_free {b : Nat} (f : Nat → State → State) (hf : ∀ k s, getReg (f k s) b = getReg s b) (page n : Nat)
    (s : State) (h24 : b ≠ adr page 0x24) (h40 : b ≠ adr page 0x40) : getReg (latchBit f page n s) b = getReg s b := by
  have h1 : ∀ w, getReg (setReg (adr page 0x24) w s) b = getReg s b := fun w => getReg_setReg_other w s h24
  unfold latchBit
  simp only
  split
  · split
    · rw [hf]; split
      · rw [getReg_addF_other _ _ _ _ h40, h1]
      · rw [h1]
    · split
      · rw [getReg_addF_other _ _ _ _ h40, h1]
      · rw [h1]
  · split
    · rw [getReg_addF_other _ _ _ _ h40, h1]
    · rw [h1]
theorem latchBanks_free {b : Nat} (h : eventFree b) (f : Nat → State → State)
    (hf : ∀ k s, getReg (f k s) b = getReg s b) (n : Nat) (l : List Nat) (s : State) :
    getReg (latchBanks f n l s) b = getReg s b := by
  induction n generalizing l s with
  | zero => rfl
  | succ n ih =>
    cases l with
    | nil => rfl
    | cons c r =>
      have hb : ∀ o, b ≠ adr (pgBank c) o := fun o e =>
        absurd h.1 (by rw [e]; simp only [adr, pgCount, pgBank]; omega)
      simp only [latchBanks]
      rw [ih, lpAddAll_free h, latchBit_free f hf _ _ _ (hb _) (hb _)]
theorem latchWith_free {b : Nat} (h : eventFree b) (f : Nat → State → State)
    (hf : ∀ k s, getReg (f k s) b = getReg s b) (page n : Nat) (s : State) (h24 : b ≠ adr page 0x24)
    (h40 : b ≠ adr page 0x40) : getReg (latchWith f page n s) b = getReg s b := by
  simp only [latchWith]
  rw [latchBanks_free h f hf, lpAddAll_free h, latchBit_free f hf _ _ _ h24 h40]
theorem irqOwnEvent_free {b : Nat} (h : eventFree b) (n : Nat) (s : State) :
    getReg (irqOwnEvent n s) b = getReg s b := latchWith_free h setPending (setPending_free h) pgIrq n s h.2.1 h.2.2.1
theorem loupePlain_free {b : Nat} (h : eventFree b) (u i g n : Nat) (s : State) :
    getReg (loupePlain u i g n s) b = getReg s b := by
  simp only [loupePlain]
  rw [latchBanks_free h setPending (setPending_free h), lpAddAll_free h]
theorem target_high (t : Nat) {o : Nat} : adr pgCount 0x800 ≤ adr (pgTarget t) o := by
  simp only [adr, pgCount, pgTarget]; omega
theorem notify_free {b : Nat} (h : eventFree b) (t o e : Nat) (s : State) :
    getReg (notify t o e s) b = getReg s b := by
  unfold notify
  split
  · rw [loupePlain_free h, getReg_addF_free _ _ _ _ h (not_free_high (target_high t)), getReg_emit]
  · rfl
theorem writeRecord_free {b : Nat} (h : eventFree b) (n t : Nat) (s : State) :
    getReg (writeRecord n t s) b = getReg s b := by
  simp only [writeRecord]
  rw [getReg_irq, getReg_setF_free _ _ _ _ h (not_free_high (by simp only [adr, pgCount]; omega)),
    getReg_setF_free _ _ _ _ h (not_free_high (target_high t)), getReg_emit]
theorem waitRecord_free {b : Nat} (h : eventFree b) (n t : Nat) (s : State) :
    getReg (waitRecord n t s) b = getReg s b := by
  unfold waitRecord
  split
  · rfl
  · simp only
    rw [irqOwnEvent_free h, getReg_irq, getReg_addF_free _ _ _ _ h (not_free_high (target_high t))]
theorem serveData_free {b : Nat} (h : eventFree b) (l : List Nat) (s : State) :
    getReg (serveData l s) b = getReg s b := by
  induction l generalizing s with
  | nil => rfl
  | cons n r ih =>
    unfold serveData
    split
    · rw [ih]
    · split
      · rw [ih]
      · rw [ih]; split
        · exact writeRecord_free h _ _ s
        · exact waitRecord_free h _ _ s
theorem writeBacks_free {b : Nat} (h : eventFree b) (l : List Nat) (s : State) :
    getReg (writeBacks l s) b = getReg s b := by
  induction l generalizing s with
  | nil => rfl
  | cons t r ih =>
    unfold writeBacks
    simp only
    split
    · rw [ih]
    · rw [ih]; split
      · rw [notify_free h, getReg_irq, getReg_emit]
      · rw [getReg_irq, getReg_emit]
theorem notifyRises_free {b : Nat} (h : eventFree b) (o l : List Nat) (s : State) :
    getReg (notifyRises o l s) b = getReg s b := by
  induction l generalizing s with
  | nil => rfl
  | cons t r ih =>
    unfold notifyRises
    rw [ih]; split
    · rfl
    · exact notify_free h _ _ _ s
theorem irqPass_free {b : Nat} (h : eventFree b) (s : State) : getReg (irqPass s) b = getReg s b := by
  simp only [irqPass]
  rw [writeBacks_free h, serveData_free h, notifyRises_free h, getReg_irq]
  split
  · rw [irqOwnEvent_free h, getReg_irq]
  · rfl
theorem irqSettle_free {b : Nat} (h : eventFree b) (s : State) : getReg (irqSettle s) b = getReg s b := by
  unfold irqSettle
  split
  · rfl
  · rw [irqPass_free h, irqPass_free h]
theorem noteWake_free {b : Nat} (h : eventFree b) (c l : Nat) (s : State) :
    getReg (noteWake c l s) b = getReg s b := by
  have h1 : ¬ eventFree (adr pgPower 0x094) := fun x => x.2.2.2.1 rfl
  have h2 : ¬ eventFree (adr pgPower 0x098) := fun x => x.2.2.2.2.1 rfl
  have h3 : ¬ eventFree (adr pgPower 0x098 + 4) := fun x => x.2.2.2.2.2 rfl
  unfold noteWake
  split
  · rfl
  · split
    · rw [getReg_setPair_free _ _ h h2 h3, getReg_setF_free _ _ _ _ h h1]; rfl
    · split <;> rfl
theorem irqEdge_free {b : Nat} (h : eventFree b) (n : Nat) (s : State) :
    getReg (irqEdge n s) b = getReg s b := by
  unfold irqEdge
  split
  · rfl
  · simp only
    rw [irqSettle_free h, noteWake_free h, setPending_free h]

/-- Latching an event leaves every register below the interrupt counts as it was, but for the page's own latch and count
(R37). -/
theorem hwEvent_free {b : Nat} (h : eventFree b) (page n : Nat) (s : State) (h24 : b ≠ adr page 0x24)
    (h40 : b ≠ adr page 0x40) : getReg (hwEvent page n s) b = getReg s b :=
  latchWith_free h irqEdge (irqEdge_free h) page n s h24 h40

theorem latchBit_latch (f : Nat → State → State) (page n : Nat)
    (hf : ∀ k s, getReg (f k s) (adr page 0x24) = getReg s (adr page 0x24)) (s : State) :
    getReg (latchBit f page n s) (adr page 0x24) = putBit (getReg s (adr page 0x24)) n true := by
  have h40 : adr page 0x24 ≠ adr page 0x40 := by simp only [adr]; omega
  unfold latchBit
  simp only
  split
  · split
    · rw [hf]; split
      · rw [getReg_addF_other _ _ _ _ h40, getReg_setReg_same]
      · rw [getReg_setReg_same]
    · split
      · rw [getReg_addF_other _ _ _ _ h40, getReg_setReg_same]
      · rw [getReg_setReg_same]
  · split
    · rw [getReg_addF_other _ _ _ _ h40, getReg_setReg_same]
    · rw [getReg_setReg_same]

/-- An event sets its bit of the page's EVT_LATCH, and no other (R37). -/
theorem hwEvent_latch (page n : Nat) (s : State) (h : eventFree (adr page 0x24)) :
    getReg (hwEvent page n s) (adr page 0x24) = putBit (getReg s (adr page 0x24)) n true := by
  simp only [hwEvent, latchWith]
  rw [latchBanks_free h irqEdge (irqEdge_free h), lpAddAll_free h, latchBit_latch irqEdge page n (irqEdge_free h)]
theorem loupe_free {b : Nat} (h : eventFree b) (u i g n : Nat) (s : State) :
    getReg (loupe u i g n s) b = getReg s b := by
  simp only [loupe]
  rw [latchBanks_free h irqEdge (irqEdge_free h), lpAddAll_free h]

/-! ### What `State.rest` keeps -/

theorem rest_mode {s t : State} (h : t.rest = s.rest) : t.ctl.mode = s.ctl.mode := congrArg (fun x => x.ctl.mode) h
theorem rest_pins {s t : State} (h : t.rest = s.rest) : t.ctl.pins = s.ctl.pins := congrArg (fun x => x.ctl.pins) h
theorem rest_tim {s t : State} (h : t.rest = s.rest) : t.tim = s.tim := congrArg (fun x => x.tim) h
theorem rest_cmd {s t : State} (h : t.rest = s.rest) : t.cmd = s.cmd := congrArg (fun x => x.cmd) h
theorem rest_pending {s t : State} (h : t.rest = s.rest) : t.pending = s.pending := congrArg (fun x => x.pending) h

end Sys2Proof.Machine
end

