-- ==== Sys2Proof/Laws/High.lean ====
section
/-! SUPPORT. What an event leaves alone above the interrupt controller and LOUPE: while the controller holds only sources and
targets that exist (`State.irqSane`), no register from page 0x0A9 on moves but the latch and count of the event's own page. -/

namespace Sys2Proof.Machine

/-- `t` comes from `s` by event bookkeeping: the controller stays sane, and the registers from page 0x0A9 on stay. -/
def evKeeps (s t : State) : Prop :=
  s.irqSane → t.irqSane ∧ ∀ b, 0xA9000 ≤ b → getReg t b = getReg s b

theorem evKeeps_refl (s : State) : evKeeps s s := fun h => ⟨h, fun _ _ => rfl⟩

theorem evKeeps_trans {s t u : State} (h : evKeeps s t) (k : evKeeps t u) : evKeeps s u := fun hs =>
  ⟨(k (h hs).1).1, fun b hb => ((k (h hs).1).2 b hb).trans ((h hs).2 b hb)⟩

theorem evKeeps_setReg {a : Nat} (w : Word) (s : State) (ha : a < 0xA9000) : evKeeps s (setReg a w s) := fun h =>
  ⟨h, fun _ hb => getReg_setReg_other w s (by omega)⟩

theorem evKeeps_setF {a : Nat} (hi lo v : Nat) (s : State) (ha : a < 0xA9000) : evKeeps s (setF a hi lo v s) :=
  evKeeps_setReg _ s ha
theorem evKeeps_addF {a : Nat} (hi lo v : Nat) (s : State) (ha : a < 0xA9000) : evKeeps s (addF a hi lo v s) :=
  evKeeps_setReg _ s ha
theorem evKeeps_setPair {a : Nat} (v : Nat) (s : State) (ha : a + 4 < 0xA9000) : evKeeps s (setPair a v s) :=
  evKeeps_trans (evKeeps_setReg _ s (by omega)) (evKeeps_setReg _ _ ha)

theorem mem_setInsert (l : List Nat) (k x : Nat) (h : x ∈ setInsert l k) : x = k ∨ x ∈ l := by
  induction l with
  | nil => simpa [setInsert] using h
  | cons a r ih =>
    unfold setInsert at h
    split at h
    · simpa using h
    · split at h
      · exact Or.inr h
      · rcases List.mem_cons.mp h with h | h
        · exact Or.inr (h ▸ List.mem_cons_self)
        · rcases ih h with h | h
          · exact Or.inl h
          · exact Or.inr (List.mem_cons_of_mem _ h)

theorem mem_setErase (l : List Nat) (k x : Nat) (h : x ∈ setErase l k) : x ∈ l := by
  induction l with
  | nil => exact h
  | cons a r ih =>
    unfold setErase at h
    split at h
    · exact List.mem_cons_of_mem _ (ih h)
    · rcases List.mem_cons.mp h with h | h
      · exact h ▸ List.mem_cons_self
      · exact List.mem_cons_of_mem _ (ih h)

theorem evKeeps_emit (e : Emit) (s : State) : evKeeps s (emit e s) := fun h => ⟨h, fun _ _ => rfl⟩

/-- Other fields of the controller move nothing that `irqSane` looks at. -/
theorem evKeeps_irq (s : State) (i : Irq) (hp : ∀ n ∈ i.pending, n ∈ s.irq.pending) (hs : i.service = s.irq.service) :
    evKeeps s { s with irq := i } := fun h =>
  ⟨⟨fun n hn => h.1 n (hp n hn), by rw [show ({ s with irq := i } : State).irq.service = s.irq.service from hs]; exact h.2.1,
    h.2.2⟩, fun _ _ => rfl⟩

theorem count_low {n : Nat} (h : n < 2048) : adr pgCount (0x800 + 4 * (n / 4)) < 0xA9000 := by
  simp only [adr, pgCount]; omega
theorem target_low {t : Nat} (o : Nat) (h : t < 68) (ho : o < 4096) : adr (pgTarget t) o < 0xA9000 := by
  simp only [adr, pgTarget]; omega
theorem bank_low {c : Nat} (o : Nat) (h : c < 8) (ho : o < 4096) : adr (pgBank c) o < 0xA9000 := by
  simp only [adr, pgBank]; omega

theorem setPending_keeps {n : Nat} (hn : n < 2048) (s : State) : evKeeps s (setPending n s) := fun h => by
  refine ⟨⟨fun m hm => ?_, h.2⟩, (evKeeps_addF _ _ _ s (count_low hn) h).2⟩
  rcases mem_setInsert _ _ _ hm with h' | h'
  · omega
  · exact h.1 m h'

/-! ### LOUPE -/

theorem lpAdd_keeps (f c n : Nat) (s : State) (hc : c < 1024) :
    evKeeps s (lpAdd f c n s).1 ∧ ∀ b ∈ (lpAdd f c n s).2, b < 8 := by
  induction f generalizing c n s with
  | zero => exact ⟨evKeeps_refl s, by simp [lpAdd]⟩
  | succ f ih =>
    have hv : lpVal c + 4 < 0xA9000 := by simp only [lpVal, adr, pgBank]; omega
    unfold lpAdd
    simp only
    split
    · exact ⟨evKeeps_refl s, by simp⟩
    · split
      · exact ⟨evKeeps_setPair _ s hv, by simp⟩
      · split
        · rename_i hx
          have := ih (c + 1) ((getPair s (lpVal c) + n) / 2 ^ 48) (setPair (lpVal c) ((getPair s (lpVal c) + n) % 2 ^ 48) s)
            (by omega)
          exact ⟨evKeeps_trans (evKeeps_setPair _ s hv) this.1, this.2⟩
        · refine ⟨evKeeps_trans (evKeeps_setPair _ s hv) (evKeeps_setF _ _ _ _ ?_), ?_⟩
          · exact bank_low _ (by omega) (by omega)
          · intro b hb
            have : b = c / 128 := by simpa using hb
            omega

theorem lpMatch_lt (s : State) (lv : Bool) (u i g : Nat) (l : Tab Word) : ∀ c ∈ lpMatch s lv u i g l, c < 1024 := by
  induction l with
  | nil => simp [lpMatch]
  | cons x r ih =>
    obtain ⟨a, w⟩ := x
    unfold lpMatch
    split
    · exact ih
    · rename_i c hc
      split
      · intro d hd
        rcases List.mem_cons.mp hd with h | h
        · subst h
          simp only [lpOfCfg] at hc
          split at hc
          · cases hc; omega
          · cases hc
        · exact ih d h
      · exact ih

theorem lpAddAll_keeps (n : Nat) (l : List Nat) (s : State) (hl : ∀ c ∈ l, c < 1024) :
    evKeeps s (lpAddAll n l s).1 ∧ ∀ b ∈ (lpAddAll n l s).2, b < 8 := by
  induction l generalizing s with
  | nil => exact ⟨evKeeps_refl s, by simp [lpAddAll]⟩
  | cons c r ih =>
    have h1 := lpAdd_keeps 1024 c n s (hl c List.mem_cons_self)
    have h2 := ih (lpAdd 1024 c n s).1 (fun d hd => hl d (List.mem_cons_of_mem _ hd))
    simp only [lpAddAll]
    refine ⟨evKeeps_trans h1.1 h2.1, fun b hb => ?_⟩
    rcases List.mem_append.mp hb with h | h
    · exact h1.2 b h
    · exact h2.2 b h

/-! ### Latching -/

theorem ite_inst {c : Prop} [Decidable c] {a b : PageInfo} (ha : c → a.inst < 256) (hb : ¬ c → b.inst < 256) :
    (if c then a else b).inst < 256 := by
  split
  · exact ha ‹_›
  · exact hb ‹_›

theorem pageInfo_inst (page : Nat) : (pageInfo page).inst < 256 := by
  unfold pageInfo
  repeat (refine ite_inst (fun _ => ?_) (fun _ => ?_); swap)
  all_goals first
    | (dsimp only; omega)
    | (split <;> dsimp only <;> omega)

theorem sourceOf_lt {page k : Nat} (h : sourceOf page = some k) : k < 2048 := by
  have hi := pageInfo_inst page
  unfold sourceOf at h
  simp only at h
  generalize (pageInfo page).inst = i at h hi
  generalize (pageInfo page).kind = x at h
  cases x <;> simp only [Option.some.injEq, reduceCtorEq] at h <;> omega

theorem latchBit_keeps (f : Nat → State → State) (hf : ∀ k s, k < 2048 → evKeeps s (f k s)) (page n : Nat) (s : State) :
    s.irqSane → (latchBit f page n s).irqSane
      ∧ ∀ b, 0xA9000 ≤ b → b ≠ adr page 0x24 → b ≠ adr page 0x40 → getReg (latchBit f page n s) b = getReg s b := by
  intro h
  have h1 : ∀ w b, b ≠ adr page 0x24 → getReg (setReg (adr page 0x24) w s) b = getReg s b := fun w b hb =>
    getReg_setReg_other w s hb
  have key : ∀ t : State, t.irqSane → (∀ b, 0xA9000 ≤ b → b ≠ adr page 0x24 → b ≠ adr page 0x40 → getReg t b = getReg s b) →
      ∀ k, sourceOf page = some k → (f k t).irqSane ∧
        ∀ b, 0xA9000 ≤ b → b ≠ adr page 0x24 → b ≠ adr page 0x40 → getReg (f k t) b = getReg s b := by
    intro t ht hr k hk
    have := hf k t (sourceOf_lt hk) ht
    exact ⟨this.1, fun b hb h24 h40 => (this.2 b hb).trans (hr b hb h24 h40)⟩
  unfold latchBit
  simp only
  split
  · split
    · rename_i k hk
      refine key _ ?_ ?_ k hk
      · split <;> exact h
      · intro b _ h24 h40
        split
        · rw [getReg_addF_other _ _ _ _ h40, h1 _ _ h24]
        · exact h1 _ _ h24
    · refine ⟨by split <;> exact h, fun b _ h24 h40 => ?_⟩
      split
      · rw [getReg_addF_other _ _ _ _ h40, h1 _ _ h24]
      · exact h1 _ _ h24
  · refine ⟨by split <;> exact h, fun b _ h24 h40 => ?_⟩
    split
    · rw [getReg_addF_other _ _ _ _ h40, h1 _ _ h24]
    · exact h1 _ _ h24

theorem latchBanks_keeps (f : Nat → State → State) (hf : ∀ k s, k < 2048 → evKeeps s (f k s)) (n : Nat) (l : List Nat)
    (s : State) (hl : ∀ b ∈ l, b < 8) : evKeeps s (latchBanks f n l s) := by
  induction n generalizing l s with
  | zero => exact evKeeps_refl s
  | succ n ih =>
    cases l with
    | nil => exact evKeeps_refl s
    | cons c r =>
      have hc := hl c List.mem_cons_self
      have hb : evKeeps s (latchBit f (pgBank c) 0 s) := fun h =>
        ⟨(latchBit_keeps f hf _ _ s h).1, fun b hb => (latchBit_keeps f hf _ _ s h).2 b hb
          (by have := bank_low 0x24 hc (by omega); omega) (by have := bank_low 0x40 hc (by omega); omega)⟩
      have ha := lpAddAll_keeps 1 (lpMatch (latchBit f (pgBank c) 0 s) false 0 (pgBank c) 0
        (latchBit f (pgBank c) 0 s).win.regs) (latchBit f (pgBank c) 0 s) (lpMatch_lt _ _ _ _ _ _)
      simp only [latchBanks]
      refine evKeeps_trans (evKeeps_trans hb ha.1) (ih _ _ fun b h => ?_)
      rcases List.mem_append.mp h with h | h
      · exact hl b (List.mem_cons_of_mem _ h)
      · exact ha.2 b h

theorem latchWith_keeps (f : Nat → State → State) (hf : ∀ k s, k < 2048 → evKeeps s (f k s)) (page n : Nat) (s : State)
    (h : s.irqSane) : (latchWith f page n s).irqSane
      ∧ ∀ b, 0xA9000 ≤ b → b ≠ adr page 0x24 → b ≠ adr page 0x40 → getReg (latchWith f page n s) b = getReg s b := by
  have hb := latchBit_keeps f hf page n s h
  have ha := lpAddAll_keeps 1 (lpMatch (latchBit f page n s) false 0 page n (latchBit f page n s).win.regs)
    (latchBit f page n s) (lpMatch_lt _ _ _ _ _ _)
  have hl := latchBanks_keeps f hf 64 _ (lpAddAll 1 (lpMatch (latchBit f page n s) false 0 page n
    (latchBit f page n s).win.regs) (latchBit f page n s)).1 ha.2
  have := evKeeps_trans ha.1 hl hb.1
  exact ⟨this.1, fun b h1 h2 h3 => (this.2 b h1).trans (hb.2 b h1 h2 h3)⟩

theorem irqOwnEvent_keeps (n : Nat) (s : State) : evKeeps s (irqOwnEvent n s) := fun h => by
  have := latchWith_keeps setPending (fun k t hk => setPending_keeps hk t) pgIrq n s h
  exact ⟨this.1, fun b hb => this.2 b hb (by simp only [adr, pgIrq]; omega) (by simp only [adr, pgIrq]; omega)⟩

theorem loupePlain_keeps (u i g n : Nat) (s : State) : evKeeps s (loupePlain u i g n s) := by
  have ha := lpAddAll_keeps n (lpMatch s false u i g s.win.regs) s (lpMatch_lt _ _ _ _ _ _)
  exact evKeeps_trans ha.1 (latchBanks_keeps setPending (fun k t hk => setPending_keeps hk t) 64 _ _ ha.2)

/-! ### Routing -/

theorem bestTarget_mem (s : State) (m : BitVec 68) (l : List Nat) (t : Nat) (h : bestTarget s m l = some t) : t ∈ l := by
  induction l generalizing t with
  | nil => cases h
  | cons a r ih =>
    unfold bestTarget at h
    split at h
    · split at h
      · cases h; exact List.mem_cons_self
      · rename_i u hu
        split at h
        · cases h; exact List.mem_cons_of_mem _ (ih _ hu)
        · cases h; exact List.mem_cons_self
    · exact List.mem_cons_of_mem _ (ih _ h)

theorem claimedBy_mem (l : Tab Nat) (m t : Nat) (h : claimedBy l m = some t) : ∃ x ∈ l, x.1 = t := by
  induction l with
  | nil => cases h
  | cons x r ih =>
    obtain ⟨a, n⟩ := x
    unfold claimedBy at h
    split at h
    · cases h; exact ⟨_, List.mem_cons_self, rfl⟩
    · obtain ⟨y, hy, e⟩ := ih h
      exact ⟨y, List.mem_cons_of_mem _ hy, e⟩

theorem targetOf_lt {s : State} (h : s.irqSane) {n t : Nat} (ht : targetOf s n = some t) : t < 68 := by
  unfold targetOf at ht
  split at ht
  · rename_i u hu
    cases ht
    obtain ⟨x, hx, e⟩ := claimedBy_mem _ _ _ hu
    exact e ▸ h.2.1 x hx
  · simpa using bestTarget_mem _ _ _ _ ht

theorem notify_keeps (t o e : Nat) (s : State) : evKeeps s (notify t o e s) := by
  unfold notify
  split
  · rename_i h
    refine evKeeps_trans ?_ (loupePlain_keeps 6 t 0 1 _)
    refine evKeeps_trans ?_ (evKeeps_addF _ _ _ _ (target_low _ (Nat.lt_trans h.1 (by decide)) (by decide)))
    exact evKeeps_emit _ s
  · exact evKeeps_refl s

theorem writeRecord_keeps {n t : Nat} (hn : n < 2048) (ht : t < 68) (s : State) : evKeeps s (writeRecord n t s) := by
  simp only [writeRecord]
  refine evKeeps_trans ?_ (evKeeps_irq _ _ (fun m hm => mem_setErase _ _ _ hm) rfl)
  refine evKeeps_trans ?_ (evKeeps_setF _ _ _ _ (count_low hn))
  refine evKeeps_trans ?_ (evKeeps_setF _ _ _ _ (target_low _ ht (by decide)))
  exact evKeeps_emit _ s

theorem waitRecord_keeps {t : Nat} (n : Nat) (ht : t < 68) (s : State) : evKeeps s (waitRecord n t s) := by
  unfold waitRecord
  split
  · exact evKeeps_refl s
  · simp only
    refine evKeeps_trans ?_ (irqOwnEvent_keeps 0 _)
    refine evKeeps_trans ?_ (evKeeps_irq _ _ (fun m hm => hm) rfl)
    exact evKeeps_addF _ _ _ s (target_low _ ht (by decide))

theorem serveData_keeps (l : List Nat) (s : State) (hl : ∀ n ∈ l, n < 2048) : evKeeps s (serveData l s) := by
  induction l generalizing s with
  | nil => exact evKeeps_refl s
  | cons n r ih =>
    have hr : ∀ n ∈ r, n < 2048 := fun m hm => hl m (List.mem_cons_of_mem _ hm)
    have hn := hl n List.mem_cons_self
    unfold serveData
    split
    · exact ih s hr
    · split
      · exact ih s hr
      · rename_i t ht
        intro h
        refine evKeeps_trans ?_ (ih _ hr) h
        split
        · exact writeRecord_keeps hn (targetOf_lt h ht) s
        · exact waitRecord_keeps n (targetOf_lt h ht) s

theorem writeBacks_keeps (l : List Nat) (s : State) : evKeeps s (writeBacks l s) := by
  induction l generalizing s with
  | nil => exact evKeeps_refl s
  | cons t r ih =>
    unfold writeBacks
    simp only
    split
    · exact ih s
    · refine evKeeps_trans ?_ (ih _)
      split
      · refine evKeeps_trans ?_ (notify_keeps _ _ _ _)
        exact evKeeps_trans (evKeeps_emit _ s) (evKeeps_irq _ _ (fun m hm => hm) rfl)
      · exact evKeeps_trans (evKeeps_emit _ s) (evKeeps_irq _ _ (fun m hm => hm) rfl)

theorem notifyRises_keeps (o l : List Nat) (s : State) : evKeeps s (notifyRises o l s) := by
  induction l generalizing s with
  | nil => exact evKeeps_refl s
  | cons t r ih =>
    unfold notifyRises
    refine evKeeps_trans ?_ (ih _)
    split
    · exact evKeeps_refl s
    · exact notify_keeps _ _ _ s

theorem offered_lt {s : State} (h : s.irqSane) : ∀ n ∈ offered s, n < 2048 := fun n hn =>
  h.1 n (List.mem_of_mem_filter hn)

theorem irqPass_tail (s s2 s3 : State) (r : List Nat) (h2 : evKeeps s s2)
    (h3 : s3 = notifyRises s2.irq.req r { s2 with irq := { s2.irq with req := r } }) :
    evKeeps s (writeBacks (dataTargets s3 (offered s3)) (serveData (offered s3) s3)) := by
  intro h
  have h4 : evKeeps s s3 := by
    rw [h3]
    refine evKeeps_trans (evKeeps_trans h2 ?_) (notifyRises_keeps _ _ _)
    exact evKeeps_irq s2 _ (fun m hm => hm) rfl
  exact evKeeps_trans (evKeeps_trans h4 (serveData_keeps _ s3 (offered_lt (h4 h).1))) (writeBacks_keeps _ _) h

theorem irqPass_keeps (s : State) : evKeeps s (irqPass s) := by
  refine irqPass_tail s _ _ _ ?_ rfl
  split
  · refine evKeeps_trans ?_ (irqOwnEvent_keeps 2 _)
    exact evKeeps_irq s _ (fun m hm => hm) rfl
  · exact evKeeps_irq s _ (fun m hm => hm) rfl

theorem irqSettle_keeps (s : State) : evKeeps s (irqSettle s) := by
  unfold irqSettle
  split
  · exact evKeeps_refl s
  · exact evKeeps_trans (irqPass_keeps s) (irqPass_keeps _)

theorem evKeeps_wake (s : State) (w : Option (Nat × Nat)) : evKeeps s { s with pwr := { s.pwr with wake := w } } :=
  fun h => ⟨h, fun _ _ => rfl⟩
theorem evKeeps_target (s : State) (m : Option Mode) : evKeeps s { s with ctl := { s.ctl with target := m } } :=
  fun h => ⟨h, fun _ _ => rfl⟩

theorem noteWake_keeps (c l : Nat) (s : State) : evKeeps s (noteWake c l s) := by
  unfold noteWake
  split
  · exact evKeeps_refl s
  · split
    · refine evKeeps_trans ?_ (evKeeps_setPair _ _ (by simp only [adr, pgPower]; omega))
      refine evKeeps_trans ?_ (evKeeps_setF _ _ _ _ (by simp only [adr, pgPower]; omega))
      exact evKeeps_trans (evKeeps_wake s (some (c, l))) (evKeeps_target _ (some .run))
    · split
      · exact evKeeps_wake s _
      · exact evKeeps_refl s

theorem irqEdge_keeps {n : Nat} (hn : n < 2048) (s : State) : evKeeps s (irqEdge n s) := by
  unfold irqEdge
  split
  · refine fun h => ⟨⟨h.1, h.2.1, fun m hm => ?_⟩, fun _ _ => rfl⟩
    rcases List.mem_append.mp hm with hm | hm
    · exact h.2.2 m hm
    · have : m = n := by simpa using hm
      omega
  · exact evKeeps_trans (setPending_keeps hn s) (evKeeps_trans (noteWake_keeps _ _ _) (irqSettle_keeps _))

/-- An event keeps the controller sane, and moves no register from page 0x0A9 on but its own page's latch and count. -/
theorem hwEvent_high (page n : Nat) (s : State) (h : s.irqSane) : (hwEvent page n s).irqSane
    ∧ ∀ b, 0xA9000 ≤ b → b ≠ adr page 0x24 → b ≠ adr page 0x40 → getReg (hwEvent page n s) b = getReg s b :=
  latchWith_keeps irqEdge (fun _ t hk => irqEdge_keeps hk t) page n s h

/-- An event of a page above LOUPE sets its bit of EVT_LATCH, and no other (R37). -/
theorem hwEvent_high_latch (page n : Nat) (s : State) (h : s.irqSane) (hp : 0x0A9 ≤ page) :
    getReg (hwEvent page n s) (adr page 0x24) = putBit (getReg s (adr page 0x24)) n true := by
  have hb := (latchBit_keeps irqEdge (fun _ t hk => irqEdge_keeps hk t) page n s h).1
  have ha : 0xA9000 ≤ adr page 0x24 := by simp only [adr]; omega
  have h1 := lpAddAll_keeps 1 (lpMatch (latchBit irqEdge page n s) false 0 page n (latchBit irqEdge page n s).win.regs)
    (latchBit irqEdge page n s) (lpMatch_lt _ _ _ _ _ _)
  have h2 := latchBanks_keeps irqEdge (fun _ t hk => irqEdge_keeps hk t) 64 _ (lpAddAll 1 (lpMatch (latchBit irqEdge page n s)
    false 0 page n (latchBit irqEdge page n s).win.regs) (latchBit irqEdge page n s)).1 h1.2
  simp only [hwEvent, latchWith]
  rw [(h2 (h1.1 hb).1).2 _ ha, (h1.1 hb).2 _ ha]
  have h40 : adr page 0x24 ≠ adr page 0x40 := by simp only [adr]; omega
  have key : ∀ t : State, t.irqSane → getReg t (adr page 0x24) = putBit (getReg s (adr page 0x24)) n true →
      ∀ k, sourceOf page = some k → getReg (irqEdge k t) (adr page 0x24) = putBit (getReg s (adr page 0x24)) n true :=
    fun t ht hr k hk => ((irqEdge_keeps (sourceOf_lt hk) t ht).2 _ ha).trans hr
  unfold latchBit
  simp only
  split
  · split
    · rename_i k hk
      refine key _ ?_ ?_ k hk
      · split <;> exact h
      · split
        · rw [getReg_addF_other _ _ _ _ h40, getReg_setReg_same]
        · rw [getReg_setReg_same]
    · split
      · rw [getReg_addF_other _ _ _ _ h40, getReg_setReg_same]
      · rw [getReg_setReg_same]
  · split
    · rw [getReg_addF_other _ _ _ _ h40, getReg_setReg_same]
    · rw [getReg_setReg_same]

/-- The same for an event signal that LOUPE counts. -/
theorem loupe_high (u i g n : Nat) (s : State) : evKeeps s (loupe u i g n s) := by
  have ha := lpAddAll_keeps n (lpMatch s false u i g s.win.regs) s (lpMatch_lt _ _ _ _ _ _)
  exact evKeeps_trans ha.1 (latchBanks_keeps irqEdge (fun _ t hk => irqEdge_keeps hk t) 64 _ _ ha.2)

end Sys2Proof.Machine
end

