-- ==== Sys2Proof/WellFormed.lean ====
section
/-! DEFINITION. Well-formed commands: what a transport can hand to the part. -/

namespace Sys2Proof

/-- Units of Tables 19.1 and 20.1: lane slices, clusters, pipes, privileged units and islands (Table 17.1). -/
def unitOk (u : UnitId) : Bool :=
  match u.type with
  | 0 => decide (u.unit < 66) && decide (u.slice < 9)
  | 1 => decide (u.unit < 66) && u.slice == 0xFF
  | 2 => decide (u.unit < 48) && u.slice == 0xFF
  | 3 => decide (u.unit < 4) && u.slice == 0xFF
  | 4 => decide (u.unit < 75) && u.slice == 0xFF
  | _ => false

/-- A command arrives whole on H and S, whose mailboxes carry no check code; only H has SHEET_REQ; a source is a
member number on F and a MAC address on W, and the other ports name none (R68, R73, R78). -/
def arrivalOk (a : Arrival) : Bool :=
  match a.port with
  | .H => a.whole && a.source == 0
  | .S => a.whole && !a.sheetReq && a.source == 0
  | .M => !a.sheetReq && a.source == 0
  | .F => !a.sheetReq && decide (a.source < 2 ^ 16)
  | .W => !a.sheetReq && decide (a.source < 2 ^ 48)

/-- Arguments that a port can carry: ARG_LEN has 9 bits on H; LENGTH is 0 to 256 on the others unless the transport
fails check 1 (R68, R73). -/
def argsOk (a : Arrival) (n : Nat) : Bool :=
  match a.port with
  | .H => decide (n < 512) && (!a.sheetReq || n == 0)
  | _ => decide (n ≤ 256) || !a.whole

/-- Data that a read returns: at most `n` bytes. -/
def bytesOk (n : Nat) (d : Option (List Byte)) : Bool :=
  match d with
  | none => true
  | some l => decide (l.length ≤ n)

/-- Is the command one that the part can be handed? -/
def Instr.wellFormed (i : Instr) : Bool :=
  match i with
  | .proofStepDone r => r.failed.all unitOk
  | .contactSheet a args => arrivalOk a && argsOk a args.length
  | .regRead a args access => arrivalOk a && argsOk a args.length && (access.isNone || (a.port == .H && !a.sheetReq && args.isEmpty))
  | .regWrite a args => arrivalOk a && argsOk a args.length
  | .setLevel a args => arrivalOk a && argsOk a args.length
  | .sleep a args => arrivalOk a && argsOk a args.length
  | .safelightEnter a args => arrivalOk a && argsOk a args.length
  | .safelightExit a args => arrivalOk a && argsOk a args.length
  | .testStart a args => arrivalOk a && argsOk a args.length
  | .testAbort a args => arrivalOk a && argsOk a args.length
  | .timeStepArm a args => arrivalOk a && argsOk a args.length
  | .forceRepairMigrate a rest => arrivalOk a && argsOk a (rest.length + 1)
  | .forceRepairReturn a rest => arrivalOk a && argsOk a (rest.length + 1)
  | .forceRepairCondemn a rest => arrivalOk a && argsOk a (rest.length + 1)
  | .forceRepairReinstate a rest => arrivalOk a && argsOk a (rest.length + 1)
  | .restoreFactory a args => arrivalOk a && argsOk a args.length
  | .versionLoad a args => arrivalOk a && argsOk a args.length
  | .versionLoadComplete img => bytesOk (2 ^ 32) img
  | .versionCommitNow a _ rest => arrivalOk a && argsOk a (rest.length + 1)
  | .versionCommitAtTime a _ rest => arrivalOk a && argsOk a (rest.length + 1)
  | .versionDiscard a _ rest => arrivalOk a && argsOk a (rest.length + 1)
  | .rxFrame _ _ _ o _ _ b => decide (o.length < 2 ^ 16) && decide (b.age < 2 ^ 64)
  | .txCellAccept _ _ first data => first.length == 32 && data.length == 256
  | .descriptorFetchDone _ _ _ data => bytesOk 512 data
  | .txHostFrameFetched _ data => bytesOk (2 ^ 16) data
  | .cvJobDone _ data => bytesOk (2 ^ 32) data
  | .wakeComplete _ fails => fails.eraseDups == fails
  | .agingSample l => l.all (fun x => unitOk x.unit)
  | .lockstepMiscompare u => unitOk u && (u.type == 0 || u.type == 2)
  | .uncorrectableError u _ => unitOk u
  | .darkslideUnitResult r => decide (r.patterns ≤ 65536)
  | .calWriteOverlay _ _ img => bytesOk (2 ^ 17) img
  | .heartbeatReceive _ body _ => decide (body.length < 2 ^ 16)
  | .relayedCommand _ body _ => decide (body.length < 2 ^ 16)
  | .relayedResponse _ body _ => decide (body.length < 2 ^ 16)
  | .degradeWindowEnd _ f => decide (f.hist.length ≤ 15) && decide (f.laneSymbols.length ≤ 8)
  | .dieResetAssert => true
  | .dieResetRelease _ => true
  | .corePgFall => true
  | .corePgRise => true
  | .vddioLow => true
  | .alarmInRise => true
  | .alarmInAccepted => true
  | .alarmInFall => true
  | .safelightInForce => true
  | .safelightSwitchToRun => true
  | .testInForce _ => true
  | .testEnd => true
  | .timedCommitDue => true
  | .slotRetire _ => true
  | .slkPoll _ _ => true
  | .slkCsTimeout => true
  | .slkWdogExpiry => true
  | .safetyCtrlWrite _ _ _ => true
  | .registerWrite _ _ _ _ => true
  | .evtSet _ _ _ => true
  | .evtClr _ _ _ => true
  | .evtMaskSet _ _ _ => true
  | .evtMaskClr _ _ _ => true
  | .evtCntSelWrite _ _ _ => true
  | .laneStatusChange _ _ => true
  | .portUp _ => true
  | .reconfigGo _ _ _ => true
  | .reconfigRestart _ => true
  | .counterSnap _ _ => true
  | .counterClear _ _ _ => true
  | .pauseTimerExpiry _ _ => true
  | .macTableWrite _ _ => true
  | .macTableRead _ _ => true
  | .spreadDeal => true
  | .parseRecordDone _ _ => true
  | .flowkeyReadyChange _ _ => true
  | .pipeStall _ => true
  | .reorderRelease _ => true
  | .gapTimeout _ => true
  | .rxCreditGrant _ _ => true
  | .pipeTest _ _ => true
  | .quarterOff _ _ => true
  | .quarterOn _ _ => true
  | .quarterIdleTimeout _ => true
  | .classRowRead _ _ => true
  | .hashSeedWrite _ _ => true
  | .txFrameCommit _ _ _ _ => true
  | .txFrameEnd _ => true
  | .xoffRequestChange _ _ => true
  | .fcRefresh _ => true
  | .pauseWdogTrip _ _ => true
  | .verifyTimer _ => true
  | .installRxSa _ _ _ _ => true
  | .installTxSa _ _ _ _ => true
  | .removeRxSa _ _ _ _ => true
  | .removeTxSa _ _ _ _ => true
  | .saRead _ _ _ => true
  | .encodingSaWrite _ _ _ _ => true
  | .adjStep _ => true
  | .adjSlew _ => true
  | .adjReport _ => true
  | .adjSetAtPps _ => true
  | .tickIncrCommit _ _ => true
  | .slewDone => true
  | .stepArmExpiry => true
  | .ppsEdge _ => true
  | .ppsTimeout => true
  | .refTimeoutExpiry => true
  | .timeRefLoss => true
  | .timeRefReturn => true
  | .timeAcqLoss _ _ => true
  | .timeAcqRegained _ => true
  | .distributionDelayMeasure _ _ _ => true
  | .shutterArm _ _ => true
  | .shutterDisarm _ _ => true
  | .shutterEdge _ => true
  | .shutterPulseEnd _ => true
  | .shutterWake _ => true
  | .tslogRdWrite _ _ _ => true
  | .dbTx _ _ _ _ => true
  | .dbCq _ _ _ => true
  | .dbStableTx _ _ _ _ => true
  | .rxQueueDelivery _ => true
  | .functionReset _ _ _ => true
  | .resetDone _ => true
  | .ctxRead _ => true
  | .ctxWrite _ => true
  | .claim _ _ => true
  | .complete _ _ _ => true
  | .pendSet _ _ _ => true
  | .pendClr _ _ _ => true
  | .maskSet _ _ _ => true
  | .maskClr _ _ _ => true
  | .routeRead _ => true
  | .routeWrite _ => true
  | .eqCiWrite _ _ _ => true
  | .eqCfgWrite _ _ _ => true
  | .cvJobStart _ _ => true
  | .cvJobAbort _ _ => true
  | .memportResponse _ _ _ => true
  | .memportTimeout _ => true
  | .memStatusChange _ => true
  | .regionValidate _ _ => true
  | .regionInvalidate _ _ => true
  | .levelChangeDone => true
  | .sleepQuiesced => true
  | .sleepStateReached => true
  | .wakeEvent _ _ => true
  | .padHoldClr _ _ => true
  | .retainAck _ _ => true
  | .thermWarn _ => true
  | .migrationStart => true
  | .shadowCompareStart _ => true
  | .migrationSwitchover _ => true
  | .retiredUnitFate => true
  | .journalHourRollover => true
  | .jrnlRd _ _ => true
  | .darkslideTestStart _ => true
  | .bgTestStart => true
  | .calWriteDone => true
  | .nvRd _ _ => true
  | .heartbeatSend => true
  | .memberAbsent _ => true
  | .digestRecompute => true
  | .idConflictClear => true
  | .memberRd _ _ => true
  | .loupeSnap _ _ => true
  | .loupeCfgWrite _ _ _ _ => true
  | .loupeClr _ _ _ _ => true
  | .bwWindowEnd => true
  | .archiveCapture => true
  | .lockLoss _ _ => true
  | .remoteFault _ _ => true
  | .lockBoundReached => true
  | .timeDisjointCleared => true
  | .timeBoundExceeded => true
  | .vddioRise => true

end Sys2Proof
end

