-- ==== Sys2Proof/Tests/Slice0.lean ====
section
/-! SUPPORT. The model's own tests: the well-formedness checks refuse ill-formed commands, a witness for the hypotheses of
every statement, and single steps against values worked out from the spec. -/

namespace Sys2Proof.Machine

set_option Elab.async false

/-- The machine after reset, put in mode `m` with its outputs driven. -/
def atMode (m : Mode) : State :=
  { State.reset with ctl := { Ctl.start with
      mode := m, pl := 0, pins := { Pins.start with driven := true, safeActive := decide (m = .safelight) } } }

def inHold (p : Pins) : State := { State.reset with ctl := { Ctl.start with mode := .hold, pins := p } }

def atTarget (m : Mode) : State := { atMode .run with ctl := { (atMode .run).ctl with target := some m } }

def atEntry (m : Mode) : State :=
  { atMode m with ctl := { (atMode m).ctl with entry := some { cause := 1, fromMode := 2 } } }

def atExit (l : BitVec 2) : State :=
  { atMode .safelight with ctl := { (atMode .safelight).ctl with exit := some l } }

def ending (s : State) : State := { s with dark := { s.dark with ending := true } }

/-- RUN with source `n` pending and unmasked. -/
def withSource (n : Nat) : State :=
  let s := setB (adr pgMask (0x100 + 4 * (n / 32))) (n % 32) false (atMode .run)
  { s with irq := { s.irq with pending := [n] } }

/-- TEST with the page `g` under test. -/
def atTest (g : Nat) : State := { atMode .test with prt := { (atMode .test).prt with testPages := [g] } }

/-- RUN with the time island running, E and R as given. -/
def slewing (e r : Int) : State := { atMode .run with tim := { Tim.start with on := true, set := true, e := e, r := r } }

/-- RUN with the time island running, a reference edge and POWERED_NS as given. -/
def ppsState (r : Option Nat) (t : Nat) : State :=
  { atMode .run with tim := { Tim.start with on := true, ppsRef := r, powered := t } }

/-- RUN with channel `c` set up for a single edge 2 us after time of day, 16 ns wide. -/
def armable (c : Nat) : State :=
  setF (chA c 0x20) 29 0 16 (setF (chA c 0x0C) 29 0 2000 (setReg (chA c 0x00) 1 (atMode .run)))

/-- A channel with a leading edge at 0. -/
def someChan (cfg : Word) : Chan :=
  { cfg := cfg, start := 0, period := 0, width := 16, next := some 0, missed := 0, disarm := false }

/-- RUN with channel `c` armed. -/
def armed (c : Nat) : State := setChan c (someChan 16) (atMode .run)

/-- A command of code `c` on port S. -/
def reqS (c : BitVec 16) : Req :=
  { port := .S, code := c, seq := 5, args := [], ingress := 0, source := 0, relayed := none, sheetReq := false }

/-- A command that arrives whole on port `p`. -/
def from' (p : CmdPort) : Arrival :=
  { port := p, seq := 5, whole := true, ingress := 0, source := 0, sheetReq := false, code := none }

/-- Arguments of REG_WRITE for one word at `a`. -/
def wordArgs (a : Nat) : List Byte := leBytes a 4 ++ leBytes 1 4 ++ leBytes 0xFFFFFFFF 4

/-- RUN with a port of speed code 7 at slot 0 of cluster `n`. -/
def bigPort (n : Nat) : State := setReg (adr (pgCl n 1) 0x0E0) (word (0xC000 + 3 * 4096 + 7 * 256 + 192)) (atMode .run)

/-- RUN with slot `v` LOADED. -/
def loaded (v : Nat) : State := setSlot v 1 (atMode .run)

/-- RUN with slot `v` DRAINING and drained. -/
def draining1 (v : Nat) : State := setSlot v 3 (atMode .run)

/-- Mode `m` with a timed commit of slot 1. -/
def due (m : Mode) : State :=
  { atMode m with cls := { (atMode m).cls with commit := some { slot := 1, now := none, late := false, before := 0 } } }

/-- An image of no records with VERSION_ID `id`. -/
def smallImage (id : Nat) : List Byte :=
  let body := leBytes 0x4E485649 4 ++ leBytes 1 2 ++ leBytes 64 2 ++ leBytes id 4 ++ leBytes 0 4 ++ leBytes 68 4
    ++ leBytes 0 44
  body ++ leBytes (crc32c body) 4

/-- PROOF with step `n` done. -/
def atStep (n : Nat) : State := { State.reset with ctl := { Ctl.start with proof := { Proof.start with step := n } } }

/-- RUN with ALARM_IN high since `t`. -/
def rising (t : Nat) : State :=
  { atMode .run with ctl := { (atMode .run).ctl with
      pins := { (atMode .run).ctl.pins with alarmIn := true, alarmRise := some (t, 1) } } }

/-- RUN with a sleep request of MODE_REQ in flight. -/
def sleeping (v : BitVec 2) : State :=
  { atMode .run with pwr := { (atMode .run).pwr with flight := some { origin := .modeReq .H, sleep := true, value := v } } }

/-- STILL with a wake on record. -/
def woken (code : Nat) : State := { atMode .still with pwr := { (atMode .still).pwr with wake := some (code, 0xFF) } }


/-- RUN with an enabled 200G port at slot `i` of cluster `n`, its lane with SIG_DET and ALIGN_OK. -/
def portAt (n i : Nat) : State :=
  setReg (laneStA (8 * n + i)) 6 (setReg (adr (pgCl n 1) (0x0E0 + 4 * i)) 0xC4C0 (atMode .run))

/-- The same with the port up. -/
def upAt (n i : Nat) : State := setB (pcsA (8 * n + i) 0x0B0) i true (portAt n i)

/-- RUN with a reconfiguration of the lanes `m` of cluster `n` that has passed its checks. -/
def reconfAt (n m : Nat) : State :=
  { upAt n 0 with prt := { (upAt n 0).prt with
      reconf := [(n, { mask := m, restarted := false, words := List.replicate 8 0, factory := false, since := 0 })] } }

/-- RUN with pipe `p` in the state that `f` names, the ring at home and every quarter powered. -/
def pipesAt (f : Nat → Nat) : State :=
  let s := setReg (adr pgSpread 0x08C) 0xF0000 (atMode .run)
  (List.range 48).foldl (fun x p => setF (pipeSt p) 2 0 (f p) x)
    { s with dp := { s.dp with ring := ringHome.map (fun x => match x with | some p => if f p = 1 then some p else none | none => none) } }

/-- 44 pipes in rotation, the first of each quarter spare. -/
def pipesOn : State := pipesAt (fun p => if p % 12 = 0 then 2 else 1)

/-- A frame of 60 octets from port `p`. -/
def rxFrm (p : Nat) : RxFrm :=
  { port := p, data := List.replicate 60 0, fcs := [], secTag := false, encrypted := false, endMarks := 0, macDiscard := false
    ts := { sec := 0, ns := 0, frac := 0 }, unlocked := false, cfg := [], pend := false }

/-- The same, dealt to pipe `k` with number `n`. -/
def dealtTo (k n p : Nat) : Dealt := { frm := rxFrm p, seq := n, tag := 0, pipe := k, lost := false, shadow := false }

/-- A record of port `p`, number `n`. -/
def heldRec (p n : Nat) (fate : Fate) : Held := { port := p, seq := n, quarter := 0, fate := fate, side := [], frm := rxFrm p }

def withDp (f : Dp → Dp) (s : State) : State := { s with dp := f s.dp }

/-- A whole transmit frame of 64 octets from the switch core, one cell. -/
def txFrm : TxFrm :=
  { src := .switch, prio := 0, express := false, fcsSupplied := false, cutThrough := false, ptpAction := 0, ptpOffset := 0
    sc := 0xFF, captureId := 0, data := List.replicate 64 0, cells := 1, eof := true, endMarks := 0, long := false, waited := false
    dropping := false }

/-- Those frames queued at port 19. -/
def queued (l : List TxFrm) (s : State) : State := { s with tx := { s.tx with queues := [(19, l)] } }

/-- The same frame, committed. -/
def onLine : Committed :=
  { frm := txFrm, line := txFrm.data, whole := true, sec := none, secy := false, shift := 0, base := 0, frags := 0, gone := 0, ts := { sec := 0, ns := 0, frac := 0 }, unlocked := false
    preemptable := false, smd := 0 }

/-- Port 19 up, generating flow control of kind `g`, classes 0 and 2 requested. -/
def fcAt (g : Nat) : State :=
  let s := setF (macA 19 0x20C) 7 6 g (upAt 2 3)
  { s with tx := { s.tx with xoff := [(19, 5)] } }

/-- A test of a TEST list: MBIST and LBIST of cluster C09. -/
def testJob : TestJob := { unit := clusterId 9, tests := 3, origin := 0 }

def listing (s : State) : State :=
  { s with dark := { s.dark with list := [{ testJob with unit := { type := 4, unit := 70, slice := 0 } }] } }

def waiting (s : State) : State := { s with dark := { s.dark with wait := [testJob, testJob] } }

def underTest (j : TestJob) (s : State) : State := { s with dark := { s.dark with now := some j } }

/-- Background tests enabled, the next of the cycle being pipe PP01. -/
def cycling (s : State) : State := setReg (darkA 0x098) 1 (setB (adr pgDark 0x010) 1 true s)

/-- RUN with VALID of the region of the timestamp log at `v`. -/
def region (v : Nat) : State := setB (adr pgMem 0x088) 1 (v == 1) (atMode .run)

/-- A record of the timestamp log is outstanding. -/
def requested (s : State) : State :=
  { s with mem := { s.mem with
      outstanding := [{ user := 1, index := 0, addr := 64, data := [] }]
      recs := [{ user := 1, index := 0, left := 1, bad := false }], next := [(1, 1)] } }

/-- The region of the timestamp log 2 GiB long. -/
def sized (s : State) : State := setPair (adr pgMem 0x0A8) (2 ^ 31) s

/-- SRC_LEN 20: the empty overlay. -/
def imageSized : State := setReg (calA 0x098) 20 (atMode .run)

/-- Mode `m` with the archive enabled and its region valid, 1 MiB long. -/
def archiving (m : Mode) : State :=
  setB (adr pgLoupe 0x088) 31 true (setB (adr pgMem 0x088) 0 true (setPair (adr pgMem 0x098) (2 ^ 20) (atMode m)))

/-- A punt to queue `q` is staged. -/
def stagingTo (q : Nat) (s : State) : State :=
  { s with dma := { s.dma with staging := [{ queue := q, reason := 4, port := 19, data := [0], side := [] }] } }
theorem test_front_witness : ∃ (c : Instr) (r : List Instr) (s : State), s.pending = c :: r :=
  ⟨.alarmInFall, [], State.reset.withCommand .alarmInFall, rfl⟩

theorem test_idle_witness : State.reset.pending = [] := rfl

theorem test_transition_witness : ∃ s t, step s = .next t ∧ t.ctl.mode ≠ s.ctl.mode :=
  ⟨(atMode .run).withCommand .vddioLow, _, rfl, by decide⟩

theorem test_outputs_witness : State.reset.outputsSafe ∧ step State.reset = .next (idle State.reset) :=
  ⟨by decide, rfl⟩

theorem test_nv_witness : tabWf (shippedByte 0) State.reset.nv.cells := reset_tablesWf.2.2

theorem test_hold_ends_witness : (inHold { Pins.start with dieResetLow := true }).ctl.mode = .hold ∧
    (inHold { Pins.start with dieResetLow := true }).ctl.pins.dieResetLow = true ∧
    (inHold { Pins.start with dieResetLow := true }).ctl.pins.corePgLow = false ∧
    (inHold { Pins.start with dieResetLow := true }).ctl.pins.vddioLow = false := by decide

theorem test_core_rises_witness : (inHold { Pins.start with corePgLow := true }).ctl.mode = .hold ∧
    (inHold { Pins.start with corePgLow := true }).ctl.pins.corePgLow = true ∧
    (inHold { Pins.start with corePgLow := true }).ctl.pins.dieResetLow = false ∧
    (inHold { Pins.start with corePgLow := true }).ctl.pins.vddioLow = false := by decide

theorem test_vddio_rises_witness : (inHold { Pins.start with vddioLow := true }).ctl.mode = .hold ∧
    (inHold { Pins.start with vddioLow := true }).ctl.pins.vddioLow = true ∧
    (inHold { Pins.start with vddioLow := true }).ctl.pins.dieResetLow = false ∧
    (inHold { Pins.start with vddioLow := true }).ctl.pins.corePgLow = false := by decide

theorem test_no_lane_carries : ∀ l < 512, portOfLane State.reset l = none := by decide +kernel

theorem test_alarm_witness : (atMode .run).ctl.pins.alarmIn = false ∧ alarmWatched (atMode .run) = true := by decide

theorem test_accepted_witness : (rising 5).ctl.pins.alarmRise.isSome = true ∧ (rising 5).ctl.mode = .run
    ∧ (rising 5).ctl.entry = none ∧ (rising 5).ctl.target ≠ some .test ∧ portsIdle (rising 5) := by decide

theorem test_in_force_witness : (atEntry .run).ctl.entry.isSome = true ∧ safeReady (atEntry .run) = true := by decide

theorem test_exit_witness : (atExit 1).ctl.mode = .safelight ∧ (atExit 1).ctl.exit.isSome = true
    ∧ (atExit 1).ctl.deferred = 0 ∧ (atExit 1).dark.now = none := by decide

theorem test_test_witness : unitsOut (atTarget .test) = true ∧ (atTarget .test).ctl.mode = .run
    ∧ (atTarget .test).ctl.target = some .test ∧ (ending (atMode .test)).ctl.mode = .test
    ∧ (ending (atMode .test)).dark.ending = true ∧ (ending (atMode .test)).dark.now = none
    ∧ (ending (atMode .test)).ctl.entry = none := by decide

theorem test_list_witness : (listing (atTarget .test)).ctl.mode = .run ∧ (listing (atTarget .test)).ctl.target = some .test
    ∧ unitsOut (listing (atTarget .test)) = true ∧ (listing (atTarget .test)).dark.scan = false
    ∧ portsIdle (listing (atTarget .test)) ∧ (listing (atTarget .test)).dark.testPort = none
    ∧ (listing (atTarget .test)).dark.now = none
    ∧ (listing (atTarget .test)).dark.list.any (fun j => j.tests != 0) = true := by decide +kernel

theorem test_start_witness : (waiting (atMode .test)).dark.now = none
    ∧ (waiting (atMode .test)).dark.wait = [testJob, testJob] ∧ testMayStart (waiting (atMode .test)) testJob = true
    ∧ portsIdle (waiting (atMode .test)) ∧ hasSecrets testJob = true ∧ testJob.origin = 0 := by decide +kernel

theorem test_unit_result_witness : (underTest testJob (waiting (atMode .test))).dark.now = some testJob
    ∧ testJob.origin = 0 ∧ isPriv testJob.unit = false ∧ (underTest testJob (waiting (atMode .test))).dark.wait ≠ []
    ∧ portsIdle (underTest testJob (waiting (atMode .test))) := by decide +kernel

theorem test_background_witness : getB (cycling pipesOn) (adr pgDark 0x010) 1 = true ∧ (cycling pipesOn).ctl.mode = .run
    ∧ (cycling pipesOn).dark.now = none ∧ (cycling pipesOn).dark.wait = []
    ∧ nextInCycle (cycling pipesOn) 50 (getF (cycling pipesOn) (darkA 0x098) 6 0) = some 1
    ∧ pipeState (cycling pipesOn) 1 = 1 ∧ freeSpares (cycling pipesOn) ≠ [] ∧ posOf (cycling pipesOn) 1 ≠ none := by decide +kernel

theorem test_plain_write_witness : plainWrite (atMode .run) .H 0x018080 ∧ portsIdle (atMode .run)
    ∧ (rowAt 0x018080).isSome = true ∧ aliasOf (atMode .run) 0x018080 = 0x018080
    ∧ (pageInfo (pageOf 0x018080)).kind = .offload := ⟨⟨by decide, rfl⟩, by decide, by decide, by decide, by decide⟩

theorem test_pair_witness : pairCode (adr pgFed 0x088) = 1 ∧ pairCode (adr pgFed 0x088 + 4) = 2
    ∧ pageOf (adr pgFed 0x088 + 4) = pageOf (adr pgFed 0x088) := by decide

theorem test_refused_witness : portsIdle (atMode .run) ∧ writeVerdict (atMode .hold) .H 0x004084 true = .unanswered
    ∧ writeVerdict (atMode .run) .H 0x004084 true = .ignored ∧ writeVerdict (atMode .run) .H 0x3FF080 false = .badAccess
    ∧ writeVerdict (atMode .run) .W 0x004080 true = .denied := by decide
theorem test_rejected_witness : writeVerdict (atTest 0x018) .H (adr pgOffload 0x080) true = .rejected := by decide
theorem test_off_domain_witness : writeVerdict
    { atMode .safelight with pwr := { (atMode .safelight).pwr with off := [71] } } .H (adr pgOffload 0x080) true
      = .offDomain := by decide

theorem test_event_witness : plainWrite (atMode .run) .H (adr pgMode 0x02C) ∧ plainWrite (atMode .run) .H (adr pgMode 0x034)
    ∧ plainWrite (atMode .run) .H (adr pgMode 0x03C) ∧ plainWrite (atMode .run) .H (adr pgMode 0x028)
    ∧ plainWrite (atMode .run) .H (adr pgMode 0x038) ∧ aliasOf (atMode .run) (adr pgMode 0x028) = adr pgMode 0x028 :=
  ⟨⟨by decide, rfl⟩, ⟨by decide, rfl⟩, ⟨by decide, rfl⟩, ⟨by decide, rfl⟩, ⟨by decide, rfl⟩, by decide⟩

theorem test_event_page_witness : pgMode < 0x043 ∧ pgMode ≠ pgIrq := by decide

theorem test_wdog_witness : plainWrite (atMode .run) .M (adr pgSafety 0x010) ∧ portsIdle (atMode .run)
    ∧ wdogCounts (setB (adr pgSafety 0x010) 1 true (atMode .run)) = true
    ∧ linkOn (setCs false (atMode .run)) = true ∧ (atMode .run).pwr.flight = none :=
  ⟨⟨by decide, rfl⟩, by decide, by decide, by decide, rfl⟩

theorem test_link_witness : linkOn (setCs false (atMode .run)) = true ∧ linkOn (atMode .run) = true
    ∧ linkOn (atMode .hold) = false := by decide

theorem test_mask_witness : plainWrite (atMode .run) .H (adr pgMask 0x200)
    ∧ plainWrite (atMode .run) .H (adr pgMask (0x300 + 4 * 63)) := ⟨⟨by decide, rfl⟩, ⟨by decide, rfl⟩⟩

theorem test_pend_witness : plainWrite (atMode .run) .H (adr pgPend 0x200)
    ∧ plainWrite (atMode .run) .H (adr pgPend 0x300) ∧ wordSources 1 0x80000001 = [32, 63] :=
  ⟨⟨by decide, rfl⟩, ⟨by decide, rfl⟩, by decide⟩

theorem test_complete_witness : plainWrite (atMode .run) .H (tgtA 0 0x084)
    ∧ tabFind (atMode .run).irq.service 0 ≠ some (bits 0 10 0)
    ∧ tabFind ({ (atMode .run).irq with service := [(0, 70)] } : Irq).service 0 = some (bits 70 10 0) :=
  ⟨⟨by decide, rfl⟩, by decide, by decide⟩

theorem test_route_witness : plainWrite (atMode .run) .H (adr pgIrq 0x084) := ⟨by decide, rfl⟩

theorem test_eq_witness : plainWrite (atMode .run) .H (tgtA 3 0x0BC) ∧ plainWrite (atMode .run) .H (tgtA 3 0x0A4)
    ∧ ringDist (eqLog2 (atMode .run) 3) (eqCi (atMode .run) 3) (eqPi (atMode .run) 3)
      < ringDist (eqLog2 (atMode .run) 3) (eqCi (atMode .run) 3) (bits 5 16 0 % 2 ^ (eqLog2 (atMode .run) 3 + 1))
    ∧ getB (atMode .run) (tgtA 3 0x0A4) 31 = false
    ∧ getB (setB (tgtA 3 0x0A4) 31 true (atMode .run)) (tgtA 3 0x0A4) 31 = true
    ∧ tabGet (fun _ => 0) (atMode .run).irq.wb 3 = bits 0 16 0 % 2 ^ (eqLog2 (atMode .run) 3 + 1) :=
  ⟨⟨by decide, rfl⟩, ⟨by decide, rfl⟩, by decide, by decide, by decide, by decide⟩

theorem test_adj_witness : plainWrite (atMode .run) .M (timA 0x0B8) ∧ (atMode .run).tim.setAtPps = none
    ∧ stepTaken (atMode .run) 5 = true ∧ (atMode .run).cls.commit = none
    ∧ stepTaken (due .run) 5 = true ∧ (due .run).cls.commit ≠ none
    ∧ stepTaken { atMode .run with tim := { Tim.start with set := true, stepOnce := true } } 5 = false
    ∧ refSel (setF (timA 0x080) 1 0 1 (atMode .run)) = 1 :=
  ⟨⟨by decide, rfl⟩, rfl, by decide, rfl, by decide, by decide, by decide, by decide⟩

theorem test_tick_witness : plainWrite (atMode .run) .H (timA 0x0AC) := ⟨by decide, rfl⟩

theorem test_slew_witness : (slewing 5 5).tim.on = true ∧ (slewing 5 5).tim.r ≠ 0
    ∧ slewTo (slewing (2 ^ 80) (2 ^ 80)) (lockBound (slewing (2 ^ 80) (2 ^ 80))) ≠ none
    ∧ slewTo (slewing (-2 ^ 80) (-2 ^ 80)) disjointBound = some (10000000 * 2 ^ 48 - 2 ^ 80) := by decide

theorem test_pps_witness : (ppsState none 0).tim.on = true ∧ (ppsState none 0).tim.ppsRef = none
    ∧ 999999000 ≤ (ppsState (some 1) 999999001).tim.powered - 1 ∧ (ppsState (some 1) 5).tim.powered - 1 < 999999000 := by
  decide

theorem test_reference_witness : (slewing 0 0).tim.on = true ∧ refSel (setF (timA 0x080) 1 0 2 (slewing 0 0)) = 2
    ∧ pllSrc (setB (timA 0x080) 2 true (slewing 0 0)) = true ∧ getF (setF (timA 0x088) 15 0 5 (slewing 0 0)) (timA 0x088) 15 0 ≠ 0
    ∧ (slewing 0 0).tim.armM = false := by decide

theorem test_distribution_witness : receives 0 = true ∧ (slewing 0 0).tim.on = true ∧ (0 : Nat) ∉ (slewing 0 0).pwr.off
    ∧ (0 : Nat) ∈ ({ (slewing 0 0).tim with acq := [0] } : Tim).acq := by decide

theorem test_arm_witness : plainWrite (atMode .run) .H (chA 7 0x04) ∧ armRefusal (atMode .run) 7 (sampleChan (atMode .run) 7) = 1
    ∧ armRefusal (armable 0) 0 (sampleChan (armable 0) 0) = 0 ∧ chHigh (atMode .run) 0 = false :=
  ⟨⟨by decide, rfl⟩, by decide, by decide, by decide⟩

theorem test_edge_witness : chanOf (armed 3) 3 = some (someChan 16) ∧ (someChan 16).next = some 0
    ∧ (someChan 16).wakes = true ∧ edgeDriven (armed 3) (someChan 16) = false
    ∧ edgeDriven (armed 3) (someChan 4) = true := by decide

theorem test_ring_witness : plainWrite (atMode .run) .H (rdA 0) ∧ plainWrite (atMode .run) .H (rdA 1)
    ∧ plainWrite (atMode .run) .H (rdA 2)
    ∧ ((getReg (atMode .run) (wrA 2)).toNat + 2 ^ 32 - (0 : Word).toNat) % 2 ^ 32 ≤ ringSize (atMode .run) 2
    ∧ ringSize (atMode .run) 1 < ((getReg (atMode .run) (wrA 1)).toNat + 2 ^ 32 - (1 : Word).toNat) % 2 ^ 32 :=
  ⟨⟨by decide, rfl⟩, ⟨by decide, rfl⟩, ⟨by decide, rfl⟩, by decide, by decide⟩

theorem test_region_witness : plainWrite (region 0) .H (adr pgMem 0x088) ∧ plainWrite (region 1) .H (adr pgMem 0x088)
    ∧ (∀ q < 3, q ≠ 1 → bit (word 2) q = regionValid (region 0) q) ∧ bit (word 2) 1 = true
    ∧ (∀ q < 3, q ≠ 1 → bit (word 0) q = regionValid (region 1) q) ∧ bit (word 0) 1 = false
    ∧ regionValid (region 0) 1 = false ∧ regionValid (region 1) 1 = true ∧ userBusy (region 1) 1 = false
    ∧ userBusy (requested (region 1)) 1 = true :=
  ⟨⟨by decide, rfl⟩, ⟨by decide, rfl⟩, by decide, by decide, by decide, by decide, by decide, by decide, by decide, by decide⟩

theorem test_region_refused : regionRefusal (region 0) 1 = some 2 := by
  have z : regionSize (region 0) 1 = 0 := by decide
  have b : regionBase (region 0) 1 = 0 := by decide
  simp [regionRefusal, z, b]

theorem test_region_accepted : regionRefusal (sized (region 0)) 1 = none := by
  have z : regionSize (sized (region 0)) 1 = 2 ^ 31 := by decide
  have b : regionBase (sized (region 0)) 1 = 0 := by decide
  have v : ∀ q < 3, regionValid (sized (region 0)) q = false := by decide
  have d : 2 ^ 31 % 2 ^ Config.grain.toNat = 0 :=
    Nat.mod_eq_zero_of_dvd (Nat.pow_dvd_pow 2 (by have := Config.grain.isLt; omega))
  have o : (List.range 3).any (fun q => q != 1 && regionValid (sized (region 0)) q
      && decide (0 < regionBase (sized (region 0)) q + regionSize (sized (region 0)) q)
      && decide (regionBase (sized (region 0)) q < 0 + 2 ^ 31)) = false := by decide
  simp only [regionRefusal, z, b, d, o]
  simp

theorem test_request_witness : (requested (atMode .run)).irqSane ∧ (requested (atMode .run)).mem.queue = []
    ∧ (requested (atMode .run)).mem.outstanding[0]? = some { user := 1, index := 0, addr := 64, data := [] } := by
  refine ⟨⟨?_, ?_, ?_⟩, rfl, rfl⟩ <;> decide

theorem test_checks_witness : portsServed (atMode .run) = true ∧ permitted false cSafeExit = some [.M]
    ∧ CmdPort.S ∉ [CmdPort.M] ∧ permitted false cSleep = some [.H, .S] ∧ (reqS cSleep).port = .S
    ∧ findTag (reqS cSleep).seq
      [{ seq := (reqS cSleep).seq, code := cSleep, done := some (0, []), dup := false }] ≠ none := by decide

theorem test_sheet_witness : freshAt (atMode .run) .S (from' .S) ∧ freshAt (atMode .run) .M (from' .M)
    ∧ (atMode .run).ctl.mode ≠ .still ∧ (atMode .run).dark.now = none := by decide
theorem test_word_witness : plainWrite (atMode .run) .S (adr pgOffload 0x080) ∧ leField (wordArgs (adr pgOffload 0x080)) 0 4
    = adr pgOffload 0x080 ∧ (wordArgs (adr pgOffload 0x080)).length = 12 ∧ byteAt (wordArgs (adr pgOffload 0x080)) 4 = 1
    ∧ leField (wordArgs (adr pgOffload 0x080)) 5 3 = 0 ∧ (rowAt (adr pgOffload 0x080)).map (fun r => (r.pair, r.rc)) = some (0, 0) :=
  ⟨⟨by decide, rfl⟩, by decide, by decide, by decide, by decide, by decide⟩
theorem test_denied_witness : ∃ x, writeVerdict (atMode .run) .S x true = .denied := ⟨adr (pgFn 0) 0x080, by decide⟩
theorem test_read_witness : readVerdict (atMode .run) .H (adr pgOffload 0x080) true = .served
    ∧ viewOf (atMode .run) .H (pageOf (adr pgOffload 0x080)) (offOf (adr pgOffload 0x080)) = none
    ∧ viewHeader (atMode .run) (pageOf (adr pgOffload 0x080)) (offOf (adr pgOffload 0x080)) = none := by decide

set_option maxRecDepth 20000 in
theorem test_level_witness : freshAt (atMode .run) .S (from' .S) ∧ mapsMeet (atMode .run) 0 = true
    ∧ activity (atMode .run) = false
    ∧ activity { atMode .run with nv := { (atMode .run).nv with write := some [] } } = true := by decide
set_option maxRecDepth 20000 in
theorem test_level_full_witness : mapsMeet (bigPort 3) 3 = false ∧ freshAt (bigPort 3) .S (from' .S) := by decide

set_option maxRecDepth 20000 in
theorem test_safe_cmd_witness : freshAt (atMode .run) .M (from' .M) ∧ freshAt (atMode .safelight) .M (from' .M)
    ∧ (atMode .run).ctl.entry = none ∧ (atMode .run).pwr.slot = none ∧ (atMode .run).ctl.target ≠ some .test
    ∧ (atMode .safelight).ctl.exit = none ∧ (atMode .safelight).ctl.pins.alarmLevel = false
    ∧ exitFits (atMode .safelight) 0 = true := by decide
set_option maxRecDepth 20000 in
theorem test_exit_full_witness : exitFits { bigPort 3 with ctl := (atMode .safelight).ctl } 3 = false := by decide

theorem test_test_cmd_witness : freshAt (atMode .run) .S (from' .S) ∧ freshAt (atMode .test) .S (from' .S)
    ∧ testArgs [1, 0, 0, 0, 3, 1, 0xFF, 1] = some ([{ unit := { type := 3, unit := 1, slice := 0xFF }, tests := 1, origin := 0 }], false)
    ∧ testAllowed (atMode .run) [{ unit := { type := 3, unit := 1, slice := 0xFF }, tests := 1, origin := 0 }] = true
    ∧ testAllowed (atTarget .test) [] = false ∧ testArgs [] = none ∧ (atMode .test).dark.now = none := by decide

theorem test_repair_witness : freshAt (atMode .run) .M (from' .M)
    ∧ (repairArgs [1, 2, 5, 0xFF, 0xFF, 0, 0, 0]).isSome = true ∧ (repairArgs [4, 1, 5, 0xFF, 0x40, 1, 0, 0]).isSome = true
    ∧ (atMode .run).nv.write = none ∧ (atMode .run).fix.mig = none ∧ nvUnderTest (atMode .run) = false := by decide

theorem test_overlay_witness : plainWrite (atMode .run) .H (calA 0x088) ∧ plainWrite (atMode .run) .H (calA 0x0A0)
    ∧ getF (atMode .run) (calA 0x08C) 1 0 ≠ 1 ∧ (atMode .run).nv.restore = none ∧ overlayHour (atMode .run) < 8
    ∧ imageRefusal (slice [] 0 (getF (atMode .run) (calA 0x098) 16 0)) ≠ none
    ∧ plainWrite (setF (calA 0x08C) 1 0 1 (atMode .run)) .H (calA 0x088)
    ∧ getF (setF (calA 0x08C) 1 0 1 (atMode .run)) (calA 0x08C) 1 0 = 1
    ∧ overlayLine (bits 0x80000000 12 0) = false ∧ journalLine (bits 0x80000000 12 0) = none ∧ bit 0x80000000 31 = true :=
  ⟨⟨by decide, rfl⟩, ⟨by decide, rfl⟩, by decide, rfl, by decide, by decide, ⟨by decide, rfl⟩, by decide, by decide, by decide,
    by decide⟩

theorem test_image_witness : getF imageSized (calA 0x098) 16 0 = 20 ∧ plainWrite imageSized .H (calA 0x088)
    ∧ imageRefusal (slice (emptyImage 0) 0 20) = none ∧ overlayHour imageSized < 8 :=
  ⟨by decide, ⟨by decide, rfl⟩, by decide +kernel, by decide⟩

theorem test_overlay_hour_witness : 8 ≤ overlayHour { atMode .run with nv := { (atMode .run).nv with hourCount := 8 } } := by
  decide

theorem test_written_witness : ({ (atMode .run).nv with write := some [] } : Nv).write = some []
    ∧ nvUnderTest { atMode .run with nv := { (atMode .run).nv with write := some [] } } = false
    ∧ nvUnderTest (underTest { testJob with unit := { type := 3, unit := 3, slice := 0xFF } } (atMode .run)) = true := by decide

theorem test_version_witness : freshAt (atMode .run) .S (from' .S) ∧ slotState (atMode .run) 2 = 0
    ∧ (atMode .run).cls.load = none ∧ commitRefusal (loaded 1) 1 false false = none ∧ slotState (loaded 1) 1 = 1
    ∧ commitRefusal { loaded 1 with tim := { (loaded 1).tim with vstate := 1 } } 1 false true = none
    ∧ freshAt (loaded 1) .S (from' .S) ∧ commitRefusal (atMode .run) 1 false false = some 0x20 := by decide

theorem test_load_witness : (loadImage (atMode .run) 1 (smallImage 7).length (slice (smallImage 7) 0 (smallImage 7).length)).isLeft = true := by
  decide +kernel
theorem test_commit_due_witness : (due .run).cls.commit = some { slot := 1, now := none, late := false, before := 0 }
    ∧ (due .run).ctl.mode = .run ∧ (due .still).ctl.mode = .still ∧ slotState (draining1 2) 2 = 3
    ∧ getF (draining1 2) (drainA 2) 23 0 = 0 := by decide

theorem test_sane_witness : (due .run).irqSane ∧ (draining1 2).irqSane ∧ (loaded 1).irqSane := by decide

theorem test_powered_witness : ∃ t, step ((atMode .run).withCommand .alarmInFall) = .next t := ⟨_, rfl⟩

theorem test_proof_witness : portsIdle State.reset ∧ State.reset.ctl.mode = .proof ∧ State.reset.ctl.halted = false
    ∧ State.reset.ctl.proof.step = 0 ∧ (atStep 4).ctl.proof.step = 4 ∧ lbistNext (atStep 4) = false
    ∧ lbistNext { atStep 4 with nv := { (atStep 4).nv with settings := 4 } } = true
    ∧ (atExit 1).ctl.exit.isSome = true := by decide

theorem test_sleep_witness : (sleeping 3).pwr.flight = some { origin := .modeReq .H, sleep := true, value := 3 }
    ∧ (sleeping 3).ctl.mode = .run ∧ (sleeping 3).pwr.entering = false ∧ portsIdle (sleeping 3)
    ∧ drained (sleeping 3) = true ∧ (sleeping 3).pwr.slot = none := by decide

theorem test_wake_witness : (atMode .still).ctl.mode = .still ∧ wakeFits (atMode .still) 1 11 = true
    ∧ wakeFits (atMode .still) 7 0xFF = true ∧ (atMode .still).pwr.wake = none ∧ (woken 3).pwr.wake.isSome = true
    ∧ (woken 3).cmd.stalled = [] ∧ (woken 3).pwr.slot = none ∧ portsIdle (woken 3) := by decide

theorem test_power_reg_witness : plainWrite (atMode .run) .H (adr pgPower 0x0A4) ∧ plainWrite (atMode .run) .H (adr pgPower 0x0A8) :=
  ⟨⟨by decide, rfl⟩, ⟨by decide, rfl⟩⟩

theorem test_sources_witness : State.reset.sourcesReal ∧ (withSource 70).sourcesReal ∧ (withSource 70).irq.pending = [70] := by decide

theorem test_claim_read_witness : readVerdict (atMode .run) .H (tgtA 0 0x080) true = .served
    ∧ candidate (atMode .run) 0 = none ∧ candidate (withSource 70) 64 = some 70
    ∧ tabFind (withSource 70).irq.service 64 = none ∧ readVerdict (withSource 70) .H (tgtA 64 0x080) true = .served := by decide

theorem test_lane_witness : (portAt 2 3).irqSane ∧ clusterOn (atMode .run) 2 = true ∧ clusterOn (inHold Pins.start) 2 = false
    ∧ (6 : BitVec 3) ≠ laneSample (atMode .run) 19 ∧ (1 : BitVec 3) ≠ laneSample (atMode .run) 19
    ∧ portOfLane (upAt 2 3) 19 = some 19 ∧ tabFind (upAt 2 3).rx.merge 19 = none
    ∧ tabFind (upAt 2 3).dp.opened 19 = none ∧ clusterOn (upAt 2 3) 2 = true ∧ getB (upAt 2 3) (laneStA 19) 8 = false ∧ laneSample (upAt 2 3) 19 = 6 := by decide
set_option maxRecDepth 20000 in
theorem test_rise_witness : mayRise (portAt 2 3) 19 = true ∧ (portShape (portAt 2 3) 19).isSome = true
    ∧ mayRise (atMode .run) 19 = false ∧ portUp (upAt 2 3) 19 = true
    ∧ (portShape (upAt 2 3) 19).isSome = true ∧ portLanes (upAt 2 3) 19 = [19] ∧ txQueue (upAt 2 3) 19 = []
    ∧ portShape (atMode .run) 19 = none := by decide

theorem test_reconf_witness : plainWrite (atMode .run) .H (adr (pgCl 2 1) 0x0A0) ∧ home (atMode .run) 2 = 2
    ∧ getF (atMode .run) (recStA 2) 1 0 = 0 := ⟨⟨by decide, rfl⟩, by decide, by decide⟩
set_option maxRecDepth 20000 in
theorem test_reconf_checks_witness :
    reconfRefusal (atMode .run) 2 255 (List.replicate 8 0) false = none
    ∧ reconfRefusal (atMode .run) 2 255 (List.replicate 8 0xFFC0) false ≠ none
    ∧ tabFind (reconfAt 2 255).prt.reconf 2 = some { mask := 255, restarted := false, words := List.replicate 8 0, factory := false, since := 0 }
    ∧ (maskPorts (reconfAt 2 255) 2 255) = [16] ∧ lineBusy (reconfAt 2 255) 16 = false
    ∧ tabFind (reconfAt 2 255).rx.merge 16 = none ∧ tabFind (reconfAt 2 255).dp.opened 16 = none
    ∧ maskPorts (atMode .run) 2 255 = [] := by decide

theorem test_counter_witness : snapOff (pageInfo pgOffload).kind = some 0x0B0 ∧ plainWrite (atMode .run) .H (adr pgOffload 0x0B0)
    ∧ plainWrite (atMode .run) .H (adr pgOffload 0x0B4) ∧ tabWf (fun _ => 0) (atMode .run).win.live
    ∧ pageCounter pgOffload (adr pgOffload 0x088) = true ∧ liveMax (adr pgOffload 0x084) = 2 ^ 32 - 1
    ∧ plainWrite (atMode .run) .H (adr (pgCl 2 3) 0x0A0) ∧ liveMax (rxCnt 16 0) = 2 ^ 64 - 1 :=
  ⟨by decide, ⟨by decide, rfl⟩, ⟨by decide, rfl⟩, by decide, by decide, by decide, ⟨by decide, rfl⟩, by decide⟩

theorem test_loupe_witness : plainWrite (atMode .run) .H (adr pgLoupe 0x080) ∧ plainWrite (atMode .run) .H (lpCfg (128 * 7 + 127))
    ∧ plainWrite (atMode .run) .H (adr (pgBank 7) (0x0C0 + 4 * 3)) ∧ tabWf regReset (atMode .run).win.regs
    ∧ isBankWord 0x800 0xC00 (adr pgLoupe 0x080) = false ∧ isBankWord 0x400 0x800 (lpCfg 0) = false :=
  ⟨⟨by decide, rfl⟩, ⟨by decide, rfl⟩, ⟨by decide, rfl⟩, by decide, by decide, by decide⟩

theorem test_archive_witness : getB (archiving .run) (adr pgLoupe 0x088) 31 = true ∧ regionValid (archiving .run) 0 = true
    ∧ (archiving .run).ctl.mode = .run ∧ (archiving .still).ctl.mode = .still
    ∧ getB (atMode .run) (adr pgLoupe 0x088) 31 = false ∧ (archiving .run).mem.closing.contains 0 = false
    ∧ (nextIndex (archiving .run) 0 + 1 + 2 ^ 32 - (getReg (archiving .run) (rdA 0)).toNat) % 2 ^ 32
      ≤ regionSize (archiving .run) 0 / archLen (archiving .run) := by decide

theorem test_mac_witness : portUp (upAt 2 3) 19 = true ∧ refuses (upAt 2 3) 19 0xD5 0 = false
    ∧ refuses { upAt 2 3 with prt := { (upAt 2 3).prt with stopped := [19] } } 19 0xD5 0 = true
    ∧ tabFind (upAt 2 3).dp.opened 19 = none ∧ tabFind (atMode .run).prt.fell 19 = none
    ∧ portUp (atMode .run) 19 = false ∧ fcsGood (List.replicate 60 0 ++ fcsOf (List.replicate 60 0)) = true
    ∧ isMacCtrl (upAt 2 3) 19 (List.replicate 60 0) = false ∧ addrPass (upAt 2 3) 19 (List.replicate 60 0) = false
    ∧ addrPass (setReg (macA 19 0x08C) 8 (upAt 2 3)) 19 (List.replicate 60 0) = true
    ∧ vlanPass (setReg (macA 19 0x08C) 8 (upAt 2 3)) 19 (List.replicate 60 0) = true
    ∧ bit (secCfg (upAt 2 3) 19) 16 = false ∧ admits (upAt 2 3) 2 = true ∧ (queueOf (upAt 2 3) 2).length < 32 := by
  decide +kernel
theorem test_room_witness : admits (withDp (fun d => { d with cells := [(2, List.replicate 449 { side := 0, first := [], data := [] })] }) (upAt 2 3)) 2 = false := by
  decide +kernel
theorem test_pause_frame_witness :
    isMacCtrl (upAt 2 3) 19 ([0x01, 0x80, 0xC2, 0x00, 0x00, 0x01] ++ List.replicate 6 0 ++ [0x88, 0x08, 0x00, 0x01, 0x00, 0x05] ++ List.replicate 42 0) = true
    ∧ bits (rxCfg (setReg (macA 19 0x08C) 0x100 (upAt 2 3)) 19) 9 8 = 1 := by decide +kernel
theorem test_table_witness : plainWrite (atMode .run) .H (adr (pgCl 2 0) 0x0CC) ∧ home (atMode .run) 2 = 2
    ∧ tblNamed (setReg (adr (pgCl 2 0) 0x0C0) 63 (atMode .run)) 2 = some (0, 0, 63)
    ∧ tblNamed (setReg (adr (pgCl 2 0) 0x0C0) 64 (atMode .run)) 2 = none := ⟨⟨by decide, rfl⟩, by decide, by decide, by decide⟩

set_option maxRecDepth 20000 in
theorem test_deal_witness : dealing pipesOn = true ∧ pipesOn.irqSane ∧ pipesOn.cls.commit = none ∧ nextCluster pipesOn = none
    ∧ nextCluster (withDp (fun d => { d with queues := [(2, [rxFrm 19])] }) pipesOn) = some 2
    ∧ (nextPos pipesOn 48 (pipesOn.dp.lastPos + 1)).isSome = true ∧ dealing (atMode .proof) = false := by decide +kernel
theorem test_boundary_witness : commitRefusal (loaded 1) 1 false false = none ∧ nextCluster (loaded 1) = none
    ∧ (loaded 1).irqSane ∧ dealing (loaded 1) = true := by decide +kernel
theorem test_parse_witness : takeDealt 5 [dealtTo 4 0 19, dealtTo 5 1 19] = some (dealtTo 5 1 19, [dealtTo 4 0 19])
    ∧ takeDealt 5 [dealtTo 4 0 19] = none ∧ seqBelow 1 (expectOf (atMode .run) 19) = false ∧ heldAt (atMode .run) 19 1 = none
    ∧ storeFill (atMode .run) 0 < 8192 ∧ tabGet (fun _ => 0) (atMode .run).dp.overdue 5 = 0
    ∧ (parseFrame (cfgOf (atMode .run) (dealtTo 5 1 19)) (rxFrm 19).data).control = none
    ∧ (parseFrame (cfgOf (atMode .run) (dealtTo 5 1 19)) (rxFrm 19).data).malf = 0
    ∧ (parseFrame (cfgOf (atMode .run) (dealtTo 5 1 19)) (rxFrm 19).data).fedTag = false
    ∧ 0 < tabGet (fun _ => 0) (withDp (fun d => { d with overdue := [(5, 1)] }) (atMode .run)).dp.overdue 5 := by decide +kernel

theorem test_release_witness : (∀ f, f ∈ [Fate.forward none, .punt 3 4] →
      heldAt (withDp (fun d => { d with held := [heldRec 19 0 f] }) (atMode .run)) 19 0 = some (heldRec 19 0 f)
      ∧ isRecord (heldRec 19 0 f) = true) ∧ expectOf (atMode .run) 19 = 0 ∧ safeStopped (atMode .run) 19 = false
    ∧ creditsOf (atMode .run) 2 = 0 ∧ stagedBytes (atMode .run) = 0 ∧ (atMode .run).irqSane
    ∧ gapOf (withDp (fun d => { d with held := [heldRec 19 5 (.forward none)] }) (atMode .run)) 19 = some (5, 5)
    ∧ gapOf (atMode .run) 19 = none ∧ dealing (atMode .run) = true ∧ heldAt (atMode .run) 19 0 = none
    ∧ (stagingTo 3 (atMode .run)).dma.staging.any (fun y => y.queue == 3) = true
    ∧ (atMode .run).dma.staging.any (fun y => y.queue == 3) = false ∧ ctxOn (getQ (atMode .run) true 3).word2 = false := by
  decide +kernel

theorem test_pipe_witness : (∀ q ∈ [1, 2, 3], quarterQuiet pipesOn q) ∧ pipeState pipesOn 5 = 1 ∧ freeSpares pipesOn = [0, 12, 24, 36]
    ∧ posOf pipesOn 5 = some 20 ∧ 0 < inFlight (withDp (fun d => { d with dealt := [dealtTo 5 0 19] }) pipesOn) 5
    ∧ pipesOn.fix.mig = none ∧ pipesOn.fix.queue = [] ∧ inFlight pipesOn 5 = 0 ∧ pipeTestRefusal pipesOn 5 = none
    ∧ pipeTestRefusal pipesOn 48 = some 2 ∧ bits 0x80000005 5 0 = 5 ∧ quarterBusy pipesOn 2 = false
    ∧ quarterOn pipesOn 2 = true ∧ quarterInFlight pipesOn 2 = false ∧ pipesOn.prt.quarterWoken = [] ∧ pipesOn.prt.quarterMoving = []
    ∧ (∀ r ∈ [1, 2, 3], bit 4 r = decide (r = 2)) ∧ quarterOn (setB (adr pgSpread 0x08C) 18 false pipesOn) 2 = false
    ∧ getB (setB (adr pgSpread 0x08C) 2 true pipesOn) (adr pgSpread 0x08C) 2 = true := by decide +kernel
theorem test_spread_write_witness : plainWrite pipesOn .H (adr pgSpread 0x090) ∧ plainWrite pipesOn .H (adr pgSpread 0x08C)
    ∧ plainWrite (atMode .run) .H (adr pgClass 0x080) ∧ plainWrite (atMode .run) .H (adr pgFlow 0x080) :=
  ⟨⟨by decide +kernel, rfl⟩, ⟨by decide +kernel, rfl⟩, ⟨by decide, rfl⟩, ⟨by decide, rfl⟩⟩

theorem test_cell_witness : txMode (upAt 2 3) = true ∧ txUsed (upAt 2 3) 2 = 0 ∧ (upAt 2 3).dma.txq = [] ∧ (upAt 2 3).irqSane
    ∧ leField [19, 0] 0 2 % 512 = 19 ∧ (portShape (upAt 2 3) 19).isSome = true ∧ bit 0x80000000 31 = true
    ∧ portShape (atMode .run) 19 = none ∧ portStop (upAt 2 3) 19 = none ∧ portStop (portAt 2 3) 19 = some 1
    ∧ (portShape (portAt 2 3) 19).isSome = true ∧ txMode (portAt 2 3) = true ∧ isFedCtrl (portAt 2 3) (List.replicate 64 0) = false
    ∧ tripped (upAt 2 3) 19 (firstCell (upAt 2 3) 19 0xC0000000 [19, 0] (List.replicate 64 0)).prio = false ∧ txMode (atMode .proof) = false ∧ tabFind (upAt 2 3).tx.refused 2 = none
    ∧ bits (word (19 * 2 ^ 13)) 21 13 = 19
    ∧ (txQueue (queued [{ txFrm with eof := false }] (upAt 2 3)) 19).find? growing = some { txFrm with eof := false } := by
  decide +kernel
theorem test_commit_witness : txQueue (queued [txFrm] (upAt 2 3)) 19 = [txFrm] ∧ discardOf (queued [txFrm] (upAt 2 3)) 19 txFrm = none
    ∧ portStop (queued [txFrm] (upAt 2 3)) 19 = none ∧ pausedFrm (queued [txFrm] (upAt 2 3)) 19 txFrm = false ∧ ready txFrm = true
    ∧ tabFind (queued [txFrm] (upAt 2 3)).tx.flight 19 = none ∧ bit (secCfg (queued [txFrm] (upAt 2 3)) 19) 16 = false
    ∧ getB (queued [txFrm] (upAt 2 3)) (adr pgClass (0x800 + 4 * 19)) 5 = false
    ∧ pausedFrm { upAt 2 3 with rx := { (upAt 2 3).rx with pause := [(16 * 19 + 8, 1)] } } 19 txFrm = true
    ∧ tabFind (upAt 2 3).tx.gaps 19 = none ∧ lineOctets (upAt 2 3) 19 0 < ipgOf (upAt 2 3) 19 + 4
    ∧ discardOf (queued [txFrm] (atMode .run)) 19 txFrm = some (0xB0, 2) := by decide +kernel
theorem test_end_witness : txEndOf (upAt 2 3) 19 txFrm = .sent ∧ txEndOf (atMode .run) 19 txFrm = .error 0xB0
    ∧ tabFind { (upAt 2 3).tx with flight := [(19, onLine)] }.flight 19 = some onLine ∧ onLine.frm = txFrm ∧ onLine.sec = none := by
  decide +kernel

theorem test_pfc_witness : fcGen (fcAt 2) 19 = 2 ∧ fcGen (fcAt 1) 19 = 1 ∧ txMode (fcAt 2) = true ∧ portStop (fcAt 2) 19 = none
    ∧ tabFind (fcAt 2).tx.flight 19 = none ∧ xoffReq (fcAt 2) 19 = 5 ∧ xoffReq (fcAt 1) 19 = 5 ∧ (fcAt 2).irqSane
    ∧ (fcAt 2).dma.txq = [] ∧ portStop (fcAt 1) 19 = none := by decide +kernel
theorem test_trip_witness : getF (setF (adr (pgCl 2 0) 0x2A0) 9 0 5 (upAt 2 3)) (adr (pgCl 2 0) 0x2A0) 9 0 = 5
    ∧ pauseOf { upAt 2 3 with rx := { (upAt 2 3).rx with pause := [(16 * 19 + 8, 1), (16 * 19, 1)] } } (16 * 19 + 8) = 1
    ∧ isFedCtrl (upAt 2 3) txFrm.data = false ∧ portStop (upAt 2 3) 19 = none ∧ 64 ≤ txFrm.data.length ∧ txFrm.prio = 0 := by
  decide +kernel
theorem test_verify_witness : getF (setVerify 19 1 (setReg (macA 19 0x20C) 0x4000 (upAt 2 3))) (txStA 19) 5 4 = 1
    ∧ mergeTx (setVerify 19 1 (setReg (macA 19 0x20C) 0x4000 (upAt 2 3))) 19 = true ∧ 0 < verifyLimit (upAt 2 3) 2 := by decide +kernel

/-- RUN with transmit SC 3 and receive SC 3 of cluster C02 valid, a staged key and INIT_PN `pn`. -/
def keyed (pn : Nat) : State :=
  setPair (secPg 2 0x140) pn (setReg (secPg 2 0x100) 0x01020304 (setReg (rxScA 2 3) 0x80000000 (setReg (txScA 2 3) 0x80000000
    (atMode .run))))
def rxKey : KeyOp := { op := 1, sc := 3, an := 1 }
def txKey : KeyOp := { op := 2, sc := 3, an := 1 }
/-- The same with transmit SA 1 installed. -/
def installedTx : State := (match exec (.installTxSa .H 2 3 1) (keyed 7) with | .next t => t | _ => keyed 7)
theorem test_key_witness : plainWrite (keyed 7) .H (secPg 2 0x130) ∧ home (keyed 7) 2 = 2 ∧ getF (keyed 7) (secPg 2 0x134) 1 0 ≠ 1
    ∧ keyRefusal (keyed 7) 2 rxKey = 0 ∧ keyRefusal (keyed 7) 2 txKey = 0 ∧ keyRefusal (keyed 0) 2 rxKey = 5
    ∧ keyRefusal (atMode .run) 2 txKey = 2 ∧ keyRefusal (keyed 0) 2 { rxKey with op := 3 } = 0
    ∧ keyRefusal (keyed 0) 2 { txKey with op := 4 } = 0 := ⟨⟨by decide +kernel, rfl⟩, by decide +kernel⟩
theorem test_sa_read_witness : plainWrite (keyed 7) .H (secPg 2 0x148) ∧ plainWrite (keyed 7) .H (txScA 2 3)
    ∧ saGet (keyed 7) (serving (keyed 7) 2) true 3 1 = none ∧ bit 0xC0000301 31 = true
    ∧ txSaUsable (keyed 7) 2 3 1 = false ∧ txSaUsable (setB (txScA 2 3) 1 true (keyed 7)) 2 3 1 = true :=
  ⟨⟨by decide +kernel, rfl⟩, ⟨by decide +kernel, rfl⟩, by decide +kernel⟩
theorem test_installed_witness : (saGet installedTx (serving installedTx 2) (bit 0xC0000301 30) (bits 0xC0000301 13 8)
    (bits 0xC0000301 1 0)).isSome = true := by decide +kernel

/-- RUN with transmit and receive queue 3 and completion ring 7 of function 2 enabled, LOG2_SIZE 6. -/
def ringed (x : Queue) : State :=
  { atMode .run with dma := { (atMode .run).dma with
      txq := [(3, x)], rxq := [(3, x)], cq := [(7, { ring0 with word2 := 0x80600002 })] } }
def q3 : Queue := { queue0 with word2 := 0x80600702 }
theorem test_ring_rows_witness : plainWrite (ringed q3) .H (adr (pgFn 2) 0x100) ∧ plainWrite (ringed q3) .H (adr (pgFn 2) 0x104)
    ∧ plainWrite (ringed q3) .H (adr (pgFn 2) 0x10C) ∧ plainWrite (ringed q3) .H (adr (pgFn 2) 0x108)
    ∧ getQ (ringed q3) true 3 = q3 ∧ ctxFn q3.word2 = 2 ∧ ctxOn q3.word2 = true ∧ ctxK q3.word2 = 6
    ∧ bits (word (3 * 2 ^ 17 + 5)) 28 17 = 3 ∧ ringDist 6 0 5 = 5 ∧ ringDist 6 0 65 = 65 ∧ ringDist 6 10 75 = 65 ∧ ringDist 6 63 75 = 12
    ∧ inReset (ringed q3) 2 = false ∧ dmaRuns (ringed q3) = true :=
  ⟨⟨by decide +kernel, rfl⟩, ⟨by decide +kernel, rfl⟩, ⟨by decide +kernel, rfl⟩, ⟨by decide +kernel, rfl⟩, by decide +kernel⟩
def fetch0 : Fetch := { idx := 0, ci := 0, pi := 5, stable := 0, single := false }
/-- A receive descriptor of 256 bytes. -/
def rxDesc : List Byte := leBytes 4096 8 ++ leBytes 256 2 ++ [0x10] ++ List.replicate 21 0
def posted : Queue := { q3 with pi := 2, pre := [(0, { bytes := rxDesc, usable := true })] }
def reading : HostTx :=
  { first := 0, count := 1, desc := List.replicate 32 0, bufs := [(4096, 64)], phase := 0, data := [], done := [] }
theorem test_fetch_witness : { q3 with fetches := [fetch0] }.fetches[0]? = some fetch0 ∧ q3.fetches[0]? = none
    ∧ readingFrame { q3 with frames := [reading] } = some reading ∧ readingFrame q3 = none
    ∧ leField reading.desc 24 1 % 4 = 0 := by decide +kernel
def holding (x : Queue) : State :=
  { ringed x with dma := { (ringed x).dma with
      staging := [{ queue := 3, reason := 4, port := 19, data := List.replicate 60 0, side := [] }] } }
theorem test_delivery_witness : (match fitFrom posted 128 posted.next 60 [] with | .fits l => l == [rxDesc] | _ => false) = true
    ∧ rxRefusal (holding posted) 3 60 = none
    ∧ ctxOn { q3 with word2 := 0 }.word2 = false ∧ dmaRuns (holding posted) = true := by decide +kernel

theorem test_reset_witness : plainWrite (ringed q3) .H (fnA 2 0x080) ∧ bit 0x80000001 31 = true ∧ inReset (ringed q3) 2 = false
    ∧ fnQueues (ringed q3) true 2 = [3] ∧ inReset (setReg (fnA 2 0x084) 1 (ringed q3)) 2 = true
    ∧ fnBusy (setReg (fnA 2 0x084) 1 (ringed q3)) 2 = false ∧ (∀ e ∈ (ringed q3).dma.txq, ∀ h ∈ e.2.frames, h.phase ≠ 1)
    ∧ fnBusy (setReg (fnA 2 0x084) 1 (ringed { q3 with fetches := [fetch0] })) 2 = true
    ∧ plainWrite (setReg (fnA 2 0x084) 1 (ringed q3)) .H (fnA 2 0x080) :=
  ⟨⟨by decide +kernel, rfl⟩, by decide, by decide +kernel, by decide +kernel, by decide +kernel, by decide +kernel, by decide,
    by decide +kernel, ⟨by decide +kernel, rfl⟩⟩
/-- RUN with CTX_ADDR of type `ty`, number 4, the staged context enabled for function 2 and ring 7. -/
def ctxAt (ty : Nat) : State :=
  setReg (ctxA 2) 0x80600702 (setReg (adr (pgDma 0) 0x080) (word (ty * 2 ^ 28 + 4)) (ringed q3))
theorem test_ctx_witness : plainWrite (ctxAt 1) .H (adr (pgDma 0) 0x084) ∧ ctxType (ctxAt 1) = 1 ∧ ctxNumber (ctxAt 1) = 4
    ∧ ctxType (ctxAt 3) = 3 ∧ plainWrite (ctxAt 3) .H (adr (pgDma 0) 0x084)
    ∧ ctxRefusal (ctxAt 1) 1 (getQ (ctxAt 1) true 4).word2 (ctxWord2 1 (getReg (ctxAt 1) (ctxA 2) &&& 0xE1FFFFFF)) = 0
    ∧ ctxRefusal (ctxAt 1) 1 q3.word2 (ctxWord2 1 (getReg (ctxAt 1) (ctxA 2) &&& 0xE1FFFFFF)) = 1 :=
  ⟨⟨by decide +kernel, rfl⟩, by decide +kernel, by decide +kernel, by decide +kernel, ⟨by decide +kernel, rfl⟩,
    by decide +kernel, by decide +kernel⟩
/-- Mode `m` with unit 5 set up for a job of width `w` over `len` bytes. -/
def cvSet (m : Mode) (w len : Nat) : State := setReg (cvA 5 0x0A4) (word len) (setReg (cvA 5 0x080) (word w) (atMode m))
def cvBusy : State := (match exec (.cvJobStart .H 5) (cvSet .run 16 8) with | .next t => t | _ => cvSet .run 16 8)
set_option maxRecDepth 20000 in
theorem test_cv_witness : plainWrite (cvSet .run 16 8) .H (cvA 5 0x0AC) ∧ plainWrite cvBusy .H (cvA 5 0x0AC)
    ∧ plainWrite (cvSet .safelight 16 8) .H (cvA 5 0x0AC) ∧ getF (cvSet .run 16 8) (cvA 5 0x080) 6 0 = 16
    ∧ getF (cvSet .run 16 8) (cvA 5 0x0A4) 27 0 = 8 ∧ getF (cvSet .run 16 8) (cvA 5 0x0B0) 1 0 = 0
    ∧ getF cvBusy (cvA 5 0x0B0) 1 0 = 1 ∧ (tabFind cvBusy.dma.jobs 5).isSome = true
    ∧ getF (cvSet .run 0 8) (cvA 5 0x080) 6 0 = 0 ∧ getF (cvSet .run 16 0) (cvA 5 0x0A4) 27 0 = 0 :=
  ⟨⟨by decide +kernel, rfl⟩, ⟨by decide +kernel, rfl⟩, ⟨by decide +kernel, rfl⟩, by decide +kernel⟩

/-- Ring and pipes at home, planned repairs on. -/
def repairOn : State := setReg (adr pgFixer 0x010) 3 pipesOn
/-- A decision about pipe PP05 at the head of the queue. -/
def planned (b : Bool) : Decision := { newDecision (pipeId 5) 0 1 with testOnly := b }
def deciding (b : Bool) : State := { repairOn with fix := { repairOn.fix with queue := [planned b] } }
/-- PP05 migrates to PP00, at step `n`. -/
def migrating (n : Nat) : Migration := { dec := planned false, spare := 0, step := n, failed := [] }
def moving (n : Nat) : State := { repairOn with fix := { repairOn.fix with mig := some (migrating n) } }
/-- A slice of cluster C02 migrates to its slice 8; cluster C02 to C64. -/
def movingSlice : State := { repairOn with fix := { repairOn.fix with
  mig := some { migrating 2 with dec := { planned false with unit := sliceId 2 3 }, spare := 8 } } }
def movingCluster : State := { repairOn with fix := { repairOn.fix with
  mig := some { migrating 2 with dec := { planned false with unit := clusterId 2 }, spare := 64 } } }
def fated (u : UnitId) (pass : Bool) : State := { repairOn with fix := { repairOn.fix with tested := [(u, pass)] } }
theorem test_monitor_witness : repairing repairOn = true ∧ repairing (atMode .proof) = false ∧ sampled repairOn (pipeId 5) = true
    ∧ sampled repairOn (pipeId 0) = false ∧ inService repairOn (pipeId 5) = true ∧ inMigration repairOn (pipeId 5) = false
    ∧ queuedUnit repairOn (pipeId 5) = false ∧ repairOn.fix.queue = [] ∧ repairOn.irqSane
    ∧ bits (getReg repairOn (adr pgFixer 0x0A0)) 15 8 ≤ 255 ∧ getB repairOn (adr pgFixer 0x010) 1 = true := by decide +kernel
theorem test_monitor_limit_witness : decisionSecs (getF repairOn (adr pgFixer 0x0A4) 15 8) ≤ 60
    ∧ 0 < decisionSecs (getF repairOn (adr pgFixer 0x0A4) 15 8) ∧ 0 < decisionSecs (getF repairOn (adr pgFixer 0x0A4) 7 0) := by
  decide +kernel
set_option maxRecDepth 20000 in
theorem test_decision_witness : firstDecision (deciding false) (deciding false).fix.queue = some (planned false)
    ∧ firstDecision (deciding true) (deciding true).fix.queue = some (planned true) ∧ (deciding false).dark.now = none
    ∧ (match chooseSpare (deciding false) (planned false) [] with | .use u x => u == pipeId 5 && x == 0 | _ => false) = true
    ∧ inService (deciding false) (pipeId 5) = true ∧ firstDecision repairOn repairOn.fix.queue = none := by decide +kernel
set_option maxRecDepth 20000 in
theorem test_no_spare_witness :
    (match chooseSpare (pipesAt (fun _ => 1)) (planned false) [] with | .none => true | _ => false) = true := by decide +kernel
theorem test_migration_witness : compares (migrating 1).dec = true ∧ awaitsReconf (moving 1) (pipeId 5) = false
    ∧ maySwitch (moving 2) (migrating 2) = true ∧ maySwitch (moving 4) (migrating 4) = false ∧ (migrating 2).dec.forced = false
    ∧ posOf (moving 2) 5 = some 20 ∧ (migrating 2).dec.kind = 0 ∧ (migrating 2).dec.op = 0 := by decide +kernel
theorem test_switch_witness : (∀ m, movingSlice.fix.mig = some m → maySwitch movingSlice m = true ∧ m.dec.unit.slice = 3)
    ∧ (∀ m, movingCluster.fix.mig = some m → maySwitch movingCluster m = true ∧ m.dec.unit = clusterId 2)
    ∧ home movingCluster 2 = 2 := by
  refine ⟨fun m h => ?_, fun m h => ?_, by decide +kernel⟩
  · obtain rfl : _ = m := by simpa [movingSlice] using h
    exact ⟨by decide +kernel, rfl⟩
  · obtain rfl : _ = m := by simpa [movingCluster] using h
    exact ⟨by decide +kernel, rfl⟩
theorem test_fate_witness : (fateOf (fated (pipeId 0) true) (pipeId 0)).1.op = 0
    ∧ (unitMap (fated (pipeId 0) true) (pipeId 0)).hardBefore = false
    ∧ tabGet (fun _ => 0) (fated (pipeId 0) true).fix.causes (unitKey (pipeId 0)) ∉ [1, 2] ∧ posOf (fated (pipeId 0) true) 0 = none
    ∧ isHome (clusterId 64) = false ∧ isHome (clusterId 2) = true
    ∧ stoodFor { repairOn with prt := { repairOn.prt with standIn := [(64, 2)] } } (clusterId 2) = true := by decide +kernel
/-- RUN in the second hour. -/
def secondHour : State := { atMode .run with tim := { (atMode .run).tim with powered := hourNs } }
/-- 32 bytes of the store at `a`. -/
def bytesAt (a : Nat) (l : List Byte) : Tab Byte := (List.range 32).map (fun i => (a + i, l.getD i 0))
/-- RUN, with journal entry 0 whole in both copies and entry 1 in none. -/
def journalled : State :=
  let x := List.replicate 28 0 ++ leBytes (crc32c (List.replicate 28 0)) 4
  { atMode .run with nv := { (atMode .run).nv with
      cells := bytesAt (jrnlAddr false 0) x ++ bytesAt (jrnlAddr false 1) [] ++ bytesAt (jrnlAddr true 0) x ++ bytesAt (jrnlAddr true 1) [] } }
theorem test_journal_witness : secondHour.tim.powered / hourNs ≠ secondHour.fix.hour ∧ secondHour.fix.heldJrnl = []
    ∧ (atMode .run).tim.powered / hourNs = (atMode .run).fix.hour ∧ plainWrite journalled .M (adr pgFixer 0x0C0)
    ∧ (entryCopy journalled false 0).isSome = true ∧ (entryCopy journalled true 0 = entryCopy journalled false 0)
    ∧ entryCopy journalled false 1 = none ∧ entryCopy journalled true 1 = none := by
  refine ⟨by decide, rfl, by decide, ⟨by decide +kernel, rfl⟩, by decide +kernel⟩

/-- Member 1 of a federation of 4, port 19 up with the federation role. -/
def federated : State :=
  let s := setReg (fedA 0x084) 4 (setF (fedA 0x080) 9 0 1 (upAt 2 3))
  { s with nv := { s.nv with roles := [(19, 1)] } }
/-- A frame of member `m` with sequence 7, its octets 8 to 11 as given. -/
def fedBody (m : Nat) (l : List Byte) : List Byte :=
  beBytes 0 2 ++ [0x04, 0x00] ++ beBytes m 2 ++ beBytes 7 2 ++ l ++ List.replicate 52 0
/-- Member 2 was heard with sequence `n`. -/
def heard (n : Nat) (here : Bool) : State :=
  { federated with fed := { federated.fed with
      members := [(2, { body := List.replicate 64 0, lastNs := 0, present := here, startTag := 0, hbSeq := n })] } }
set_option maxRecDepth 20000 in
theorem test_federation_witness : fedEnabled federated = true ∧ fedActive federated = true ∧ fedHears federated 19 = true
    ∧ fedHears (atMode .run) 19 = false ∧ portsIdle federated ∧ federated.irqSane ∧ ownId federated = 1
    ∧ beField (fedBody 2 [0, 0, 0, 0]) 4 2 = 2 ∧ beField (fedBody 2 [0, 0, 0, 0]) 6 2 = 7 := by decide +kernel
theorem test_federation_port_witness : (portShape federated 19).isSome = true ∧ portStop federated 19 = none
    ∧ tripped federated 19 (bits (getReg federated (fedA (0x800 + 4 * 19))) 10 8) = false ∧ fedPorts federated = [19] := by
  decide +kernel
theorem test_heartbeat_witness : fedSize federated = 4 ∧ tabFind federated.fed.members 2 = none
    ∧ federated.fed.recent.contains 7 = false ∧ seqNew 7 7 = false ∧ seqNew 7 6 = true
    ∧ (byteAt (fedBody 2 [0, 8, 0, 0]) 9).getLsbD 3 = true ∧ tabFind federated.fed.pairs 2 = none
    ∧ (byteAt (fedBody 2 [0, 0, 0, 0]) 9).getLsbD 3 = false ∧ (tabFind (heard 7 true).fed.members 2).isSome = true
    ∧ federated.ctl.entry = none ∧ federated.ctl.halted = false := by decide +kernel
theorem test_notice_witness : ∀ q, (portOf federated q).exec = none ∧ (portOf federated q).wait = none := by
  intro q
  cases q <;> exact ⟨rfl, rfl⟩
theorem test_relay_witness : beField (fedBody 2 [0, 0, 0, 1]) 10 2 = 1
    ∧ (relayedReq 19 2 7 (fedBody 2 [0, 0, 0, 1])).isSome = true ∧ relayedReq 19 2 7 ((fedBody 2 [0, 0, 0, 1]).take 19) = none
    ∧ tabFind federated.fed.relayCmd 2 = none ∧ tabFind federated.fed.relayResp (2 * 65536 + 1) = none := by decide +kernel
theorem test_member_witness : plainWrite (heard 7 true) .H (fedA 0x0B4) ∧ plainWrite federated .H (fedA 0x0B4)
    ∧ bits 0x80000002 9 0 = 2 ∧ tabFind federated.fed.members 2 = none ∧ bit 0x80000002 31 = true :=
  ⟨⟨by decide +kernel, rfl⟩, ⟨by decide +kernel, rfl⟩, by decide +kernel⟩

/-! ### A command that no transport can hand over is refused -/

/-- A cluster, a pipe and a slice numbered past Tables 17.1 and 20.1, and a unit of no type. -/
def badUnits : List UnitId := [clusterId 66, pipeId 48, { type := 0, unit := 3, slice := 9 }, { type := 5, unit := 0, slice := 0xFF }]

theorem test_ill_units : badUnits.all (fun u => !unitOk u
    && !(Instr.lockstepMiscompare u).wellFormed && !(Instr.uncorrectableError u .unused).wellFormed
    && !(Instr.agingSample [{ unit := u, slow := 0, ecc := 0 }]).wellFormed) = true := by decide

theorem test_ill_proof_report : (Instr.proofStepDone
    { mapA := true, mapB := true, factA := true, factB := true, userA := true, userB := true,
       mgmtBad := false, fwBad := false, failed := [clusterId 66], repaired := 0 }).wellFormed = false := by decide

/-- A lock-step checker sits on pipes and privileged units; a whole cluster has none (Table 19.2). -/
theorem test_ill_lockstep : (Instr.lockstepMiscompare (clusterId 3)).wellFormed = false := by decide

/-- Arrivals no port makes: a broken mailbox command, a source on H, S or M, SHEET_REQ off H, a member or an address too wide. -/
def badArrivals : List Arrival :=
  [{ from' .H with whole := false }, { from' .H with source := 1 }, { from' .S with whole := false }, { from' .S with sheetReq := true },
    { from' .S with source := 1 }, { from' .M with sheetReq := true }, { from' .M with source := 1 },
    { from' .F with sheetReq := true }, { from' .F with source := 2 ^ 16 }, { from' .W with sheetReq := true },
    { from' .W with source := 2 ^ 48 }]

/-- Each command that arrives at a port. -/
def arriving (a : Arrival) (l : List Byte) : List Instr :=
  [.contactSheet a l, .regRead a l none, .regWrite a l, .setLevel a l, .sleep a l, .safelightEnter a l, .safelightExit a l,
    .testStart a l, .testAbort a l, .timeStepArm a l, .forceRepairMigrate a l, .forceRepairReturn a l, .forceRepairCondemn a l,
    .forceRepairReinstate a l, .restoreFactory a l, .versionLoad a l, .versionCommitNow a 0 l, .versionCommitAtTime a 0 l,
    .versionDiscard a 0 l]

theorem test_ill_arrivals : badArrivals.all (fun a => (arriving a []).all (fun i => !i.wellFormed)) = true := by decide

/-- 512 octets do not fit ARG_LEN on H, and 257 do not fit LENGTH elsewhere (R68, R73). -/
theorem test_ill_lengths (l m : List Byte) (hl : l.length = 512) (hm : m.length = 257) :
    (∀ i ∈ arriving (from' .H) l, i.wellFormed = false) ∧ ∀ i ∈ arriving (from' .S) m, i.wellFormed = false := by
  constructor <;> intro i hi <;> simp only [arriving, List.mem_cons, List.not_mem_nil, or_false] at hi <;>
    rcases hi with rfl | rfl | rfl | rfl | rfl | rfl | rfl | rfl | rfl | rfl | rfl | rfl | rfl | rfl | rfl | rfl | rfl | rfl | rfl <;>
    simp [Instr.wellFormed, Sys2Proof.argsOk, from', hl, hm]

theorem test_ill_lengths_witness : (List.replicate 512 (0 : Byte)).length = 512 ∧ (List.replicate 257 (0 : Byte)).length = 257 := by
  rw [List.length_replicate, List.length_replicate]; exact ⟨rfl, rfl⟩

theorem test_ill_sheet_request : (Instr.contactSheet { from' .H with sheetReq := true } [1]).wellFormed = false := by decide

/-- A register access belongs to port H, with no argument of its own and not through SHEET_REQ. -/
theorem test_ill_access : (Instr.regRead (from' .S) [] (some (0, true))).wellFormed = false
    ∧ (Instr.regRead (from' .H) [0] (some (0, true))).wellFormed = false
    ∧ (Instr.regRead { from' .H with sheetReq := true } [] (some (0, true))).wellFormed = false := by decide

/-- Data longer than the transfer that hands it, for each length check. -/
theorem test_ill_data (l : List Byte) (n : Nat) (h : l.length = 2 ^ 32 + n + 1) :
    (Instr.versionLoadComplete (some l)).wellFormed = false ∧ (Instr.cvJobDone 0 (some l)).wellFormed = false
    ∧ (Instr.descriptorFetchDone true 0 0 (some l)).wellFormed = false ∧ (Instr.txHostFrameFetched 0 (some l)).wellFormed = false
    ∧ (Instr.calWriteOverlay .H 0 (some l)).wellFormed = false ∧ (Instr.rxFrame 0 0 0 l false false ⟨0, 0⟩).wellFormed = false
    ∧ (Instr.heartbeatReceive 0 l false).wellFormed = false ∧ (Instr.relayedCommand 0 l false).wellFormed = false
    ∧ (Instr.relayedResponse 0 l false).wellFormed = false ∧ (Instr.txCellAccept 0 0 l l).wellFormed = false := by
  simp [Instr.wellFormed, bytesOk, h]; omega

theorem test_ill_data_witness : (List.replicate (2 ^ 32 + 0 + 1) (0 : Byte)).length = 2 ^ 32 + 0 + 1 := by
  rw [List.length_replicate]

/-- An age past 64 bits, a short cell, a cluster failing twice, more patterns than a run has, and windows wider than a port. -/
theorem test_ill_operands : (Instr.rxFrame 0 0xFB 0 [] false false ⟨2 ^ 64, 0⟩).wellFormed = false
    ∧ (Instr.txCellAccept 0 0 [0] []).wellFormed = false ∧ (Instr.wakeComplete 0 [3, 3]).wellFormed = false
    ∧ (Instr.darkslideUnitResult
        { mbistFail := false, lbistFail := false, restoreBad := false, patterns := 65537, signature := 0,
          failMask := 0, rows := 0 }).wellFormed = false
    ∧ (Instr.degradeWindowEnd 0
        { codewords := 0, corrected := 0, uncorrected := 0, symbols := 0, pcsErr := 0, deskew := 0,
          hist := List.replicate 16 0, laneSymbols := [] }).wellFormed = false
    ∧ (Instr.degradeWindowEnd 0
        { codewords := 0, corrected := 0, uncorrected := 0, symbols := 0, pcsErr := 0, deskew := 0,
          hist := [], laneSymbols := List.replicate 9 0 }).wellFormed = false := by decide

set_option maxRecDepth 5000 in
/-- The checks let through what the transports do hand over. -/
theorem test_well_formed : ([CmdPort.H, .S, .M, .F, .W].all (fun p => (arriving (from' p) [0]).all Instr.wellFormed)
    && (Instr.regRead (from' .H) [] (some (0, true))).wellFormed && (Instr.rxFrame 0 0xFB 0 [0] false false ⟨64, 0⟩).wellFormed
    && (Instr.lockstepMiscompare (pipeId 3)).wellFormed && (Instr.txCellAccept 0 0 (List.replicate 32 0) (List.replicate 256 0)).wellFormed)
    = true := by decide

/-! ### Check values the spec states -/

/-- The nine ASCII octets "123456789". -/
def checkOctets : List Byte := (List.range 9).map (fun i => BitVec.ofNat 8 (0x31 + i))

set_option maxRecDepth 20000 in
/-- Chapter 16's worked example and R381. -/
theorem test_check_values : crc32c checkOctets = 0xE3069283 ∧ crc64 checkOctets = 0x995DC9BBDF1939FA := by decide

end Sys2Proof.Machine
end

section
namespace Sys2Proof.Machine

/-- Bit `n` of a word after its field [hi:lo] is replaced. -/
theorem getLsbD_putBits (w : Word) (hi lo v n : Nat) :
    (putBits w hi lo v).getLsbD n
      = if lo ≤ n ∧ n < hi + 1 ∧ n < 32 then v.testBit (n - lo) else w.getLsbD n := by
  have hm : ∀ k, (((2 ^ k - 1) * 2 ^ lo).testBit n) = (decide (lo ≤ n) && decide (n - lo < k)) := by
    intro k
    rw [Nat.testBit_mul_two_pow, Nat.testBit_two_pow_sub_one]
  have hv : ∀ k, ((v % 2 ^ k * 2 ^ lo).testBit n) = (decide (lo ≤ n) && (decide (n - lo < k) && v.testBit (n - lo))) := by
    intro k
    rw [Nat.testBit_mul_two_pow, Nat.testBit_mod_two_pow]
  simp only [putBits, BitVec.getLsbD_or, BitVec.getLsbD_and, BitVec.getLsbD_not, BitVec.getLsbD_ofNat, hm, hv]
  by_cases h32 : n < 32
  · by_cases hl : lo ≤ n
    · by_cases hh : n < hi + 1
      · have : n - lo < hi + 1 - lo := by omega
        simp [h32, hl, hh, this]
      · have : ¬ n - lo < hi + 1 - lo := by omega
        simp [h32, hl, hh, this]
    · simp [h32, hl]
  · simp [h32, BitVec.getLsbD_of_ge w n (by omega)]

/-- Bit `i` of a field read as a number. -/
theorem testBit_bits (w : Word) (hi lo i : Nat) :
    (bits w hi lo).testBit i = (decide (i < hi + 1 - lo) && w.getLsbD (lo + i)) := by
  rw [bits, Nat.testBit_mod_two_pow, Nat.testBit_div_two_pow, BitVec.testBit_toNat, Nat.add_comm i lo]

theorem bits_lt (w : Word) (hi lo : Nat) : bits w hi lo < 2 ^ (hi + 1 - lo) := Nat.mod_lt _ (Nat.two_pow_pos _)

/-- A field read back after it is written. -/
theorem bits_putBits_same (w : Word) {hi lo : Nat} (v : Nat) (h : hi < 32) :
    bits (putBits w hi lo v) hi lo = v % 2 ^ (hi + 1 - lo) := by
  refine Nat.eq_of_testBit_eq fun i => ?_
  rw [testBit_bits, Nat.testBit_mod_two_pow]
  by_cases hi' : i < hi + 1 - lo
  · rw [getLsbD_putBits, if_pos ⟨by omega, by omega, by omega⟩, Nat.add_sub_cancel_left]
  · simp [hi']

/-- Writing one field leaves a disjoint one alone. -/
theorem bits_putBits_other (w : Word) {hi lo hi' lo' : Nat} (v : Nat) (h : hi < lo' ∨ hi' < lo) :
    bits (putBits w hi lo v) hi' lo' = bits w hi' lo' := by
  refine Nat.eq_of_testBit_eq fun i => ?_
  rw [testBit_bits, testBit_bits]
  by_cases hi'' : i < hi' + 1 - lo'
  · rw [getLsbD_putBits, if_neg (by omega)]
  · simp [hi'']

theorem getLsbD_putBit (w : Word) (n m : Nat) (b : Bool) :
    (putBit w n b).getLsbD m = if m = n ∧ n < 32 then b else w.getLsbD m := by
  rw [putBit, getLsbD_putBits]
  by_cases h : m = n
  · subst h
    by_cases h32 : m < 32
    · cases b <;> simp [h32]
    · simp [h32]
  · simp only [h, false_and, if_false, ite_eq_right_iff]
    omega

theorem getF_lt (s : State) (a hi lo : Nat) : getF s a hi lo < 2 ^ (hi + 1 - lo) := bits_lt _ _ _

theorem getF_setF_same (a v : Nat) {hi lo : Nat} (s : State) (h : hi < 32) :
    getF (setF a hi lo v s) a hi lo = v % 2 ^ (hi + 1 - lo) := by
  rw [getF, setF, getReg_setReg_same, bits_putBits_same _ _ h]

theorem getF_setF_field (a v : Nat) {hi lo hi' lo' : Nat} (s : State) (h : hi < lo' ∨ hi' < lo) :
    getF (setF a hi lo v s) a hi' lo' = getF s a hi' lo' := by
  rw [getF, setF, getReg_setReg_same, bits_putBits_other _ _ h, getF]

theorem getF_setF_other {a b : Nat} (v : Nat) {hi lo hi' lo' : Nat} (s : State) (h : b ≠ a) :
    getF (setF a hi lo v s) b hi' lo' = getF s b hi' lo' := by
  rw [getF, getReg_setF_other _ _ _ _ h, getF]

theorem satAdd_le (m a b : Nat) : satAdd m a b ≤ m := by
  unfold satAdd
  split <;> omega

/-- A saturating count read back after a count. -/
theorem getF_addF_same (a n : Nat) {hi lo : Nat} (s : State) (h : hi < 32) :
    getF (addF a hi lo n s) a hi lo = satAdd (2 ^ (hi + 1 - lo) - 1) (getF s a hi lo) n := by
  rw [addF, getF_setF_same _ _ _ h, Nat.mod_eq_of_lt]
  have := satAdd_le (2 ^ (hi + 1 - lo) - 1) (getF s a hi lo) n
  have := Nat.two_pow_pos (hi + 1 - lo)
  omega

theorem getF_congr {s t : State} {a : Nat} (h : getReg t a = getReg s a) (hi lo : Nat) : getF t a hi lo = getF s a hi lo := by
  rw [getF, h, getF]

theorem getB_congr {s t : State} {a : Nat} (h : getReg t a = getReg s a) (n : Nat) : getB t a n = getB s a n := by
  rw [getB, h, getB]

theorem getB_setB_same (a n : Nat) (b : Bool) (s : State) (h : n < 32) : getB (setB a n b s) a n = b := by
  rw [getB, setB, setF, getReg_setReg_same, bit, getLsbD_putBits, if_pos ⟨Nat.le_refl _, by omega, h⟩]
  cases b <;> simp [flag]

theorem getB_setB_bit {a n m : Nat} (b : Bool) (s : State) (h : m ≠ n) : getB (setB a n b s) a m = getB s a m := by
  rw [getB, setB, setF, getReg_setReg_same, bit, getLsbD_putBits, if_neg (by omega), getB, bit]

theorem getB_setB_other {a b : Nat} (n m : Nat) (v : Bool) (s : State) (h : b ≠ a) :
    getB (setB a n v s) b m = getB s b m := getB_congr (getReg_setB_other n v s h) m

end Sys2Proof.Machine
end

section
namespace Sys2Proof.Machine

/-- Settles O6. -/
theorem resetState : Obligations.ResetState :=
  ⟨by decide, rfl, rfl, rfl, rfl, reset_tablesWf, fun _ => rfl⟩

/-- HOLD keeps STRAP, MEM_STATUS, CHANNEL_STATUS of PG_FLOWKEY and the hourly journal count, and no other register. -/
theorem enteredHold_holdState (pins : Pins) (s : State) (h : pins.strap = s.ctl.pins.strap) :
    enteredHold s (holdState pins s) := by
  have hadr : adr pgCmd 0x0A0 = 0x20A0 ∧ adr pgMem 0x084 = 0xB0084 ∧ adr pgFlow 0x090 = 0x2B5090 ∧ jrnlA = 0x60AC := by decide
  obtain ⟨hc, hm, hf, hj⟩ := hadr
  refine ⟨rfl, rfl, rfl, rfl, rfl, rfl, rfl, rfl, rfl, rfl, rfl, ?_, ?_, ?_, ?_, ?_⟩
  · intro a h1 h2 h3 h4
    simp only [holdState]
    rw [getReg_setReg_other _ _ h1, getReg_setReg_other _ _ h2, getReg_setF_other _ _ _ _ h3, getReg_setF_other _ _ _ _ h4]
    rfl
  · rw [holdState, getReg_setReg_same, h]
  · simp only [holdState]
    rw [getReg_setReg_other _ _ (by omega), getReg_setReg_same]
  · simp only [holdState]
    rw [getF_congr (getReg_setReg_other _ _ (by omega)), getF_congr (getReg_setReg_other _ _ (by omega)),
      getF_setF_same _ _ _ (by decide), Nat.mod_eq_of_lt (getF_lt _ _ _ _)]
  · simp only [holdState]
    rw [getF_congr (getReg_setReg_other _ _ (by omega)), getF_congr (getReg_setReg_other _ _ (by omega)),
      getF_setF_other _ _ (by omega), getF_setF_same _ _ _ (by decide), Nat.mod_eq_of_lt (getF_lt _ _ _ _)]

/-- Settles O8. -/
theorem holdIsEntered : Obligations.HoldIsEntered := fun s =>
  ⟨⟨_, rfl, enteredHold_holdState _ s rfl, rfl, rfl⟩, ⟨_, rfl, enteredHold_holdState { holdPins s.ctl.pins with corePgLow := true } s rfl, rfl, rfl⟩,
    ⟨_, rfl, enteredHold_holdState _ s rfl, rfl, rfl⟩⟩

end Sys2Proof.Machine
end

section
namespace Sys2Proof.Machine

/-! ### Events in a complex that is awake -/

/-- The mode sequencer and the power controller, but for a wake put on record while sleep is entered (R327). -/
def State.watch (s : State) : Ctl × Pwr := (s.ctl, if s.pwr.entering then { s.pwr with wake := none } else s.pwr)

/-- Not asleep: an interrupt edge starts no wake. -/
abbrev State.calm (s : State) : Prop := s.ctl.mode ≠ .still

theorem watch_split {s t : State} (h : t.watch = s.watch) (he : s.pwr.entering = false) :
    t.ctl = s.ctl ∧ t.pwr = s.pwr := by
  obtain ⟨hc, hp⟩ := Prod.mk.inj h
  rw [he] at hp
  refine ⟨hc, ?_⟩
  split at hp
  · rename_i ht
    have h1 : t.pwr.entering = s.pwr.entering := congrArg (fun x => x.entering) hp
    rw [he, ht] at h1
    cases h1
  · exact hp

theorem calm_of_watch {s t : State} (h : t.watch = s.watch) (hs : s.calm) : t.calm := by
  obtain ⟨hc, hp⟩ := Prod.mk.inj h
  rwa [State.calm, hc]

theorem lpAdd_watch (f c n : Nat) (s : State) : (lpAdd f c n s).1.watch = s.watch := by
  induction f generalizing c n s with
  | zero => rfl
  | succ f ih =>
    simp only [lpAdd]
    split
    · rfl
    · split
      · rfl
      · split
        · rw [ih]; rfl
        · rfl

theorem lpAddAll_watch (n : Nat) (l : List Nat) (s : State) : (lpAddAll n l s).1.watch = s.watch := by
  induction l generalizing s with
  | nil => rfl
  | cons c r ih =>
    simp only [lpAddAll]
    rw [ih, lpAdd_watch]

/-- Latching sets the bit, counts it where it is the counted event, and hands an edge of the page on where one rises (R37). -/
theorem latchBit_cases (f : Nat → State → State) (page n : Nat) (s : State) :
    ∃ u, (u = setReg (adr page 0x24) (putBit (getReg s (adr page 0x24)) n true) s
        ∨ u = addF (adr page 0x40) 31 0 1 (setReg (adr page 0x24) (putBit (getReg s (adr page 0x24)) n true) s))
      ∧ (latchBit f page n s = u ∨ ∃ k, sourceOf page = some k ∧ latchBit f page n s = f k u) := by
  refine ⟨if getF (setReg (adr page 0x24) (putBit (getReg s (adr page 0x24)) n true) s) (adr page 0x3C) 4 0 = n then
    addF (adr page 0x40) 31 0 1 (setReg (adr page 0x24) (putBit (getReg s (adr page 0x24)) n true) s)
    else setReg (adr page 0x24) (putBit (getReg s (adr page 0x24)) n true) s, ?_, ?_⟩
  · split
    · exact .inr rfl
    · exact .inl rfl
  · simp only [latchBit]
    split
    · cases hk : sourceOf page with
      | none => exact .inl rfl
      | some k => exact .inr ⟨k, rfl, rfl⟩
    · exact .inl rfl

theorem latchBit_watch (f : Nat → State → State) (h : ∀ k s, s.calm → (f k s).watch = s.watch) (page n : Nat) (s : State)
    (hs : s.calm) : (latchBit f page n s).watch = s.watch := by
  obtain ⟨u, hu, e | ⟨k, _, e⟩⟩ := latchBit_cases f page n s
  all_goals have hw : u.watch = s.watch := by rcases hu with rfl | rfl <;> rfl
  · rw [e, hw]
  · rw [e, h k u (calm_of_watch hw hs), hw]

theorem latchBanks_watch (f : Nat → State → State) (h : ∀ k s, s.calm → (f k s).watch = s.watch) (n : Nat) (l : List Nat)
    (s : State) (hs : s.calm) : (latchBanks f n l s).watch = s.watch := by
  induction n generalizing l s with
  | zero => rfl
  | succ n ih =>
    cases l with
    | nil => rfl
    | cons b r =>
      have hb := (lpAddAll_watch 1 (lpMatch (latchBit f (pgBank b) 0 s) false 0 (pgBank b) 0
        (latchBit f (pgBank b) 0 s).win.regs) _).trans (latchBit_watch f h (pgBank b) 0 s hs)
      exact (ih _ _ (calm_of_watch hb hs)).trans hb

theorem latchWith_watch (f : Nat → State → State) (h : ∀ k s, s.calm → (f k s).watch = s.watch) (page n : Nat) (s : State)
    (hs : s.calm) : (latchWith f page n s).watch = s.watch := by
  have hb := (lpAddAll_watch 1 (lpMatch (latchBit f page n s) false 0 page n (latchBit f page n s).win.regs) _).trans
    (latchBit_watch f h page n s hs)
  exact (latchBanks_watch f h 64 _ _ (calm_of_watch hb hs)).trans hb

theorem irqOwnEvent_watch (n : Nat) (s : State) (hs : s.calm) : (irqOwnEvent n s).watch = s.watch :=
  latchWith_watch setPending (fun _ _ _ => rfl) pgIrq n s hs

theorem loupePlain_watch (u i g n : Nat) (s : State) (hs : s.calm) : (loupePlain u i g n s).watch = s.watch := by
  have hb := lpAddAll_watch n (lpMatch s false u i g s.win.regs) s
  exact (latchBanks_watch setPending (fun _ _ _ => rfl) 64 _ _ (calm_of_watch hb hs)).trans hb

theorem notify_watch (t o b : Nat) (s : State) (hs : s.calm) : (notify t o b s).watch = s.watch := by
  unfold notify
  split
  · exact loupePlain_watch 6 t 0 1 _ hs
  · rfl

theorem waitRecord_watch (n t : Nat) (s : State) (hs : s.calm) : (waitRecord n t s).watch = s.watch := by
  unfold waitRecord
  split
  · rfl
  · exact irqOwnEvent_watch 0 _ hs

theorem serveData_watch (l : List Nat) (s : State) (hs : s.calm) : (serveData l s).watch = s.watch := by
  induction l generalizing s with
  | nil => rfl
  | cons n r ih =>
    unfold serveData
    split
    · exact ih s hs
    · split
      · exact ih s hs
      · rename_i t _
        have h1 : (if eqRoom s t then writeRecord n t s else waitRecord n t s).watch = s.watch := by
          split
          · rfl
          · exact waitRecord_watch n t s hs
        exact (ih _ (calm_of_watch h1 hs)).trans h1

theorem writeBacks_watch (l : List Nat) (s : State) (hs : s.calm) : (writeBacks l s).watch = s.watch := by
  induction l generalizing s with
  | nil => rfl
  | cons t r ih =>
    unfold writeBacks
    simp only
    split
    · exact ih s hs
    · have h1 : ∀ (c : Prop) [Decidable c] (u : State), u.watch = s.watch →
          (if c then notify t 0x09C 1 u else u).watch = s.watch := by
        intro c _ u hu
        split
        · exact (notify_watch t 0x09C 1 u (calm_of_watch hu hs)).trans hu
        · exact hu
      refine (ih _ (calm_of_watch ?_ hs)).trans ?_ <;> exact h1 _ _ rfl

theorem notifyRises_watch (o l : List Nat) (s : State) (hs : s.calm) : (notifyRises o l s).watch = s.watch := by
  induction l generalizing s with
  | nil => rfl
  | cons t r ih =>
    unfold notifyRises
    have h1 : (if o.contains t then s else notify t 0x098 0 s).watch = s.watch := by
      split
      · rfl
      · exact notify_watch t 0x098 0 s hs
    exact (ih _ (calm_of_watch h1 hs)).trans h1

/-- What a pass does once the unrouted sources are noted, from a state `s2` on. -/
theorem irqPass_tail_watch (s2 : State) (r : List Nat) (hs : s2.calm) (s3 : State)
    (h3 : s3 = notifyRises s2.irq.req r { s2 with irq := { s2.irq with req := r } }) :
    (writeBacks (dataTargets s3 (offered s3)) (serveData (offered s3) s3)).watch = s2.watch := by
  have h4 : s3.watch = s2.watch := h3 ▸ notifyRises_watch _ _ { s2 with irq := { s2.irq with req := r } } hs
  have h5 := (serveData_watch (offered s3) s3 (calm_of_watch h4 hs)).trans h4
  exact (writeBacks_watch _ _ (calm_of_watch h5 hs)).trans h5

theorem irqPass_watch (s : State) (hs : s.calm) : (irqPass s).watch = s.watch := by
  have h2 : ∀ l : List Nat, (if s.irq.unrouted.isEmpty && !l.isEmpty then
      irqOwnEvent 2 { s with irq := { s.irq with unrouted := l } }
      else { s with irq := { s.irq with unrouted := l } }).watch = s.watch := by
    intro l
    split
    · exact irqOwnEvent_watch 2 _ hs
    · rfl
  exact (irqPass_tail_watch _ _ (calm_of_watch (h2 _) hs) _ rfl).trans (h2 _)

theorem irqSettle_watch (s : State) (hs : s.calm) : (irqSettle s).watch = s.watch := by
  unfold irqSettle
  split
  · rfl
  · have h1 := irqPass_watch s hs
    exact (irqPass_watch _ (calm_of_watch h1 hs)).trans h1

theorem noteWake_watch (c l : Nat) (s : State) (hs : s.calm) : (noteWake c l s).watch = s.watch := by
  unfold noteWake
  split
  · rfl
  · split
    · rename_i he
      simp only [State.watch, if_pos he]
    · rfl

theorem irqEdge_watch (n : Nat) (s : State) (hs : s.calm) : (irqEdge n s).watch = s.watch := by
  unfold irqEdge
  split
  · rfl
  · have h1 : (setPending n s).calm := hs
    have h2 : (noteWake 7 (if masked (setPending n s) n then 0xFF else (targetOf (setPending n s) n).getD 0xFF)
        (setPending n s)).watch = s.watch := noteWake_watch _ _ _ h1
    exact (irqSettle_watch _ (calm_of_watch h2 hs)).trans h2

/-- Outside sleep an event moves neither the mode sequencer nor the power controller (R293, R327). -/
theorem hwEvent_watch (page n : Nat) (s : State) (hs : s.calm) : (hwEvent page n s).watch = s.watch :=
  latchWith_watch irqEdge irqEdge_watch page n s hs

theorem loupe_watch (u i g n : Nat) (s : State) (hs : s.calm) : (loupe u i g n s).watch = s.watch := by
  have hb := lpAddAll_watch n (lpMatch s false u i g s.win.regs) s
  exact (latchBanks_watch irqEdge irqEdge_watch 64 _ _ (calm_of_watch hb hs)).trans hb

end Sys2Proof.Machine
end

section
namespace Sys2Proof.Machine

/-! ### Events while a completion ring names a source beyond the table

A completion ring names its source in 12 bits (R266), so an edge can come for a source that Table 15.1 does not have. The
registers of PG_LOUPE and above its banks stay out of its reach all the same. -/

/-- Pending sources are 12-bit numbers, and the targets in service exist. -/
abbrev State.irqWide (s : State) : Prop := (∀ n ∈ s.irq.pending, n < 4096) ∧ ∀ x ∈ s.irq.service, x.1 < 68

theorem irqWide_of_sane {s : State} (h : s.irqSane) : s.irqWide :=
  ⟨fun n hn => Nat.lt_trans (h.1 n hn) (by decide), h.2.1⟩

/-- A register outside the reach of interrupt controller and LOUPE's counters: PG_LOUPE itself, or a page above its banks. -/
abbrev wideReg (b : Nat) : Prop := 0xA9000 ≤ b ∨ (0xA0000 ≤ b ∧ b < 0xA1000)

/-- The controller stays within its 12 bits, and no register of `wideReg` moves. -/
def wideKeeps (s t : State) : Prop := s.irqWide → t.irqWide ∧ ∀ b, wideReg b → getReg t b = getReg s b

theorem wideKeeps_refl (s : State) : wideKeeps s s := fun h => ⟨h, fun _ _ => rfl⟩

theorem wideKeeps_trans {s t u : State} (h : wideKeeps s t) (k : wideKeeps t u) : wideKeeps s u := fun hs =>
  ⟨(k (h hs).1).1, fun b hb => ((k (h hs).1).2 b hb).trans ((h hs).2 b hb)⟩

theorem wideKeeps_ite {c : Prop} [Decidable c] {s t u : State} (ht : c → wideKeeps s t) (hu : ¬ c → wideKeeps s u) :
    wideKeeps s (if c then t else u) := by
  split
  · exact ht ‹_›
  · exact hu ‹_›

theorem wideKeeps_setReg {a : Nat} (w : Word) (s : State) (ha : ¬ wideReg a) : wideKeeps s (setReg a w s) := fun h =>
  ⟨h, fun _ hb => getReg_setReg_other w s fun e => ha (e ▸ hb)⟩

theorem count_not_wide {n : Nat} (h : n < 4096) : ¬ wideReg (adr pgCount (0x800 + 4 * (n / 4))) := by
  simp only [wideReg, adr, pgCount]; omega
theorem target_not_wide {t : Nat} (o : Nat) (h : t < 68) (ho : o < 4096) : ¬ wideReg (adr (pgTarget t) o) := by
  simp only [wideReg, adr, pgTarget]; omega
theorem bank_not_wide {c : Nat} (o : Nat) (h : c < 8) (ho : o < 4096) : ¬ wideReg (adr (pgBank c) o) := by
  simp only [wideReg, adr, pgBank]; omega

/-- Neither the stored registers nor the sources and services move. -/
theorem wideKeeps_of_eq {s t : State} (hr : t.win.regs = s.win.regs) (hi : t.irq.pending = s.irq.pending)
    (hs : t.irq.service = s.irq.service) : wideKeeps s t := fun h =>
  ⟨by rwa [State.irqWide, hi, hs], fun b _ => by rw [getReg, hr, getReg]⟩

theorem wideKeeps_pending {s : State} (i : Irq) (hp : ∀ n ∈ i.pending, n ∈ s.irq.pending) (hs : i.service = s.irq.service) :
    wideKeeps s { s with irq := i } := fun h =>
  ⟨⟨fun n hn => h.1 n (hp n hn), fun x hx => h.2 x (hs ▸ hx)⟩, fun _ _ => rfl⟩

theorem setPending_wide {n : Nat} (hn : n < 4096) (s : State) : wideKeeps s (setPending n s) := fun h =>
  ⟨⟨fun m hm => (mem_setInsert _ _ _ hm).elim (fun e => e ▸ hn) (h.1 m), h.2⟩,
    (wideKeeps_setReg _ s (count_not_wide hn) h).2⟩

theorem lpAdd_wide (f c n : Nat) (s : State) (hc : c < 1024) : wideKeeps s (lpAdd f c n s).1 := by
  induction f generalizing c n s with
  | zero => exact wideKeeps_refl s
  | succ f ih =>
    have hv : ¬ wideReg (lpVal c) ∧ ¬ wideReg (lpVal c + 4) := by simp only [wideReg, lpVal, adr, pgBank]; omega
    have hp := fun v => wideKeeps_trans (wideKeeps_setReg (a := lpVal c) (word v) s hv.1)
      (wideKeeps_setReg (a := lpVal c + 4) (word (v / 2 ^ 32)) _ hv.2)
    unfold lpAdd
    simp only
    split
    · exact wideKeeps_refl s
    · split
      · exact hp _
      · split
        · exact wideKeeps_trans (hp _) (ih (c + 1) _ _ (by omega))
        · exact wideKeeps_trans (hp _) (wideKeeps_setReg _ _ (bank_not_wide _ (by omega) (by omega)))

theorem lpAddAll_wide (n : Nat) (l : List Nat) (s : State) (hl : ∀ c ∈ l, c < 1024) : wideKeeps s (lpAddAll n l s).1 := by
  induction l generalizing s with
  | nil => exact wideKeeps_refl s
  | cons c r ih =>
    exact wideKeeps_trans (lpAdd_wide 1024 c n s (hl c List.mem_cons_self)) (ih _ fun d hd => hl d (List.mem_cons_of_mem _ hd))

theorem latchBit_wide (f : Nat → State → State) (hf : ∀ k s, k < 2048 → wideKeeps s (f k s)) (page n : Nat) (s : State)
    (h : s.irqWide) : (latchBit f page n s).irqWide
      ∧ ∀ b, wideReg b → b ≠ adr page 0x24 → b ≠ adr page 0x40 → getReg (latchBit f page n s) b = getReg s b := by
  obtain ⟨u, hu, e⟩ := latchBit_cases f page n s
  have hw : u.irqWide ∧ ∀ b, b ≠ adr page 0x24 → b ≠ adr page 0x40 → getReg u b = getReg s b := by
    rcases hu with rfl | rfl
    · exact ⟨h, fun b h24 _ => getReg_setReg_other _ s h24⟩
    · exact ⟨h, fun b h24 h40 => by rw [getReg_addF_other _ _ _ _ h40, getReg_setReg_other _ s h24]⟩
  obtain ⟨hw, hr⟩ := hw
  rcases e with e | ⟨k, hk, e⟩
  · exact e ▸ ⟨hw, fun b _ => hr b⟩
  · obtain ⟨kw, kr⟩ := hf k u (sourceOf_lt hk) hw
    exact e ▸ ⟨kw, fun b hb h24 h40 => (kr b hb).trans (hr b h24 h40)⟩

theorem latchBanks_wide (f : Nat → State → State) (hf : ∀ k s, k < 2048 → wideKeeps s (f k s)) (n : Nat) (l : List Nat)
    (s : State) (hl : ∀ b ∈ l, b < 8) : wideKeeps s (latchBanks f n l s) := by
  induction n generalizing l s with
  | zero => exact wideKeeps_refl s
  | succ n ih =>
    cases l with
    | nil => exact wideKeeps_refl s
    | cons c r =>
      have hc := hl c List.mem_cons_self
      have hb : wideKeeps s (latchBit f (pgBank c) 0 s) := fun h =>
        ⟨(latchBit_wide f hf _ _ s h).1, fun b hb => (latchBit_wide f hf _ _ s h).2 b hb
          (fun e => bank_not_wide 0x24 hc (by omega) (e ▸ hb)) (fun e => bank_not_wide 0x40 hc (by omega) (e ▸ hb))⟩
      have hm := lpMatch_lt (latchBit f (pgBank c) 0 s) false 0 (pgBank c) 0 (latchBit f (pgBank c) 0 s).win.regs
      refine wideKeeps_trans (wideKeeps_trans hb (lpAddAll_wide 1 _ _ hm)) (ih _ _ fun b h => ?_)
      rcases List.mem_append.mp h with h | h
      · exact hl b (List.mem_cons_of_mem _ h)
      · exact (lpAddAll_keeps 1 _ (latchBit f (pgBank c) 0 s) hm).2 b h

theorem latchWith_wide (f : Nat → State → State) (hf : ∀ k s, k < 2048 → wideKeeps s (f k s)) (page n : Nat) (s : State)
    (h : s.irqWide) : (latchWith f page n s).irqWide
      ∧ ∀ b, wideReg b → b ≠ adr page 0x24 → b ≠ adr page 0x40 → getReg (latchWith f page n s) b = getReg s b := by
  obtain ⟨hw, hr⟩ := latchBit_wide f hf page n s h
  have hm := lpMatch_lt (latchBit f page n s) false 0 page n (latchBit f page n s).win.regs
  obtain ⟨kw, kr⟩ := wideKeeps_trans (lpAddAll_wide 1 _ _ hm)
    (latchBanks_wide f hf 64 _ _ (lpAddAll_keeps 1 _ (latchBit f page n s) hm).2) hw
  exact ⟨kw, fun b h1 h2 h3 => (kr b h1).trans (hr b h1 h2 h3)⟩

theorem irqOwnEvent_wide (n : Nat) (s : State) : wideKeeps s (irqOwnEvent n s) := fun h => by
  obtain ⟨hw, hr⟩ := latchWith_wide setPending (fun k t hk => setPending_wide (by omega) t) pgIrq n s h
  exact ⟨hw, fun b hb => hr b hb (by simp only [wideReg, adr, pgIrq] at hb ⊢; omega) (by simp only [wideReg, adr, pgIrq] at hb ⊢; omega)⟩

/-- An occurrence of a LOUPE signal, whatever an edge of a bank's event then does. -/
theorem loupeWith_wide (f : Nat → State → State) (hf : ∀ k s, k < 2048 → wideKeeps s (f k s)) (u i g n : Nat) (s : State) :
    wideKeeps s (latchBanks f 64 (lpAddAll n (lpMatch s false u i g s.win.regs) s).2
      (lpAddAll n (lpMatch s false u i g s.win.regs) s).1) := by
  have hm := lpMatch_lt s false u i g s.win.regs
  exact wideKeeps_trans (lpAddAll_wide n _ s hm) (latchBanks_wide f hf 64 _ _ (lpAddAll_keeps n _ s hm).2)

theorem notify_wide (t o e : Nat) (s : State) : wideKeeps s (notify t o e s) := by
  refine wideKeeps_ite (fun h => ?_) (fun _ => wideKeeps_refl s)
  refine wideKeeps_trans ?_ (loupeWith_wide setPending (fun k t hk => setPending_wide (by omega) t) 6 t 0 1 _)
  exact wideKeeps_trans (wideKeeps_of_eq rfl rfl rfl) (wideKeeps_setReg _ _ (target_not_wide _ (Nat.lt_trans h.1 (by decide)) (by decide)))

theorem targetOf_wide {s : State} (h : s.irqWide) {n t : Nat} (ht : targetOf s n = some t) : t < 68 := by
  unfold targetOf at ht
  split at ht
  · rename_i u hu
    cases ht
    obtain ⟨x, hx, e⟩ := claimedBy_mem _ _ _ hu
    exact e ▸ h.2 x hx
  · simpa using bestTarget_mem _ _ _ _ ht

theorem writeRecord_wide {n t : Nat} (hn : n < 4096) (ht : t < 68) (s : State) : wideKeeps s (writeRecord n t s) := by
  simp only [writeRecord]
  refine wideKeeps_trans ?_ (wideKeeps_pending _ (fun m hm => mem_setErase _ _ _ hm) rfl)
  refine wideKeeps_trans ?_ (wideKeeps_setReg _ _ (count_not_wide hn))
  refine wideKeeps_trans ?_ (wideKeeps_setReg _ _ (target_not_wide 0x0B8 ht (by decide)))
  exact wideKeeps_of_eq rfl rfl rfl

theorem waitRecord_wide {t : Nat} (n : Nat) (ht : t < 68) (s : State) : wideKeeps s (waitRecord n t s) := by
  unfold waitRecord
  split
  · exact wideKeeps_refl s
  · refine wideKeeps_trans ?_ (irqOwnEvent_wide 0 _)
    exact fun h => wideKeeps_setReg _ s (target_not_wide 0x0CC ht (by decide)) h

theorem serveData_wide (l : List Nat) (s : State) (hl : ∀ n ∈ l, n < 4096) : wideKeeps s (serveData l s) := by
  induction l generalizing s with
  | nil => exact wideKeeps_refl s
  | cons n r ih =>
    have hr : ∀ m ∈ r, m < 4096 := fun m hm => hl m (List.mem_cons_of_mem _ hm)
    have hn := hl n List.mem_cons_self
    unfold serveData
    split
    · exact ih s hr
    · split
      · exact ih s hr
      · rename_i t ht
        intro h
        exact wideKeeps_trans (wideKeeps_ite (fun _ => writeRecord_wide hn (targetOf_wide h ht) s)
          (fun _ => waitRecord_wide n (targetOf_wide h ht) s)) (ih _ hr) h

theorem writeBacks_wide (l : List Nat) (s : State) : wideKeeps s (writeBacks l s) := by
  induction l generalizing s with
  | nil => exact wideKeeps_refl s
  | cons t r ih =>
    unfold writeBacks
    simp only
    split
    · exact ih s
    · refine wideKeeps_trans ?_ (ih _)
      split
      · refine wideKeeps_trans ?_ (notify_wide _ _ _ _)
        exact wideKeeps_of_eq rfl rfl rfl
      · exact wideKeeps_of_eq rfl rfl rfl

theorem notifyRises_wide (o l : List Nat) (s : State) : wideKeeps s (notifyRises o l s) := by
  induction l generalizing s with
  | nil => exact wideKeeps_refl s
  | cons t r ih =>
    unfold notifyRises
    exact wideKeeps_trans (wideKeeps_ite (fun _ => wideKeeps_refl s) (fun _ => notify_wide _ _ _ s)) (ih _)

/-- A pass from the state `s2` on, in which the unrouted sources are noted. -/
theorem irqPass_tail_wide (s s2 s3 : State) (r : List Nat) (h2 : wideKeeps s s2)
    (h3 : s3 = notifyRises s2.irq.req r { s2 with irq := { s2.irq with req := r } }) :
    wideKeeps s (writeBacks (dataTargets s3 (offered s3)) (serveData (offered s3) s3)) := by
  have h4 : wideKeeps s s3 := by
    rw [h3]
    refine wideKeeps_trans (wideKeeps_trans h2 ?_) (notifyRises_wide _ _ _)
    exact wideKeeps_of_eq rfl rfl rfl
  intro h
  have ho : ∀ n ∈ offered s3, n < 4096 := fun n hn => (h4 h).1.1 n (List.mem_of_mem_filter hn)
  exact wideKeeps_trans (wideKeeps_trans h4 (serveData_wide _ s3 ho)) (writeBacks_wide _ _) h

theorem irqPass_wide (s : State) : wideKeeps s (irqPass s) := by
  refine irqPass_tail_wide s _ _ _ ?_ rfl
  split
  · refine wideKeeps_trans ?_ (irqOwnEvent_wide 2 _)
    exact wideKeeps_pending _ (fun _ hm => hm) rfl
  · exact wideKeeps_pending _ (fun _ hm => hm) rfl

theorem irqSettle_wide (s : State) : wideKeeps s (irqSettle s) := by
  unfold irqSettle
  split
  · exact wideKeeps_refl s
  · exact wideKeeps_trans (irqPass_wide s) (irqPass_wide _)

theorem noteWake_wide (c l : Nat) (s : State) : wideKeeps s (noteWake c l s) := by
  unfold noteWake
  split
  · exact wideKeeps_refl s
  · split
    · refine wideKeeps_trans ?_ (wideKeeps_setReg _ _ (by decide))
      refine wideKeeps_trans ?_ (wideKeeps_setReg _ _ (by decide))
      refine wideKeeps_trans ?_ (wideKeeps_setReg _ _ (by decide))
      exact wideKeeps_of_eq rfl rfl rfl
    · split
      · exact wideKeeps_of_eq rfl rfl rfl
      · exact wideKeeps_refl s

theorem irqEdge_wide {n : Nat} (hn : n < 4096) (s : State) : wideKeeps s (irqEdge n s) := by
  unfold irqEdge
  split
  · exact wideKeeps_of_eq rfl rfl rfl
  · exact wideKeeps_trans (setPending_wide hn s) (wideKeeps_trans (noteWake_wide _ _ _) (irqSettle_wide _))

/-- An event moves no register of `wideReg` but its own page's latch and count. -/
theorem hwEvent_wide (page n : Nat) (s : State) (h : s.irqWide) : (hwEvent page n s).irqWide
    ∧ ∀ b, wideReg b → b ≠ adr page 0x24 → b ≠ adr page 0x40 → getReg (hwEvent page n s) b = getReg s b :=
  latchWith_wide irqEdge (fun _ t hk => irqEdge_wide (by omega) t) page n s h

theorem loupe_wide (u i g n : Nat) (s : State) : wideKeeps s (loupe u i g n s) :=
  loupeWith_wide irqEdge (fun _ t hk => irqEdge_wide (by omega) t) u i g n s

end Sys2Proof.Machine
end

section
namespace Sys2Proof.Machine

/-! ### What MAC transmit leaves alone when it gives up frames -/

/-- The state without MAC transmit, the host rings, live counters and what an event can move. -/
def State.behindTx (s : State) : State :=
  { s.rest with tx := Tx.empty, dma := State.reset.dma, win := { s.rest.win with live := [] } }

theorem behindTx_of_rest {s t : State} (h : t.rest = s.rest) : t.behindTx = s.behindTx := by rw [State.behindTx, h, State.behindTx]

theorem behindTx_cmd {s t : State} (h : t.behindTx = s.behindTx) : t.cmd = s.cmd := congrArg (fun x => x.cmd) h
theorem behindTx_tim {s t : State} (h : t.behindTx = s.behindTx) : t.tim = s.tim := congrArg (fun x => x.tim) h
theorem behindTx_nv {s t : State} (h : t.behindTx = s.behindTx) : t.nv = s.nv := congrArg (fun x => x.nv) h
theorem behindTx_fed {s t : State} (h : t.behindTx = s.behindTx) : t.fed = s.fed := congrArg (fun x => x.fed) h
theorem behindTx_fix {s t : State} (h : t.behindTx = s.behindTx) : t.fix = s.fix := congrArg (fun x => x.fix) h
theorem behindTx_mode {s t : State} (h : t.behindTx = s.behindTx) : t.ctl.mode = s.ctl.mode := congrArg (fun x => x.ctl.mode) h
theorem behindTx_rx {s t : State} (h : t.behindTx = s.behindTx) : t.rx = s.rx := congrArg (fun x => x.rx) h
theorem behindTx_dp {s t : State} (h : t.behindTx = s.behindTx) : t.dp = s.dp := congrArg (fun x => x.dp) h

theorem setF_behindTx (a hi lo v : Nat) (s : State) : (setF a hi lo v s).behindTx = s.behindTx := rfl
theorem setPair_behindTx (a v : Nat) (s : State) : (setPair a v s).behindTx = s.behindTx := rfl

/-- A register that neither events nor the data path reach: no event register of a page, and not RX_OVERLOAD of PG_FED. -/
abbrev quietReg (b : Nat) : Prop := eventFree b ∧ b ≠ adr pgFed 0x114 ∧ offOf b ≠ 0x24 ∧ offOf b ≠ 0x40

theorem offOf_adr {page off : Nat} (h : off < 4096) : offOf (adr page off) = off := by simp only [offOf, adr]; omega

theorem pageOf_adr {page off : Nat} (h : off < 4096) : pageOf (adr page off) = page := by simp only [pageOf, adr]; omega

theorem hwEvent_quiet {b : Nat} (h : quietReg b) (page n : Nat) (s : State) : getReg (hwEvent page n s) b = getReg s b := by
  obtain ⟨hf, _, h24, h40⟩ := h
  exact hwEvent_free hf page n s (fun e => h24 (e ▸ offOf_adr (by decide))) (fun e => h40 (e ▸ offOf_adr (by decide)))

theorem getLive_of_rest {s t : State} (h : t.rest = s.rest) (a : Nat) : getLive t a = getLive s a := by
  rw [getLive, show t.win.live = s.win.live from congrArg (fun x => x.win.live) h, getLive]

/-- `t` is `s` but for MAC transmit, the host rings and what their events move: below PG_DMA only RX_OVERLOAD of PG_FED and
event registers differ, of live counters only those of MAC transmit, and outside sleep neither mode nor power. -/
structure txKeeps (s t : State) : Prop where
  behind : t.behindTx = s.behindTx
  low : ∀ b, quietReg b → getReg t b = getReg s b
  wide : s.irqWide → t.irqWide ∧ ∀ b, wideReg b → b < 0x2C0000 → getReg t b = getReg s b
  watch : s.calm → t.watch = s.watch
  live : ∀ a, (∀ p o, o < 0xE0 → a ≠ txCnt p o) → getLive t a = getLive s a

theorem txKeeps_refl (s : State) : txKeeps s s :=
  ⟨rfl, fun _ _ => rfl, fun h => ⟨h, fun _ _ _ => rfl⟩, fun _ => rfl, fun _ _ => rfl⟩

theorem txKeeps_trans {s t u : State} (h : txKeeps s t) (k : txKeeps t u) : txKeeps s u where
  behind := k.behind.trans h.behind
  low b hb := (k.low b hb).trans (h.low b hb)
  wide hs := ⟨(k.wide (h.wide hs).1).1, fun b h1 h2 => ((k.wide (h.wide hs).1).2 b h1 h2).trans ((h.wide hs).2 b h1 h2)⟩
  watch hs := (k.watch (calm_of_watch (h.watch hs) hs)).trans (h.watch hs)
  live a ha := (k.live a ha).trans (h.live a ha)

theorem txKeeps_ite {c : Prop} [Decidable c] {s t u : State} (ht : c → txKeeps s t) (hu : ¬ c → txKeeps s u) :
    txKeeps s (if c then t else u) := by
  split
  · exact ht ‹_›
  · exact hu ‹_›

/-- Neither registers nor the interrupt controller nor mode and power move. -/
theorem txKeeps_of_eq {s t : State} (h : t.behindTx = s.behindTx) (hr : t.win.regs = s.win.regs) (hi : t.irq = s.irq)
    (hw : t.watch = s.watch) (hl : ∀ a, (∀ p o, o < 0xE0 → a ≠ txCnt p o) → getLive t a = getLive s a) : txKeeps s t where
  behind := h
  low b _ := by rw [getReg, hr, getReg]
  wide hs := ⟨by rwa [State.irqWide, hi], fun b _ _ => by rw [getReg, hr, getReg]⟩
  watch _ := hw
  live := hl

theorem txKeeps_setReg {a : Nat} (w : Word) (s : State) (ha : a = adr pgFed 0x114 ∨ 0x2C0000 ≤ a) :
    txKeeps s (setReg a w s) where
  behind := rfl
  low b hb := getReg_setReg_other w s fun e => by
    have h1 := hb.1.1
    have h2 := hb.2.1
    simp only [adr, pgCount, pgFed] at ha h1 h2
    omega
  wide hs := ⟨hs, fun b h1 h2 => getReg_setReg_other w s (by simp only [adr, pgFed] at ha; omega)⟩
  watch _ := rfl
  live _ _ := rfl

theorem txKeeps_hwEvent {page : Nat} (n : Nat) (s : State) (hp : 0x2C0 ≤ page) : txKeeps s (hwEvent page n s) where
  behind := behindTx_of_rest (hwEvent_rest page n s)
  low b hb := hwEvent_quiet hb page n s
  wide hs := ⟨(hwEvent_wide page n s hs).1, fun b h1 h2 => (hwEvent_wide page n s hs).2 b h1
    (by simp only [adr]; omega) (by simp only [adr]; omega)⟩
  watch hs := hwEvent_watch page n s hs
  live a _ := getLive_of_rest (hwEvent_rest page n s) a

theorem txKeeps_irqEdge {n : Nat} (s : State) (hn : n < 4096) : txKeeps s (irqEdge n s) where
  behind := behindTx_of_rest (irqEdge_rest n s)
  low _ hb := irqEdge_free hb.1 n s
  wide hs := ⟨(irqEdge_wide hn s hs).1, fun b h1 _ => (irqEdge_wide hn s hs).2 b h1⟩
  watch hs := irqEdge_watch n s hs
  live a _ := getLive_of_rest (irqEdge_rest n s) a

theorem txKeeps_loupe (u i g n : Nat) (s : State) : txKeeps s (loupe u i g n s) where
  behind := behindTx_of_rest (loupe_rest u i g n s)
  low _ hb := loupe_free hb.1 u i g n s
  wide hs := ⟨(loupe_wide u i g n s hs).1, fun b h1 _ => (loupe_wide u i g n s hs).2 b h1⟩
  watch hs := loupe_watch u i g n s hs
  live a _ := getLive_of_rest (loupe_rest u i g n s) a

theorem txKeeps_addLive (p n : Nat) {o : Nat} (s : State) (ho : o < 0xE0) : txKeeps s (addLive (txCnt p o) n s) :=
  txKeeps_of_eq rfl rfl rfl rfl fun a ha => by rw [getLive_addLive, if_neg (ha p o ho)]
theorem txKeeps_emit (e : Emit) (s : State) : txKeeps s (emit e s) := txKeeps_of_eq rfl rfl rfl rfl fun _ _ => rfl
theorem txKeeps_dma (s : State) (d : Dma) : txKeeps s { s with dma := d } := txKeeps_of_eq rfl rfl rfl rfl fun _ _ => rfl
theorem txKeeps_tx (s : State) (x : Tx) : txKeeps s { s with tx := x } := txKeeps_of_eq rfl rfl rfl rfl fun _ _ => rfl

theorem txKeeps_setQ (rx : Bool) (q : Nat) (x : Queue) (s : State) : txKeeps s (setQ rx q x s) :=
  txKeeps_ite (fun _ => txKeeps_dma s _) (fun _ => txKeeps_dma s _)

theorem txKeeps_fnCount (f n : Nat) (s : State) : txKeeps s (fnCount f n s) :=
  txKeeps_setReg _ s (.inr (by simp only [adr, pgFn]; omega))

theorem txKeeps_queueError (rx : Bool) (q reason idx : Nat) (s : State) : txKeeps s (queueError rx q reason idx s) := by
  refine txKeeps_ite (fun _ => txKeeps_refl s) (fun _ => ?_)
  refine txKeeps_trans ?_ (txKeeps_hwEvent 0 _ (by simp only [pgDma]; omega))
  exact txKeeps_trans (txKeeps_setQ rx q _ s) (txKeeps_hwEvent 0 _ (by simp only [pgFn]; omega))

theorem txKeeps_sendReads (ch : Nat) (l : List (Nat × Nat)) (s : State) : txKeeps s (sendReads ch l s) := by
  induction l generalizing s with
  | nil => exact txKeeps_dma s _
  | cons x r ih =>
    unfold sendReads
    refine txKeeps_ite (fun _ => txKeeps_dma s _) (fun _ => txKeeps_trans (txKeeps_trans (txKeeps_dma s _) (txKeeps_emit _ _)) (ih _))

theorem txKeeps_issueFetch (rx : Bool) (q i : Nat) (single : Bool) (s : State) : txKeeps s (issueFetch rx q i single s) :=
  txKeeps_trans (txKeeps_setQ rx q _ s) (txKeeps_sendReads _ _ _)

theorem txKeeps_prefetchFrom (rx : Bool) (q f i : Nat) (s : State) : txKeeps s (prefetchFrom rx q f i s) := by
  induction f generalizing i s with
  | zero => exact txKeeps_refl s
  | succ f ih =>
    refine txKeeps_ite (fun _ => txKeeps_refl s) (fun _ => ?_)
    refine txKeeps_ite (fun _ => ih _ s) (fun _ => ?_)
    refine txKeeps_ite (fun _ => txKeeps_trans (txKeeps_trans (txKeeps_issueFetch rx q i true s) (txKeeps_fnCount _ 3 _)) (ih _ _))
      (fun _ => ?_)
    refine txKeeps_ite (fun _ => ih _ s) (fun _ => ?_)
    exact txKeeps_ite (fun _ => txKeeps_refl s) (fun _ => txKeeps_trans (txKeeps_issueFetch rx q i false s) (ih _ _))

theorem txKeeps_prefetch (rx : Bool) (q : Nat) (s : State) : txKeeps s (prefetch rx q s) :=
  txKeeps_ite (fun _ => txKeeps_prefetchFrom rx q 48 _ s) (fun _ => txKeeps_refl s)

theorem txKeeps_prefetchAll (rx : Bool) (l : List Nat) (s : State) : txKeeps s (prefetchAll rx l s) := by
  induction l generalizing s with
  | nil => exact txKeeps_refl s
  | cons q r ih => exact txKeeps_trans (txKeeps_prefetch rx q s) (ih _)

theorem txKeeps_readBufs (ch : Nat) (l : List (Nat × Nat)) (s : State) : txKeeps s (readBufs ch l s) := by
  induction l generalizing s with
  | nil => exact txKeeps_refl s
  | cons x r ih => exact txKeeps_trans (txKeeps_sendReads ch _ s) (ih _)

theorem txKeeps_takeTx (q f : Nat) (s : State) : txKeeps s (takeTx q f s) := by
  induction f generalizing s with
  | zero => exact txKeeps_refl s
  | succ f ih =>
    refine txKeeps_ite (fun _ => txKeeps_refl s) (fun _ => ?_)
    split
    · exact txKeeps_refl s
    · refine txKeeps_ite (fun _ => txKeeps_refl s) (fun _ => ?_)
      split
      · exact txKeeps_queueError false q _ _ s
      · exact txKeeps_ite (fun _ => txKeeps_trans (txKeeps_trans (txKeeps_setQ false q _ s) (txKeeps_readBufs _ _ _)) (ih _))
          (fun _ => txKeeps_trans (txKeeps_setQ false q _ s) (ih _))

theorem txKeeps_runQueue (rx : Bool) (q : Nat) (s : State) : txKeeps s (runQueue rx q s) := by
  have h2 : txKeeps s (if rx then prefetch rx q s else prefetch false q (takeTx q 64 (prefetch rx q s))) :=
    txKeeps_ite (fun _ => txKeeps_prefetch rx q s)
      (fun _ => txKeeps_trans (txKeeps_trans (txKeeps_prefetch rx q s) (txKeeps_takeTx q 64 _)) (txKeeps_prefetch false q _))
  exact txKeeps_ite (fun _ => txKeeps_trans h2 (txKeeps_trans (txKeeps_prefetchAll false _ _) (txKeeps_prefetchAll true _ _)))
    (fun _ => h2)

theorem txKeeps_ringEdge (x : Ring) (s : State) : txKeeps s (ringEdge x s) :=
  txKeeps_ite (fun _ => txKeeps_refl s) (fun _ => txKeeps_irqEdge s (bits_lt _ 19 8))

theorem txKeeps_setR (c : Nat) (x : Ring) (s : State) : txKeeps s (setR c x s) := txKeeps_dma s _

theorem txKeeps_pushCompletion (c : Nat) (r : List Byte) (s : State) : txKeeps s (pushCompletion c r s) := by
  have h1 : ∀ y e e', txKeeps s (emit e (emit e' (setR c y s))) := fun y e e' =>
    txKeeps_trans (txKeeps_trans (txKeeps_setR c y s) (txKeeps_emit e' _)) (txKeeps_emit e _)
  exact txKeeps_ite (fun _ => txKeeps_trans (h1 _ _ _) (txKeeps_ringEdge _ _)) (fun _ => h1 _ _ _)

theorem txKeeps_flushHeld (q f : Nat) (s : State) : txKeeps s (flushHeld q f s) := by
  induction f generalizing s with
  | zero => exact txKeeps_refl s
  | succ f ih =>
    simp only [flushHeld]
    split
    · exact txKeeps_refl s
    · refine txKeeps_ite (fun _ => txKeeps_trans ?_ (ih _)) (fun _ => txKeeps_refl s)
      exact txKeeps_trans (txKeeps_trans (txKeeps_setQ false q _ s) (txKeeps_pushCompletion _ _ _)) (txKeeps_loupe _ _ _ _ _)

theorem txKeeps_flushFrames (q f : Nat) (s : State) : txKeeps s (flushFrames q f s) := by
  induction f generalizing s with
  | zero => exact txKeeps_refl s
  | succ f ih =>
    simp only [flushFrames]
    split
    · exact txKeeps_ite (fun _ => txKeeps_trans (txKeeps_trans (txKeeps_setQ false q _ s) (txKeeps_flushHeld q 65 _)) (ih _))
        (fun _ => txKeeps_flushHeld q 65 s)
    · exact txKeeps_flushHeld q 65 s

theorem txKeeps_txDone (q first status reason len : Nat) (ts : Option (Stamp × Bool)) (s : State) :
    txKeeps s (txDone q first status reason len ts s) :=
  txKeeps_trans (txKeeps_trans (txKeeps_setQ false q _ s) (txKeeps_flushFrames q 65 _)) (txKeeps_runQueue false q _)

theorem txKeeps_hostDone (src : TxSrc) (reason : Nat) (s : State) : txKeeps s (hostDone src reason s) := by
  cases src with
  | switch => exact txKeeps_refl s
  | host q first => exact txKeeps_txDone q first 2 reason 0 none s
  | own relay => exact txKeeps_ite (fun _ => txKeeps_setReg _ s (.inl rfl)) (fun _ => txKeeps_refl s)

theorem txKeeps_freeCells (cl n : Nat) (s : State) : txKeeps s (freeCells cl n s) :=
  txKeeps_ite (fun _ => txKeeps_refl s) (fun _ => txKeeps_trans (txKeeps_tx s _) (txKeeps_emit _ _))

theorem txKeeps_discardFrm (p reason : Nat) (f : TxFrm) (s : State) : txKeeps s (discardFrm p reason f s).2 :=
  txKeeps_trans (txKeeps_freeCells _ _ s) (txKeeps_hostDone _ _ _)

theorem txKeeps_countDiscard (p : Nat) {cnt : Nat} (s : State) (hc : cnt < 0xE0) : txKeeps s (countDiscard p cnt s) :=
  txKeeps_trans (txKeeps_addLive p 1 s hc) (txKeeps_loupe 2 p 2 1 _)

/-- The counters of R188 and of rows 2 to 4 of Table 10.2 are the port's own. -/
theorem discardOf_lt {s : State} {p cnt reason : Nat} {f : TxFrm} (h : discardOf s p f = some (cnt, reason)) : cnt < 0xE0 := by
  unfold discardOf at h
  grind

theorem txKeeps_setTxQueue (p : Nat) (l : List TxFrm) (s : State) : txKeeps s (setTxQueue p l s) := txKeeps_tx s _

theorem txKeeps_discardHeads (p : Nat) (kept l : List TxFrm) (s : State) : txKeeps s (discardHeads p kept l s).2 := by
  induction l generalizing kept s with
  | nil => exact txKeeps_refl s
  | cons f r ih =>
    unfold discardHeads
    split
    · exact ih _ s
    · split
      · exact ih _ s
      · rename_i cnt reason hd
        refine txKeeps_trans (txKeeps_trans ?_ (txKeeps_discardFrm p reason f _)) (ih _ _)
        exact txKeeps_ite (fun _ => txKeeps_addLive p 1 s (discardOf_lt hd)) (fun _ => txKeeps_countDiscard p s (discardOf_lt hd))

/-- Sweeping a port's queues moves MAC transmit and what its completions reach, nothing else (rows 2 to 4 of Table 10.2). -/
theorem txKeeps_sweep (p : Nat) (s : State) : txKeeps s (sweep p s) := by
  unfold sweep
  split
  · exact txKeeps_refl s
  · exact txKeeps_trans (txKeeps_discardHeads p [] _ s) (txKeeps_setTxQueue p _ _)

theorem txKeeps_discardAll (p : Nat) (l : List TxFrm) (s : State) : txKeeps s (discardAll p l s).2 := by
  induction l generalizing s with
  | nil => exact txKeeps_refl s
  | cons f r ih =>
    unfold discardAll
    split
    · exact ih s
    · exact txKeeps_trans (txKeeps_trans (txKeeps_countDiscard p s (by decide)) (txKeeps_discardFrm p 2 f _)) (ih _)

/-- Giving up every uncommitted frame moves no more than that (R324). -/
theorem txKeeps_emptyQueues (l : List Nat) (s : State) : txKeeps s (emptyQueues l s) := by
  induction l generalizing s with
  | nil => exact txKeeps_refl s
  | cons p r ih =>
    unfold emptyQueues
    refine txKeeps_trans ?_ (ih _)
    split
    · exact txKeeps_refl s
    · exact txKeeps_trans (txKeeps_discardAll p _ s) (txKeeps_setTxQueue p _ _)

end Sys2Proof.Machine
end

section
namespace Sys2Proof.Machine

/-! ### What the receive path leaves alone -/

/-- The state without the frames' path through the complex and what its events move: what is left is the mode sequencer, power,
time, the command ports, the tables, FIXER, DARKSLIDE, the NV store and the federation. -/
def State.control (s : State) : State :=
  { s.behindTx with
    ctl := { s.behindTx.ctl with safe := { s.behindTx.ctl.safe with shedding := false } }
    prt := Prt.empty, rx := State.reset.rx, dp := Dp.empty, sec := State.reset.sec, loupe := State.reset.loupe }

/-- `t` is `s` but for the path of frames and what their events move. -/
structure dataKeeps (s t : State) : Prop where
  control : t.control = s.control
  low : ∀ b, quietReg b → getReg t b = getReg s b

theorem dataKeeps_refl (s : State) : dataKeeps s s := ⟨rfl, fun _ _ => rfl⟩

theorem dataKeeps_trans {s t u : State} (h : dataKeeps s t) (k : dataKeeps t u) : dataKeeps s u :=
  ⟨k.control.trans h.control, fun b hb => (k.low b hb).trans (h.low b hb)⟩

theorem dataKeeps_ite {c : Prop} [Decidable c] {s t u : State} (ht : c → dataKeeps s t) (hu : ¬ c → dataKeeps s u) :
    dataKeeps s (if c then t else u) := by
  split
  · exact ht ‹_›
  · exact hu ‹_›

theorem dataKeeps_fst_ite {α : Type} {c : Prop} [Decidable c] {s : State} {x y : State × α} (hx : c → dataKeeps s x.1)
    (hy : ¬ c → dataKeeps s y.1) : dataKeeps s (if c then x else y).1 := by
  split
  · exact hx ‹_›
  · exact hy ‹_›

theorem dataKeeps_st_ite {c : Prop} [Decidable c] {s : State} {x y : SecOut} (hx : c → dataKeeps s x.st)
    (hy : ¬ c → dataKeeps s y.st) : dataKeeps s (if c then x else y).st := by
  split
  · exact hx ‹_›
  · exact hy ‹_›

theorem dataKeeps_of_tx {s t : State} (h : txKeeps s t) : dataKeeps s t :=
  ⟨by rw [State.control, h.behind, State.control], h.low⟩

theorem dataKeeps_of_rest {s t : State} (h : t.rest = s.rest) (hr : ∀ b, quietReg b → getReg t b = getReg s b) :
    dataKeeps s t := ⟨by rw [State.control, behindTx_of_rest h, State.control], hr⟩

theorem dataKeeps_of_eq {s t : State} (h : t.control = s.control) (hr : t.win.regs = s.win.regs) : dataKeeps s t :=
  ⟨h, fun b _ => by rw [getReg, hr, getReg]⟩

theorem dataKeeps_setReg {a : Nat} (w : Word) (s : State) (ha : adr pgCount 0x800 ≤ a) : dataKeeps s (setReg a w s) :=
  ⟨rfl, fun b hb => getReg_setReg_other w s fun e => by
    have h1 := hb.1.1
    omega⟩

theorem dataKeeps_hwEvent (page n : Nat) (s : State) : dataKeeps s (hwEvent page n s) :=
  dataKeeps_of_rest (hwEvent_rest page n s) fun _ hb => hwEvent_quiet hb page n s

theorem dataKeeps_loupe (u i g n : Nat) (s : State) : dataKeeps s (loupe u i g n s) := dataKeeps_of_tx (txKeeps_loupe u i g n s)
theorem dataKeeps_addLive (a n : Nat) (s : State) : dataKeeps s (addLive a n s) := dataKeeps_of_eq rfl rfl
theorem dataKeeps_emit (e : Emit) (s : State) : dataKeeps s (emit e s) := dataKeeps_of_eq rfl rfl
theorem dataKeeps_dp (s : State) (x : Dp) : dataKeeps s { s with dp := x } := dataKeeps_of_eq rfl rfl
theorem dataKeeps_rx (s : State) (x : Rx) : dataKeeps s { s with rx := x } := dataKeeps_of_eq rfl rfl

/-! #### Release of a record -/

theorem dataKeeps_puntDrop (s : State) : dataKeeps s (puntDrop s) :=
  dataKeeps_trans (dataKeeps_addLive _ 1 s) (dataKeeps_hwEvent _ _ _)

theorem dataKeeps_countRefusal (q row : Nat) (s : State) : dataKeeps s (countRefusal q row s) := by
  unfold countRefusal
  split
  · exact dataKeeps_setReg _ s (by decide)
  all_goals exact dataKeeps_of_tx (txKeeps_fnCount _ _ s)

theorem dataKeeps_rxDrop (q row : Nat) (s : State) : dataKeeps s (rxDrop q row s) :=
  dataKeeps_trans (dataKeeps_trans (dataKeeps_countRefusal q row s) (dataKeeps_hwEvent _ _ _)) (dataKeeps_puntDrop _)

theorem dataKeeps_rxCheck (q n : Nat) (s : State) : dataKeeps s (rxCheck q n s) := by
  unfold rxCheck
  simp only
  split
  · exact dataKeeps_ite (fun _ => dataKeeps_of_tx (txKeeps_queueError true q _ _ s)) (fun _ => dataKeeps_refl s)
  · exact dataKeeps_refl s

theorem dataKeeps_addStaged (x : Staged) (s : State) : dataKeeps s (addStaged x s) := dataKeeps_of_eq rfl rfl

theorem dataKeeps_stage (x : Staged) (s : State) : dataKeeps s (stage x s).1 := by
  refine dataKeeps_fst_ite (fun _ => dataKeeps_puntDrop s) (fun _ => ?_)
  refine dataKeeps_fst_ite (fun _ => dataKeeps_addStaged x s) (fun _ => ?_)
  have hc := dataKeeps_rxCheck x.queue x.data.length s
  simp only
  split
  · exact dataKeeps_trans hc (dataKeeps_addStaged x _)
  · exact dataKeeps_fst_ite (fun _ => dataKeeps_trans hc (dataKeeps_addStaged x _))
      (fun _ => dataKeeps_trans hc (dataKeeps_rxDrop x.queue _ _))

theorem dataKeeps_sendCells (cl : Nat) (l : List RxCell) (s : State) : dataKeeps s (sendCells cl l s) := by
  induction l generalizing s with
  | nil => exact dataKeeps_dp s _
  | cons c r ih =>
    exact dataKeeps_ite (fun _ => dataKeeps_dp s _)
      (fun _ => dataKeeps_trans (dataKeeps_trans (dataKeeps_rx s _) (dataKeeps_emit _ _)) (ih _))

theorem dataKeeps_releaseRecord (h : Held) (s : State) : dataKeeps s (releaseRecord h s) := by
  have hput : ∀ u, dataKeeps u (if safeStopped u h.port then addLive (rxCnt h.port 0xB0) 1 u else putCells h.frm h.side u) :=
    fun u => dataKeeps_ite (fun _ => dataKeeps_addLive _ 1 u) (fun _ => dataKeeps_sendCells _ _ u)
  unfold releaseRecord
  split
  · refine dataKeeps_trans ?_ (hput _)
    split
    · refine dataKeeps_ite (fun _ => dataKeeps_refl s) (fun _ => ?_)
      exact dataKeeps_ite (fun _ => dataKeeps_trans (dataKeeps_stage _ s) (dataKeeps_addLive _ 1 _)) (fun _ => dataKeeps_stage _ s)
    · exact dataKeeps_refl s
  · exact dataKeeps_ite (fun _ => dataKeeps_trans (dataKeeps_addLive _ 1 s) (dataKeeps_addLive _ 1 _))
      (fun _ => dataKeeps_trans (dataKeeps_addLive _ 1 s) (dataKeeps_stage _ _))
  · exact dataKeeps_addLive _ 1 s
  · exact dataKeeps_refl s

theorem dataKeeps_flushOpen (p : Nat) (s : State) : dataKeeps s (flushOpen p s) := by
  unfold flushOpen
  split
  · exact dataKeeps_ite (fun _ => dataKeeps_refl s) (fun _ => dataKeeps_trans (dataKeeps_dp s _) (dataKeeps_releaseRecord _ _))
  · exact dataKeeps_refl s

/-! #### A frame that ends at the MAC -/

theorem dataKeeps_untrip (p i : Nat) (s : State) : dataKeeps s (untrip p i s) := by
  have ha : adr pgCount 0x800 ≤ txStA p := by simp only [txStA, macA, adr, pgCl, pgCount]; omega
  exact dataKeeps_ite (fun _ => dataKeeps_ite (fun _ => dataKeeps_refl s) (fun _ => dataKeeps_setReg _ s ha))
    (fun _ => dataKeeps_ite (fun _ => dataKeeps_setReg _ s ha) (fun _ => dataKeeps_refl s))

theorem dataKeeps_setPause (p i q : Nat) (s : State) : dataKeeps s (setPause p i q s) := by
  have h2 : ∀ (u : State), dataKeeps s u → ∀ c : Prop, [Decidable c] → ∀ e, dataKeeps s (if c then u else emit e u) :=
    fun u hu _ _ e => dataKeeps_ite (fun _ => hu) (fun _ => dataKeeps_trans hu (dataKeeps_emit e u))
  simp only [setPause]
  refine dataKeeps_ite (fun _ => dataKeeps_trans (h2 _ (dataKeeps_rx s _) _ _) (dataKeeps_untrip p i _)) (fun _ => ?_)
  exact dataKeeps_ite (fun _ => dataKeeps_trans (h2 _ (dataKeeps_rx s _) _ _) (dataKeeps_hwEvent _ _ _))
    (fun _ => h2 _ (dataKeeps_rx s _) _ _)

theorem dataKeeps_pfcRx (p : Nat) (f : List Byte) (act : Bool) (l : List Nat) (s : State) : dataKeeps s (pfcRx p f act l s) := by
  induction l generalizing s with
  | nil => exact dataKeeps_refl s
  | cons i r ih =>
    refine dataKeeps_trans (dataKeeps_ite (fun _ => ?_) (fun _ => dataKeeps_refl s)) (ih _)
    exact dataKeeps_ite (fun _ => dataKeeps_trans (dataKeeps_addLive _ 1 s) (dataKeeps_setPause _ _ _ _))
      (fun _ => dataKeeps_addLive _ 1 s)

theorem dataKeeps_macCtrlRx (p : Nat) (f : List Byte) (s : State) : dataKeeps s (macCtrlRx p f s) := by
  unfold macCtrlRx
  simp only
  split
  · exact dataKeeps_ite (fun _ => dataKeeps_trans (dataKeeps_addLive _ 1 s) (dataKeeps_setPause _ _ _ _))
      (fun _ => dataKeeps_addLive _ 1 s)
  · exact dataKeeps_pfcRx p f _ _ s
  · exact dataKeeps_addLive _ 1 s

theorem dataKeeps_noteWake (c l : Nat) (s : State) : dataKeeps s (noteWake c l s) :=
  dataKeeps_of_rest (noteWake_rest c l s) fun _ hb => noteWake_free hb.1 c l s

theorem dataKeeps_wakeIntake (p : Nat) (f got : List Byte) (row7 : Bool) (x : RxStart) (s : State) :
    dataKeeps s (wakeIntake p f got row7 x s) := by
  have ha : adr pgCount 0x800 ≤ adr (pgCl (p / 8) 0) 0x0DC := by simp only [adr, pgCl, pgCount]; omega
  unfold wakeIntake
  split
  · exact dataKeeps_ite (fun _ => dataKeeps_addLive _ 1 s) (fun _ => dataKeeps_refl s)
  · refine dataKeeps_ite (fun _ => dataKeeps_addLive _ 1 s) (fun _ => ?_)
    refine dataKeeps_trans ?_ (dataKeeps_rx _ _)
    refine dataKeeps_trans ?_ (dataKeeps_hwEvent _ _ _)
    refine dataKeeps_trans ?_ (dataKeeps_noteWake _ _ _)
    exact dataKeeps_trans (dataKeeps_addLive _ 1 s) (dataKeeps_setReg _ _ ha)

theorem dataKeeps_saPut (cl : Nat) (tx : Bool) (sc an : Nat) (x : SA) (s : State) : dataKeeps s (saPut cl tx sc an x s) :=
  dataKeeps_of_eq rfl rfl

theorem dataKeeps_secIcv (cfg : Word) (p sc : Nat) (f : List Byte) (t : SecTag) (n : Nat) (sa : SA) (pn : Nat) (s : State) :
    dataKeeps s (secIcv cfg p sc f t n sa pn s).st := by
  unfold secIcv
  extract_lets cipher sci body icv o r plain tag
  clear_value tag plain
  have hl : ∀ a m, dataKeeps s (addLive a m s) := fun a m => dataKeeps_addLive a m s
  have hu : ∀ a m u, dataKeeps s u → dataKeeps s (addLive a m u) := fun a m u h => dataKeeps_trans h (dataKeeps_addLive a m u)
  by_cases ht : tag = icv
  · rw [if_pos ht]
    refine dataKeeps_st_ite (fun _ => hu _ _ _ (hl _ _)) (fun _ => ?_)
    exact dataKeeps_trans (hu _ _ _ (hl _ _)) (dataKeeps_saPut _ _ _ _ _ _)
  · rw [if_neg ht]
    exact dataKeeps_st_ite (fun _ => hl _ _) (fun _ => hl _ _)

theorem dataKeeps_secRx (cfg : Word) (p : Nat) (f : List Byte) (verdict : Bool) (s : State) :
    dataKeeps s (secRx cfg p f verdict s).st := by
  have hc : ∀ a, dataKeeps s (addLive a 1 s) := fun a => dataKeeps_addLive a 1 s
  unfold secRx
  simp only
  split
  · exact dataKeeps_refl s
  · split
    · split <;> exact hc _
    · split
      · exact hc _
      · split
        · split <;> exact hc _
        · split
          · split <;> exact hc _
          · split
            · exact dataKeeps_trans (hc _) (dataKeeps_hwEvent _ _ _)
            · split
              · exact dataKeeps_secIcv _ _ _ _ _ _ _ _ s
              · exact dataKeeps_refl s

theorem dataKeeps_spreadIn (f : RxFrm) (s : State) : dataKeeps s (spreadIn f s).1 := by
  have ha : adr pgCount 0x800 ≤ adr pgSpread 0x0C0 := by decide
  refine dataKeeps_fst_ite (fun _ => ?_) (fun _ => ?_)
  · refine dataKeeps_ite (fun _ => ?_) (fun _ => dataKeeps_dp s _)
    exact dataKeeps_trans (dataKeeps_trans (dataKeeps_dp s _) (dataKeeps_setReg _ _ ha)) (dataKeeps_setReg _ _ ha)
  · refine dataKeeps_trans (dataKeeps_trans ?_ (dataKeeps_hwEvent pgSpread 0 _)) (dataKeeps_loupe _ _ _ _ _)
    refine dataKeeps_trans (dataKeeps_trans (dataKeeps_trans (dataKeeps_addLive _ 1 s) (dataKeeps_addLive _ 1 _))
      (dataKeeps_dp _ _)) (dataKeeps_ite (fun _ => dataKeeps_of_eq rfl rfl) (fun _ => dataKeeps_refl _))

theorem dataKeeps_enterQueue (slot : Bool) (f : RxFrm) (s : State) : dataKeeps s (enterQueue slot f s).1 := by
  unfold enterQueue
  split
  · exact dataKeeps_dp s _
  · exact dataKeeps_spreadIn f s

theorem dataKeeps_enterSecY (p : Nat) (f got : List Byte) (mark : Nat) (discard headLeft : Bool) (x : RxStart) (slot : Bool)
    (s : State) : dataKeeps s (enterSecY p f got mark discard headLeft x slot s).1 := by
  have hst : ∀ row7 : Bool, dataKeeps s (if row7 then (secRx x.secy p f row7 s).st else s) := fun row7 =>
    dataKeeps_ite (fun _ => dataKeeps_secRx _ _ _ _ s) (fun _ => dataKeeps_refl s)
  refine dataKeeps_fst_ite (fun _ => dataKeeps_addLive _ 1 s) (fun _ => ?_)
  refine dataKeeps_fst_ite (fun _ => hst _) (fun _ => dataKeeps_trans (hst (decide (mark = 0) && !discard)) ?_)
  refine dataKeeps_fst_ite (fun _ => dataKeeps_addLive _ 1 _) (fun _ => dataKeeps_trans ?_ (dataKeeps_enterQueue _ _ _))
  exact dataKeeps_ite (fun _ => dataKeeps_addLive _ 1 _) (fun _ => dataKeeps_refl _)

theorem dataKeeps_intake (p : Nat) (f got : List Byte) (mark : Nat) (discard headLeft : Bool) (x : RxStart) (slot : Bool)
    (s : State) : dataKeeps s (intake p f got mark discard headLeft x slot s).1 := by
  unfold intake
  simp only
  split
  · exact dataKeeps_addLive _ 1 s
  · split
    · exact dataKeeps_ite (fun _ => dataKeeps_macCtrlRx p f s) (fun _ => dataKeeps_refl s)
    · split
      · exact dataKeeps_addLive _ 1 s
      · split
        · exact dataKeeps_wakeIntake _ _ _ _ _ s
        · exact dataKeeps_enterSecY _ _ _ _ _ _ _ _ s

theorem dataKeeps_errorFrame (p : Nat) (o : List Byte) (cnt late mark : Nat) (headLeft : Bool) (x : RxStart) (slot : Bool)
    (s : State) : dataKeeps s (errorFrame p o cnt late mark headLeft x slot s) := by
  have h1 := dataKeeps_trans (dataKeeps_addLive (rxCnt p cnt) 1 s) (dataKeeps_loupe 1 p 2 1 _)
  refine dataKeeps_ite (fun _ => h1) (fun _ => ?_)
  have hi := dataKeeps_trans h1 (dataKeeps_intake p (o.take (o.length - 4)) (o.drop (o.length - 4))
    (if headLeft then mark else 0) (!headLeft) headLeft x slot _)
  exact dataKeeps_ite (fun _ => dataKeeps_trans hi (dataKeeps_addLive _ 1 _)) (fun _ => hi)

theorem dataKeeps_countOctets (p n : Nat) (s : State) : dataKeeps s (countOctets p n s) := dataKeeps_of_eq rfl rfl

theorem dataKeeps_rowsRx (p : Nat) (o : List Byte) (codeErr mergeErr headLeft : Bool) (x : RxStart) (slot : Bool) (s : State) :
    dataKeeps s (rowsRx p o codeErr mergeErr headLeft x slot s) := by
  have h0 := dataKeeps_countOctets p (o.take 16383).length s
  have hl : ∀ a n u, dataKeeps s u → dataKeeps s (addLive a n u) := fun a n u h => dataKeeps_trans h (dataKeeps_addLive a n u)
  simp only [rowsRx]
  refine dataKeeps_ite (fun _ => dataKeeps_trans h0 (dataKeeps_errorFrame _ _ _ _ _ _ _ _ _)) (fun _ => ?_)
  refine dataKeeps_ite (fun _ => dataKeeps_trans (dataKeeps_trans h0 (dataKeeps_hwEvent _ _ _)) (dataKeeps_errorFrame _ _ _ _ _ _ _ _ _))
    (fun _ => ?_)
  refine dataKeeps_ite (fun _ => dataKeeps_trans (dataKeeps_trans h0 (dataKeeps_hwEvent _ _ _)) (dataKeeps_errorFrame _ _ _ _ _ _ _ _ _))
    (fun _ => ?_)
  refine dataKeeps_ite (fun _ => dataKeeps_trans (hl _ _ _ h0) (dataKeeps_loupe _ _ _ _ _)) (fun _ => ?_)
  refine dataKeeps_ite (fun _ => dataKeeps_trans (hl _ _ _ h0) (dataKeeps_errorFrame _ _ _ _ _ _ _ _ _)) (fun _ => ?_)
  refine dataKeeps_trans ?_ (dataKeeps_intake _ _ _ _ _ _ _ _ _)
  refine dataKeeps_trans (dataKeeps_trans ?_ (dataKeeps_loupe _ _ _ _ _)) (dataKeeps_loupe _ _ _ _ _)
  exact dataKeeps_ite (fun _ => hl _ _ _ (hl _ _ _ (hl _ _ _ (hl _ _ _ (hl _ _ _ h0)))))
    (fun _ => hl _ _ _ (hl _ _ _ (hl _ _ _ (hl _ _ _ h0))))

theorem dataKeeps_finishRx (p : Nat) (o : List Byte) (codeErr mergeErr headLeft : Bool) (x : RxStart) (slot : Bool) (s : State) :
    dataKeeps s (finishRx p o codeErr mergeErr headLeft x slot s) :=
  have h := dataKeeps_rowsRx p o codeErr mergeErr headLeft x slot s
  dataKeeps_ite (fun _ => dataKeeps_trans h (dataKeeps_dp _ _)) (fun _ => h)

theorem dataKeeps_mergeError (p : Nat) (extra : List Byte) (codeErr headLeft : Bool) (s : State) :
    dataKeeps s (mergeError p extra codeErr headLeft s) := by
  unfold mergeError
  split
  · exact dataKeeps_refl s
  · exact dataKeeps_trans (dataKeeps_rx s _) (dataKeeps_finishRx _ _ _ _ _ _ _ _)

/-! #### Lanes and ports -/

theorem pcsA_high (p o : Nat) : adr pgCount 0x800 ≤ pcsA p o := by simp only [pcsA, adr, pgCl, pgCount]; omega
theorem laneStA_high (l : Nat) : adr pgCount 0x800 ≤ laneStA l := by simp only [laneStA, adr, pgCl, pgCount]; omega

theorem dataKeeps_portDown (p : Nat) (s : State) : dataKeeps s (portDown p s) :=
  dataKeeps_ite (fun _ => dataKeeps_trans (dataKeeps_setReg _ s (pcsA_high p _)) (dataKeeps_hwEvent _ _ _))
    (fun _ => dataKeeps_refl s)

theorem dataKeeps_downPort (p : Nat) (s : State) : dataKeeps s (downPort p s) := by
  refine dataKeeps_trans ?_ (dataKeeps_of_tx (txKeeps_sweep p _))
  refine dataKeeps_trans ?_ (dataKeeps_portDown p _)
  refine dataKeeps_trans ?_ (dataKeeps_flushOpen p _)
  refine dataKeeps_trans ?_ (dataKeeps_mergeError p [] false false _)
  exact dataKeeps_ite (fun _ => dataKeeps_of_eq rfl rfl) (fun _ => dataKeeps_refl s)

theorem dataKeeps_laneUnlock (l : Nat) (s : State) : dataKeeps s (laneUnlock l s) := by
  have h1 := dataKeeps_setReg (putBits (getReg s (laneStA l)) 7 6 0) s (laneStA_high l)
  unfold laneUnlock
  split
  · exact h1
  · refine dataKeeps_trans (dataKeeps_ite (fun _ => h1) (fun _ => ?_)) (dataKeeps_downPort _ _)
    exact dataKeeps_trans (dataKeeps_trans h1 (dataKeeps_addLive _ 1 _)) (dataKeeps_hwEvent _ _ _)

theorem dataKeeps_countChanges (l : Nat) (d : BitVec 3) (s : State) : dataKeeps s (countChanges l d s) := by
  have ha : adr pgCount 0x800 ≤ adr (pgCl (l / 8) 3) (0x080 + 4 * (l % 8)) := by simp only [adr, pgCl, pgCount]; omega
  have hb : ∀ (c : Prop) [Decidable c] (hi lo : Nat) (u : State),
      dataKeeps u (if c then addF (adr (pgCl (l / 8) 3) (0x080 + 4 * (l % 8))) hi lo 1 u else u) := fun _ _ _ _ u =>
    dataKeeps_ite (fun _ => dataKeeps_setReg _ u ha) (fun _ => dataKeeps_refl u)
  exact dataKeeps_trans (dataKeeps_trans (hb _ 29 20 s) (hb _ 19 10 _)) (hb _ 9 0 _)

theorem dataKeeps_sampleLane (l : Nat) (s : State) : dataKeeps s (sampleLane l s) := by
  refine dataKeeps_ite (fun _ => dataKeeps_refl s) (fun _ => ?_)
  have h1 := dataKeeps_trans (dataKeeps_setReg (putBits (getReg s (laneStA l)) 2 0 (laneLevels s l).toNat) s (laneStA_high l))
    (dataKeeps_countChanges l (laneLevels s l ^^^ laneSample s l) _)
  exact dataKeeps_ite (fun _ => h1) (fun _ => dataKeeps_trans h1 (dataKeeps_laneUnlock l _))

/-- Sampling lanes moves the path of frames, and nothing behind it (R9, R93). -/
theorem dataKeeps_sampleLanes (l : List Nat) (s : State) : dataKeeps s (sampleLanes l s) := by
  induction l generalizing s with
  | nil => exact dataKeeps_refl s
  | cons x r ih => exact dataKeeps_trans (dataKeeps_sampleLane x s) (ih _)

end Sys2Proof.Machine
end

section
namespace Sys2Proof.Machine

/-! ### Sampling lanes that carry no port -/

/-- LANE_CHG of a lane. -/
def laneChgA (l : Nat) : Nat := adr (pgCl (l / 8) 3) (0x080 + 4 * (l % 8))

/-- PORT_LIVE of slot `i` of a cluster. -/
def portLiveA (cl i : Nat) : Nat := adr (pgCl cl 1) (0x0E0 + 4 * i)

theorem laneStA_inj {l m : Nat} (h : laneStA l = laneStA m) : l = m := by
  simp only [laneStA, adr, pgCl] at h
  omega

theorem laneStA_ne_laneChgA (l m : Nat) : laneStA l ≠ laneChgA m := by
  simp only [laneStA, laneChgA, adr, pgCl]
  omega

theorem portLiveA_ne_laneStA {cl i : Nat} (l : Nat) (hi : i < 8) : portLiveA cl i ≠ laneStA l := by
  simp only [laneStA, portLiveA, adr, pgCl]
  omega

theorem portLiveA_ne_laneChgA {cl i : Nat} (l : Nat) (hi : i < 8) : portLiveA cl i ≠ laneChgA l := by
  simp only [laneChgA, portLiveA, adr, pgCl]
  omega

theorem liveShape_congr {s t : State} {cl i : Nat} (h : getReg t (portLiveA cl i) = getReg s (portLiveA cl i)) :
    liveShape t cl i = liveShape s cl i := congrArg shapeOf h

/-- Which port carries a lane's traffic follows from PORT_LIVE of its cluster (R85). -/
theorem portOfLane_congr {s t : State} {l : Nat}
    (h : ∀ i < 8, getReg t (portLiveA (l / 8) i) = getReg s (portLiveA (l / 8) i)) : portOfLane t l = portOfLane s l := by
  have hs : spanHead t (l / 8) (l % 8) = spanHead s (l / 8) (l % 8) := by
    simp only [spanHead]
    refine List.find?_congr fun i hi => ?_
    rw [liveShape_congr (h i (List.mem_range.mp hi))]
  unfold portOfLane
  rw [hs]
  cases hk : spanHead s (l / 8) (l % 8) with
  | none => rfl
  | some i =>
    have hi : i < 8 := List.mem_range.mp (List.mem_of_find?_eq_some hk)
    simp only [liveShape_congr (h i hi)]

/-- Counting changes touches LANE_CHG of the lane and nothing else. -/
theorem getReg_countChanges_other {b l : Nat} (d : BitVec 3) (s : State) (hb : b ≠ laneChgA l) :
    getReg (countChanges l d s) b = getReg s b := by
  have h1 : ∀ (c : Prop) [Decidable c] (hi lo : Nat) (u : State),
      getReg (if c then addF (laneChgA l) hi lo 1 u else u) b = getReg u b := by
    intro c _ hi lo u
    split
    · exact getReg_addF_other _ _ _ _ hb
    · rfl
  simp only [countChanges]
  exact (h1 _ _ _ _).trans ((h1 _ _ _ _).trans (h1 _ _ _ _))

theorem countChanges_prt (l : Nat) (d : BitVec 3) (s : State) : (countChanges l d s).prt = s.prt := by
  simp only [countChanges]
  split <;> split <;> split <;> rfl

/-- A lane that carries no port only loses its lock bits. -/
theorem laneUnlock_noPort {l : Nat} {s : State} (h : portOfLane s l = none) :
    laneUnlock l s = setF (laneStA l) 7 6 0 s := by
  simp only [laneUnlock, h]

/-- The state once a sample is stored and its changes are counted. -/
theorem laneSample_stored (l : Nat) (d v : BitVec 3) (s : State) :
    getF (countChanges l d (setF (laneStA l) 2 0 v.toNat s)) (laneStA l) 2 0 = v.toNat := by
  rw [getF_congr (getReg_countChanges_other _ _ (laneStA_ne_laneChgA l l)), getF_setF_same _ _ _ (by decide),
    Nat.mod_eq_of_lt v.isLt]

/-- Sampling a lane that carries no port: the sample takes the inputs, and only the lane's two registers move (R9). -/
theorem sampleLane_noPort {l : Nat} {s : State} (h : portOfLane s l = none) :
    laneSample (sampleLane l s) l = laneLevels s l ∧ (sampleLane l s).prt = s.prt
      ∧ ∀ b, b ≠ laneStA l → b ≠ laneChgA l → getReg (sampleLane l s) b = getReg s b := by
  by_cases hd : laneLevels s l ^^^ laneSample s l = 0
  · have e : laneSample s l = laneLevels s l := (BitVec.xor_eq_zero_iff.mp hd).symm
    have e' : sampleLane l s = s := by simp only [sampleLane, hd, if_true]
    rw [e']
    exact ⟨e, rfl, fun _ _ _ => rfl⟩
  · let u := countChanges l (laneLevels s l ^^^ laneSample s l) (setF (laneStA l) 2 0 (laneLevels s l).toNat s)
    have hr : ∀ b, b ≠ laneStA l → b ≠ laneChgA l → getReg u b = getReg s b := fun b h1 h2 => by
      rw [getReg_countChanges_other _ _ h2, getReg_setF_other _ _ _ _ h1]
    have hv : getF u (laneStA l) 2 0 = (laneLevels s l).toNat := laneSample_stored l _ _ s
    have hu : portOfLane u l = none := (portOfLane_congr fun i hi =>
      hr _ (portLiveA_ne_laneStA l hi) (portLiveA_ne_laneChgA l hi)).trans h
    have hp : u.prt = s.prt := countChanges_prt _ _ _
    have e : sampleLane l s = if (laneLevels s l).getLsbD 1 && (laneLevels s l).getLsbD 2 then u else laneUnlock l u := by
      simp only [sampleLane, hd, if_false]
      rfl
    rw [e, laneUnlock_noPort hu]
    split
    · exact ⟨by rw [laneSample, hv, BitVec.ofNat_toNat, BitVec.setWidth_eq], hp, hr⟩
    · refine ⟨?_, hp, fun b h1 h2 => (getReg_setF_other _ _ _ _ h1).trans (hr b h1 h2)⟩
      rw [laneSample, getF_setF_field _ _ _ (.inr (by decide)), hv, BitVec.ofNat_toNat, BitVec.setWidth_eq]

/-- Sampling lanes of which none carries a port: each sample is what its inputs present. -/
theorem laneSample_sampleLanes (L : List Nat) (s : State) (h : ∀ l ∈ L, portOfLane s l = none) (m : Nat) :
    laneSample (sampleLanes L s) m = if m ∈ L then laneLevels s m else laneSample s m := by
  induction L generalizing s with
  | nil => rfl
  | cons l r ih =>
    obtain ⟨hv, hp, hr⟩ := sampleLane_noPort (h l List.mem_cons_self)
    have hn : ∀ k ∈ r, portOfLane (sampleLane l s) k = none := fun k hk =>
      (portOfLane_congr fun i hi => hr _ (portLiveA_ne_laneStA l hi) (portLiveA_ne_laneChgA l hi)).trans
        (h k (List.mem_cons_of_mem _ hk))
    have hl : laneLevels (sampleLane l s) m = laneLevels s m := by rw [laneLevels, hp, laneLevels]
    rw [sampleLanes, ih _ hn, hl]
    by_cases hm : m ∈ r
    · simp [hm]
    · by_cases e : m = l
      · subst e
        simp [hm, hv]
      · have hk : laneSample (sampleLane l s) m = laneSample s m := by
          rw [laneSample, getF_congr (hr _ (fun x => e (laneStA_inj x)) (laneStA_ne_laneChgA m l)), laneSample]
        simp [hm, e, hk]

theorem laneSample_sampleAll {s : State} (h : ∀ l < 512, portOfLane s l = none) {l : Nat} (hl : l < 512) :
    laneSample (sampleAll s) l = laneLevels s l := by
  rw [sampleAll, laneSample_sampleLanes _ _ fun k hk => h k (List.mem_range.mp (List.mem_of_mem_filter hk))]
  split
  · rfl
  · rename_i hn
    by_contra hx
    exact hn (List.mem_filter.mpr ⟨List.mem_range.mpr hl, bne_iff_ne.mpr (Ne.symm hx)⟩)

/-! ### The end of HOLD -/

/-- Leaving HOLD: nothing behind the path of frames moves but the mode, and it moves where no cause is left (R9, R20, R49). -/
theorem leaveHold_causes (s : State) (hm : s.ctl.mode = .hold) :
    causeEnded s (leaveHold s) s.ctl.pins ∧ (leaveHold s).tim = s.tim ∧ (leaveHold s).nv = s.nv
      ∧ ∀ b, quietReg b → getReg (leaveHold s) b = getReg s b := by
  by_cases hc : s.ctl.pins.dieResetLow = false ∧ s.ctl.pins.corePgLow = false ∧ s.ctl.pins.vddioLow = false
  · have e : leaveHold s = sampleAll { s with ctl := { s.ctl with mode := .proof } } := if_pos ⟨hm, hc⟩
    have hk : dataKeeps { s with ctl := { s.ctl with mode := .proof } } (leaveHold s) := e ▸ dataKeeps_sampleLanes _ _
    obtain ⟨hctl, hlow⟩ := hk
    obtain ⟨h1, h2, h3⟩ := hc
    refine ⟨⟨congrArg (fun x => x.ctl.pins) hctl, congrArg (fun x => x.ctl.proof) hctl, congrArg (fun x => x.pending) hctl, ?_,
      fun _ hp l hl => ?_⟩, congrArg (fun x => x.tim) hctl, congrArg (fun x => x.nv) hctl, hlow⟩
    · simp only [h1, h2, h3, Bool.or_self]
      exact congrArg (fun x => x.ctl.mode) hctl
    · rw [e]
      refine (laneSample_sampleAll (fun k hk => ?_) hl).trans rfl
      exact (portOfLane_congr fun _ _ => rfl).trans (hp k hk)
  · have e : leaveHold s = s := if_neg fun h => hc h.2
    have hor : (s.ctl.pins.dieResetLow || s.ctl.pins.corePgLow || s.ctl.pins.vddioLow) = true := by
      by_contra hn
      simp only [Bool.or_eq_true, not_or, Bool.not_eq_true, and_assoc] at hn
      exact hc hn
    rw [e]
    refine ⟨⟨rfl, rfl, rfl, ?_, fun hp => ?_⟩, rfl, rfl, fun _ _ => rfl⟩
    · rw [if_pos hor, hm]
    · rw [hm] at hp
      cases hp

/-- The state a cause's end leaves to HOLD differs from the one before it in pins and registers that name no port. -/
theorem causeEnded_of_leaveHold {s u : State} (hm : u.ctl.mode = .hold) (hq : u.ctl.proof = s.ctl.proof)
    (hp : u.pending = s.pending) (hl : u.prt = s.prt) (hr : ∀ b, adr pgCount 0x800 ≤ b → getReg u b = getReg s b) :
    causeEnded s (leaveHold u) u.ctl.pins := by
  obtain ⟨⟨h1, h2, h3, h4, h5⟩, _⟩ := leaveHold_causes u hm
  refine ⟨h1, h2.trans hq, h3.trans hp, h4, fun hmode hs l h => ?_⟩
  rw [h5 hmode (fun k hk => (portOfLane_congr fun i _ => hr _ ?_).trans (hs k hk)) l h, laneLevels, hl, laneLevels]
  simp only [portLiveA, adr, pgCl, pgCount]
  omega

/-- Settles O9. -/
theorem holdEndsInColdProof : Obligations.HoldEndsInColdProof := by
  intro s strap hm
  have hstrap : quietReg (adr pgCmd 0x0A0) := by decide
  have hj : quietReg jrnlA := by decide
  refine ⟨fun h => ?_, fun h => ?_, fun h => ?_, fun h => ?_, fun h => ?_, fun h => ?_⟩
  · let u := setReg (adr pgCmd 0x0A0) (word (flag strap))
      { s with ctl := { s.ctl with pins := { s.ctl.pins with dieResetLow := false, strap := strap } } }
    obtain ⟨_, ht, _, hr⟩ := leaveHold_causes u hm
    refine ⟨leaveHold u, ?_, causeEnded_of_leaveHold (u := u) hm rfl rfl rfl ?_, ht, ?_⟩
    · simp only [exec, execDieResetRelease, h, if_true, u]
    · exact fun b hb => getReg_setReg_other _ _ (by simp only [adr, pgCmd, pgCount] at hb ⊢; omega)
    · rw [hr _ hstrap, getReg_setReg_same]
  · let u := setF jrnlA 6 0 0 { s with
      tim := { s.tim with powered := 0 }, fix := { s.fix with hour := 0 }, nv := { s.nv with hour := 0, hourCount := 0 }
      ctl := { s.ctl with pins := { s.ctl.pins with corePgLow := false } } }
    obtain ⟨_, ht, hn, hr⟩ := leaveHold_causes u hm
    refine ⟨leaveHold u, ?_, causeEnded_of_leaveHold (u := u) hm rfl rfl rfl ?_, ht, by rw [hn]; rfl, ?_⟩
    · simp only [exec, execCorePgRise, h, if_true, u]
    · exact fun b hb => getReg_setF_other _ _ _ _ (by simp only [jrnlA, adr, pgFixer, pgCount] at hb ⊢; omega)
    · rw [getF_congr (hr _ hj), getF_setF_same _ _ _ (by decide), Nat.zero_mod]
  · let u := { s with ctl := { s.ctl with pins := { s.ctl.pins with vddioLow := false } } }
    refine ⟨leaveHold u, ?_, causeEnded_of_leaveHold (u := u) hm rfl rfl rfl (fun _ _ => rfl), (leaveHold_causes u hm).2.1⟩
    simp only [exec, execVddioRise, h, if_true, u]
  · simp only [exec, execDieResetRelease, h, Bool.false_eq_true, if_false]
  · simp only [exec, execCorePgRise, h, Bool.false_eq_true, if_false]
  · simp only [exec, execVddioRise, h, Bool.false_eq_true, if_false]

end Sys2Proof.Machine
end

section
namespace Sys2Proof.Machine

/-! ### Refused register writes -/

/-- Which commands wait follows from the command ports, the NV store and the federation's outbox. -/
theorem portsIdle_of_eq {s t : State} (hc : t.cmd = s.cmd) (hn : t.nv = s.nv) (hf : t.fed = s.fed) (hs : portsIdle s) :
    portsIdle t := by
  simpa only [portsIdle, hc, hn, hf] using hs

theorem portsIdle_of_rest {s t : State} (h : t.rest = s.rest) (hs : portsIdle s) : portsIdle t :=
  portsIdle_of_eq (rest_cmd h) (congrArg (fun x => x.nv) h) (congrArg (fun x => x.fed) h) hs

theorem settle_of_rest {s t : State} (h : t.rest = s.rest) (hs : portsIdle s) : settle t = t :=
  settle_portsIdle t (portsIdle_of_rest h hs)

theorem portCode_le (p : CmdPort) : portCode p ≤ 4 := by cases p <;> decide

/-- A register that an event of `page` leaves alone. -/
abbrev clearOf (page b : Nat) : Prop := eventFree b ∧ b ≠ adr page 0x24 ∧ b ≠ adr page 0x40

theorem hwEvent_clear {page b : Nat} (h : clearOf page b) (n : Nat) (s : State) :
    getReg (hwEvent page n s) b = getReg s b := hwEvent_free h.1 page n s h.2.1 h.2.2

/-- What a refusal leaves: the register that names it, the count beside it, and the event of their page (R36, R410). -/
theorem refusal_recorded {page a c hi : Nat} (n : Nat) (w : Word) (s u : State) (hac : c ≠ a) (ha : clearOf page a)
    (hc : clearOf page c) (hhi : hi < 32)
    (hu : u = setReg a w (addF c hi 0 1 s) ∨ u = addF c hi 0 1 (setReg a w s)) :
    getReg (hwEvent page n u) a = w
      ∧ getF (hwEvent page n u) c hi 0 = satAdd (2 ^ (hi + 1) - 1) (getF s c hi 0) 1 ∧ (hwEvent page n u).rest = s.rest
      ∧ ∀ b, eventFree b → b ≠ adr page 0x24 → b ≠ adr page 0x40 → b ≠ a → b ≠ c →
        getReg (hwEvent page n u) b = getReg s b := by
  have hu' : getReg u a = w ∧ getF u c hi 0 = satAdd (2 ^ (hi + 1) - 1) (getF s c hi 0) 1 ∧ u.rest = s.rest
      ∧ ∀ b, b ≠ a → b ≠ c → getReg u b = getReg s b := by
    rcases hu with rfl | rfl
    · refine ⟨getReg_setReg_same _ _ _, ?_, rfl, fun b h1 h2 => ?_⟩
      · rw [getF_congr (getReg_setReg_other _ _ hac), getF_addF_same _ _ _ hhi, Nat.sub_zero]
      · rw [getReg_setReg_other _ _ h1, getReg_addF_other _ _ _ _ h2]
    · refine ⟨?_, ?_, rfl, fun b h1 h2 => ?_⟩
      · rw [getReg_addF_other _ _ _ _ hac.symm, getReg_setReg_same]
      · rw [getF_addF_same _ _ _ hhi, getF_congr (getReg_setReg_other _ _ hac), Nat.sub_zero]
      · rw [getReg_addF_other _ _ _ _ h2, getReg_setReg_other _ _ h1]
  obtain ⟨h1, h2, h3, h4⟩ := hu'
  exact ⟨(hwEvent_clear ha n u).trans h1, (getF_congr (hwEvent_clear hc n u) hi 0).trans h2, (hwEvent_rest page n u).trans h3,
    fun b hb h24 h40 hba hbc => (hwEvent_clear ⟨hb, h24, h40⟩ n u).trans (h4 b hba hbc)⟩

/-- A write whose checks leave no more than events move ends there: no command waits to be settled. -/
theorem exec_registerWrite_of_rest {p : CmdPort} {a : BitVec 22} {ok : Bool} {v : Word} {s t : State}
    (e : gatedWrite p a.toNat ok v (regWrite p a.toNat v) s = t) (h : t.rest = s.rest) (hi : portsIdle s) :
    exec (.registerWrite p a ok v) s = .next t := by
  show Host.Outcome.next (settle (gatedWrite p a.toNat ok v (regWrite p a.toNat v) s)) = _
  rw [e, settle_of_rest h hi]

/-- Settles O15. -/
theorem refusedRegisterWrite : Obligations.RefusedRegisterWrite := by
  intro s p a ok v hi
  have hp := portCode_le p
  refine ⟨fun hv => ?_, fun hv => ?_, fun hv => ?_, fun hv => ?_, fun hv => ?_⟩
  · refine exec_registerWrite_of_rest ?_ rfl hi
    rcases hv with hv | hv <;> simp only [gatedWrite, hv]
  · obtain ⟨h1, h2, h3, h4⟩ := refusal_recorded (page := pgBlock) (a := adr pgBlock 0x08C) (c := adr pgBlock 0x084) (hi := 31) 0
      (word (a.toNat % 2 ^ 22 + 2 ^ 31)) s _ (by decide) (by decide) (by decide) (by decide) (.inl rfl)
    refine ⟨_, exec_registerWrite_of_rest (by simp only [gatedWrite, hv]; rfl) h3 hi, h1, h2, h3, fun b hb hn => ?_⟩
    simp only [List.mem_cons, not_or] at hn
    exact h4 b hb hn.1 hn.2.1 hn.2.2.2.1 hn.2.2.1
  · obtain ⟨h1, h2, h3, h4⟩ := refusal_recorded (page := pgBlock) (a := adr pgBlock 0x0A4) (c := adr pgBlock (0x090 + 4 * portCode p))
      (hi := 15) 1 (word (2 ^ 31 + portCode p * 2 ^ 24 + a.toNat)) s _ (by simp only [adr, pgBlock]; omega) (by decide)
      (by simp only [clearOf, eventFree, adr, pgBlock, pgCount, pgIrq, pgPower]; omega) (by decide) (.inl rfl)
    refine ⟨_, exec_registerWrite_of_rest (by simp only [gatedWrite, hv]; rfl) h3 hi, h1, h2, h3, fun b hb hn => ?_⟩
    simp only [List.mem_cons, not_or] at hn
    exact h4 b hb hn.1 hn.2.1 hn.2.2.1 hn.2.2.2.1
  · obtain ⟨h1, h2, h3, h4⟩ := refusal_recorded (page := pgMode) (a := adr pgMode 0x094) (c := adr pgMode (0x098 + 4 * portCode p))
      (hi := 15) 3 (word (2 ^ 31 + portCode p * 2 ^ 24 + modeCode s.ctl.mode * 2 ^ 16 + 0xFFFF)) s _
      (by simp only [adr, pgMode]; omega) (by decide)
      (by simp only [clearOf, eventFree, adr, pgMode, pgCount, pgIrq, pgPower]; omega) (by decide) (.inr rfl)
    refine ⟨_, exec_registerWrite_of_rest (by simp only [gatedWrite, hv]; rfl) h3 hi, h1, h2, h3, fun b hb hn => ?_⟩
    simp only [List.mem_cons, not_or] at hn
    exact h4 b hb hn.1 hn.2.1 hn.2.2.1 hn.2.2.2.1
  · exact ⟨_, exec_registerWrite_of_rest (by simp only [gatedWrite, hv]) (addF_rest (adr pgBlock 0x088) 31 0 1 s) hi,
      getF_addF_same _ _ _ (by decide), rfl, fun b hb => getReg_addF_other _ _ _ _ hb⟩

end Sys2Proof.Machine
end

section
namespace Sys2Proof.Machine

/-! ### PAD_HOLD_CLR, RETAIN_ACK and the temperature -/

/-- A write that passes every check and on which nothing else rides has its own effect and no other. -/
theorem gatedWrite_plain {s : State} {p : CmdPort} {a : Nat} (v : Word) (eff : State → State) (h : plainWrite s p a) :
    gatedWrite p a true v eff s = eff s := by
  rw [gatedWrite_accepted p a true v eff s h.1, h.2]

/-- The field at [hi:lo] after it is raised to `v` where a condition holds. -/
theorem getF_ite_setF (c : Prop) [Decidable c] (a v : Nat) {hi lo : Nat} (s : State) (h : hi < 32) (hv : v < 2 ^ (hi + 1 - lo)) :
    getF (if c then setF a hi lo v s else s) a hi lo = if c then v else getF s a hi lo := by
  split
  · rw [getF_setF_same _ _ _ h, Nat.mod_eq_of_lt hv]
  · rfl

/-- TEMP and its signed peak once a reading is stored (R332). -/
theorem therm_stored (c : BitVec 8) (s u : State)
    (hu : u = setF (adr pgPower 0x0BC) 7 0 c.toNat (if (BitVec.ofNat 8 (getF s (adr pgPower 0x0BC) 15 8)).slt c then
      setF (adr pgPower 0x0BC) 15 8 c.toNat s else s)) :
    getF u (adr pgPower 0x0BC) 7 0 = c.toNat
      ∧ getF u (adr pgPower 0x0BC) 15 8 = (if (BitVec.ofNat 8 (getF s (adr pgPower 0x0BC) 15 8)).toInt < c.toInt then c.toNat
        else getF s (adr pgPower 0x0BC) 15 8)
      ∧ u.rest = s.rest ∧ ∀ b, b ≠ adr pgPower 0x0BC → getReg u b = getReg s b := by
  subst hu
  refine ⟨?_, ?_, ?_, fun b hb => ?_⟩
  · rw [getF_setF_same _ _ _ (by decide), Nat.mod_eq_of_lt c.isLt]
  · rw [getF_setF_field _ _ _ (.inl (by decide)), getF_ite_setF _ _ _ _ (by decide) c.isLt]
    simp only [BitVec.slt_iff_toInt_lt]
  · rw [setF_rest, rest_ite, setF_rest, ite_self]
  · rw [getReg_setF_other _ _ _ _ hb]
    split
    · exact getReg_setF_other _ _ _ _ hb
    · rfl

theorem padHoldClr_eq (v : Word) (s : State) : padHoldClr v s = if bit v 0 = true ∧ s.tim.on = true then
    { s with ctl := { s.ctl with pins := { s.ctl.pins with timeHeld := false, shutter := pulseLevels s } } } else s := rfl

/-- What RETAIN_ACK clears (R334). -/
theorem getReg_retainAck {v : Word} (h : bit v 0 = true) (s : State) (b : Nat) : getReg (retainAck v s) b
    = if b ∈ [adr pgPower 0x0AC, adr pgPower 0x0B0, adr pgPower 0x0B4] then 0 else getReg s b := by
  have hadr : adr pgPower 0x0AC + 4 = adr pgPower 0x0B0 ∧ adr pgPower 0x0B0 + 4 = adr pgPower 0x0B4 := by decide
  simp only [retainAck, h, if_true, setWords, getReg_setReg, hadr.2, hadr.1, List.mem_cons, List.not_mem_nil, or_false]
  by_cases h1 : b = adr pgPower 0x0AC
  · simp [h1]
  · by_cases h2 : b = adr pgPower 0x0B0
    · simp [h2]
    · by_cases h3 : b = adr pgPower 0x0B4
      · simp [h3]
      · simp only [h1, h2, h3, or_self, if_false]
        rfl

/-- Settles O44. -/
theorem powerRegisters : Obligations.PowerRegisters := by
  intro s p v c
  refine ⟨fun h => ?_, fun h hv => ?_, fun h hv => ?_, ?_⟩
  · show Host.Outcome.next (gatedWrite p (adr pgPower 0x0A4) true v (padHoldClr v) s) = _
    rw [gatedWrite_plain v _ h, padHoldClr_eq]
  · refine ⟨retainAck v s, congrArg Host.Outcome.next (gatedWrite_plain v _ h), getReg_retainAck hv s, ?_⟩
    simp only [retainAck, hv, if_true]
    rfl
  · refine congrArg Host.Outcome.next ((gatedWrite_plain v _ h).trans ?_)
    simp only [retainAck, hv, Bool.false_eq_true, if_false]
  · obtain ⟨h1, h2, h3, h4⟩ := therm_stored c s _ rfl
    have hc : clearOf pgPower (adr pgPower 0x0BC) := by decide
    have h110 : ((110#8).sle c = true) ↔ 110 ≤ c.toInt := by
      rw [BitVec.sle_iff_toInt_le]
      exact Iff.rfl
    refine ⟨_, rfl, ?_⟩
    simp only [h110]
    split
    · rename_i hh
      refine ⟨(getF_congr (hwEvent_clear hc 6 _) 7 0).trans h1, (getF_congr (hwEvent_clear hc 6 _) 15 8).trans h2, fun _ => ?_,
        fun hl => absurd hh (by omega), (hwEvent_rest _ _ _).trans h3⟩
      rw [hwEvent_latch _ _ _ (by decide), getLsbD_putBit, if_pos ⟨rfl, by decide⟩]
    · rename_i hh
      exact ⟨h1, h2, fun hl => absurd hl hh, fun _ => h4, h3⟩

end Sys2Proof.Machine
end

section
namespace Sys2Proof.Machine

/-! ### Ring read indices and regions -/

theorem regionValid_congr {s t : State} (h : getReg t (adr pgMem 0x088) = getReg s (adr pgMem 0x088)) (q : Nat) :
    regionValid t q = regionValid s q := getB_congr h q

/-- Writing to a VALID bit what it shows changes nothing (R401). -/
theorem regionBit_same {q : Nat} {v : Bool} {s : State} (h : v = regionValid s q) : regionBit q v s = s := by
  subst h
  cases hv : regionValid s q <;> simp [regionBit, hv]

/-- A write of REGION_CTRL that leaves the other bits as they show acts on one region only. -/
theorem regionWrite_one {v : Word} {s : State} {r : Nat} (hr : r < 3) (h : ∀ q < 3, q ≠ r → bit v q = regionValid s q)
    (hk : ∀ q, q ≠ r → regionValid (regionBit r (bit v r) s) q = regionValid s q) :
    regionWrite v s = regionBit r (bit v r) s := by
  have before : ∀ q < 3, q ≠ r → regionBit q (bit v q) s = s := fun q h3 hq => regionBit_same (h q h3 hq)
  have after : ∀ q < 3, q ≠ r → regionBit q (bit v q) (regionBit r (bit v r) s) = regionBit r (bit v r) s :=
    fun q h3 hq => regionBit_same ((h q h3 hq).trans (hk q hq).symm)
  have h3 : r = 0 ∨ r = 1 ∨ r = 2 := by omega
  unfold regionWrite
  rcases h3 with rfl | rfl | rfl
  · rw [after 1 (by decide) (by decide), after 2 (by decide) (by decide)]
  · rw [before 0 (by decide) (by decide), after 2 (by decide) (by decide)]
  · rw [before 0 (by decide) (by decide), before 1 (by decide) (by decide)]

theorem mem_setInsert_self (l : List Nat) (k : Nat) : k ∈ setInsert l k := by
  induction l with
  | nil => exact List.mem_cons_self
  | cons a r ih =>
    unfold setInsert
    split
    · exact List.mem_cons_self
    · split
      · rename_i h
        exact h ▸ List.mem_cons_self
      · exact List.mem_cons_of_mem _ ih

/-- The state in which the invalidation of region `r` is asked for. -/
def closingState (r : Nat) (s : State) : State := { s with mem := { s.mem with closing := setInsert s.mem.closing r } }

theorem regionBit_clear {r : Nat} {s : State} (h : regionValid s r = true) :
    regionBit r false s = settleRegion r (closingState r s) := by
  simp only [regionBit, h, Bool.false_eq_true, if_false, if_true]
  rfl

/-- An invalidation with no write of the region under way takes effect at once; with one it waits (R401). -/
theorem settleRegion_closing (r : Nat) (s : State) : settleRegion r (closingState r s) = if userBusy s r then closingState r s
    else setB (adr pgMem 0x088) r false { closingState r s with mem := { s.mem with
      closing := setErase (setInsert s.mem.closing r) r } } := by
  have hm : (closingState r s).mem.closing.contains r = true := by
    simpa [closingState] using mem_setInsert_self s.mem.closing r
  have hb : userBusy (closingState r s) r = userBusy s r := rfl
  unfold settleRegion
  rw [hm, hb]
  cases userBusy s r <;> rfl

theorem ringIndex_write (s : State) (p : CmdPort) (u : Fin 3) (v : Word) (h : plainWrite s p (rdA u)) :
    (((getReg s (wrA u)).toNat + 2 ^ 32 - v.toNat) % 2 ^ 32 ≤ ringSize s u → ∃ t, exec (.tslogRdWrite p u v) s = .next t
      ∧ getReg t (rdA u) = v ∧ (∀ b, b ≠ rdA u → getReg t b = getReg s b)
      ∧ t = { s with win := { s.win with regs := t.win.regs } })
    ∧ (ringSize s u < ((getReg s (wrA u)).toNat + 2 ^ 32 - v.toNat) % 2 ^ 32 → exec (.tslogRdWrite p u v) s = .next s) := by
  have e : exec (.tslogRdWrite p u v) s = .next (ringRdWrite u v s) := congrArg Host.Outcome.next (gatedWrite_plain v _ h)
  refine ⟨fun hle => ⟨setReg (rdA u) v s, ?_, getReg_setReg_same _ _ _, fun b hb => getReg_setReg_other _ _ hb, rfl⟩, fun hlt => ?_⟩
  · rw [e, ringRdWrite, if_pos hle]
  · rw [e, ringRdWrite, if_neg (by omega)]

/-- The two rows that write REGION_CTRL differ in name only. -/
theorem exec_regionWrite {s : State} {p : CmdPort} (v : Word) (h : plainWrite s p (adr pgMem 0x088)) :
    exec (.regionValidate p v) s = .next (regionWrite v s) ∧ exec (.regionInvalidate p v) s = .next (regionWrite v s) :=
  ⟨congrArg Host.Outcome.next (gatedWrite_plain v _ h), congrArg Host.Outcome.next (gatedWrite_plain v (fun x => regionWrite v x) h)⟩

/-- VALID of a region after one bit of REGION_CTRL is stored. -/
theorem regionValid_setB (r : Fin 3) (b : Bool) (s : State) :
    regionValid (setB (adr pgMem 0x088) r b s) r = b
      ∧ ∀ q, q ≠ r.val → regionValid (setB (adr pgMem 0x088) r b s) q = regionValid s q :=
  ⟨getB_setB_same _ _ _ _ (by omega), fun _ hq => getB_setB_bit _ _ hq⟩

theorem region_validated {s : State} {r : Fin 3} {v : Word} (hq : ∀ q < 3, q ≠ r.val → bit v q = regionValid s q)
    (hb : bit v r = true) (hv : regionValid s r = false) (hn : regionRefusal s r = none) :
    regionWrite v s = setB (adr pgMem 0x088) r true s := by
  have e : regionBit r (bit v r) s = setB (adr pgMem 0x088) r true s := by
    simp only [regionBit, hb, if_true, hv, Bool.false_eq_true, if_false, hn]
  rw [regionWrite_one r.isLt hq fun q h => by rw [e, (regionValid_setB r true s).2 q h], e]

/-- What REGION_STATUS and event 2 record of a validation that R401 refuses. -/
theorem region_refused {s : State} {r : Fin 3} {v : Word} {k : Nat} (hi : s.irqSane)
    (hq : ∀ q < 3, q ≠ r.val → bit v q = regionValid s q) (hb : bit v r = true) (hv : regionValid s r = false)
    (hn : regionRefusal s r = some k) :
    regionWrite v s = hwEvent pgMem 2 (setReg (adr pgMem 0x08C) (word (k * 16 + r)) s)
      ∧ ∀ q, regionValid (hwEvent pgMem 2 (setReg (adr pgMem 0x08C) (word (k * 16 + r)) s)) q = regionValid s q := by
  have e : regionBit r (bit v r) s = hwEvent pgMem 2 (setReg (adr pgMem 0x08C) (word (k * 16 + r)) s) := by
    simp only [regionBit, hb, if_true, hv, Bool.false_eq_true, if_false, hn]
  have hk : ∀ q, regionValid (hwEvent pgMem 2 (setReg (adr pgMem 0x08C) (word (k * 16 + r)) s)) q = regionValid s q := fun q =>
    regionValid_congr (((hwEvent_high pgMem 2 (setReg _ _ s) hi).2 _ (by decide) (by decide) (by decide)).trans
      (getReg_setReg_other _ _ (by decide))) q
  exact ⟨(regionWrite_one r.isLt hq fun q _ => by rw [e, hk]).trans e, hk⟩

theorem region_invalidated {s : State} {r : Fin 3} {v : Word} (hq : ∀ q < 3, q ≠ r.val → bit v q = regionValid s q)
    (hb : bit v r = false) (hv : regionValid s r = true) :
    regionWrite v s = settleRegion r (closingState r s) := by
  have e : regionBit r (bit v r) s = settleRegion r (closingState r s) := by rw [hb, regionBit_clear hv]
  refine (regionWrite_one r.isLt hq fun q h => ?_).trans e
  rw [e, settleRegion_closing]
  split
  · rfl
  · exact (regionValid_setB r false _).2 q h

/-! ### Answers of the die memory -/

/-- `t` is `s` but for the drop counter and index of a user and what their events move. -/
structure ringKeeps (s t : State) : Prop where
  mem : t.mem = s.mem
  mode : t.ctl.mode = s.ctl.mode
  path : t.dataPath = s.dataPath
  wide : s.irqWide → t.irqWide
  high : s.irqWide → ∀ b, 0xA9000 ≤ b → getReg t b = getReg s b

theorem ringKeeps_refl (s : State) : ringKeeps s s := ⟨rfl, rfl, rfl, id, fun _ _ _ => rfl⟩

theorem ringKeeps_trans {s t u : State} (h : ringKeeps s t) (k : ringKeeps t u) : ringKeeps s u :=
  ⟨k.mem.trans h.mem, k.mode.trans h.mode, k.path.trans h.path, fun hs => k.wide (h.wide hs),
    fun hs b hb => (k.high (h.wide hs) b hb).trans (h.high hs b hb)⟩

theorem ringKeeps_setReg {a : Nat} (w : Word) (s : State) (ha : a < 0xA9000) : ringKeeps s (setReg a w s) :=
  ⟨rfl, rfl, rfl, id, fun _ _ hb => getReg_setReg_other _ _ (by omega)⟩

theorem dataPath_of_rest {s t : State} (h : t.rest = s.rest) : t.dataPath = s.dataPath := by
  show t.rest.dataPath = s.rest.dataPath
  rw [h]

theorem ringKeeps_hwEvent {page : Nat} (n : Nat) (s : State) (hp : page < 0xA9) : ringKeeps s (hwEvent page n s) :=
  ⟨congrArg (fun x => x.mem) (hwEvent_rest page n s), rest_mode (hwEvent_rest page n s), dataPath_of_rest (hwEvent_rest page n s),
    fun hs => (hwEvent_wide page n s hs).1, fun hs b hb => (hwEvent_wide page n s hs).2 b (.inl hb) (by simp only [adr]; omega)
      (by simp only [adr]; omega)⟩

theorem ringKeeps_recordDrop (u : Nat) (s : State) : ringKeeps s (recordDrop u s) := by
  match u with
  | 0 => exact ringKeeps_trans (ringKeeps_setReg _ s (by decide)) (ringKeeps_hwEvent 1 _ (by decide))
  | 1 =>
    refine ringKeeps_trans ?_ (ringKeeps_hwEvent (page := pgShutter) 17 _ (by decide))
    exact ⟨rfl, rfl, rfl, id, fun _ _ _ => rfl⟩
  | _ + 2 => exact ringKeeps_trans (ringKeeps_setReg _ s (by decide)) (ringKeeps_hwEvent 8 _ (by decide))

theorem wrA_lt (u : Nat) : wrA u < 0xA9000 := by
  match u with
  | 0 => decide
  | 1 => decide
  | _ + 2 => exact (by decide : adr pgFed 0x120 < 0xA9000)

/-- WR once it has followed the answers (R247, R399). -/
theorem advanceWr_follows (u : Nat) (s : State) (hs : s.irqWide) : ringKeeps s (advanceWr u s)
    ∧ getReg (advanceWr u s) (wrA u) = word ((lowestRec u s.mem.recs).getD (nextIndex s u)) := by
  unfold advanceWr
  simp only
  split
  · exact ⟨ringKeeps_refl s, ‹_›⟩
  · match u with
    | 0 =>
      refine ⟨ringKeeps_trans (ringKeeps_setReg _ s (by decide)) (ringKeeps_hwEvent 0 _ (by decide)), ?_⟩
      exact ((hwEvent_wide pgLoupe 0 _ (by exact hs)).2 _ (by decide) (by decide) (by decide)).trans (getReg_setReg_same _ _ _)
    | 1 =>
      refine ⟨ringKeeps_trans (ringKeeps_setReg _ s (by decide)) (ringKeeps_hwEvent 18 _ (by decide)), ?_⟩
      exact (hwEvent_clear (by decide) 18 _).trans (getReg_setReg_same _ _ _)
    | _ + 2 => exact ⟨ringKeeps_setReg _ s (wrA_lt _), getReg_setReg_same _ _ _⟩

theorem settleRegion_cases (u : Nat) (s : State) : settleRegion u s = s ∨ settleRegion u s = setB (adr pgMem 0x088) u false
    { s with mem := { s.mem with closing := setErase s.mem.closing u } } := by
  unfold settleRegion
  split
  · exact .inr rfl
  · exact .inl rfl

theorem wrA_ne (u : Nat) : wrA u ≠ adr pgMem 0x088 := Nat.ne_of_lt (Nat.lt_trans (wrA_lt u) (by decide))

/-- With nothing queued there is nothing to issue. -/
theorem memGo_empty {s : State} (h : s.mem.queue = []) : memGo s = s := by
  simp only [memGo, h, List.length_nil, memPump]
  split <;> rfl

/-- An outstanding request that ends with none waiting: the others stay, its record is counted, WR follows (R400). -/
theorem endRequest_ends (i : Nat) (q : MemReq) (ok : Bool) (s : State) (hq : s.mem.queue = []) (hs : s.irqWide) (t : State)
    (ht : t = endRequest i q ok s) :
    t.mem.outstanding = s.mem.outstanding.eraseIdx i ∧ t.mem.queue = [] ∧ t.mem.recs = countAnswer q (!ok) s.mem.recs
      ∧ getReg t (wrA q.user) = word ((lowestRec q.user (countAnswer q (!ok) s.mem.recs)).getD (nextIndex s q.user))
      ∧ t.ctl.mode = s.ctl.mode ∧ t.dataPath = s.dataPath
      ∧ ∀ b, 0xA9000 ≤ b → b ≠ adr pgMem 0x088 → getReg t b = getReg s b := by
  let s1 : State := { s with mem := { s.mem with
    outstanding := s.mem.outstanding.eraseIdx i, recs := countAnswer q (!ok) s.mem.recs } }
  have h2 : ∀ c : Bool, ringKeeps s1 (if c then recordDrop q.user s1 else s1) := by
    intro c
    split
    · exact ringKeeps_recordDrop q.user s1
    · exact ringKeeps_refl s1
  generalize hu : (if (!ok && !wasBad q s.mem.recs) then recordDrop q.user s1 else s1) = u
  have h2 : ringKeeps s1 u := hu ▸ h2 _
  obtain ⟨h3, hw⟩ := advanceWr_follows q.user u (h2.wide hs)
  have h23 := ringKeeps_trans h2 h3
  have hw : getReg (advanceWr q.user u) (wrA q.user)
      = word ((lowestRec q.user (countAnswer q (!ok) s.mem.recs)).getD (nextIndex s q.user)) := by
    rw [hw, nextIndex, h2.mem]
    rfl
  have e : t = memGo (settleRegion q.user (advanceWr q.user u)) := by rw [ht, ← hu]; rfl
  have hm : (advanceWr q.user u).mem = s1.mem := h23.mem
  have hempty : (advanceWr q.user u).mem.queue = [] := hm ▸ hq
  rcases settleRegion_cases q.user (advanceWr q.user u) with hc | hc
  · rw [hc, memGo_empty hempty] at e
    subst e
    rw [hm]
    exact ⟨rfl, hq, rfl, hw, h23.mode, h23.path, fun b hb _ => h23.high hs b hb⟩
  · rw [hc, memGo_empty (by exact hempty)] at e
    subst e
    refine ⟨congrArg (fun x => x.outstanding) hm, hempty, congrArg (fun x => x.recs) hm, ?_, h23.mode, h23.path, fun b hb hne => ?_⟩
    · exact (getReg_setB_other _ _ _ (wrA_ne _)).trans hw
    · exact (getReg_setB_other _ _ _ hne).trans (h23.high hs b hb)

theorem getPair_setPair (a v : Nat) (s : State) : getPair (setPair a v s) a = v % 2 ^ 64 := by
  rw [getPair, setPair, getReg_setReg_same, getReg_setReg_other _ _ (by omega), getReg_setReg_same]
  simp only [word, BitVec.toNat_ofNat]
  omega

theorem getPair_congr {s t : State} {a : Nat} (h : getReg t a = getReg s a) (h4 : getReg t (a + 4) = getReg s (a + 4)) :
    getPair t a = getPair s a := by rw [getPair, h, h4, getPair]

theorem getReg_peakF_other {a b : Nat} (hi lo v : Nat) (s : State) (h : b ≠ a) : getReg (peakF a hi lo v s) b = getReg s b := by
  unfold peakF
  split
  · exact getReg_setF_other _ _ _ _ h
  · rfl

@[simp] theorem peakF_irq (a hi lo v : Nat) (s : State) : (peakF a hi lo v s).irq = s.irq := by unfold peakF; split <;> rfl
@[simp] theorem peakF_ctl (a hi lo v : Nat) (s : State) : (peakF a hi lo v s).ctl = s.ctl := by unfold peakF; split <;> rfl

theorem getF_peakF {a hi lo v : Nat} (s : State) (h : hi < 32) (hv : v < 2 ^ (hi + 1 - lo)) :
    getF (peakF a hi lo v s) a hi lo = max (getF s a hi lo) v := by
  unfold peakF
  split
  · rw [getF_setF_same _ _ _ h, Nat.mod_eq_of_lt hv]
    omega
  · omega

/-- The state in which an answer without error is counted and its latency has raised the peak. -/
def answered (tenths : Nat) (s : State) : State :=
  peakF (adr pgMem 0x0C4) 15 0 (if tenths < 2 ^ 16 then tenths else 2 ^ 16 - 1)
    (setPair (adr pgMem 0x0D4) (satAdd (2 ^ 64 - 1) (getPair s (adr pgMem 0x0D4)) 1) s)

theorem exec_memportResponse {s : State} {i : Nat} {q : MemReq} (tenths : Nat) (h : s.mem.outstanding[i]? = some q) :
    exec (.memportResponse i true tenths) s = .next (endRequest i q true (answered tenths s)) := by
  show execMemportResponse i true tenths s = _
  simp only [execMemportResponse, h, answered, if_true]

theorem exec_memportTimeout {s : State} {i : Nat} {q : MemReq} (h : s.mem.outstanding[i]? = some q) :
    exec (.memportTimeout i) s = .next (endRequest i q false (hwEvent pgMem 1 (addF (adr pgMem 0x0C8) 31 0 1 s))) := by
  show execMemportTimeout i s = _
  simp only [execMemportTimeout, h]

theorem answered_counts (tenths : Nat) (s : State) (u : State) (hu : u = answered tenths s) :
    u.mem = s.mem ∧ u.ctl = s.ctl ∧ u.dataPath = s.dataPath ∧ u.irq = s.irq
      ∧ getPair u (adr pgMem 0x0D4) = satAdd (2 ^ 64 - 1) (getPair s (adr pgMem 0x0D4)) 1
      ∧ getF u (adr pgMem 0x0C4) 15 0 = max (getF s (adr pgMem 0x0C4) 15 0) (min tenths 65535) := by
  have hrest : u.rest = s.rest := by rw [hu, answered, peakF_rest, setPair_rest]
  have hirq : u.irq = s.irq := by rw [hu, answered, peakF_irq, setPair_irq]
  have hctl : u.ctl = s.ctl := by rw [hu, answered, peakF_ctl, setPair_ctl]
  have hlat : (if tenths < 2 ^ 16 then tenths else 2 ^ 16 - 1) = min tenths 65535 := by
    split <;> omega
  refine ⟨congrArg (fun x => x.mem) hrest, hctl, dataPath_of_rest hrest, hirq, ?_, ?_⟩
  · rw [hu, answered, getPair_congr (getReg_peakF_other _ _ _ _ (by decide)) (getReg_peakF_other _ _ _ _ (by decide)), getPair_setPair,
      Nat.mod_eq_of_lt]
    have := satAdd_le (2 ^ 64 - 1) (getPair s (adr pgMem 0x0D4)) 1
    omega
  · have hk : getF (setPair (adr pgMem 0x0D4) (satAdd (2 ^ 64 - 1) (getPair s (adr pgMem 0x0D4)) 1) s) (adr pgMem 0x0C4) 15 0
        = getF s (adr pgMem 0x0C4) 15 0 := getF_congr ((getReg_setReg_other _ _ (by decide)).trans (getReg_setReg_other _ _ (by decide))) _ _
    rw [hu, answered, getF_peakF _ (by decide) (by split <;> omega), hk, hlat]

/-- Settles O31. -/
theorem ringIndices : Obligations.RingIndices := by
  refine ⟨ringIndex_write, fun s p r v h hq => ⟨fun hb hv hn => ?_, fun k hi hb hv hn => ?_, fun hb hv hbusy => ?_, fun hb hv hbusy => ?_⟩,
    fun s v => ⟨_, rfl, getReg_setReg_same _ _ _, fun b hb => getReg_setReg_other _ _ hb, rfl⟩, fun s i tenths q hi hsome hempty => ⟨?_, ?_⟩⟩
  · obtain ⟨h1, h2⟩ := regionValid_setB r true s
    exact ⟨_, (exec_regionWrite v h).1.trans (congrArg _ (region_validated hq hb hv hn)), h1, fun q _ => h2 q,
      fun b hb => getReg_setB_other _ _ _ hb, rfl⟩
  · obtain ⟨e, hk⟩ := region_refused hi hq hb hv hn
    refine ⟨_, (exec_regionWrite v h).1.trans (congrArg _ e), fun q _ => hk q, ?_, ?_, hwEvent_rest _ _ _⟩
    · exact ((hwEvent_high pgMem 2 (setReg _ _ s) hi).2 _ (by decide) (by decide) (by decide)).trans (getReg_setReg_same _ _ _)
    · rw [hwEvent_high_latch pgMem 2 (setReg _ _ s) hi (by decide), getLsbD_putBit, if_pos ⟨rfl, by decide⟩]
  · have e := region_invalidated hq hb hv
    rw [settleRegion_closing, hbusy] at e
    obtain ⟨h1, h2⟩ := regionValid_setB r false { closingState r s with mem := { s.mem with
      closing := setErase (setInsert s.mem.closing r) r } }
    exact ⟨_, (exec_regionWrite v h).2.trans (congrArg _ e), h1, fun q _ => h2 q, fun b hb => getReg_setB_other _ _ _ hb, rfl, rfl⟩
  · have e := region_invalidated hq hb hv
    rw [settleRegion_closing, hbusy] at e
    exact ⟨_, (exec_regionWrite v h).2.trans (congrArg _ e), mem_setInsert_self _ _, fun _ => rfl, rfl, rfl⟩
  · obtain ⟨hm, hc, hd, hirq, hcnt, hpk⟩ := answered_counts tenths s _ rfl
    obtain ⟨h1, h2, h3, h4, h5, h6, h7⟩ := endRequest_ends i q true (answered tenths s) (hm ▸ hempty)
      (by rw [State.irqWide, hirq]; exact irqWide_of_sane hi) _ rfl
    rw [hm] at h1 h3 h4
    refine ⟨_, exec_memportResponse tenths hsome, h1, h2, h3, ?_, ?_, ?_, by rw [h5, hc], h6.trans hd⟩
    · rw [getPair_congr (h7 _ (by decide) (by decide)) (h7 _ (by decide) (by decide)), hcnt]
    · rw [getF_congr (h7 _ (by decide) (by decide)), hpk]
    · rw [h4, nextIndex, hm, nextIndex]
      rfl
  · have hr := hwEvent_rest pgMem 1 (addF (adr pgMem 0x0C8) 31 0 1 s)
    have hm : (hwEvent pgMem 1 (addF (adr pgMem 0x0C8) 31 0 1 s)).mem = s.mem := congrArg (fun x => x.mem) hr
    obtain ⟨hsane, hhigh⟩ := hwEvent_high pgMem 1 (addF (adr pgMem 0x0C8) 31 0 1 s) hi
    obtain ⟨h1, h2, h3, _, h5, h6, h7⟩ := endRequest_ends i q false _ (hm ▸ hempty) (irqWide_of_sane hsane) _ rfl
    rw [hm] at h1 h3
    refine ⟨_, exec_memportTimeout hsome, h1, h2, h3, ?_, ?_, h5.trans (rest_mode hr), h6.trans (dataPath_of_rest hr)⟩
    · rw [getF_congr (h7 _ (by decide) (by decide)), getF_congr (hhigh _ (by decide) (by decide) (by decide)),
        getF_addF_same _ _ _ (by decide)]
    · rw [h7 _ (by decide) (by decide), hwEvent_high_latch pgMem 1 (addF _ _ _ _ s) hi (by decide), getLsbD_putBit,
        if_pos ⟨rfl, by decide⟩]

end Sys2Proof.Machine
end

section
namespace Sys2Proof.Machine

/-! ### Quiescence -/

theorem txKeeps_endReads (ch n : Nat) (s : State) : txKeeps s (endReads ch n s) :=
  txKeeps_trans (txKeeps_dma s _) (txKeeps_sendReads ch _ _)

theorem txKeeps_endFetches (l : List (Nat × Queue)) (s : State) : txKeeps s (endFetches l s) := by
  induction l generalizing s with
  | nil => exact txKeeps_refl s
  | cons e r ih => exact txKeeps_trans (txKeeps_endReads _ _ s) (ih _)

theorem txKeeps_dropPrefetch (s : State) : txKeeps s (dropPrefetch s) :=
  txKeeps_trans (txKeeps_endFetches _ s) (txKeeps_dma _ _)

/-- A check-value job that fails moves its own page, the host rings and what an event moves (R300). -/
theorem cvFail_keeps (u reason : Nat) (s : State) :
    (cvFail u reason s).behindTx = s.behindTx ∧ (s.calm → (cvFail u reason s).watch = s.watch) := by
  have hend : txKeeps s (cvEnd u s) := by
    unfold cvEnd
    split
    · exact txKeeps_trans (txKeeps_dma s _) (txKeeps_endReads _ _ _)
    · exact txKeeps_refl s
  generalize hx : cvEnd u s = x at hend
  refine ⟨?_, fun hs => ?_⟩
  · rw [cvFail, hx, behindTx_of_rest (hwEvent_rest _ _ _), setPair_behindTx, setF_behindTx, setF_behindTx, hend.behind]
  · have hw := hend.watch hs
    rw [cvFail, hx]
    exact (hwEvent_watch _ _ _ (by exact calm_of_watch hw hs)).trans hw

theorem failJobs_keeps (f reason : Nat) (all : Bool) (l : List Nat) (s : State) :
    (failJobs f reason all l s).behindTx = s.behindTx ∧ (s.calm → (failJobs f reason all l s).watch = s.watch) := by
  induction l generalizing s with
  | nil => exact ⟨rfl, fun _ => rfl⟩
  | cons u r ih =>
    have h1 : ∀ c : Bool, (if c then cvFail u reason s else s).behindTx = s.behindTx
        ∧ (s.calm → (if c then cvFail u reason s else s).watch = s.watch) := by
      intro c
      split
      · exact cvFail_keeps u reason s
      · exact ⟨rfl, fun _ => rfl⟩
    unfold failJobs
    split
    · obtain ⟨hb, hw⟩ := h1 (all || _)
      exact ⟨(ih _).1.trans hb, fun hs => ((ih _).2 (calm_of_watch (hw hs) hs)).trans (hw hs)⟩
    · exact ih s

/-- Entry of a request from MODE_REQ begins: planned decisions are dropped, and nothing behind the host rings moves beside. -/
theorem beginEntry_begins {r : PwrReq} {p : CmdPort} (hp : r.origin = .modeReq p) (s : State) (hs : s.calm)
    (he : s.pwr.entering = false) (t : State)
    (ht : t = beginEntry r s) :
    t.pwr = { s.pwr with entering := true } ∧ t.ctl = s.ctl ∧ t.fix.queue = s.fix.queue.filter (fun d => d.kind != 0)
      ∧ t.tim = s.tim ∧ t.cmd = s.cmd ∧ t.nv = s.nv ∧ t.fed = s.fed := by
  have hk := txKeeps_dropPrefetch s
  let u := dropPlans (dropPrefetch s)
  have hu : u.calm := calm_of_watch (t := u) (hk.watch hs) hs
  have h2 : ∀ c : Prop, [Decidable c] → (if c then failJobs 0 5 true (List.range 8) u else u).behindTx = u.behindTx
      ∧ (if c then failJobs 0 5 true (List.range 8) u else u).watch = u.watch := by
    intro c _
    split
    · exact ⟨(failJobs_keeps 0 5 true _ u).1, (failJobs_keeps 0 5 true _ u).2 hu⟩
    · exact ⟨rfl, rfl⟩
  obtain ⟨hb, hw⟩ := h2 (r.value = 3)
  have e : t = { (if r.value = 3 then failJobs 0 5 true (List.range 8) u else u) with
      pwr := { (if r.value = 3 then failJobs 0 5 true (List.range 8) u else u).pwr with entering := true } } := by
    rw [ht]
    simp only [beginEntry, sleepOk, hp]
    rfl
  generalize (if r.value = 3 then failJobs 0 5 true (List.range 8) u else u) = x at hb hw e
  subst e
  obtain ⟨hc, hpw⟩ := watch_split (hw.trans (hk.watch hs)) he
  have hd := hk.behind
  refine ⟨congrArg (fun x => { x with entering := true }) hpw, hc, ?_, ?_, ?_, ?_, ?_⟩
  · refine (congrArg Fix.queue (behindTx_fix hb)).trans ?_
    exact congrArg (fun x => x.queue.filter (fun d => d.kind != 0)) (behindTx_fix hd)
  · exact (behindTx_tim hb).trans (show (dropPrefetch s).tim = s.tim from behindTx_tim hd)
  · exact (behindTx_cmd hb).trans (show (dropPrefetch s).cmd = s.cmd from behindTx_cmd hd)
  · exact (behindTx_nv hb).trans (show (dropPrefetch s).nv = s.nv from behindTx_nv hd)
  · exact (behindTx_fed hb).trans (show (dropPrefetch s).fed = s.fed from behindTx_fed hd)

/-! ### Entry into STILL -/

/-- What the entry of DOZE and DIM leaves alone of ports, time, pins and the request unit. -/
def State.sleepSide (s : State) : Cmd × Bool × Nat × Pins × Bool × Option PwrReq :=
  (s.cmd, s.tim.on, s.tim.powered, s.ctl.pins, s.pwr.entering, s.pwr.slot)

theorem sleepSide_of_rest {s t : State} (h : t.rest = s.rest) : t.sleepSide = s.sleepSide := by
  show t.rest.sleepSide = s.rest.sleepSide
  rw [h]

@[simp] theorem setReg_sleepSide (a : Nat) (w : Word) (s : State) : (setReg a w s).sleepSide = s.sleepSide := rfl
@[simp] theorem setF_sleepSide (a hi lo v : Nat) (s : State) : (setF a hi lo v s).sleepSide = s.sleepSide := rfl
@[simp] theorem setB_sleepSide (a n : Nat) (v : Bool) (s : State) : (setB a n v s).sleepSide = s.sleepSide := rfl
@[simp] theorem setPair_sleepSide (a v : Nat) (s : State) : (setPair a v s).sleepSide = s.sleepSide := rfl
@[simp] theorem addF_sleepSide (a hi lo n : Nat) (s : State) : (addF a hi lo n s).sleepSide = s.sleepSide := rfl
@[simp] theorem hwEvent_sleepSide (page n : Nat) (s : State) : (hwEvent page n s).sleepSide = s.sleepSide :=
  sleepSide_of_rest (hwEvent_rest page n s)
@[simp] theorem ite_sleepSide (c : Prop) [Decidable c] (s t : State) :
    (if c then s else t).sleepSide = if c then s.sleepSide else t.sleepSide := apply_ite State.sleepSide c s t

@[simp] theorem off_sleepSide (s : State) (l : List Nat) :
    State.sleepSide { s with pwr := { s.pwr with off := l } } = s.sleepSide := rfl
@[simp] theorem acq_sleepSide (s : State) (l : List Nat) :
    State.sleepSide { s with tim := { s.tim with acq := l } } = s.sleepSide := rfl

theorem foldl_keeps {α β : Type} (π : State → α) (f : State → β → State) (h : ∀ s b, π (f s b) = π s) (l : List β) (s : State) :
    π (l.foldl f s) = π s := by
  induction l generalizing s with
  | nil => rfl
  | cons b r ih => exact (ih _).trans (h s b)

@[simp] theorem dropUps_sleepSide (keep : Nat → Bool) (l : List Nat) (s : State) : (dropUps keep l s).sleepSide = s.sleepSide := by
  induction l generalizing s with
  | nil => rfl
  | cons p r ih => rw [dropUps, ih, ite_sleepSide, setB_sleepSide, ite_self]

@[simp] theorem clearWakeSeen_sleepSide (l : List Nat) (s : State) : (clearWakeSeen l s).sleepSide = s.sleepSide := by
  induction l generalizing s with
  | nil => rfl
  | cons n r ih => rw [clearWakeSeen, ih, setB_sleepSide]

theorem showNoKeys_sleepSide (cl : Nat) (s : State) : (showNoKeys cl s).sleepSide = s.sleepSide := by
  unfold showNoKeys
  simp only
  rw [foldl_keeps State.sleepSide _ fun x i => by simp, foldl_keeps State.sleepSide _ fun x i => by simp]

theorem clusterDown_sleepSide (n : Nat) (s : State) : (clusterDown n s).sleepSide = s.sleepSide := by
  have h : ∀ c u, (clearKeys c u).sleepSide = u.sleepSide := by
    intro c u
    unfold clearKeys
    split
    · split
      · rw [showNoKeys_sleepSide]
        rfl
      · rfl
    · rfl
  exact (h n (powerCluster n false s))

@[simp] theorem clustersOff_sleepSide (l : List Nat) (s : State) : (clustersOff l s).sleepSide = s.sleepSide := by
  induction l generalizing s with
  | nil => rfl
  | cons n r ih => rw [clustersOff, ih, ite_sleepSide, clusterDown_sleepSide, ite_self]

@[simp] theorem sleepIslands_sleepSide (st : Sleep) (s : State) : (sleepIslands st s).sleepSide = s.sleepSide := by
  cases st with
  | none => rfl
  | doze => rfl
  | dim => simp only [sleepIslands, off_sleepSide, clustersOff_sleepSide]
  | dark => simp only [sleepIslands, off_sleepSide, clustersOff_sleepSide]

@[simp] theorem countEntry_sleepSide (st : Sleep) (s : State) : (countEntry st s).sleepSide = s.sleepSide := by cases st <;> rfl

@[simp] theorem saveBanks_sleepSide (s : State) : (saveBanks s).sleepSide = s.sleepSide := by
  unfold saveBanks
  simp only [hwEvent_sleepSide, addF_sleepSide, setPair_sleepSide]
  rw [foldl_keeps State.sleepSide _ fun x i => by simp]
  rfl

@[simp] theorem clearSeed_sleepSide (s : State) : (clearSeed s).sleepSide = s.sleepSide := by simp [clearSeed]

/-- The time island stops, and its clock count stands (R232). -/
theorem timeIslandOff_sleepSide (s : State) : (timeIslandOff s).sleepSide
    = ({ s with tim := { s.tim with on := false } } : State).sleepSide := by
  unfold timeIslandOff
  simp only [ite_sleepSide, hwEvent_sleepSide, setF_sleepSide, ite_self]
  rfl

/-- What is left of `State.sleepSide` by DARK: the balls of the time group are held and the time island stops (R28, R331). -/
theorem darkEntry_sleepSide {s : State} {c : Cmd} {on e : Bool} {n : Nat} {x : Pins} {q : Option PwrReq}
    (h : s.sleepSide = (c, on, n, x, e, q)) : (darkEntry s).sleepSide = (c, false, n, { x with timeHeld := true }, e, q) := by
  have hs : (clearSeed (saveBanks { s with ctl := { s.ctl with pins := { s.ctl.pins with timeHeld := true } } })).sleepSide
      = (c, on, n, { x with timeHeld := true }, e, q) := by
    rw [clearSeed_sleepSide, saveBanks_sleepSide]
    simp only [State.sleepSide, Prod.mk.injEq] at h ⊢
    obtain ⟨h1, h2, h3, h4, h5, h6⟩ := h
    exact ⟨h1, h2, h3, by rw [h4], h5, h6⟩
  rw [darkEntry, timeIslandOff_sleepSide]
  generalize clearSeed _ = u at hs
  simp only [State.sleepSide, Prod.mk.injEq] at hs
  obtain ⟨h1, _, h3, h4, h5, h6⟩ := hs
  simp only [State.sleepSide, h1, h3, h4, h5, h6]

/-- What an entry leaves of the ports, the time island, the pins and the request unit. -/
theorem enterState_sleepSide (st : Sleep) (s : State) : (enterState st s).sleepSide
    = (s.cmd, (if st = .dark then false else s.tim.on), s.tim.powered,
       (if st = .dark then { s.ctl.pins with timeHeld := true } else s.ctl.pins), false, s.pwr.slot) := by
  have h2 : (dropUps (fun p => decide (st = .dim) && bit (rxCfg { s with pwr := { s.pwr with entering := false } } p) 12)
      (List.range 512) { s with pwr := { s.pwr with entering := false } }).sleepSide
      = (s.cmd, s.tim.on, s.tim.powered, s.ctl.pins, false, s.pwr.slot) := dropUps_sleepSide _ _ _
  simp only [enterState, hwEvent_sleepSide, acq_sleepSide, sleepIslands_sleepSide, countEntry_sleepSide, ite_sleepSide,
    clearWakeSeen_sleepSide, ite_self]
  split
  · exact darkEntry_sleepSide h2
  · exact h2

theorem sleepOf_dark (v : BitVec 2) : sleepOf v = .dark ↔ v = 3 := by
  revert v
  decide

/-- With nothing waiting in the request unit nothing starts. -/
theorem startSlot_empty {s : State} (hf : s.pwr.flight = none) (hs : s.pwr.slot = none) : startSlot s = s := by
  simp only [startSlot, hf, hs, Option.isSome_none, Bool.false_eq_true, if_false]

/-- REQ_STATUS shows the state it is given (Table 18.3). -/
theorem getF_reqStatus (r : PwrReq) (res : Byte) (reason : Nat) {n : Nat} (hn : n < 16) (s : State) :
    getF (reqStatus r n res reason s) (adr pgPower 0x084) 3 0 = n := by
  rw [getF, reqStatus, getReg_setReg_same]
  simp only [bits, word, BitVec.toNat_ofNat]
  omega

theorem exec_sleepQuiesced {s : State} {r : PwrReq} (hf : s.pwr.flight = some r) (hsl : r.sleep = true) (he : s.pwr.entering = false)
    (hm : s.ctl.mode = .run) : exec .sleepQuiesced s = .next (if drained (emptyQueues (List.range 512) s) then
      settle (beginEntry r (emptyQueues (List.range 512) s)) else emptyQueues (List.range 512) s) := by
  show execSleepQuiesced s = _
  simp only [execSleepQuiesced, hf, hsl, he, hm, and_self, if_true]

theorem exec_sleepStateReached {s : State} {r : PwrReq} (hf : s.pwr.flight = some r) (hsl : r.sleep = true)
    (he : s.pwr.entering = true) (hw : s.pwr.wake = none) (hslot : s.pwr.slot = none) (u : State)
    (hu : u = reqStatus r 2 rOk 0 (enterState (sleepOf r.value) { s with pwr := { s.pwr with wake := none, round := false } }))
    (hus : u.pwr.slot = none) :
    exec .sleepStateReached s = .next { u with
      ctl := { u.ctl with mode := .still, sleep := sleepOf r.value, target := none }, pwr := { u.pwr with flight := none } } := by
  have h : ∀ x : State, x.pwr.flight = none → x.pwr.slot = none → Host.Outcome.next (φ := Fault) (ρ := Refusal) x = .next (startSlot x) :=
    fun x hx hy => by rw [startSlot_empty hx hy]
  refine Eq.trans ?_ (h _ rfl (by exact hus)).symm
  subst hu
  show execSleepStateReached s = _
  simp only [execSleepStateReached, hf, hsl, he, hw, hslot, and_self, if_true]
  rfl

/-- Settles O42. -/
theorem sleepEntry : Obligations.SleepEntry := by
  intro s r p hf hsl hp
  have hcalm : s.ctl.mode = .run → s.calm := fun hm => by rw [State.calm, hm]; decide
  have hk := txKeeps_emptyQueues (List.range 512) s
  have hx := fun he hm => exec_sleepQuiesced hf hsl he hm
  refine ⟨?_, ?_, fun he hw hslot hm => ?_⟩
  · generalize emptyQueues (List.range 512) s = q at hk hx
    intro hm he hi hd
    have hwatch := hk.watch (hcalm hm)
    obtain ⟨hc, hpw⟩ := watch_split hwatch he
    obtain ⟨h1, h2, h3, h4, h5, h6, h7⟩ :=
      beginEntry_begins hp q (calm_of_watch hwatch (hcalm hm)) (by rw [hpw]; exact he) _ rfl
    have hcmd := h5.trans (behindTx_cmd hk.behind)
    have hidle : portsIdle (beginEntry r q) :=
      portsIdle_of_eq hcmd (h6.trans (behindTx_nv hk.behind)) (h7.trans (behindTx_fed hk.behind)) hi
    refine ⟨beginEntry r q, ?_, by rw [h1], by rw [h1, hpw, hf], by rw [h2, hc, hm], fun d hmem => ?_,
      h4.trans (behindTx_tim hk.behind), hcmd⟩
    · rw [hx he hm, if_pos hd, settle_portsIdle _ hidle]
    · rw [h3] at hmem
      simpa using (List.mem_filter.mp hmem).2
  · generalize emptyQueues (List.range 512) s = q at hk hx
    intro hm he hd
    obtain ⟨hc, hpw⟩ := watch_split (hk.watch (hcalm hm)) he
    refine ⟨?_, hpw, hc⟩
    rw [hx he hm, hd]
    rfl
  · obtain ⟨u, hu⟩ : ∃ u, u = reqStatus r 2 rOk 0 (enterState (sleepOf r.value)
      { s with pwr := { s.pwr with wake := none, round := false } }) := ⟨_, rfl⟩
    have hside : u.sleepSide = _ := (congrArg State.sleepSide hu).trans (enterState_sleepSide (sleepOf r.value)
      { s with pwr := { s.pwr with wake := none, round := false } })
    have hst : getF u (adr pgPower 0x084) 3 0 = 2 := hu ▸ getF_reqStatus r rOk 0 (by decide) _
    simp only [State.sleepSide, Prod.mk.injEq] at hside
    obtain ⟨hcmd, hon, hpow, hpins, hent, hsl'⟩ := hside
    refine ⟨_, exec_sleepStateReached hf hsl he hw hslot u hu (hsl'.trans hslot), rfl, rfl, rfl, rfl, hent, hst, fun h3 => ?_, fun h3 => ?_, hpow, hcmd⟩
    · have hd := (sleepOf_dark r.value).mpr h3
      exact ⟨hon.trans (if_pos hd), congrArg Pins.timeHeld (hpins.trans (if_pos hd))⟩
    · exact hon.trans (if_neg fun x => h3 ((sleepOf_dark r.value).mp x))

end Sys2Proof.Machine
end

section
namespace Sys2Proof.Machine

/-! ### The release of records -/

theorem rest_dp {s t : State} (h : t.rest = s.rest) : t.dp = s.dp := congrArg (fun x => x.dp) h
theorem rest_dma {s t : State} (h : t.rest = s.rest) : t.dma = s.dma := congrArg (fun x => x.dma) h
theorem rest_live {s t : State} (h : t.rest = s.rest) : t.win.live = s.win.live := congrArg (fun x => x.win.live) h

theorem dataKeeps_mode {s t : State} (h : dataKeeps s t) : t.ctl.mode = s.ctl.mode := congrArg (fun x => x.ctl.mode) h.control

theorem tabGet_put {α : Type} (d : Nat → α) (t : Tab α) (k j : Nat) (v : α) :
    tabGet d (tabPut t k v) j = if j = k then v else tabGet d t j := by
  rw [tabPut, tabGet_insert _ _ _ _ _ (tabErase_absent t k), tabGet_erase]
  split <;> rfl



theorem tabFind_insert_same {α : Type} (t : Tab α) (k : Nat) (v : α) (h : ∀ x ∈ t, x.1 ≠ k) :
    tabFind (tabInsert t k v) k = some v := by
  induction t with
  | nil => simp [tabInsert, tabFind]
  | cons x r ih =>
    have hx := h x (by simp)
    have ih' := ih fun y hy => h y (by simp [hy])
    by_cases hk : k < x.1
    · simp [tabInsert, tabFind, hk]
    · simp [tabInsert, tabFind, hk, hx, ih']

theorem tabFind_put_same {α : Type} (t : Tab α) (k : Nat) (v : α) : tabFind (tabPut t k v) k = some v :=
  tabFind_insert_same _ _ _ (tabErase_absent t k)

/-! #### Cells sent on credits (R10) -/

theorem cellsAt_tabPut (s : State) (cl d : Nat) (l : List RxCell) :
    cellsAt { s with dp := { s.dp with cells := tabPut s.dp.cells cl l } } d = if d = cl then l else cellsAt s d :=
  tabGet_put (fun _ => []) s.dp.cells cl d l

theorem cellsAt_tabErase (s : State) (cl d : Nat) :
    cellsAt { s with dp := { s.dp with cells := tabErase s.dp.cells cl } } d = if d = cl then [] else cellsAt s d :=
  tabGet_erase (fun _ => []) s.dp.cells cl d

/-- A cell goes out on a credit. -/
def sendCell (cl : Nat) (c : RxCell) (s : State) : State :=
  emit (.rxCell cl c.side c.first c.data)
    { s with rx := { s.rx with credits := tabSet (fun _ => 0) s.rx.credits cl (creditsOf s cl - 1) } }

theorem creditsOf_sendCell (cl d : Nat) (c : RxCell) (s : State) :
    creditsOf (sendCell cl c s) d = if d = cl then creditsOf s cl - 1 else creditsOf s d :=
  tabGet_set (fun _ => 0) s.rx.credits cl d _

theorem sendCells_cons (cl : Nat) (c : RxCell) (r : List RxCell) (s : State) :
    sendCells cl (c :: r) s = if creditsOf s cl = 0 then { s with dp := { s.dp with cells := tabPut s.dp.cells cl (c :: r) } }
      else sendCells cl r (sendCell cl c s) := rfl

/-- What sending cells leaves: as many go out as there are credits, in order, and the rest wait. -/
structure cellsSent (cl : Nat) (l : List RxCell) (s t : State) : Prop where
  waiting : cellsAt t cl = l.drop (min (creditsOf s cl) l.length)
  credits : creditsOf t cl = creditsOf s cl - min (creditsOf s cl) l.length
  out : t.out = s.out ++ (l.take (min (creditsOf s cl) l.length)).map (fun c => .rxCell cl c.side c.first c.data)
  others : ∀ d, d ≠ cl → cellsAt t d = cellsAt s d ∧ creditsOf t d = creditsOf s d
  frame : t = { s with out := t.out, rx := { s.rx with credits := t.rx.credits }, dp := { s.dp with cells := t.dp.cells } }

theorem sendCells_sent (cl : Nat) (l : List RxCell) (s : State) : cellsSent cl l s (sendCells cl l s) := by
  induction l generalizing s with
  | nil =>
    refine ⟨(cellsAt_tabErase s cl cl).trans (by simp), by simp [sendCells, creditsOf], by simp [sendCells],
      fun d hd => ⟨(cellsAt_tabErase s cl d).trans (if_neg hd), rfl⟩, rfl⟩
  | cons c r ih =>
    rw [sendCells_cons]
    split
    · next h0 =>
      refine ⟨(cellsAt_tabPut s cl cl _).trans (by simp [h0]), by simp [h0]; exact h0, by simp [h0],
        fun d hd => ⟨(cellsAt_tabPut s cl d _).trans (if_neg hd), rfl⟩, rfl⟩
    · next h0 =>
      have h := ih (sendCell cl c s)
      have hc : creditsOf (sendCell cl c s) cl = creditsOf s cl - 1 := (creditsOf_sendCell cl cl c s).trans (if_pos rfl)
      have hm : min (creditsOf s cl) (c :: r).length = min (creditsOf s cl - 1) r.length + 1 := by
        rw [List.length_cons]; omega
      obtain ⟨hw, hcr, ho, hd, hf⟩ := h
      rw [hc] at hw hcr ho
      refine ⟨by rw [hm, hw, List.drop_succ_cons], by rw [hcr, hm]; omega, ?_, fun d hne => ?_, hf⟩
      · rw [ho, hm, List.take_succ_cons, List.map_cons]
        simp [sendCell, emit]
      · exact ⟨(hd d hne).1, (hd d hne).2.trans ((creditsOf_sendCell cl d c s).trans (if_neg hne))⟩

/-! #### The staging buffer (R264) -/

theorem puntDrop_rest (s : State) : (puntDrop s).rest = (addLive (adr pgClass 0x0C4) 1 s).rest := hwEvent_rest _ _ _

theorem rxDrop_disabled (q : Nat) (s : State) (hs : s.irqSane) :
    (rxDrop q 1 s).rest = (addLive (adr pgClass 0x0C4) 1 s).rest
      ∧ (getReg (rxDrop q 1 s) (adr pgClass 0x24)).getLsbD 0 = true := by
  have hc : (hwEvent (pgFn (ctxFn (getQ s true q).word2)) 2 (countRefusal q 1 s)).rest = s.rest := hwEvent_rest _ _ _
  have hi := (hwEvent_high (pgFn (ctxFn (getQ s true q).word2)) 2 (countRefusal q 1 s) hs).1
  rw [rxDrop]
  generalize hwEvent (pgFn (ctxFn (getQ s true q).word2)) 2 (countRefusal q 1 s) = u at hc hi
  refine ⟨?_, ?_⟩
  · rw [puntDrop_rest]
    have hl : (addLive (adr pgClass 0x0C4) 1 u).rest
        = { u.rest with win := { u.rest.win with live := (addLive (adr pgClass 0x0C4) 1 u).win.live } } := rfl
    have hr : (addLive (adr pgClass 0x0C4) 1 s).rest
        = { s.rest with win := { s.rest.win with live := (addLive (adr pgClass 0x0C4) 1 s).win.live } } := rfl
    rw [hl, hr, hc]
    simp only [addLive, setLive, getLive, rest_live hc]
  · rw [puntDrop, hwEvent_high_latch pgClass 0 (addLive (adr pgClass 0x0C4) 1 u) hi (by decide), getLsbD_putBit]
    simp

/-- No descriptor of a queue that takes the record is bad: the check finds nothing. -/
theorem rxCheck_of_takes {q n : Nat} {s : State} (h : rxRefusal s q n = none) : rxCheck q n s = s := by
  unfold rxRefusal at h
  unfold rxCheck
  simp only at h ⊢
  split at h
  · simp at h
  · split at h
    · simp at h
    · generalize fitFrom (getQ s true q) 128 (getQ s true q).next n [] = r at h ⊢
      cases r <;> simp_all

theorem rxCheck_of_off {q n : Nat} {s : State} (h : ctxOn (getQ s true q).word2 = false) : rxCheck q n s = s := by
  unfold rxCheck
  simp only [queueRuns, h, Bool.and_false, Bool.false_and]
  split <;> rfl

theorem rxRefusal_of_off {q n : Nat} {s : State} (h : ctxOn (getQ s true q).word2 = false) : rxRefusal s q n = some 1 := by
  simp only [rxRefusal, h, if_true]

/-- A record that fits, of a queue that has one staged already or takes it, is staged. -/
theorem stage_taken (x : Staged) (s : State) (hfit : stagedBytes s + x.data.length ≤ 4 * 2 ^ 20)
    (h : s.dma.staging.any (fun y => y.queue == x.queue) = true ∨ rxRefusal s x.queue x.data.length = none) :
    stage x s = (addStaged x s, true) := by
  rw [stage]
  simp only [if_neg (Nat.not_lt.mpr hfit)]
  split
  · rfl
  · next ha =>
    have hr : rxRefusal s x.queue x.data.length = none := h.resolve_left ha
    rw [rxCheck_of_takes hr, hr]

/-- A record that fits, of a queue that is not enabled, is dropped (row 1). -/
theorem stage_disabled (x : Staged) (s : State) (hfit : stagedBytes s + x.data.length ≤ 4 * 2 ^ 20)
    (ha : s.dma.staging.any (fun y => y.queue == x.queue) = false) (h : ctxOn (getQ s true x.queue).word2 = false) :
    stage x s = (rxDrop x.queue 1 s, false) := by
  rw [stage]
  simp only [if_neg (Nat.not_lt.mpr hfit), ha, Bool.false_eq_true, if_false, rxCheck_of_off h, rxRefusal_of_off h, overflowOf,
    ne_eq, not_true_eq_false, false_and, Option.isSome_none]

theorem rxDrop_dp (q row : Nat) (s : State) : (rxDrop q row s).dp = s.dp := by
  rw [rxDrop, rest_dp (puntDrop_rest _), addLive_dp, rest_dp (hwEvent_rest _ _ _)]
  unfold countRefusal
  split <;> rfl

theorem queueError_dp (rx : Bool) (q reason i : Nat) (s : State) : (queueError rx q reason i s).dp = s.dp := by
  rw [queueError]
  split
  · rfl
  · rw [rest_dp (hwEvent_rest _ _ _), rest_dp (hwEvent_rest _ _ _), behindTx_dp (txKeeps_setQ rx q _ s).behind]

theorem rxCheck_dp (q n : Nat) (s : State) : (rxCheck q n s).dp = s.dp := by
  unfold rxCheck
  simp only
  split
  · split
    · exact queueError_dp _ _ _ _ s
    · rfl
  · rfl

theorem stage_dp (x : Staged) (s : State) : (stage x s).1.dp = s.dp := by
  rw [stage]
  simp only
  split
  · exact (rest_dp (puntDrop_rest s)).trans (addLive_dp _ _ s)
  · split
    · rfl
    · have hc := rxCheck_dp x.queue x.data.length s
      generalize rxCheck x.queue x.data.length s = u at hc ⊢
      split
      · exact hc
      · split
        · exact hc
        · exact (rxDrop_dp _ _ u).trans hc

/-! #### What a release leaves of the stores -/

/-- The reorder and dealing stores: what is left without released frames still open and waiting cells. -/
def Dp.stores (d : Dp) : Dp := { d with cells := [], opened := [] }

theorem sendCells_stores (cl : Nat) (l : List RxCell) (s : State) : (sendCells cl l s).dp.stores = s.dp.stores := by
  rw [(sendCells_sent cl l s).frame]
  rfl

theorem releaseRecord_stores (h : Held) (s : State) : (releaseRecord h s).dp.stores = s.dp.stores := by
  unfold releaseRecord
  split
  · have hput : ∀ u : State, u.dp = s.dp → (if safeStopped u h.port then addLive (rxCnt h.port 0xB0) 1 u
        else putCells h.frm h.side u).dp.stores = s.dp.stores := by
      intro u hu
      split
      · rw [addLive_dp, hu]
      · rw [putCells, sendCells_stores, hu]
    apply hput
    split
    · split
      · rfl
      · simp only
        split
        · rw [addLive_dp, stage_dp]
        · rw [stage_dp]
    · rfl
  · split
    · rfl
    · rw [stage_dp, addLive_dp]
  · rfl
  · rfl

theorem releaseHeld_stores (h : Held) (s : State) : (releaseHeld h s).dp.stores = s.dp.stores := by
  rw [releaseHeld]
  split
  · rfl
  · exact releaseRecord_stores h s

theorem dataKeeps_releaseHeld (h : Held) (s : State) : dataKeeps s (releaseHeld h s) :=
  dataKeeps_ite (fun _ => dataKeeps_dp s _) (fun _ => dataKeeps_releaseRecord h s)

theorem expectOf_of_stores {s t : State} (h : t.dp.stores = s.dp.stores) (p : Nat) : expectOf t p = expectOf s p := by
  have := congrArg (fun d => d.expect) h
  simp only [Dp.stores] at this
  rw [expectOf, this, expectOf]

theorem expectOf_setExpect (p n : Nat) (s : State) : expectOf (setExpect p n s) p = n % 2 ^ 24 :=
  (tabGet_set (fun _ => 0) s.dp.expect p p _).trans (if_pos rfl)

/-- A forwarded record with no mirror, on a port that is not stopped and whose cluster has no credit, waits behind what waits. -/
theorem releaseRecord_forward {h : Held} {s : State} (hf : h.fate = .forward none) (hs : safeStopped s h.port = false)
    (hc : creditsOf s (h.frm.port / 8) = 0) :
    cellsAt (releaseRecord h s) (h.frm.port / 8) = cellsAt s (h.frm.port / 8)
        ++ cutCells h.frm.port h.frm.endMarks (h.side ++ [0, 0]) 65 (h.frm.data ++ h.frm.fcs)
      ∧ (releaseRecord h s).out = s.out ∧ (releaseRecord h s).dma = s.dma := by
  rw [releaseRecord]
  simp only [hf, hs, Bool.false_eq_true, if_false, putCells]
  obtain ⟨hw, _, ho, _, hfr⟩ := sendCells_sent (h.frm.port / 8) (cellsAt s (h.frm.port / 8)
    ++ cutCells h.frm.port h.frm.endMarks (h.side ++ [0, 0]) 65 (h.frm.data ++ h.frm.fcs)) s
  refine ⟨by simpa [hc] using hw, by simpa [hc] using ho, ?_⟩
  rw [hfr]

theorem releaseRecord_punt {h : Held} {s : State} {q n : Nat} (hf : h.fate = .punt q n) (hs : safeStopped s h.port = false) :
    releaseRecord h s = (stage { queue := q, reason := n, port := h.port, data := h.frm.data ++ h.frm.fcs, side := h.side }
      (addLive (adr pgReorder 0x0B0) 1 s)).1 := by
  rw [releaseRecord]
  simp only [hf, hs, Bool.false_eq_true, if_false]

/-! #### A gap (R156) -/

theorem seqDist_filter_iff (p e l : Nat) (h : Held) (L : List Held) :
    h ∈ L.filter (fun h => !(h.port == p && decide (seqDist e h.seq < seqDist e l)))
      ↔ h ∈ L ∧ (h.port = p → seqDist e l ≤ seqDist e h.seq) := by
  simp [List.mem_filter, imp_iff_not_or]

theorem countLost_rest (p n : Nat) (s : State) :
    (countLost p n s).rest = (addLive (adr pgReorder 0x0A0) n (addLive (adr pgReorder (0x800 + 4 * p)) n s)).rest :=
  loupe_rest _ _ _ _ _

theorem countLost_irqSane (p n : Nat) (s : State) (h : s.irqSane) : (countLost p n s).irqSane :=
  (loupe_high 1 p 4 n (addLive (adr pgReorder 0x0A0) n (addLive (adr pgReorder (0x800 + 4 * p)) n s)) h).1

theorem latchLost_rest (c p n run : Nat) (s : State) : (latchLost c p n run s).rest = s.rest := hwEvent_rest _ _ _

theorem getReg_latchLost (c p n run : Nat) (s : State) (h : s.irqSane) :
    getReg (latchLost c p n run s) (adr pgReorder 0x0B8) = word (2 ^ 31 + c * 2 ^ 16 + p)
      ∧ (getReg (latchLost c p n run s) (adr pgReorder 0x24)).getLsbD 0 = true := by
  rw [latchLost]
  refine ⟨?_, ?_⟩
  · rw [(hwEvent_high pgReorder 0 _ (by exact h)).2 _ (by decide) (by decide) (by decide),
      getReg_setReg_other _ _ (by decide), getReg_setReg_same]
  · rw [hwEvent_high_latch _ _ _ (by exact h) (by decide), getLsbD_putBit]
    simp

/-! #### The rows -/

theorem releaseNext_record {s : State} {p : Nat} {h : Held} (hh : heldAt s p (expectOf s p) = some h) (hr : isRecord h = true)
    (f : Nat) : releaseNext p (f + 1) s = releaseHeld h (setExpect p (expectOf s p + 1) (dropHeldAt p h.seq s)) := by
  simp only [releaseNext, hh, hr, if_true]

theorem heldAt_port {s : State} {p n : Nat} {h : Held} (hh : heldAt s p n = some h) : h.port = p := by
  have := List.find?_some hh
  simp only [Bool.and_eq_true, beq_iff_eq] at this
  exact this.1

/-- The state at the release of record `h` of port `p`: it has left the store and the number has moved on. -/
def released (p : Nat) (h : Held) (s : State) : State := setExpect p (expectOf s p + 1) (dropHeldAt p h.seq s)

theorem stagedBytes_addLive (a n : Nat) (s : State) : stagedBytes (addLive a n s) = stagedBytes s := rfl

/-- A punted record that has ended is staged, or counted as dropped where its queue is not enabled. -/
theorem releaseRecord_punted {h : Held} {s : State} {q n : Nat} (hi : s.irqSane) (hf : h.fate = .punt q n)
    (hs : safeStopped s h.port = false) (hfit : stagedBytes s + (h.frm.data ++ h.frm.fcs).length ≤ 4 * 2 ^ 20) :
    (s.dma.staging.any (fun y => y.queue == q) = true ∨ rxRefusal s q (h.frm.data ++ h.frm.fcs).length = none →
        (releaseRecord h s).dma.staging = s.dma.staging
          ++ [{ queue := q, reason := n, port := h.port, data := h.frm.data ++ h.frm.fcs, side := h.side }]
        ∧ (releaseRecord h s).dp.cells = s.dp.cells)
      ∧ (s.dma.staging.any (fun y => y.queue == q) = false → ctxOn (getQ s true q).word2 = false →
        (releaseRecord h s).dma.staging = s.dma.staging ∧ (releaseRecord h s).dp.cells = s.dp.cells
          ∧ getLive (releaseRecord h s) (adr pgClass 0x0C4)
            = satAdd (liveMax (adr pgClass 0x0C4)) (getLive s (adr pgClass 0x0C4)) 1
          ∧ (getReg (releaseRecord h s) (adr pgClass 0x24)).getLsbD 0 = true) := by
  rw [releaseRecord_punt hf hs]
  rw [← stagedBytes_addLive (adr pgReorder 0x0B0) 1 s] at hfit
  have htaken := stage_taken { queue := q, reason := n, port := h.port, data := h.frm.data ++ h.frm.fcs, side := h.side }
    (addLive (adr pgReorder 0x0B0) 1 s) hfit
  have hdis := stage_disabled { queue := q, reason := n, port := h.port, data := h.frm.data ++ h.frm.fcs, side := h.side }
    (addLive (adr pgReorder 0x0B0) 1 s) hfit
  refine ⟨fun ht => ?_, fun ha hoff => ?_⟩
  · rw [htaken ht]
    exact ⟨rfl, rfl⟩
  · rw [hdis ha hoff]
    obtain ⟨hr, hl⟩ := rxDrop_disabled q (addLive (adr pgReorder 0x0B0) 1 s) hi
    refine ⟨by rw [rest_dma hr]; rfl, by rw [rest_dp hr]; rfl, ?_, hl⟩
    rw [getLive_of_rest hr, getLive_addLive, if_pos rfl, getLive_addLive, if_neg (by decide)]

/-- A record that may be released leaves the store; what becomes of it follows from its fate. -/
theorem exec_reorderRelease_record {s : State} {p : PortNo} {h : Held} (hi : s.irqSane) (hd : dealing s = true)
    (hh : heldAt s p (expectOf s p) = some h) (hr : isRecord h = true) :
    ∃ t, exec (.reorderRelease p) s = .next t ∧ expectOf t p = (expectOf s p + 1) % 2 ^ 24
      ∧ t.dp.held = s.dp.held.filter (fun x => !(x.port == p.val && x.seq == h.seq)) ∧ t.dp.dealt = s.dp.dealt
      ∧ t.ctl.mode = s.ctl.mode
      ∧ (h.frm.pend = false → h.fate = .forward none → safeStopped s p = false → h.frm.port = p.val → creditsOf s (p / 8) = 0 →
        cellsAt t (p / 8) = cellsAt s (p / 8)
            ++ cutCells p h.frm.endMarks (h.side ++ [0, 0]) 65 (h.frm.data ++ h.frm.fcs) ∧ t.out = s.out ∧ t.dma = s.dma)
      ∧ (∀ q n d, h.frm.pend = false → h.fate = .punt q n → safeStopped s p = false → d = h.frm.data ++ h.frm.fcs →
          stagedBytes s + d.length ≤ 4 * 2 ^ 20 →
        (s.dma.staging.any (fun y => y.queue == q) = true ∨ rxRefusal s q d.length = none →
          t.dma.staging = s.dma.staging ++ [{ queue := q, reason := n, port := p, data := d, side := h.side }]
            ∧ t.dp.cells = s.dp.cells)
        ∧ (s.dma.staging.any (fun y => y.queue == q) = false → ctxOn (getQ s true q).word2 = false →
          t.dma.staging = s.dma.staging ∧ t.dp.cells = s.dp.cells
            ∧ getLive t (adr pgClass 0x0C4) = satAdd (liveMax (adr pgClass 0x0C4)) (getLive s (adr pgClass 0x0C4)) 1
            ∧ (getReg t (adr pgClass 0x24)).getLsbD 0 = true))
      ∧ (h.frm.pend = true → tabFind t.dp.opened p = some h ∧ t.dp.cells = s.dp.cells ∧ t.dma = s.dma ∧ t.out = s.out) := by
  have hp := heldAt_port hh
  have hst := releaseHeld_stores h (released p h s)
  have hpend : ∀ u, h.frm.pend = false → releaseHeld h u = releaseRecord h u := fun u hb => by
    rw [releaseHeld, hb]; rfl
  have hmode := dataKeeps_mode (dataKeeps_releaseHeld h (released p h s))
  refine ⟨releaseHeld h (released p h s), ?_, ?_, congrArg (fun d => d.held) hst, congrArg (fun d => d.dealt) hst, hmode,
    ?_, ?_, ?_⟩
  · show execReorderRelease p s = _
    rw [execReorderRelease, if_pos hd, releaseNext_record hh hr]
    rfl
  · rw [expectOf_of_stores hst, released, expectOf_setExpect]
  · intro hb hf hs hfp hc
    rw [hpend _ hb]
    have hk := releaseRecord_forward (s := released p h s) hf (by rw [hp]; exact hs) (by rw [hfp]; exact hc)
    rw [hfp] at hk
    exact hk
  · intro q n d hb hf hs hdata hfit
    subst hdata
    rw [hpend _ hb]
    have hk := releaseRecord_punted (s := released p h s) hi hf (by rw [hp]; exact hs) hfit
    rw [hp] at hk
    exact hk
  · intro hb
    rw [releaseHeld, if_pos hb, hp]
    exact ⟨tabFind_put_same _ _ _, rfl, rfl, rfl⟩

theorem dataKeeps_declareGap (c p : Nat) (s : State) : dataKeeps s (declareGap c p s) := by
  unfold declareGap
  split
  · exact dataKeeps_refl s
  · refine dataKeeps_trans ?_ (dataKeeps_hwEvent _ _ _)
    refine dataKeeps_trans ?_ (dataKeeps_setReg _ _ (by decide))
    refine dataKeeps_trans ?_ (dataKeeps_setReg _ _ (by decide))
    refine dataKeeps_trans ?_ (dataKeeps_loupe _ _ _ _ _)
    exact dataKeeps_of_eq rfl rfl

/-- The state in which a gap of port `p` up to number `l` is over, before the lost numbers are counted. -/
def gapClosed (p l : Nat) (s : State) : State :=
  setExpect p l { s with dp := { s.dp with
    held := s.dp.held.filter (fun h => !(h.port == p && decide (seqDist (expectOf s p) h.seq < seqDist (expectOf s p) l)))
    dealt := markLost p (expectOf s p) l s.dp.dealt } }

theorem declareGap_gap {s : State} {c p n l : Nat} (hg : gapOf s p = some (n, l)) : ∃ low k,
    declareGap c p s = latchLost c p low n (countLost p n (addLive (adr pgReorder 0x0B0) k (gapClosed p l s))) := by
  rw [declareGap, hg]
  exact ⟨_, _, rfl⟩

theorem exec_gapTimeout_gap {s : State} {p : PortNo} {n l : Nat} (hi : s.irqSane) (hd : dealing s = true)
    (hg : gapOf s p = some (n, l)) :
    ∃ t, exec (.gapTimeout p) s = .next t ∧ expectOf t p = l % 2 ^ 24
      ∧ (∀ a, a = adr pgReorder 0x0A0 → getLive t a = satAdd (liveMax a) (getLive s a) n)
      ∧ getReg t (adr pgReorder 0x0B8) = word (2 ^ 31 + 2 ^ 16 + p)
      ∧ (getReg t (adr pgReorder 0x24)).getLsbD 0 = true
      ∧ (∀ h, h ∈ t.dp.held ↔ h ∈ s.dp.held ∧ (h.port = p.val → seqDist (expectOf s p) l ≤ seqDist (expectOf s p) h.seq))
      ∧ t.dp.queues = s.dp.queues ∧ t.ctl.mode = s.ctl.mode := by
  have hmode := dataKeeps_mode (dataKeeps_declareGap 1 p s)
  obtain ⟨low, k, he⟩ := declareGap_gap (c := 1) hg
  have hrest := (latchLost_rest 1 p low n (countLost p n (addLive (adr pgReorder 0x0B0) k (gapClosed p l s)))).trans
    (countLost_rest p n (addLive (adr pgReorder 0x0B0) k (gapClosed p l s)))
  have hi' := countLost_irqSane p n (addLive (adr pgReorder 0x0B0) k (gapClosed p l s)) hi
  obtain ⟨hreg, hlatch⟩ := getReg_latchLost 1 p low n _ hi'
  rw [← he] at hrest hreg hlatch
  have hdp : (declareGap 1 p s).dp = (gapClosed p l s).dp := by rw [rest_dp hrest]; rfl
  refine ⟨declareGap 1 p s, ?_, ?_, ?_, hreg, hlatch, ?_, ?_, hmode⟩
  · show execGapTimeout p s = _
    rw [execGapTimeout, if_pos hd]
  · rw [expectOf, hdp]
    exact expectOf_setExpect p l _
  · rintro a rfl
    have hne : adr pgReorder 0x0A0 ≠ adr pgReorder (0x800 + 4 * p) := by simp only [adr]; omega
    rw [getLive_of_rest hrest, getLive_addLive, if_pos rfl, getLive_addLive, if_neg hne, getLive_addLive, if_neg (by decide)]
    rfl
  · intro h
    rw [hdp]
    exact seqDist_filter_iff p (expectOf s p) l h s.dp.held
  · rw [hdp]
    rfl

/-- Settles O52, by the fate of the record released, the gap closed, and induction on the cells that wait for credits. -/
theorem releaseRows : Obligations.ReleaseRows := by
  intro s p hi
  refine ⟨fun hd => ⟨?_, ?_⟩, fun hn => ?_, fun h hd hh hr => exec_reorderRelease_record hi hd hh hr, fun hn => ?_,
    fun n l hd hg => exec_gapTimeout_gap hi hd hg, fun cl n m hm => ?_⟩
  · show execReorderRelease p s = _
    rw [execReorderRelease, hd]; rfl
  · show execGapTimeout p s = _
    rw [execGapTimeout, hd]; rfl
  · have hs : releaseNext p (s.dp.held.length + 1) s = s := by rw [releaseNext, hn]
    show execReorderRelease p s = _
    rw [execReorderRelease, hs, ite_self]
  · have hs : declareGap 1 p s = s := by rw [declareGap, hn]
    show execGapTimeout p s = _
    rw [execGapTimeout, hs, ite_self]
  · have hc : ∀ d, creditsOf { s with rx := { s.rx with credits := tabSet (fun _ => 0) s.rx.credits cl (creditsOf s cl + n) } } d
        = if d = cl.val then creditsOf s cl + n else creditsOf s d := fun d => tabGet_set (fun _ => 0) s.rx.credits cl d _
    obtain ⟨hw, hcr, ho, hd, hf⟩ := sendCells_sent cl (cellsAt s cl)
      { s with rx := { s.rx with credits := tabSet (fun _ => 0) s.rx.credits cl (creditsOf s cl + n) } }
    rw [hc, if_pos rfl] at hw hcr ho
    rw [← hm] at hw hcr ho
    refine ⟨_, rfl, hw, hcr, ho, fun d hne => ⟨(hd d hne).1, (hd d hne).2.trans ((hc d).trans (if_neg hne))⟩, hf⟩

end Sys2Proof.Machine
end

section
namespace Sys2Proof.Machine

/-! ### What an event sends goes behind what was sent before -/

/-- `t` has sent what `s` has, and perhaps more behind it. -/
def outGrows (s t : State) : Prop := s.out <+: t.out

theorem outGrows_refl (s : State) : outGrows s s := List.prefix_refl _
theorem outGrows_trans {s t u : State} (h : outGrows s t) (k : outGrows t u) : outGrows s u := h.trans k
theorem outGrows_of_eq {s t : State} (h : t.out = s.out) : outGrows s t := by rw [outGrows, h]
theorem outGrows_irq (s : State) (i : Irq) : outGrows s { s with irq := i } := outGrows_refl s
theorem outGrows_emit (e : Emit) (s : State) : outGrows s (emit e s) := List.prefix_append _ _

theorem outGrows_ite {c : Prop} [Decidable c] {s t u : State} (ht : outGrows s t) (hu : outGrows s u) :
    outGrows s (if c then t else u) := by
  split
  · exact ht
  · exact hu

theorem mem_out_of_grows {s t : State} {e : Emit} (h : outGrows s t) (he : e ∈ s.out) : e ∈ t.out := h.subset he

theorem lpAdd_out (f c n : Nat) (s : State) : (lpAdd f c n s).1.out = s.out := by
  induction f generalizing c n s with
  | zero => rfl
  | succ f ih =>
    unfold lpAdd
    simp only
    split
    · rfl
    · split
      · rfl
      · split
        · exact ih _ _ _
        · rfl

theorem lpAddAll_out (n : Nat) (l : List Nat) (s : State) : (lpAddAll n l s).1.out = s.out := by
  induction l generalizing s with
  | nil => rfl
  | cons c r ih => exact (ih _).trans (lpAdd_out 1024 c n s)

section
variable {f : Nat → State → State} (hf : ∀ k u, outGrows u (f k u))
include hf

theorem outGrows_latchBit (page n : Nat) (s : State) : outGrows s (latchBit f page n s) := by
  have h2 : ∀ (c : Prop) [Decidable c] (l : Word), outGrows s (if c then addF (adr page 0x40) 31 0 1 (setReg (adr page 0x24) l s)
      else setReg (adr page 0x24) l s) := fun _ _ _ => outGrows_ite (outGrows_of_eq rfl) (outGrows_of_eq rfl)
  simp only [latchBit]
  refine outGrows_ite ?_ (h2 _ _)
  split
  · exact outGrows_trans (h2 _ _) (hf _ _)
  · exact h2 _ _

theorem outGrows_latchBanks (k : Nat) (l : List Nat) (s : State) : outGrows s (latchBanks f k l s) := by
  induction k generalizing l s with
  | zero => exact outGrows_refl s
  | succ k ih =>
    cases l with
    | nil => exact outGrows_refl s
    | cons b r =>
      refine outGrows_trans (outGrows_latchBit hf (pgBank b) 0 s) ?_
      exact outGrows_trans (outGrows_of_eq (lpAddAll_out 1 _ _)) (ih _ _)

theorem outGrows_latchWith (page n : Nat) (s : State) : outGrows s (latchWith f page n s) :=
  outGrows_trans (outGrows_latchBit hf page n s)
    (outGrows_trans (outGrows_of_eq (lpAddAll_out 1 _ _)) (outGrows_latchBanks hf 64 _ _))

end

theorem outGrows_setPending (n : Nat) (s : State) : outGrows s (setPending n s) := outGrows_of_eq rfl

theorem outGrows_irqOwnEvent (n : Nat) (s : State) : outGrows s (irqOwnEvent n s) :=
  outGrows_latchWith outGrows_setPending pgIrq n s

theorem outGrows_notify (t off bit : Nat) (s : State) : outGrows s (notify t off bit s) := by
  refine outGrows_ite ?_ (outGrows_refl s)
  refine outGrows_trans ?_ (outGrows_latchBanks outGrows_setPending 64 _ _)
  exact outGrows_trans (outGrows_emit _ s) (outGrows_of_eq (lpAddAll_out _ _ _))

theorem outGrows_writeRecord (n t : Nat) (s : State) : outGrows s (writeRecord n t s) :=
  outGrows_trans (outGrows_emit _ s) (outGrows_of_eq rfl)

theorem outGrows_waitRecord (n t : Nat) (s : State) : outGrows s (waitRecord n t s) := by
  refine outGrows_ite (outGrows_refl s) ?_
  refine outGrows_trans ?_ (outGrows_irqOwnEvent 0 _)
  exact outGrows_of_eq rfl

theorem outGrows_serveData (l : List Nat) (s : State) : outGrows s (serveData l s) := by
  induction l generalizing s with
  | nil => exact outGrows_refl s
  | cons n r ih =>
    refine outGrows_ite (ih s) ?_
    split
    · exact ih s
    · exact outGrows_trans (outGrows_ite (outGrows_writeRecord _ _ s) (outGrows_waitRecord _ _ s)) (ih _)

theorem outGrows_writeBacks (l : List Nat) (s : State) : outGrows s (writeBacks l s) := by
  induction l generalizing s with
  | nil => exact outGrows_refl s
  | cons t r ih =>
    refine outGrows_ite (ih s) ?_
    refine outGrows_trans ?_ (ih _)
    refine outGrows_trans ?_ (outGrows_ite (outGrows_notify _ _ _ _) (outGrows_refl _))
    exact outGrows_trans (outGrows_emit _ s) (outGrows_irq _ _)

theorem outGrows_notifyRises (old l : List Nat) (s : State) : outGrows s (notifyRises old l s) := by
  induction l generalizing s with
  | nil => exact outGrows_refl s
  | cons t r ih => exact outGrows_trans (outGrows_ite (outGrows_refl s) (outGrows_notify _ _ _ s)) (ih _)

theorem outGrows_irqPass (s : State) : outGrows s (irqPass s) := by
  refine outGrows_trans (outGrows_trans (outGrows_trans ?_ (outGrows_notifyRises _ _ _)) (outGrows_serveData _ _))
    (outGrows_writeBacks _ _)
  refine outGrows_trans ?_ (outGrows_irq _ _)
  refine outGrows_ite ?_ (outGrows_irq s _)
  exact outGrows_trans (outGrows_irq s _) (outGrows_irqOwnEvent 2 _)

theorem outGrows_irqSettle (s : State) : outGrows s (irqSettle s) :=
  outGrows_ite (outGrows_refl s) (outGrows_trans (outGrows_irqPass s) (outGrows_irqPass _))

theorem outGrows_noteWake (c l : Nat) (s : State) : outGrows s (noteWake c l s) :=
  outGrows_ite (outGrows_refl s) (outGrows_ite (outGrows_of_eq rfl) (outGrows_ite (outGrows_of_eq rfl) (outGrows_refl s)))

theorem outGrows_irqEdge (n : Nat) (s : State) : outGrows s (irqEdge n s) :=
  outGrows_ite (outGrows_of_eq rfl)
    (outGrows_trans (outGrows_trans (outGrows_setPending n s) (outGrows_noteWake _ _ _)) (outGrows_irqSettle _))

theorem outGrows_hwEvent (page n : Nat) (s : State) : outGrows s (hwEvent page n s) :=
  outGrows_latchWith outGrows_irqEdge page n s

theorem outGrows_loupe (u i g n : Nat) (s : State) : outGrows s (loupe u i g n s) :=
  outGrows_trans (outGrows_of_eq (lpAddAll_out _ _ _)) (outGrows_latchBanks outGrows_irqEdge 64 _ _)

end Sys2Proof.Machine
end

section
namespace Sys2Proof.Machine

/-! ### MAC transmit: queues, cells and what a port's state reads -/

theorem tabFind_insert_other {α : Type} (t : Tab α) {k j : Nat} (v : α) (h : j ≠ k) : tabFind (tabInsert t k v) j = tabFind t j := by
  induction t with
  | nil => simp [tabInsert, tabFind, Ne.symm h]
  | cons x r ih =>
    by_cases hk : k < x.1
    · simp [tabInsert, tabFind, hk, Ne.symm h]
    · simp [tabInsert, tabFind, hk, ih]

theorem tabFind_erase_same {α : Type} (t : Tab α) (k : Nat) : tabFind (tabErase t k) k = none := by
  induction t with
  | nil => rfl
  | cons x r ih =>
    by_cases h : x.1 = k
    · simp [tabErase, h, ih]
    · simp [tabErase, tabFind, h, ih]

theorem tabFind_erase_other {α : Type} (t : Tab α) {k j : Nat} (h : j ≠ k) : tabFind (tabErase t k) j = tabFind t j := by
  induction t with
  | nil => rfl
  | cons x r ih =>
    by_cases hk : x.1 = k
    · have hj : x.1 ≠ j := fun e => h (e.symm.trans hk)
      simp [tabErase, tabFind, hk, ih, Ne.symm h]
    · simp [tabErase, tabFind, hk, ih]

theorem tabFind_put_other {α : Type} (t : Tab α) {k j : Nat} (v : α) (h : j ≠ k) : tabFind (tabPut t k v) j = tabFind t j := by
  rw [tabPut, tabFind_insert_other _ _ h, tabFind_erase_other _ h]

theorem txQueue_setTxQueue (p q : Nat) (l : List TxFrm) (s : State) :
    txQueue (setTxQueue p l s) q = if q = p then l else txQueue s q := by
  have hd : txQueue (setTxQueue p l s) q
      = tabGet (fun _ => []) (if l.isEmpty then tabErase s.tx.queues p else tabPut s.tx.queues p l) q := rfl
  rw [hd]
  split
  · next hl => rw [tabGet_erase, List.isEmpty_iff.mp hl]; rfl
  · rw [tabGet_put]; rfl

theorem txUsed_setTxQueue (p : Nat) (l : List TxFrm) (s : State) (d : Nat) : txUsed (setTxQueue p l s) d = txUsed s d := rfl

theorem txUsed_freeCells (cl n d : Nat) (s : State) :
    txUsed (freeCells cl n s) d = if d = cl then txUsed s cl - n else txUsed s d := by
  rw [freeCells]
  split
  · next h => subst h; split <;> simp_all
  · exact tabGet_set (fun _ => 0) s.tx.used cl d _

theorem freeCells_credit {cl n : Nat} (s : State) (h : 0 < n) : Emit.credit cl n ∈ (freeCells cl n s).out := by
  rw [freeCells, if_neg (by omega)]
  simp [emit]

theorem freeCells_queues (cl n : Nat) (s : State) : (freeCells cl n s).tx.queues = s.tx.queues := by
  rw [freeCells]; split <;> rfl
theorem freeCells_flight (cl n : Nat) (s : State) : (freeCells cl n s).tx.flight = s.tx.flight := by
  rw [freeCells]; split <;> rfl
theorem freeCells_win (cl n : Nat) (s : State) : (freeCells cl n s).win = s.win := by rw [freeCells]; split <;> rfl
theorem freeCells_rest (cl n : Nat) (s : State) : (freeCells cl n s).rest = State.rest { s with tx := (freeCells cl n s).tx } := by
  rw [freeCells]; split <;> rfl

theorem txQueue_of_queues {s t : State} (h : t.tx.queues = s.tx.queues) (q : Nat) : txQueue t q = txQueue s q := by
  rw [txQueue, h, txQueue]

/-! #### What a port's state reads -/

theorem portStop_congr {s t : State} {p : Nat} (hc : t.ctl = s.ctl) (hn : t.nv = s.nv) (hp : t.prt = s.prt) (hw : t.pwr = s.pwr)
    (hr : getReg t (pcsA p 0x0B0) = getReg s (pcsA p 0x0B0)) : portStop t p = portStop s p := by
  have hs : safeStopped t p = safeStopped s p := by rw [safeStopped, hc, hn, safeStopped]
  have hu : portUp t p = portUp s p := by rw [portUp, getB, hr, portUp, getB]
  have hq : quiescing t = quiescing s := by rw [quiescing, hw, quiescing]
  rw [portStop, hs, hu, hp, hq, portStop]

/-! #### A cell taken (R10) -/

/-- TX_BUF of a cluster. -/
abbrev txBufA (cl : Nat) : Nat := adr (pgCl cl 0) 0x2AC



/-- What taking a cell leaves: one more cell in use, TX_BUF perhaps, and nothing else. -/
structure cellTaken (cl : Nat) (s t : State) : Prop where
  frame : t = { s with tx := t.tx, win := { s.win with regs := t.win.regs } }
  regs : ∀ b, b ≠ txBufA cl → getReg t b = getReg s b
  used : txUsed t cl = txUsed s cl + 1
  same : t.tx = { s.tx with used := t.tx.used, low := t.tx.low }
  sane : s.irqSane → t.irqSane

theorem takeCell_taken (cl : Nat) (s : State) : cellTaken cl s (takeCell cl s) := by
  have hu : tabGet (fun _ => 0) (tabSet (fun _ => 0) s.tx.used cl (txUsed s cl + 1)) cl = txUsed s cl + 1 :=
    (tabGet_set (fun _ => 0) s.tx.used cl cl _).trans (if_pos rfl)
  simp only [takeCell]
  split
  · exact ⟨rfl, fun _ _ => rfl, hu, rfl, id⟩
  · exact ⟨rfl, fun b hb => getReg_setF_other _ _ _ _ hb, hu, rfl, id⟩

section
variable {cl : Nat} {s t : State} (h : cellTaken cl s t)
include h

theorem cellTaken.ctl : t.ctl = s.ctl := congrArg (fun x => x.ctl) h.frame
theorem cellTaken.live : t.win.live = s.win.live := congrArg (fun x => x.win.live) h.frame
theorem cellTaken.queues : t.tx.queues = s.tx.queues := congrArg (fun x => x.queues) h.same
theorem cellTaken.flight : t.tx.flight = s.tx.flight := congrArg (fun x => x.flight) h.same
theorem cellTaken.out : t.out = s.out := congrArg (fun x => x.out) h.frame
theorem cellTaken.rest : t.rest = State.rest { s with tx := t.tx } :=
  (congrArg State.rest h.frame).trans rfl

theorem cellTaken.portStop (p : Nat) : portStop t p = portStop s p :=
  portStop_congr h.ctl (congrArg (fun x => x.nv) h.frame) (congrArg (fun x => x.prt) h.frame) (congrArg (fun x => x.pwr) h.frame)
    (h.regs _ (by simp only [pcsA, txBufA, adr, pgCl]; omega))

theorem cellTaken.portShape (p : Nat) : portShape t p = portShape s p := by
  have hl : liveShape t (p / 8) (p % 8) = liveShape s (p / 8) (p % 8) :=
    liveShape_congr (h.regs _ (by simp only [portLiveA, txBufA, adr, pgCl]; omega))
  rw [Machine.portShape, hl, Machine.portShape]

theorem cellTaken.tripped (p prio : Nat) : tripped t p prio = tripped s p prio := by
  rw [Machine.tripped, getB, h.regs _ (by simp only [txStA, macA, txBufA, adr, pgCl]; omega), Machine.tripped, getB]

theorem cellTaken.fedType : fedType t = fedType s :=
  getF_congr (h.regs (adr pgFed 0x080) (by simp only [txBufA, adr, pgCl, pgFed]; omega)) 31 16

theorem cellTaken.isFedCtrl (d : List Byte) : isFedCtrl t d = isFedCtrl s d := by
  rw [Machine.isFedCtrl, h.fedType, Machine.isFedCtrl]

theorem cellTaken.firstCell (p : Nat) (side : Word) (f d : List Byte) : firstCell t p side f d = firstCell s p side f d := by
  have hc : txCfg t p = txCfg s p := h.regs _ (by simp only [macA, txBufA, adr, pgCl]; omega)
  simp only [Machine.firstCell, txPriority, h.fedType, hc]

end

theorem joinQueue_runs {p : Nat} {f : TxFrm} {s : State} (hp : portStop s p = none) (ht : tripped s p f.prio = false) :
    joinQueue p f s = setTxQueue p (txQueue s p ++ [f]) s := by
  have h1 : portStop (setTxQueue p (txQueue s p ++ [f]) s) p = none := hp
  have h2 : tripped (setTxQueue p (txQueue s p ++ [f]) s) p f.prio = false := ht
  rw [joinQueue]
  simp only [h1, h2, Option.isSome_none, Bool.or_self, Bool.false_eq_true, if_false]

/-- A port's queue beyond its limit is counted (R186). -/
def countFull (p : Nat) (s : State) : State := if 16 < unstarted s p then addLive (txCnt p 0xC0) 1 s else s

theorem countFull_frame (p : Nat) (s : State) :
    countFull p s = { s with win := { s.win with live := (countFull p s).win.live } } := by
  rw [countFull]
  split <;> rfl

theorem getLive_countFull (p : Nat) (s : State) :
    getLive (countFull p s) (txCnt p 0xC0) = if 16 < unstarted s p
      then satAdd (liveMax (txCnt p 0xC0)) (getLive s (txCnt p 0xC0)) 1 else getLive s (txCnt p 0xC0) := by
  rw [countFull]
  split
  · rw [getLive_addLive, if_pos rfl]
  · rfl

/-- A first cell for a port that is not there is counted, and its credit returned (row 1 of Table 10.2). -/
def misplaced (cl q : Nat) (s : State) : State :=
  loupe 2 q 2 1 (hwEvent (pgCl cl 0) 9 (addF (adr (pgCl cl 0) 0x2A8) 31 0 1 (freeCells cl 1 s)))

theorem misplaced_eq (cl q : Nat) (s : State) : misplaced cl q s
    = loupe 2 q 2 1 (hwEvent (pgCl cl 0) 9 (addF (adr (pgCl cl 0) 0x2A8) 31 0 1 (freeCells cl 1 s))) := rfl

def withRefused (r : Tab Nat) (s : State) : State := { s with tx := { s.tx with refused := r } }
def withLive (l : Tab Nat) (s : State) : State := { s with win := { s.win with live := l } }

section
variable {cl : ClusterNo} {side : Word} {first data : List Byte} {s : State} (hm : txMode s = true) (hu : txUsed s cl < 128)
include hm hu

theorem exec_txCellAccept_joins {q : Nat} (hf : bit side 31 = true) (hq : q = leField first 0 2 % 512) (hc : q / 8 = cl.val)
    (hs : (portShape s q).isSome = true) : exec (.txCellAccept cl side first data) s
      = .next (countFull q (joinQueue q (firstCell s q side first (cellData side data)) (takeCell cl s))) := by
  have ht := takeCell_taken cl s
  have hn : ¬ (txMode s = false ∨ 128 ≤ txUsed s cl) := by simp [hm]; omega
  have hp : ¬ (q / 8 ≠ cl.val ∨ (portShape (takeCell cl s) q).isNone = true) := by
    rw [ht.portShape]; simpa [hc, Option.isSome_iff_ne_none] using hs
  show execTxCellAccept cl side first data s = _
  simp only [execTxCellAccept, if_neg hn, hf, if_true, ← hq, if_neg hp, ht.firstCell]
  rfl

theorem exec_txCellAccept_misplaced {q : Nat} (hf : bit side 31 = true) (hq : q = leField first 0 2 % 512)
    (hc : q / 8 ≠ cl.val ∨ portShape s q = none) : ∃ r, exec (.txCellAccept cl side first data) s
      = .next (withRefused r (misplaced cl q (takeCell cl s))) := by
  have ht := takeCell_taken cl s
  have hn : ¬ (txMode s = false ∨ 128 ≤ txUsed s cl) := by simp [hm]; omega
  have hp : q / 8 ≠ cl.val ∨ (portShape (takeCell cl s) q).isNone = true := by
    rw [ht.portShape]; simpa using hc
  show ∃ r, execTxCellAccept cl side first data s = _
  simp only [execTxCellAccept, if_neg hn, hf, if_true, ← hq, if_pos hp, ← misplaced_eq]
  generalize misplaced cl q (takeCell cl s) = u
  split
  · exact ⟨u.tx.refused, rfl⟩
  · exact ⟨_, rfl⟩

theorem exec_txCellAccept_later {q : Nat} {f : TxFrm} (hf : bit side 31 = false) (hq : q = bits side 21 13)
    (hr : tabFind s.tx.refused cl = none) (hfl : growingAt s.tx.flight q = none) (ho : growingAt s.tx.open_ q = none)
    (hg : (txQueue s q).find? growing = some f) (hd : f.dropping = false) : ∃ l, exec (.txCellAccept cl side first data) s
      = .next (withLive l (setTxQueue q ((txQueue s q).map
          (fun x => if growing x then addCell side (cellData side data) x else x)) (takeCell cl s))) := by
  obtain ⟨_, _, _, hsame, _⟩ := takeCell_taken cl s
  have hn : ¬ (txMode s = false ∨ 128 ≤ txUsed s cl) := by simp [hm]; omega
  have hr' : (takeCell cl s).tx.refused = s.tx.refused := congrArg (fun x => x.refused) hsame
  have hfl' : (takeCell cl s).tx.flight = s.tx.flight := congrArg (fun x => x.flight) hsame
  have ho' : (takeCell cl s).tx.open_ = s.tx.open_ := congrArg (fun x => x.open_) hsame
  have hq' : txQueue (takeCell cl s) q = txQueue s q := txQueue_of_queues (congrArg (fun x => x.queues) hsame) q
  have hlater : laterCell q side (cellData side data) (takeCell cl s) = setTxQueue q ((txQueue s q).map
      (fun x => if growing x then addCell side (cellData side data) x else x)) (takeCell cl s) := by
    simp only [laterCell, hfl', hfl, ho', ho, hq', hg, queueCell, hd, Bool.false_eq_true, if_false]
  show ∃ l, execTxCellAccept cl side first data s = _
  simp only [execTxCellAccept, if_neg hn, hf, Bool.false_eq_true, if_false, ← hq, hr', hr, reduceCtorEq, hlater]
  generalize setTxQueue q _ (takeCell cl s) = u
  split
  · exact ⟨_, rfl⟩
  · exact ⟨u.win.live, rfl⟩

end

end Sys2Proof.Machine
end

section
namespace Sys2Proof.Machine

/-! ### Frames discarded before their commit (R188, rows 2 to 4 of Table 10.2) -/

/-- A discarded frame is counted: under R188 by its counter alone. -/
def countGone (p cnt : Nat) (s : State) : State := if cnt = 0xD4 then addLive (txCnt p cnt) 1 s else countDiscard p cnt s

theorem countGone_rest (p cnt : Nat) (s : State) : (countGone p cnt s).rest = (addLive (txCnt p cnt) 1 s).rest := by
  rw [countGone]
  split
  · rfl
  · exact loupe_rest _ _ _ _ _

theorem getLive_countGone (p cnt : Nat) (s : State) :
    getLive (countGone p cnt s) (txCnt p cnt) = satAdd (liveMax (txCnt p cnt)) (getLive s (txCnt p cnt)) 1 := by
  rw [getLive_of_rest (countGone_rest p cnt s), getLive_addLive, if_pos rfl]

theorem rest_tx {s t : State} (h : t.rest = s.rest) : t.tx = s.tx := congrArg (fun x => x.tx) h

theorem isHead_first (f : TxFrm) : isHead [] f = true := rfl

theorem sweep_kept {p : Nat} {f : TxFrm} {s : State} (hq : txQueue s p = [f]) (hd : f.dropping = false)
    (hn : discardOf s p f = none) : sweep p s = setTxQueue p [f] s := by
  have h1 : discardHeads p [] [f] s = ([f], s) := by
    simp only [discardHeads, hd, isHead_first, Bool.false_eq_true, Bool.true_eq_false, or_self, if_false, hn, List.nil_append]
  rw [sweep, hq]
  simp only [h1]

theorem sweep_discarded {p cnt reason : Nat} {f : TxFrm} {s : State} (hq : txQueue s p = [f]) (hd : f.dropping = false)
    (hsrc : f.src = .switch) (heof : f.eof = true) (hn : discardOf s p f = some (cnt, reason)) :
    sweep p s = setTxQueue p [] (freeCells (p / 8) f.cells (countGone p cnt s)) := by
  have h1 : discardHeads p [] [f] s = ([], freeCells (p / 8) f.cells (countGone p cnt s)) := by
    simp only [discardHeads, hd, isHead_first, Bool.false_eq_true, Bool.true_eq_false, or_self, if_false, hn, discardFrm, heof,
      if_true, hsrc, hostDone, List.nil_append, countGone]
  rw [sweep, hq]
  simp only [h1]

theorem discardOf_stopped {s : State} {p k : Nat} {f : TxFrm} (hk : portStop s p = some k) (hf : isFedCtrl s f.data = false) :
    discardOf s p f = some (if k = 2 then 0xB4 else 0xB0, 2) := by
  rw [discardOf]
  simp only [hf, Bool.false_and, Bool.false_eq_true, if_false, hk]
  split
  · next h => cases h; rfl
  · next h1 h2 => cases h2; rw [if_neg h1]
  · next h => cases h

/-- What discarding the only frame of a port leaves: nothing queued, its cells freed with their credit, the frame counted. -/
structure frameGone (p cnt cells : Nat) (s t : State) : Prop where
  queues : ∀ r, txQueue t r = if r = p then [] else txQueue s r
  used : ∀ d, txUsed t d = if d = p / 8 then txUsed s (p / 8) - cells else txUsed s d
  credit : 0 < cells → Emit.credit (p / 8) cells ∈ t.out
  count : getLive t (txCnt p cnt) = satAdd (liveMax (txCnt p cnt)) (getLive s (txCnt p cnt)) 1
  tx : t.tx = { s.tx with queues := t.tx.queues, used := t.tx.used }
  rest : t.rest = State.rest { s with tx := t.tx, win := t.win }

theorem frameGone_of_sweep (p cnt cells : Nat) (s : State) :
    frameGone p cnt cells s (setTxQueue p [] (freeCells (p / 8) cells (countGone p cnt s))) := by
  have hr := countGone_rest p cnt s
  have ht : (countGone p cnt s).tx = s.tx := by rw [rest_tx hr]; rfl
  have hl := getLive_countGone p cnt s
  generalize countGone p cnt s = u at hr ht hl
  have hfr : (freeCells (p / 8) cells u).rest = State.rest { s with tx := (freeCells (p / 8) cells u).tx, win := u.win } := by
    rw [freeCells_rest]
    have h1 : State.rest { u with tx := (freeCells (p / 8) cells u).tx }
        = { u.rest with tx := (freeCells (p / 8) cells u).tx } := rfl
    have h2 : State.rest { s with tx := (freeCells (p / 8) cells u).tx, win := u.win }
        = { (addLive (txCnt p cnt) 1 s).rest with tx := (freeCells (p / 8) cells u).tx, win := u.rest.win } := rfl
    rw [h1, h2, ← hr]
  refine ⟨fun r => ?_, fun d => ?_, fun hc => freeCells_credit u hc, ?_, ?_, ?_⟩
  · rw [txQueue_setTxQueue, txQueue_of_queues (freeCells_queues _ _ u), txQueue_of_queues (congrArg (fun x => x.queues) ht)]
  · rw [txUsed_setTxQueue, txUsed_freeCells, txUsed, txUsed, ht]; rfl
  · rw [← hl, getLive, getLive]
    exact congrArg (fun w : Win => tabGet (fun _ => 0) w.live (txCnt p cnt)) (freeCells_win _ _ u)
  · rw [← ht, setTxQueue, freeCells]
    split <;> rfl
  · have hw : (setTxQueue p [] (freeCells (p / 8) cells u)).win = u.win := freeCells_win _ _ u
    rw [hw]
    exact congrArg (fun x : State => { x with tx := (setTxQueue p [] (freeCells (p / 8) cells u)).tx }) hfr

/-! ### TX_CELL_ACCEPT -/

theorem cellAccept_joins {cl : ClusterNo} {side : Word} {first data : List Byte} {s : State} (hm : txMode s = true)
    (hu : txUsed s cl < 128) {q : Nat} (hf : bit side 31 = true) (hq : q = leField first 0 2 % 512) (hc : q / 8 = cl.val)
    (hs : (portShape s q).isSome = true) (hst : portStop s q = none)
    (htr : tripped s q (firstCell s q side first (cellData side data)).prio = false) :
    ∃ t, exec (.txCellAccept cl side first data) s = .next t
      ∧ txQueue t q = txQueue s q ++ [firstCell s q side first (cellData side data)]
      ∧ (∀ r, r ≠ q → txQueue t r = txQueue s r) ∧ txUsed t cl = txUsed s cl + 1
      ∧ getLive t (txCnt q 0xC0)
        = (if 16 < unstarted t q then satAdd (liveMax (txCnt q 0xC0)) (getLive s (txCnt q 0xC0)) 1 else getLive s (txCnt q 0xC0))
      ∧ (∀ b, b ≠ adr (pgCl cl 0) 0x2AC → getReg t b = getReg s b) ∧ t = { s with tx := t.tx, win := t.win } := by
  have ht := takeCell_taken cl s
  have hq2 : ∀ r, txQueue (takeCell cl s) r = txQueue s r := txQueue_of_queues ht.queues
  generalize hF : firstCell s q side first (cellData side data) = F at htr ⊢
  have hj : joinQueue q F (takeCell cl s) = setTxQueue q (txQueue s q ++ [F]) (takeCell cl s) := by
    rw [joinQueue_runs ((ht.portStop q).trans hst) ((ht.tripped q _).trans htr), hq2]
  have he := exec_txCellAccept_joins (first := first) (data := data) hm hu hf hq hc hs
  rw [hF, hj] at he
  have hlive := ht.live
  obtain ⟨hfr, hregs, hused, _, _⟩ := ht
  generalize takeCell cl s = u at hfr hregs hused hlive he hq2
  have hcf := countFull_frame q (setTxQueue q (txQueue s q ++ [F]) u)
  have hcl := getLive_countFull q (setTxQueue q (txQueue s q ++ [F]) u)
  have hqs : ∀ r, txQueue (countFull q (setTxQueue q (txQueue s q ++ [F]) u)) r = if r = q then txQueue s q ++ [F] else txQueue s r := by
    intro r
    rw [hcf, ← hq2 r]
    exact txQueue_setTxQueue q r _ u
  refine ⟨_, he, (hqs q).trans (if_pos rfl), fun r hr => (hqs r).trans (if_neg hr), ?_, ?_, ?_, ?_⟩
  · rw [hcf]; exact hused
  · have hun : unstarted (countFull q (setTxQueue q (txQueue s q ++ [F]) u)) q = unstarted (setTxQueue q (txQueue s q ++ [F]) u) q := by
      rw [hcf]; rfl
    have hl : getLive (setTxQueue q (txQueue s q ++ [F]) u) (txCnt q 0xC0) = getLive s (txCnt q 0xC0) := by
      rw [getLive, getLive, ← hlive]; rfl
    rw [hun, hcl, hl]
  · intro b hb
    rw [hcf]
    exact hregs b hb
  · rw [hcf, hfr]
    rfl

theorem countFull_empty {p : Nat} {s : State} (h : txQueue s p = []) : countFull p s = s := by
  rw [countFull, unstarted, h]; rfl

theorem cellAccept_stopped {cl : ClusterNo} {side : Word} {first data : List Byte} {s : State} (hm : txMode s = true)
    (hu : txUsed s cl < 128) {q k : Nat} (hf : bit side 31 = true) (heof : bit side 30 = true)
    (hq : q = leField first 0 2 % 512) (hc : q / 8 = cl.val) (he : txQueue s q = []) (hs : (portShape s q).isSome = true)
    (hst : portStop s q = some k) (hfed : isFedCtrl s (cellData side data) = false) :
    ∃ t, exec (.txCellAccept cl side first data) s = .next t ∧ (∀ r, txQueue t r = txQueue s r) ∧ txUsed t cl = txUsed s cl
      ∧ Emit.credit cl 1 ∈ t.out
      ∧ (∀ a, a = txCnt q (if k = 2 then 0xB4 else 0xB0) → getLive t a = satAdd (liveMax a) (getLive s a) 1)
      ∧ t.tx.flight = s.tx.flight := by
  have ht := takeCell_taken cl s
  have hq2 : ∀ r, txQueue (takeCell cl s) r = txQueue s r := txQueue_of_queues ht.queues
  generalize hF : firstCell s q side first (cellData side data) = F
  have hFd : F.dropping = false ∧ F.src = .switch ∧ F.eof = true ∧ F.cells = 1 ∧ F.data = cellData side data := by
    rw [← hF]
    exact ⟨rfl, rfl, heof, rfl, rfl⟩
  obtain ⟨hdrop, hsrc, hFeof, hcells, hdata⟩ := hFd
  have hstop : portStop (setTxQueue q [F] (takeCell cl s)) q = some k := (ht.portStop q).trans hst
  have hfd : isFedCtrl (setTxQueue q [F] (takeCell cl s)) F.data = false := by
    rw [hdata]; exact (ht.isFedCtrl _).trans hfed
  have hone : txQueue (setTxQueue q [F] (takeCell cl s)) q = [F] := (txQueue_setTxQueue _ _ _ _).trans (if_pos rfl)
  have hj : joinQueue q F (takeCell cl s) = sweep q (setTxQueue q [F] (takeCell cl s)) := by
    rw [joinQueue, hq2, he, List.nil_append]
    simp only [hstop, Option.isSome_some, Bool.true_or, if_true]
  rw [sweep_discarded hone hdrop hsrc hFeof (discardOf_stopped hstop hfd), hcells] at hj
  have hg := frameGone_of_sweep q (if k = 2 then 0xB4 else 0xB0) 1 (setTxQueue q [F] (takeCell cl s))
  have hexec := exec_txCellAccept_joins (first := first) (data := data) hm hu hf hq hc hs
  rw [hF, hj] at hexec
  generalize setTxQueue q [] (freeCells (q / 8) 1 (countGone q (if k = 2 then 0xB4 else 0xB0)
    (setTxQueue q [F] (takeCell cl s)))) = v at hexec hg
  obtain ⟨hqs, hused, hcr, hcnt, htx, _⟩ := hg
  rw [countFull_empty ((hqs q).trans (if_pos rfl))] at hexec
  refine ⟨v, hexec, fun r => ?_, ?_, hc ▸ hcr (by decide), ?_, ?_⟩
  · rw [hqs r]
    split
    · next e => rw [e, he]
    · next e => rw [txQueue_setTxQueue, if_neg e, hq2]
  · have h1 := hused cl
    rw [if_pos hc.symm, hc, txUsed_setTxQueue, ht.used] at h1
    omega
  · rintro a rfl
    have hl : ∀ b, getLive (setTxQueue q [F] (takeCell cl s)) b = getLive s b := fun b => by
      rw [getLive, getLive, ← ht.live]; rfl
    rw [hcnt, hl]
  · exact (congrArg (fun x => x.flight) htx).trans ht.flight

theorem outGrows_addF (a hi lo n : Nat) (s : State) : outGrows s (addF a hi lo n s) := outGrows_refl s

theorem cellAccept_misplaced {cl : ClusterNo} {side : Word} {first data : List Byte} {s : State} (hi : s.irqSane)
    (hm : txMode s = true) (hu : txUsed s cl < 128) {q : Nat} (hf : bit side 31 = true) (hq : q = leField first 0 2 % 512)
    (hc : q / 8 ≠ cl.val ∨ portShape s q = none) :
    ∃ t, exec (.txCellAccept cl side first data) s = .next t ∧ (∀ r, txQueue t r = txQueue s r) ∧ txUsed t cl = txUsed s cl
      ∧ Emit.credit cl 1 ∈ t.out
      ∧ getF t (adr (pgCl cl 0) 0x2A8) 31 0 = satAdd (2 ^ 32 - 1) (getF s (adr (pgCl cl 0) 0x2A8) 31 0) 1
      ∧ (getReg t (adr (pgCl cl 0) 0x24)).getLsbD 9 = true ∧ t.tx.flight = s.tx.flight
      ∧ t.rest = State.rest { s with tx := t.tx, win := t.win } := by
  have ht := takeCell_taken cl s
  obtain ⟨r, hexec⟩ := exec_txCellAccept_misplaced (first := first) (data := data) hm hu hf hq hc
  have hfr : (freeCells cl 1 (takeCell cl s)).rest = State.rest { s with tx := (freeCells cl 1 (takeCell cl s)).tx } := by
    rw [freeCells_rest]
    exact congrArg (fun x : State => { x with tx := (freeCells cl 1 (takeCell cl s)).tx }) ht.rest
  have hcr : Emit.credit cl 1 ∈ (freeCells cl 1 (takeCell cl s)).out := freeCells_credit _ (by decide)
  have hreg : ∀ b, b ≠ txBufA cl → getReg (freeCells cl 1 (takeCell cl s)) b = getReg s b := fun b hb => by
    rw [getReg, freeCells_win]; exact ht.regs b hb
  have hsane : (freeCells cl 1 (takeCell cl s)).irqSane := ht.sane hi
  have huse : txUsed (freeCells cl 1 (takeCell cl s)) cl = txUsed s cl := by
    rw [txUsed_freeCells, if_pos rfl, ht.used]; rfl
  have hqs : ∀ d, txQueue (freeCells cl 1 (takeCell cl s)) d = txQueue s d := fun d =>
    (txQueue_of_queues (freeCells_queues _ _ _) d).trans (txQueue_of_queues ht.queues d)
  have hfl : (freeCells cl 1 (takeCell cl s)).tx.flight = s.tx.flight := (freeCells_flight _ _ _).trans ht.flight
  rw [misplaced] at hexec
  generalize freeCells cl 1 (takeCell cl s) = u at hfr hcr hreg hsane huse hqs hfl hexec
  have hsane' : (addF (adr (pgCl cl 0) 0x2A8) 31 0 1 u).irqSane := hsane
  have hpg : 0xA9 ≤ pgCl cl 0 := by simp only [pgCl]; omega
  have hev := hwEvent_high (pgCl cl 0) 9 _ hsane'
  have hlatch := hwEvent_high_latch (pgCl cl 0) 9 _ hsane' hpg
  have hout : outGrows u (loupe 2 q 2 1 (hwEvent (pgCl cl 0) 9 (addF (adr (pgCl cl 0) 0x2A8) 31 0 1 u))) := by
    refine outGrows_trans ?_ (outGrows_loupe _ _ _ _ _)
    refine outGrows_trans ?_ (outGrows_hwEvent _ _ _)
    exact outGrows_addF _ _ _ _ u
  have hrest : (loupe 2 q 2 1 (hwEvent (pgCl cl 0) 9 (addF (adr (pgCl cl 0) 0x2A8) 31 0 1 u))).rest = u.rest := by
    rw [loupe_rest, hwEvent_rest, addF_rest]
  have hlp := (loupe_high 2 q 2 1 _ hev.1).2
  have hA : ∀ o, o < 4096 → 0xA9000 ≤ adr (pgCl cl 0) o := fun o _ => by simp only [adr, pgCl]; omega
  have h2a8 := (hlp (adr (pgCl cl 0) 0x2A8) (hA _ (by decide))).trans (hev.2 _ (hA _ (by decide))
    (by simp only [adr]; omega) (by simp only [adr]; omega))
  have h24 := (hlp (adr (pgCl cl 0) 0x24) (hA _ (by decide))).trans hlatch
  generalize loupe 2 q 2 1 (hwEvent (pgCl cl 0) 9 (addF (adr (pgCl cl 0) 0x2A8) 31 0 1 u)) = v at hexec hout hrest h2a8 h24
  have hvt : v.tx = u.tx := rest_tx hrest
  refine ⟨withRefused r v, hexec, fun d => ?_, ?_, mem_out_of_grows hout hcr, ?_, ?_, ?_, ?_⟩
  · rw [← hqs d, txQueue, txQueue, ← hvt]; rfl
  · rw [← huse, txUsed, txUsed, ← hvt]; rfl
  · rw [show getF (withRefused r v) = getF v from rfl, getF_congr h2a8, getF_addF_same _ _ _ (by decide), Nat.sub_zero,
      getF_congr (hreg _ (by simp only [txBufA, adr]; omega))]
  · rw [show getReg (withRefused r v) = getReg v from rfl, h24, getLsbD_putBit]
    simp
  · rw [show (withRefused r v).tx.flight = v.tx.flight from rfl, hvt, hfl]
  · exact congrArg (fun y : State => { y with tx := (withRefused r v).tx, win := { (withRefused r v).win with regs := [] } })
      (hrest.trans hfr)

theorem cellAccept_later {cl : ClusterNo} {side : Word} {first data : List Byte} {s : State} (hm : txMode s = true)
    (hu : txUsed s cl < 128) {q : Nat} {f : TxFrm} (hf : bit side 31 = false) (hq : q = bits side 21 13)
    (hr : tabFind s.tx.refused cl = none) (hfl : growingAt s.tx.flight q = none) (ho : growingAt s.tx.open_ q = none)
    (hg : (txQueue s q).find? growing = some f) (hd : f.dropping = false) :
    ∃ t, exec (.txCellAccept cl side first data) s = .next t
      ∧ txQueue t q = (txQueue s q).map (fun x => if growing x then addCell side (cellData side data) x else x)
      ∧ (∀ r, r ≠ q → txQueue t r = txQueue s r) ∧ txUsed t cl = txUsed s cl + 1 ∧ t.tx.flight = s.tx.flight
      ∧ t = { s with tx := t.tx, win := t.win } := by
  have ht := takeCell_taken cl s
  obtain ⟨l, hexec⟩ := exec_txCellAccept_later (first := first) (data := data) hm hu hf hq hr hfl ho hg hd
  generalize (txQueue s q).map (fun x => if growing x then addCell side (cellData side data) x else x) = L at hexec ⊢
  have hqs : ∀ r, txQueue (setTxQueue q L (takeCell cl s)) r = if r = q then L else txQueue s r := fun r => by
    rw [txQueue_setTxQueue, txQueue_of_queues ht.queues]
  refine ⟨_, hexec, (hqs q).trans (if_pos rfl), fun r hne => (hqs r).trans (if_neg hne), ht.used, ht.flight, ?_⟩
  have hfr := ht.frame
  generalize takeCell cl s = u at hfr ⊢
  rw [hfr]
  rfl

end Sys2Proof.Machine
end

section
namespace Sys2Proof.Machine

/-! ### TX_FRAME_COMMIT of a port with one queued frame -/

theorem handHosts_none {s : State} (h : s.dma.txq = []) : handHosts s = s := by
  rw [handHosts, h]
  rfl

theorem flushFc_none {p : Nat} {s : State} (h : tabGet (fun _ => 0) s.tx.fcPend p = 0) : flushFc p s = s := by
  rw [flushFc]
  simp only [h, if_true]

/-- No SMD-R is owed. -/
def noSmdR (p : Nat) (s : State) : State := { s with tx := { s.tx with smdR := tabErase s.tx.smdR p } }

theorem lineFree_idle {p : Nat} {s : State} (lane i : Nat) (hfc : tabGet (fun _ => 0) s.tx.fcPend p = 0)
    (hsr : tabGet (fun _ => 0) s.tx.smdR p = 0) (ho : tabFind s.tx.open_ p = none) :
    lineFree p lane i s = commitNext p lane i (fun _ => true) (noSmdR p s) := by
  rw [lineFree, flushFc_none hfc]
  simp only [hsr, sendSmdR]
  rw [← noSmdR, ho]

theorem readyHeads_single {f : TxFrm} (hd : f.dropping = false) : readyHeads [] [f] = if ready f then [f] else [] := by
  simp only [readyHeads, hd, isHead_first, Bool.not_false, Bool.true_and]

theorem commitNext_empty {p : Nat} {s : State} (lane i : Nat) (hq : txQueue s p = []) :
    commitNext p lane i (fun _ => true) s = s := by
  rw [commitNext, hq]
  rfl

theorem commitNext_paused {p : Nat} {f : TxFrm} {s : State} (lane i : Nat) (hq : txQueue s p = [f]) (hd : f.dropping = false)
    (hp : pausedFrm s p f = true) : commitNext p lane i (fun _ => true) s = s := by
  rw [commitNext, hq, readyHeads_single hd]
  cases ready f
  · rfl
  · simp only [if_true, List.find?, hp, Bool.not_true, Bool.and_false]

theorem commitNext_ready {p : Nat} {f : TxFrm} {s : State} (lane i : Nat) (hq : txQueue s p = [f]) (hd : f.dropping = false)
    (hr : ready f = true) (hp : pausedFrm s p f = false) :
    commitNext p lane i (fun _ => true) s = commitFrame p lane i f s := by
  rw [commitNext, hq, readyHeads_single hd, hr]
  simp only [if_true, List.find?, hp, Bool.not_false, Bool.and_true]

/-- The record of a frame committed with MACsec and data tag off. -/
def plainCommit (s : State) (p lane i : Nat) (f : TxFrm) : Committed :=
  { frm := f, line := framed f, whole := f.eof, sec := none, secy := false, shift := 0, base := 0, frags := 0, gone := 0
    ts := stampOf (departure s p lane i), unlocked := unlockedAt s (serving s (p / 8))
    preemptable := preemptActive s p && !isExpress f, smd := tabGet (fun _ => 0) s.tx.smdS p }

/-- Frame `c` is on the line of port `p`. -/
def putFlight (p : Nat) (c : Committed) (s : State) : State :=
  { s with tx := { s.tx with
    flight := tabPut s.tx.flight p c
    smdS := if c.preemptable then tabSet (fun _ => 0) s.tx.smdS p ((c.smd + 1) % 4) else s.tx.smdS } }

theorem putFlight_frame (p : Nat) (c : Committed) (s : State) : putFlight p c (setTxQueue p [] s)
    = { s with tx := (putFlight p c (setTxQueue p [] s)).tx } := rfl

theorem removeFrm_single (f : TxFrm) : removeFrm f [f] = [] := by simp [removeFrm]

theorem commitFrame_plain {p lane i : Nat} {f : TxFrm} {s : State} (hq : txQueue s p = [f]) (hsrc : f.src = .switch)
    (hptp : f.ptpAction = 0) (hsec : bit (secCfg s p) 16 = false) (htag : getB s (adr pgClass (0x800 + 4 * p)) 5 = false) :
    commitFrame p lane i f s = openGap p (putFlight p (plainCommit s p lane i f) (setTxQueue p [] s)) := by
  have htag' : dataTag (setTxQueue p [] s) p (framed f) = (framed f, false, 0) := by
    rw [dataTag, if_pos (show getB (setTxQueue p [] s) _ 5 = false from htag)]
  have hsec' : txSecDecide (setTxQueue p [] s) p f.sc (framed f).length = .plain := by
    rw [txSecDecide]
    simp only [show secCfg (setTxQueue p [] s) p = secCfg s p from rfl, hsec, true_or, if_true]
  have hown : isOwn f.src = false := by rw [hsrc]; rfl
  have hsc : secCfg (setTxQueue p [] s) p = secCfg s p := rfl
  rw [commitFrame]
  simp only [hq, removeFrm_single, hown, Bool.false_eq_true, if_false, htag', hsec', ptpStage, hptp, if_true, hsc, hsec]
  rfl

theorem openGap_frame (p : Nat) (s : State) :
    openGap p s = { s with tx := { s.tx with gaps := (openGap p s).tx.gaps }, out := (openGap p s).out } := by
  rw [openGap]
  split
  · rfl
  · split <;> rfl

theorem openGap_tx_out (p : Nat) (s : State) : openGap p s = { s with tx := (openGap p s).tx, out := (openGap p s).out } := by
  rw [openGap]
  split
  · rfl
  · split <;> rfl

theorem openGap_out_none {p : Nat} {s : State} (h : tabFind s.tx.gaps p = none) : (openGap p s).out = s.out := by
  rw [openGap]
  simp only [h]

theorem openGap_out_some {p : Nat} {s : State} {g : Gap} (h : tabFind s.tx.gaps p = some g)
    (hl : lineOctets s p (s.tim.powered - g.ended) < ipgOf s p + 4) :
    (openGap p s).out = s.out ++ [.gap p (gapFrom (startStep s p) (ipgOf s p) g.pos g.deficit).1] := by
  rw [openGap]
  simp only [h, if_neg (Nat.not_le.mpr hl)]
  rfl

/-- Gap, start positions and octets of a port's line follow from the registers. -/
theorem lineReads_congr {s t : State} (p : Nat) (h : ∀ a, getReg t a = getReg s a) :
    ipgOf t p = ipgOf s p ∧ startStep t p = startStep s p ∧ ∀ n, lineOctets t p n = lineOctets s p n := by
  have hs : portShape t p = portShape s p := by
    have hl : liveShape t (p / 8) (p % 8) = liveShape s (p / 8) (p % 8) := liveShape_congr (h _)
    rw [portShape, hl, portShape]
  have hc : txCfg t p = txCfg s p := h _
  exact ⟨by rw [ipgOf, hc, ipgOf], by rw [startStep, hs, startStep], fun n => by rw [lineOctets, hs, lineOctets]⟩

theorem countWaits_none {p : Nat} {f : TxFrm} {s : State} (h : pausedFrm s p f = false) : countWaits p [f] s = ([f], s) := by
  simp only [countWaits, h, Bool.and_false, Bool.false_eq_true, if_false]

theorem countWaits_counted {p : Nat} {f : TxFrm} {s : State} (hw : f.waited = false) (hd : f.dropping = false)
    (h : pausedFrm s p f = true) : countWaits p [f] s = ([{ f with waited := true }], addLive (txCnt p 0xBC) 1 s) := by
  simp only [countWaits, h, hw, hd, Bool.not_false, Bool.and_self, if_true]

/-- A port that sends, with a free line and nothing owed before frames, tries to commit. -/
theorem exec_txFrameCommit {s u : State} {p : PortNo} {inStream : Nat} {lane : Fin 8} (laid left : Nat) (hm : txMode s = true)
    (hu : setTxQueue p (countWaits p (txQueue (sweep p s) p) (sweep p s)).1 (countWaits p (txQueue (sweep p s) p) (sweep p s)).2 = u)
    (hst : portStop u p = none) (hfl : tabFind u.tx.flight p = none) (hfc : tabGet (fun _ => 0) u.tx.fcPend p = 0)
    (hsr : tabGet (fun _ => 0) u.tx.smdR p = 0) (ho : tabFind u.tx.open_ p = none) :
    exec (.txFrameCommit p ⟨inStream, lane⟩ laid left) s
      = .next (handHosts (commitNext p (startLane u p lane) inStream (fun _ => true) (noSmdR p u))) := by
  show execTxFrameCommit p ⟨inStream, lane⟩ laid left s = _
  simp only [execTxFrameCommit, hm, Bool.true_eq_false, if_false]
  rw [hu]
  simp only [hst, Option.isSome_none, Bool.false_eq_true, if_false, hfl, lineFree_idle _ _ hfc hsr ho]

section
variable {s : State} {p : PortNo} {f : TxFrm} {inStream : Nat} {lane : Fin 8} (laid left : Nat) (hi : s.dma.txq = [])
  (hm : txMode s = true) (hq : txQueue s p = [f]) (hsrc : f.src = .switch) (hd : f.dropping = false)
  (hfl : tabFind s.tx.flight p = none) (ho : tabFind s.tx.open_ p = none) (hfc : tabGet (fun _ => 0) s.tx.fcPend p = 0)
  (hsr : tabGet (fun _ => 0) s.tx.smdR p = 0)
include hi hm hq hsrc hd hfl ho hfc hsr

theorem frameCommit_committed (hdis : discardOf s p f = none) (hst : portStop s p = none) (hp : pausedFrm s p f = false)
    (hr : ready f = true) (hptp : f.ptpAction = 0) (hsec : bit (secCfg s p) 16 = false)
    (htag : getB s (adr pgClass (0x800 + 4 * p)) 5 = false) :
    ∃ t c, exec (.txFrameCommit p ⟨inStream, lane⟩ laid left) s = .next t ∧ tabFind t.tx.flight p = some c ∧ c.frm = f
      ∧ c.line = framed f ∧ c.whole = f.eof ∧ c.sec = none ∧ c.ts = stampOf (departure s p (startLane s p lane) inStream)
      ∧ c.unlocked = unlockedAt s (serving s (p / 8)) ∧ c.base = 0 ∧ c.frags = 0 ∧ c.gone = 0 ∧ txQueue t p = []
      ∧ (∀ q, q ≠ p.val → txQueue t q = txQueue s q ∧ tabFind t.tx.flight q = tabFind s.tx.flight q)
      ∧ (tabFind s.tx.gaps p = none → t.out = s.out)
      ∧ (∀ g, tabFind s.tx.gaps p = some g → lineOctets s p (s.tim.powered - g.ended) < ipgOf s p + 4 →
        t.out = s.out ++ [.gap p (gapFrom (startStep s p) (ipgOf s p) g.pos g.deficit).1])
      ∧ t.tx.used = s.tx.used ∧ t = { s with tx := t.tx, out := t.out } := by
  obtain ⟨u, hu⟩ : ∃ u, u = noSmdR p (setTxQueue p [f] (setTxQueue p [f] s)) := ⟨_, rfl⟩
  have hq1 : txQueue (setTxQueue p [f] s) p = [f] := (txQueue_setTxQueue _ _ _ _).trans (if_pos rfl)
  have hqu : ∀ q, txQueue u q = txQueue s q := by
    intro q
    have h1 : txQueue u q = if q = p then [f] else txQueue (setTxQueue p [f] s) q := by
      rw [hu]; exact txQueue_setTxQueue p q [f] _
    rw [h1, txQueue_setTxQueue]
    by_cases e : q = p
    · rw [if_pos e, e, hq]
    · rw [if_neg e, if_neg e]
  have hfr : u = { s with tx := { s.tx with queues := u.tx.queues, smdR := u.tx.smdR } } := by rw [hu]; rfl
  have hexec := exec_txFrameCommit (s := s) (u := setTxQueue p [f] (setTxQueue p [f] s)) (inStream := inStream) (lane := lane)
    laid left hm (by rw [sweep_kept hq hd hdis, hq1, countWaits_none (show pausedFrm (setTxQueue p [f] s) p f = false from hp)])
    hst hfl hfc hsr ho
  have hlane : startLane (setTxQueue p [f] (setTxQueue p [f] s)) p lane = startLane s p lane := rfl
  rw [← hu, hlane, commitNext_ready _ _ ((hqu p).trans hq) hd hr (by rw [hu]; exact hp),
    commitFrame_plain ((hqu p).trans hq) hsrc hptp (by rw [hu]; exact hsec) (by rw [hu]; exact htag)] at hexec
  have hc : plainCommit u p (startLane s p lane) inStream f = plainCommit s p (startLane s p lane) inStream f := by
    rw [hu]; rfl
  rw [hc] at hexec
  have hcf : (plainCommit s p (startLane s p lane) inStream f).frm = f ∧
      (plainCommit s p (startLane s p lane) inStream f).ts = stampOf (departure s p (startLane s p lane) inStream) := ⟨rfl, rfl⟩
  obtain ⟨v, hv⟩ : ∃ v, v = putFlight p (plainCommit s p (startLane s p lane) inStream f) (setTxQueue p [] u) := ⟨_, rfl⟩
  rw [← hv] at hexec
  have hog := openGap_frame p v
  have hn := @openGap_out_none p v
  have hs := @openGap_out_some p v
  have hvf : v.tx.flight = tabPut s.tx.flight p (plainCommit s p (startLane s p lane) inStream f) := by
    rw [hv, hu]; rfl
  have hvq : ∀ q, txQueue v q = if q = p then [] else txQueue s q := fun q => by
    rw [← hqu q, hv]; exact txQueue_setTxQueue p q [] u
  have hvs : v = { s with tx := v.tx } := by
    have hus : u = { s with tx := u.tx } := hfr.trans (congrArg (fun x : Tx => { s with tx := x }) (congrArg (·.tx) hfr).symm)
    have huv : v = { u with tx := v.tx } := by rw [hv]; exact putFlight_frame p _ u
    exact huv.trans (congrArg (fun y : State => { y with tx := v.tx }) hus)
  have hvg : v.tx.gaps = s.tx.gaps := by rw [hv, hu]; rfl
  have hvu : v.tx.used = s.tx.used := by rw [hv, hu]; rfl
  have htx : (openGap p v).tx = { v.tx with gaps := (openGap p v).tx.gaps } := congrArg (fun x => x.tx) hog
  have hfl' : (openGap p v).tx.flight = v.tx.flight := congrArg (fun x => x.flight) htx
  have hqs' : (openGap p v).tx.queues = v.tx.queues := congrArg (fun x => x.queues) htx
  have hus' : (openGap p v).tx.used = v.tx.used := congrArg (fun x => x.used) htx
  have hall : openGap p v = { s with tx := (openGap p v).tx, out := (openGap p v).out } :=
    (openGap_tx_out p v).trans (congrArg (fun y : State => { y with tx := (openGap p v).tx, out := (openGap p v).out }) hvs)
  have hdma : (openGap p v).dma.txq = [] := (congrArg (fun x => x.dma.txq) hall).trans hi
  rw [handHosts_none hdma] at hexec
  have hout : v.out = s.out := congrArg (fun x => x.out) hvs
  refine ⟨openGap p v, plainCommit s p (startLane s p lane) inStream f, hexec, ?_, rfl, rfl, rfl, rfl, hcf.2, rfl, rfl, rfl, rfl,
    ?_, fun q hne => ⟨?_, ?_⟩, fun hg => ?_, fun g hg hl => ?_, hus'.trans hvu, hall⟩
  · rw [hfl', hvf, tabFind_put_same]
  · rw [txQueue_of_queues hqs', hvq, if_pos rfl]
  · rw [txQueue_of_queues hqs', hvq, if_neg hne]
  · rw [hfl', hvf, tabFind_put_other _ _ hne]
  · rw [hn (by rw [hvg]; exact hg), hout]
  · have hwin : v.win = s.win := congrArg (fun x => x.win) hvs
    have htim : v.tim = s.tim := congrArg (fun x => x.tim) hvs
    have hreg : ∀ a, getReg v a = getReg s a := fun a => by rw [getReg, hwin, getReg]
    obtain ⟨h1, h2, h3⟩ := lineReads_congr p hreg
    rw [hs (by rw [hvg]; exact hg) (by rw [h3, htim, h1]; exact hl), hout, h1, h2]

omit hsrc in
theorem frameCommit_waits (hdis : discardOf s p f = none) (hst : portStop s p = none) (hp : pausedFrm s p f = true)
    (hw : f.waited = false) :
    ∃ t, exec (.txFrameCommit p ⟨inStream, lane⟩ laid left) s = .next t ∧ txQueue t p = [{ f with waited := true }]
      ∧ tabFind t.tx.flight p = none
      ∧ getLive t (txCnt p 0xBC) = satAdd (liveMax (txCnt p 0xBC)) (getLive s (txCnt p 0xBC)) 1
      ∧ (∀ b, getReg t b = getReg s b) ∧ t = { s with tx := t.tx, win := t.win } := by
  have hq1 : txQueue (setTxQueue p [f] s) p = [f] := (txQueue_setTxQueue _ _ _ _).trans (if_pos rfl)
  obtain ⟨u, hu⟩ : ∃ u, u = setTxQueue p [{ f with waited := true }] (addLive (txCnt p 0xBC) 1 (setTxQueue p [f] s)) := ⟨_, rfl⟩
  have hqu : txQueue u p = [{ f with waited := true }] := by
    rw [hu]; exact (txQueue_setTxQueue _ _ _ _).trans (if_pos rfl)
  have hexec := exec_txFrameCommit (s := s) (u := u) (inStream := inStream) (lane := lane) laid left hm
    (by rw [sweep_kept hq hd hdis, hq1, countWaits_counted hw hd (show pausedFrm (setTxQueue p [f] s) p f = true from hp), hu])
    (by rw [hu]; exact hst) (by rw [hu]; exact hfl) (by rw [hu]; exact hfc) (by rw [hu]; exact hsr) (by rw [hu]; exact ho)
  have hpu : pausedFrm (noSmdR p u) p { f with waited := true } = true := by rw [hu]; exact hp
  have hqn : txQueue (noSmdR p u) p = [{ f with waited := true }] := hqu
  rw [commitNext_paused _ _ hqn hd hpu, handHosts_none (by rw [hu]; exact hi)] at hexec
  refine ⟨noSmdR p u, hexec, hqu, by rw [hu]; exact hfl, ?_, fun b => by rw [hu]; rfl, by rw [hu]; rfl⟩
  have hl : getLive (noSmdR p u) (txCnt p 0xBC) = getLive (addLive (txCnt p 0xBC) 1 (setTxQueue p [f] s)) (txCnt p 0xBC) := by
    rw [hu]; rfl
  rw [hl, getLive_addLive, if_pos rfl]
  rfl

theorem frameCommit_discarded {cnt reason : Nat} (hdis : discardOf s p f = some (cnt, reason)) (heof : f.eof = true) :
    ∃ t, exec (.txFrameCommit p ⟨inStream, lane⟩ laid left) s = .next t ∧ txQueue t p = [] ∧ tabFind t.tx.flight p = none
      ∧ getLive t (txCnt p cnt) = satAdd (liveMax (txCnt p cnt)) (getLive s (txCnt p cnt)) 1
      ∧ txUsed t (p / 8) = txUsed s (p / 8) - f.cells ∧ (0 < f.cells → Emit.credit (p / 8) f.cells ∈ t.out)
      ∧ t.rest = State.rest { s with tx := t.tx, win := t.win } := by
  have hsw := sweep_discarded hq hd hsrc heof hdis
  obtain ⟨hqs, hus, hcr, hcnt, htx, hrest⟩ := frameGone_of_sweep p cnt f.cells s
  rw [← hsw] at hqs hus hcr hcnt htx hrest
  have hdma : (sweep p s).dma.txq = [] := by rw [rest_dma hrest]; exact hi
  have hexec : ∃ r, exec (.txFrameCommit p ⟨inStream, lane⟩ laid left) s
      = .next { setTxQueue p [] (sweep p s) with tx := { (setTxQueue p [] (sweep p s)).tx with smdR := r } } := by
    have hqz : txQueue (setTxQueue p [] (sweep p s)) p = [] := (txQueue_setTxQueue _ _ _ _).trans (if_pos rfl)
    have hq0 : txQueue (sweep p s) p = [] := (hqs p).trans (if_pos rfl)
    have hxf : (sweep p s).tx.flight = s.tx.flight := congrArg (fun x => x.flight) htx
    have hxo : (sweep p s).tx.open_ = s.tx.open_ := congrArg (fun x => x.open_) htx
    have hxc : (sweep p s).tx.fcPend = s.tx.fcPend := congrArg (fun x => x.fcPend) htx
    have hxr : (sweep p s).tx.smdR = s.tx.smdR := congrArg (fun x => x.smdR) htx
    obtain ⟨u, hu⟩ : ∃ u, u = setTxQueue p [] (sweep p s) := ⟨_, rfl⟩
    have hudma : u.dma.txq = [] := by rw [hu]; exact hdma
    have hw : setTxQueue p (countWaits p (txQueue (sweep p s) p) (sweep p s)).1
        (countWaits p (txQueue (sweep p s) p) (sweep p s)).2 = u := by rw [hq0, hu]; rfl
    rw [← hu] at hqz ⊢
    cases hst : portStop u p with
    | some k =>
      refine ⟨u.tx.smdR, ?_⟩
      show execTxFrameCommit p ⟨inStream, lane⟩ laid left s = _
      simp only [execTxFrameCommit, hm, Bool.true_eq_false, if_false]
      rw [hw]
      simp only [hst, Option.isSome_some, if_true, handHosts_none hudma]
    | none =>
      refine ⟨tabErase u.tx.smdR p, ?_⟩
      rw [exec_txFrameCommit (u := u) laid left hm hw hst (by rw [hu]; exact (congrArg (tabFind · ↑p) hxf).trans hfl)
        (by rw [hu]; exact (congrArg (tabGet (fun _ => 0) · ↑p) hxc).trans hfc)
        (by rw [hu]; exact (congrArg (tabGet (fun _ => 0) · ↑p) hxr).trans hsr)
        (by rw [hu]; exact (congrArg (tabFind · ↑p) hxo).trans ho),
        commitNext_empty _ _ (show txQueue (noSmdR p u) p = [] from hqz),
        handHosts_none (s := noSmdR p u) hudma]
      rfl
  obtain ⟨r, hexec⟩ := hexec
  generalize sweep p s = v at hqs hus hcr hcnt htx hrest hexec
  refine ⟨_, hexec, (txQueue_setTxQueue p p [] v).trans (if_pos rfl), ?_, hcnt, (hus _).trans (if_pos rfl), hcr, ?_⟩
  · have : v.tx.flight = s.tx.flight := congrArg (fun x => x.flight) htx
    exact (congrArg (tabFind · ↑p) this).trans hfl
  · exact congrArg (fun y : State => { y with tx := { (setTxQueue p [] v).tx with smdR := r }, win := { v.win with regs := [] } })
      hrest

end

end Sys2Proof.Machine
end

section
namespace Sys2Proof.Machine

/-! ### TX_FRAME_END -/

theorem txCnt_inj {p a b : Nat} (h : a ≠ b) : txCnt p a ≠ txCnt p b := by simp only [txCnt, statA, adr]; omega

/-- What the line does with a frame that is over: gaps, counters, LOUPE and what is sent can differ, and nothing else. -/
structure lineKeeps (s t : State) : Prop where
  tx : t.tx = { s.tx with gaps := t.tx.gaps }
  out : outGrows s t
  rest : t.rest = State.rest { s with tx := t.tx, win := t.win, loupe := t.loupe }

theorem lineKeeps_trans {s t u : State} (h : lineKeeps s t) (k : lineKeeps t u) : lineKeeps s u where
  tx := by rw [k.tx, h.tx]
  out := outGrows_trans h.out k.out
  rest := k.rest.trans (congrArg (fun y : State => { y with tx := u.tx, win := { u.win with regs := [] }, loupe := u.loupe }) h.rest)

theorem lineKeeps_of_rest {s t : State} (h : t.rest = s.rest) (ho : outGrows s t) : lineKeeps s t where
  tx := by rw [rest_tx h]
  out := ho
  rest := h.trans (congrArg (fun y : State => { s.rest with tx := y.tx, win := y.win, loupe := y.loupe }) h).symm

theorem lineKeeps_refl (s : State) : lineKeeps s s := lineKeeps_of_rest rfl (outGrows_refl s)

theorem lineKeeps_addLive (a n : Nat) (s : State) : lineKeeps s (addLive a n s) := ⟨rfl, outGrows_refl s, rfl⟩
theorem lineKeeps_emit (e : Emit) (s : State) : lineKeeps s (emit e s) := ⟨rfl, outGrows_emit e s, rfl⟩
theorem lineKeeps_closeGap (p n : Nat) (s : State) : lineKeeps s (closeGap p n s) := ⟨rfl, outGrows_refl s, rfl⟩
theorem lineKeeps_loupeState (x : Loupe) (s : State) : lineKeeps s { s with loupe := x } := ⟨rfl, outGrows_refl s, rfl⟩
theorem lineKeeps_loupe (u i g n : Nat) (s : State) : lineKeeps s (loupe u i g n s) :=
  lineKeeps_of_rest (loupe_rest u i g n s) (outGrows_loupe u i g n s)
theorem lineKeeps_hwEvent (page n : Nat) (s : State) : lineKeeps s (hwEvent page n s) :=
  lineKeeps_of_rest (hwEvent_rest page n s) (outGrows_hwEvent page n s)

theorem lineKeeps_ite {c : Prop} [Decidable c] {s t u : State} (ht : lineKeeps s t) (hu : lineKeeps s u) :
    lineKeeps s (if c then t else u) := by
  split
  · exact ht
  · exact hu

theorem lineKeeps_countTxOctets (p n : Nat) (s : State) : lineKeeps s (countTxOctets p n s) := by
  refine lineKeeps_trans ?_ (lineKeeps_loupe _ _ _ _ _)
  refine lineKeeps_trans ?_ (lineKeeps_addLive _ _ _)
  exact lineKeeps_loupeState _ s

theorem lineKeeps_countSent (p n : Nat) (da : List Byte) (padded : Bool) (s : State) : lineKeeps s (countSent p n da padded s) := by
  have h1 : lineKeeps s (addLive (txCnt p (if isBcast da then 0x20 else if isGroup da then 0x18 else 0x10)) 1
      (addLive (txCnt p 0x08) 1 (addLive (txCnt p (0x28 + 8 * sizeBin n)) 1 s))) := by
    refine lineKeeps_trans ?_ (lineKeeps_addLive _ _ _)
    refine lineKeeps_trans ?_ (lineKeeps_addLive _ _ _)
    exact lineKeeps_addLive _ _ s
  refine lineKeeps_trans ?_ (lineKeeps_loupe _ _ _ _ _)
  exact lineKeeps_ite (lineKeeps_trans h1 (lineKeeps_addLive _ _ _)) h1

theorem getLive_addLive_other {a b : Nat} (n : Nat) (s : State) (h : b ≠ a) : getLive (addLive a n s) b = getLive s b := by
  rw [getLive_addLive, if_neg h]

theorem getLive_countTxOctets (p n a : Nat) (s : State) :
    getLive (countTxOctets p n s) a = if a = txCnt p 0 then satAdd (liveMax (txCnt p 0)) (getLive s (txCnt p 0)) n else getLive s a := by
  rw [countTxOctets, getLive_of_rest (loupe_rest _ _ _ _ _), getLive_addLive]
  rfl

/-- A frame sent counts once in TX_FRAMES and not in TX_OCTETS. -/
theorem getLive_countSent (p n : Nat) (da : List Byte) (padded : Bool) (s : State) :
    getLive (countSent p n da padded s) (txCnt p 0x08) = satAdd (liveMax (txCnt p 0x08)) (getLive s (txCnt p 0x08)) 1
      ∧ getLive (countSent p n da padded s) (txCnt p 0) = getLive s (txCnt p 0) := by
  have hk : (if isBcast da then 0x20 else if isGroup da then 0x18 else 0x10) ≠ 0x08
      ∧ (if isBcast da then 0x20 else if isGroup da then 0x18 else 0x10) ≠ 0 := by split <;> [skip; split] <;> decide
  have hpad : ∀ (u : State) (b : Nat), b ≠ 0xA4 →
      getLive (if padded then addLive (txCnt p 0xA4) 1 u else u) (txCnt p b) = getLive u (txCnt p b) := fun u b hb => by
    split
    · exact getLive_addLive_other _ _ (txCnt_inj hb)
    · rfl
  rw [countSent, getLive_of_rest (loupe_rest _ _ _ _ _), getLive_of_rest (loupe_rest _ _ _ _ _)]
  refine ⟨?_, ?_⟩
  · rw [hpad _ _ (by decide), getLive_addLive_other _ _ (txCnt_inj hk.1.symm), getLive_addLive, if_pos rfl,
      getLive_addLive_other _ _ (txCnt_inj (by omega))]
  · rw [hpad _ _ (by decide), getLive_addLive_other _ _ (txCnt_inj hk.2.symm), getLive_addLive_other _ _ (txCnt_inj (by decide)),
      getLive_addLive_other _ _ (txCnt_inj (by omega))]

/-! #### The frame leaves the transmit buffer -/

/-- The frame in flight of port `p` has left the buffer, `n` cells freed. -/
def flightOver (p n : Nat) (s : State) : State := freeCells (p / 8) n { s with tx := { s.tx with flight := tabErase s.tx.flight p } }

theorem releaseFlight_whole {p : Nat} {c : Committed} {s : State} (h : c.frm.eof = true) :
    releaseFlight p c s = flightOver p (c.frm.cells - c.gone) s := by
  rw [releaseFlight]
  simp only [h, if_true, flightOver]

/-- What is left when the frame in flight has left the buffer. -/
structure flightGone (p n : Nat) (s t : State) : Prop where
  flight : t.tx.flight = tabErase s.tx.flight p
  queues : ∀ q, txQueue t q = txQueue s q
  used : txUsed t (p / 8) = txUsed s (p / 8) - n
  fcPend : t.tx.fcPend = s.tx.fcPend
  smdR : t.tx.smdR = s.tx.smdR
  txq : t.dma.txq = s.dma.txq
  live : ∀ a, getLive t a = getLive s a
  rest : t.rest = State.rest { s with tx := t.tx, win := t.win }

theorem flightOver_gone (p n : Nat) (s : State) : flightGone p n s (flightOver p n s) := by
  have hu := txUsed_freeCells (p / 8) n (p / 8) { s with tx := { s.tx with flight := tabErase s.tx.flight p } }
  rw [if_pos rfl] at hu
  refine ⟨freeCells_flight _ _ _, txQueue_of_queues (freeCells_queues _ _ _), hu, ?_, ?_, ?_, fun a => ?_, ?_⟩
  all_goals rw [flightOver, freeCells]; split <;> rfl

/-- A frame without a SecTAG that is sent. -/
theorem endFlight_sent {p : Nat} {c : Committed} {s : State} (he : txEndOf s p c.frm = .sent) (hsec : c.sec = none)
    (hsy : c.secy = false) (hsrc : c.frm.src = .switch) (heof : c.frm.eof = true) (hfcs : c.frm.fcsSupplied = false) :
    endFlight p c s = countSent p (c.line.length + 4) (slice c.line 0 6) (decide (c.frm.data.length < 60))
      (closeGap p (c.line.length + 4 - c.base) (countTxOctets p (c.line.length + 4)
        (emit (fragmentOut p c (c.line ++ fcsOf c.line) false) (flightOver p (c.frm.cells - c.gone) s)))) := by
  have hheld : heldOctets c = c.line := by simp only [heldOctets, hfcs, Bool.false_and, Bool.false_eq_true, if_false]
  rw [endFlight]
  simp only [he, reduceCtorEq, if_false, hsec, hheld, releaseFlight_whole heof, countSec, hsy, Bool.false_eq_true, hostSent, hsrc,
    hfcs, Bool.not_false, Bool.true_and]

theorem endFlight_error {p cnt : Nat} {c : Committed} {s : State} (he : txEndOf s p c.frm = .error cnt) (hsec : c.sec = none)
    (hsrc : c.frm.src = .switch) (heof : c.frm.eof = true) (hfcs : c.frm.fcsSupplied = false) :
    endFlight p c s =
      (let u := loupe 2 p 2 1 (addLive (txCnt p cnt) 1 (closeGap p ((c.line.take 16383).length - c.base)
        (countTxOctets p (c.line.take 16383).length (emit (fragmentOut p c (c.line.take 16383) true)
          (if c.secy then addLive (secCnt p 0x58) 1 (flightOver p (c.frm.cells - c.gone) s)
            else flightOver p (c.frm.cells - c.gone) s)))))
      if cnt = 0x9C then hwEvent (pgCl (p / 8) 0) 6 u else u) := by
  have hheld : heldOctets c = c.line := by simp only [heldOctets, hfcs, Bool.false_and, Bool.false_eq_true, if_false]
  rw [endFlight]
  simp only [he, hsec, hheld, releaseFlight_whole heof, countSec, openSealed, hostSent, hsrc]

/-- With nothing owed behind the frame, the line is free when it has ended. -/
theorem exec_txFrameEnd {s : State} {p : PortNo} {c : Committed} (h : tabFind s.tx.flight p = some c)
    (hfc : tabGet (fun _ => 0) (endFlight p c s).tx.fcPend p = 0) (hsr : tabGet (fun _ => 0) (endFlight p c s).tx.smdR p = 0)
    (hd : (endFlight p c s).dma.txq = []) : exec (.txFrameEnd p) s = .next (noSmdR p (endFlight p c s)) := by
  show execTxFrameEnd p s = _
  simp only [execTxFrameEnd, h, flushFc_none hfc, hsr, sendSmdR, ← noSmdR.eq_1]
  rw [handHosts_none (s := noSmdR p (endFlight p c s)) hd]

section
variable {s : State} {p : PortNo} {c : Committed} (hi : s.dma.txq = []) (h : tabFind s.tx.flight p = some c)
  (hsrc : c.frm.src = .switch) (heof : c.frm.eof = true) (hfcs : c.frm.fcsSupplied = false)
  (hfc : tabGet (fun _ => 0) s.tx.fcPend p = 0) (hsr : tabGet (fun _ => 0) s.tx.smdR p = 0)
include hi h hfc hsr

/-- A frame that ends by what the line does behind its leaving the buffer. -/
theorem frameEnd_over {g : State} (hg : flightGone p (c.frm.cells - c.gone) s g) (hk : lineKeeps g (endFlight p c s)) :
    ∃ t, exec (.txFrameEnd p) s = .next t ∧ tabFind t.tx.flight p = none ∧ t.out = (endFlight p c s).out
      ∧ (∀ a, getLive t a = getLive (endFlight p c s) a)
      ∧ txUsed t (p / 8) = txUsed s (p / 8) - (c.frm.cells - c.gone) ∧ (∀ q, txQueue t q = txQueue s q)
      ∧ t.rest = State.rest { s with tx := t.tx, win := t.win, loupe := t.loupe } := by
  obtain ⟨htx, _, hrest⟩ := hk
  obtain ⟨hgf, hgq, hgu, hgc, hgr, hgd, _, hgrest⟩ := hg
  have hexec := exec_txFrameEnd h (by rw [htx]; exact (congrArg (tabGet (fun _ => 0) · ↑p) hgc).trans hfc)
    (by rw [htx]; exact (congrArg (tabGet (fun _ => 0) · ↑p) hgr).trans hsr)
    (by rw [rest_dma hrest]; exact hgd.trans hi)
  generalize endFlight p c s = e at htx hrest hexec
  refine ⟨noSmdR p e, hexec, ?_, rfl, fun a => rfl, ?_, fun q => ?_, ?_⟩
  · have : (noSmdR p e).tx.flight = tabErase s.tx.flight p := (congrArg (fun x => x.flight) htx).trans hgf
    rw [this, tabFind_erase_same]
  · have : (noSmdR p e).tx.used = g.tx.used := congrArg (fun x => x.used) htx
    rw [txUsed, this]
    exact hgu
  · have : (noSmdR p e).tx.queues = g.tx.queues := congrArg (fun x => x.queues) htx
    exact (txQueue_of_queues this q).trans (hgq q)
  · exact congrArg (fun y : State => { y with tx := (noSmdR p e).tx, win := { e.win with regs := [] }, loupe := e.loupe })
      (hrest.trans (congrArg (fun y : State => { y with tx := e.tx, win := { e.win with regs := [] }, loupe := e.loupe }) hgrest))

include hsrc heof hfcs

theorem frameEnd_sent (he : txEndOf s p c.frm = .sent) (hsec : c.sec = none) (hsy : c.secy = false) :
    ∃ t, exec (.txFrameEnd p) s = .next t ∧ tabFind t.tx.flight p = none
      ∧ (c.preemptable = false → Emit.lineFrame p (c.line ++ fcsOf c.line) false ∈ t.out)
      ∧ (c.preemptable = true → c.frags = 0 → Emit.fragment p (smdOctet c.smd) none (c.line ++ fcsOf c.line) false ∈ t.out)
      ∧ (c.preemptable = true → 0 < c.frags →
        Emit.fragment p (contOctet c.smd) (some (smdOctet (c.frags - 1))) ((c.line ++ fcsOf c.line).drop c.base) false ∈ t.out)
      ∧ getLive t (txCnt p 0x08) = satAdd (liveMax (txCnt p 0x08)) (getLive s (txCnt p 0x08)) 1
      ∧ getLive t (txCnt p 0) = satAdd (liveMax (txCnt p 0)) (getLive s (txCnt p 0)) (c.line.length + 4)
      ∧ txUsed t (p / 8) = txUsed s (p / 8) - (c.frm.cells - c.gone) ∧ (∀ q, txQueue t q = txQueue s q)
      ∧ t.rest = State.rest { s with tx := t.tx, win := t.win, loupe := t.loupe } := by
  have hend := endFlight_sent he hsec hsy hsrc heof hfcs
  have hg := flightOver_gone p (c.frm.cells - c.gone) s
  generalize flightOver p (c.frm.cells - c.gone) s = g at hend hg
  have hk1 : lineKeeps (emit (fragmentOut p c (c.line ++ fcsOf c.line) false) g) (endFlight p c s) := by
    rw [hend]
    refine lineKeeps_trans ?_ (lineKeeps_countSent _ _ _ _ _)
    refine lineKeeps_trans ?_ (lineKeeps_closeGap _ _ _)
    exact lineKeeps_countTxOctets _ _ _
  have hmem : fragmentOut p c (c.line ++ fcsOf c.line) false ∈ (endFlight p c s).out :=
    mem_out_of_grows hk1.out (by simp [emit])
  obtain ⟨t, hexec, hfl, hout, hlive, hused, hqs, hrest⟩ := frameEnd_over hi h hfc hsr hg (lineKeeps_trans (lineKeeps_emit _ g) hk1)
  have hcs := getLive_countSent p (c.line.length + 4) (slice c.line 0 6) (decide (c.frm.data.length < 60))
    (closeGap p (c.line.length + 4 - c.base) (countTxOctets p (c.line.length + 4)
      (emit (fragmentOut p c (c.line ++ fcsOf c.line) false) g)))
  rw [← hend] at hcs
  have hcg : ∀ n u a, getLive (closeGap p n u) a = getLive u a := fun _ _ _ => rfl
  refine ⟨t, hexec, hfl, fun hp => ?_, fun hp hf => ?_, fun hp hf => ?_, ?_, ?_, hused, hqs, hrest⟩
  · rw [hout]; simpa only [fragmentOut, hp, if_true] using hmem
  · rw [hout]; simpa only [fragmentOut, hp, hf, Bool.true_eq_false, if_false, if_true] using hmem
  · rw [hout]
    simpa only [fragmentOut, hp, Bool.true_eq_false, if_false, if_neg (Nat.pos_iff_ne_zero.mp hf)] using hmem
  · rw [hlive, hcs.1, hcg, getLive_countTxOctets, if_neg (txCnt_inj (by decide)), ← hg.live]
    rfl
  · rw [hlive, hcs.2, hcg, getLive_countTxOctets, if_pos rfl, ← hg.live]
    rfl

theorem frameEnd_error {cnt : Nat} (he : txEndOf s p c.frm = .error cnt) (hsec : c.sec = none) :
    ∃ t, exec (.txFrameEnd p) s = .next t ∧ tabFind t.tx.flight p = none
      ∧ (c.preemptable = false → Emit.lineFrame p (c.line.take 16383) true ∈ t.out)
      ∧ getLive t (txCnt p cnt) = satAdd (liveMax (txCnt p cnt)) (getLive s (txCnt p cnt)) 1
      ∧ txUsed t (p / 8) = txUsed s (p / 8) - (c.frm.cells - c.gone) ∧ (∀ q, txQueue t q = txQueue s q)
      ∧ t.rest = State.rest { s with tx := t.tx, win := t.win, loupe := t.loupe } := by
  have hend := endFlight_error he hsec hsrc heof hfcs
  have hcnt : 0 < cnt ∧ cnt < 0xD0 := by
    have := he
    unfold txEndOf at this
    grind
  have hg := flightOver_gone p (c.frm.cells - c.gone) s
  generalize flightOver p (c.frm.cells - c.gone) s = g at hend hg
  have hsk : lineKeeps g (if c.secy then addLive (secCnt p 0x58) 1 g else g) :=
    lineKeeps_ite (lineKeeps_addLive _ _ g) (lineKeeps_refl g)
  have hsl : getLive (if c.secy then addLive (secCnt p 0x58) 1 g else g) (txCnt p cnt) = getLive g (txCnt p cnt) := by
    split
    · exact getLive_addLive_other _ _ (by simp only [txCnt, secCnt, statA, secA, adr, pgCl]; omega)
    · rfl
  generalize (if c.secy then addLive (secCnt p 0x58) 1 g else g) = m at hsk hsl hend
  have hev : ∀ u : State, (if cnt = 0x9C then hwEvent (pgCl (p / 8) 0) 6 u else u).rest = u.rest := fun u => by
    split
    · exact hwEvent_rest _ _ _
    · rfl
  have hk1 : lineKeeps (emit (fragmentOut p c (c.line.take 16383) true) m) (endFlight p c s) := by
    rw [hend]
    refine lineKeeps_trans ?_ (lineKeeps_ite (lineKeeps_hwEvent _ _ _) (lineKeeps_refl _))
    refine lineKeeps_trans ?_ (lineKeeps_loupe _ _ _ _ _)
    refine lineKeeps_trans ?_ (lineKeeps_addLive _ _ _)
    refine lineKeeps_trans ?_ (lineKeeps_closeGap _ _ _)
    exact lineKeeps_countTxOctets _ _ _
  have hmem : fragmentOut p c (c.line.take 16383) true ∈ (endFlight p c s).out :=
    mem_out_of_grows hk1.out (by simp [emit])
  obtain ⟨t, hexec, hfl, hout, hlive, hused, hqs, hrest⟩ := frameEnd_over hi h hfc hsr hg
    (lineKeeps_trans hsk (lineKeeps_trans (lineKeeps_emit _ m) hk1))
  refine ⟨t, hexec, hfl, fun hp => ?_, ?_, hused, hqs, hrest⟩
  · rw [hout]; simpa only [fragmentOut, hp, if_true] using hmem
  · have hcg : ∀ n u a, getLive (closeGap p n u) a = getLive u a := fun _ _ _ => rfl
    rw [hlive, hend, getLive_of_rest (hev _), getLive_of_rest (loupe_rest _ _ _ _ _), getLive_addLive, if_pos rfl, hcg,
      getLive_countTxOctets, if_neg (txCnt_inj (by omega)), ← hg.live, ← hsl]
    rfl

end

/-- Settles O54, cell by cell and frame by frame: what TX_CELL_ACCEPT does with a cell, TX_FRAME_COMMIT with the one queued frame,
and TX_FRAME_END with the frame in flight. -/
theorem transmitQueue : Obligations.TransmitQueue := by
  intro s p hi hd
  refine ⟨fun cl side first data => ⟨fun hn => ?_, fun hm hu => ⟨?_, ?_, ?_, ?_⟩⟩, ?_, fun hn => ?_, ?_⟩
  · show execTxCellAccept cl side first data s = _
    rw [execTxCellAccept, if_pos hn]
  · exact fun q hf hq hc hs hst htr => cellAccept_joins hm hu hf hq hc hs hst htr
  · exact fun q k hf he hq hc hqe hs hst hfed => cellAccept_stopped hm hu hf he hq hc hqe hs hst hfed
  · exact fun q hf hq hc => cellAccept_misplaced hi hm hu hf hq hc
  · exact fun q f hf hq hr hfl ho hg hdr => cellAccept_later hm hu hf hq hr hfl ho hg hdr
  · intro f lane inStream laid left hm hq hsrc hdr hfl ho hfc hsr
    exact ⟨frameCommit_committed laid left hd hm hq hsrc hdr hfl ho hfc hsr,
      frameCommit_waits laid left hd hm hq hdr hfl ho hfc hsr,
      fun cnt reason => frameCommit_discarded laid left hd hm hq hsrc hdr hfl ho hfc hsr⟩
  · show execTxFrameEnd p s = _
    simp only [execTxFrameEnd, hn]
  · exact fun c hc hsrc heof hfcs hfc hsr => ⟨frameEnd_sent hd hc hsrc heof hfcs hfc hsr,
      fun cnt => frameEnd_error hd hc hsrc heof hfcs hfc hsr⟩

end Sys2Proof.Machine
end

section
namespace Sys2Proof.Machine

/-! ### A port that goes down (R93) -/

/-- UP bits of the port's cluster. -/
abbrev upA (p : Nat) : Nat := pcsA p 0x0B0

/-- A register of a cluster's pages: above LOUPE and below the host's pages. -/
abbrev clusterReg (b : Nat) : Prop := 0xA9000 ≤ b ∧ b < 0x2C0000

theorem wideReg_of_cluster {b : Nat} (h : clusterReg b) : wideReg b := .inl h.1

theorem clusterReg_adr (n : Nat) {k o : Nat} (hn : n < 66) (hk : k < 4) (ho : o < 4096) : clusterReg (adr (pgCl n k) o) := by
  simp only [adr, pgCl]; omega

/-- What a port's fall leaves, no frame of it open in reassembly or release. -/
structure portFell (p : Nat) (s t : State) : Prop where
  up : portUp t p = false
  regs : ∀ b, clusterReg b → b ≠ upA p → b ≠ adr (pgCl (p / 8) 1) 0x24 → b ≠ adr (pgCl (p / 8) 1) 0x40 → getReg t b = getReg s b
  live : ∀ a, (∀ q o, o < 0xE0 → a ≠ txCnt q o) → getLive t a = getLive s a
  mode : t.ctl.mode = s.ctl.mode
  rx : t.rx = s.rx
  dp : t.dp = s.dp
  tx : txQueue s p = [] → t.tx = s.tx

/-- The port's fall is dated. -/
def markFell (p : Nat) (s : State) : State :=
  if portUp s p then { s with prt := { s.prt with fell := tabPut s.prt.fell p s.tim.powered } } else s

theorem markFell_frame (p : Nat) (s : State) : markFell p s = { s with prt := (markFell p s).prt } := by
  rw [markFell]
  split <;> rfl

theorem downPort_plain {p : Nat} {s : State} (hm : tabFind s.rx.merge p = none) (ho : tabFind s.dp.opened p = none) :
    downPort p s = sweep p (portDown p (markFell p s)) := by
  have hm' : tabFind (markFell p s).rx.merge p = none := by rw [markFell_frame]; exact hm
  have ho' : tabFind (markFell p s).dp.opened p = none := by rw [markFell_frame]; exact ho
  have h1 : mergeError p [] false false (markFell p s) = markFell p s := by rw [mergeError, hm']
  have h2 : flushOpen p (markFell p s) = markFell p s := by rw [flushOpen, ho']
  rw [downPort, ← markFell.eq_1, h1, h2]

theorem sweep_empty {p : Nat} {s : State} (h : txQueue s p = []) : sweep p s = s := by rw [sweep, h]

theorem downPort_fell {p : Nat} {s : State} (hp : p < 512) (hi : s.irqSane) (hm : tabFind s.rx.merge p = none)
    (ho : tabFind s.dp.opened p = none) : portFell p s (downPort p s) := by
  have hfr := markFell_frame p s
  rw [downPort_plain hm ho]
  generalize markFell p s = u at hfr
  have hi' : u.irqSane := by rw [hfr]; exact hi
  have hreg : ∀ b, getReg u b = getReg s b := fun b => by rw [hfr]; rfl
  have hup : clusterReg (upA p) := clusterReg_adr _ (by omega) (by decide) (by decide)
  have hd : (portDown p u).rest = u.rest ∧ (portDown p u).irqSane ∧ portUp (portDown p u) p = false
      ∧ ∀ b, clusterReg b → b ≠ upA p → b ≠ adr (pgCl (p / 8) 1) 0x24 → b ≠ adr (pgCl (p / 8) 1) 0x40 →
        getReg (portDown p u) b = getReg s b := by
    rw [portDown]
    split
    · have hh := hwEvent_high (pgCl (p / 8) 1) 6 (setB (pcsA p 0x0B0) (p % 8) false u) hi'
      refine ⟨by rw [hwEvent_rest, setB_rest], hh.1, ?_, fun b hb h1 h2 h3 => ?_⟩
      · rw [portUp, getB, hh.2 _ hup.1 (by simp only [upA, pcsA, adr]; omega) (by simp only [upA, pcsA, adr]; omega)]
        exact getB_setB_same (pcsA p 0x0B0) (p % 8) false u (by omega)
      · rw [hh.2 b hb.1 h2 h3, getReg_setB_other _ _ _ h1, hreg]
    · next h => exact ⟨rfl, hi', Bool.not_eq_true _ ▸ h, fun b _ _ _ _ => hreg b⟩
  obtain ⟨hrest, hsane, hdown, hregs⟩ := hd
  have hdp : (portDown p u).dp = u.dp := rest_dp hrest
  have hrx : (portDown p u).rx = u.rx := congrArg (fun x => x.rx) hrest
  have htx : (portDown p u).tx = u.tx := rest_tx hrest
  have hmode : (portDown p u).ctl.mode = u.ctl.mode := rest_mode hrest
  have hlive : ∀ a, getLive (portDown p u) a = getLive u a := getLive_of_rest hrest
  generalize portDown p u = v at hdown hregs hsane hdp hrx htx hmode hlive
  have hsw := txKeeps_sweep p v
  have hwide := (hsw.wide (irqWide_of_sane hsane)).2
  refine ⟨?_, fun b hb h1 h2 h3 => (hwide b (wideReg_of_cluster hb) hb.2).trans (hregs b hb h1 h2 h3), fun a ha => ?_, ?_, ?_, ?_,
    fun hq => ?_⟩
  · rw [portUp, getB, hwide _ (wideReg_of_cluster hup) hup.2]
    exact hdown
  · rw [hsw.live a ha, hlive a, hfr]
    rfl
  · rw [behindTx_mode hsw.behind, hmode, hfr]
  · rw [behindTx_rx hsw.behind, hrx, hfr]
  · rw [behindTx_dp hsw.behind, hdp, hfr]
  · have hut : u.tx = s.tx := congrArg (fun x => x.tx) hfr
    rw [sweep_empty (by rw [txQueue, htx, hut]; exact hq), htx, hut]

end Sys2Proof.Machine
end

section
namespace Sys2Proof.Machine

/-! ### LANE_STATUS_CHANGE -/

theorem satAdd_zero {m v : Nat} (h : v ≤ m) : satAdd m v 0 = v := by
  rw [satAdd, Nat.add_zero]
  split <;> omega

/-- A field that counts where `c` holds, in a register where other fields count too. -/
theorem getF_addF_if (c : Bool) (a : Nat) {hi lo : Nat} (s : State) (h : hi < 32) :
    getF (if c then addF a hi lo 1 s else s) a hi lo = satAdd (2 ^ (hi + 1 - lo) - 1) (getF s a hi lo) (flag c) := by
  cases c with
  | true => exact getF_addF_same a 1 s h
  | false => exact (satAdd_zero (Nat.le_sub_one_of_lt (getF_lt s a hi lo))).symm

theorem getF_addF_if_field (c : Bool) (a : Nat) {hi lo hi' lo' : Nat} (s : State) (h : hi < lo' ∨ hi' < lo) :
    getF (if c then addF a hi lo 1 s else s) a hi' lo' = getF s a hi' lo' := by
  split
  · exact getF_setF_field a _ s h
  · rfl

/-- Each input that differs counts once in its field of LANE_CHG (R104). -/
theorem countChanges_counts (l : Nat) (d : BitVec 3) (s : State) :
    getF (countChanges l d s) (laneChgA l) 29 20 = satAdd 1023 (getF s (laneChgA l) 29 20) (flag (d.getLsbD 0))
      ∧ getF (countChanges l d s) (laneChgA l) 19 10 = satAdd 1023 (getF s (laneChgA l) 19 10) (flag (d.getLsbD 1))
      ∧ getF (countChanges l d s) (laneChgA l) 9 0 = satAdd 1023 (getF s (laneChgA l) 9 0) (flag (d.getLsbD 2)) := by
  have e : countChanges l d s =
      (let s1 := if d.getLsbD 0 then addF (laneChgA l) 29 20 1 s else s
        let s2 := if d.getLsbD 1 then addF (laneChgA l) 19 10 1 s1 else s1
        if d.getLsbD 2 then addF (laneChgA l) 9 0 1 s2 else s2) := rfl
  simp only [e]
  refine ⟨?_, ?_, ?_⟩
  · rw [getF_addF_if_field _ _ _ (.inl (by decide)), getF_addF_if_field _ _ _ (.inl (by decide)), getF_addF_if _ _ _ (by decide)]
    rfl
  · rw [getF_addF_if_field _ _ _ (.inl (by decide)), getF_addF_if _ _ _ (by decide), getF_addF_if_field _ _ _ (.inr (by decide))]
    rfl
  · rw [getF_addF_if _ _ _ (by decide), getF_addF_if_field _ _ _ (.inr (by decide)), getF_addF_if_field _ _ _ (.inr (by decide))]
    rfl

theorem countChanges_frame (l : Nat) (d : BitVec 3) (s : State) :
    countChanges l d s = { s with win := { s.win with regs := (countChanges l d s).win.regs } } := by
  simp only [countChanges]
  split <;> split <;> split <;> rfl

/-- Lane `l` presents `v`, its sample takes it and the changes are counted. -/
def laneTaken (l : Nat) (v : BitVec 3) (s : State) : State :=
  countChanges l (v ^^^ laneSample s l) (setF (laneStA l) 2 0 v.toNat
    { s with prt := { s.prt with laneIn := tabSet (fun _ => 0) s.prt.laneIn l v } })

theorem laneTaken_frame (l : Nat) (v : BitVec 3) (s : State) : laneTaken l v s
    = { s with prt := { s.prt with laneIn := tabSet (fun _ => 0) s.prt.laneIn l v }
               win := { s.win with regs := (laneTaken l v s).win.regs } } := by
  rw [laneTaken, countChanges_frame]
  rfl

theorem laneSample_laneTaken (l : Nat) (v : BitVec 3) (s : State) : laneSample (laneTaken l v s) l = v := by
  rw [laneSample, laneTaken, laneSample_stored, BitVec.ofNat_toNat, BitVec.setWidth_eq]

theorem getReg_laneTaken (l : Nat) (v : BitVec 3) (s : State) {b : Nat} (h1 : b ≠ laneStA l) (h2 : b ≠ laneChgA l) :
    getReg (laneTaken l v s) b = getReg s b := by
  rw [laneTaken, getReg_countChanges_other _ _ h2, getReg_setF_other _ _ _ _ h1]
  rfl

theorem getF_laneTaken_locks (l : Nat) (v : BitVec 3) (s : State) :
    getF (laneTaken l v s) (laneStA l) 7 6 = getF s (laneStA l) 7 6 := by
  rw [laneTaken, getF_congr (getReg_countChanges_other _ _ (laneStA_ne_laneChgA l l)), getF_setF_field _ _ _ (.inl (by decide))]
  rfl

theorem laneLevels_set (l : Nat) (v : BitVec 3) (s : State) :
    laneLevels { s with prt := { s.prt with laneIn := tabSet (fun _ => 0) s.prt.laneIn l v } } l = v :=
  (tabGet_set (fun _ => 0) s.prt.laneIn l l v).trans (if_pos rfl)

theorem exec_laneStatusChange {l : PortNo} {v : BitVec 3} {s : State} (hc : clusterOn s (l / 8) = true) (hv : v ≠ laneSample s l) :
    exec (.laneStatusChange l v) s
      = .next (if v.getLsbD 1 && v.getLsbD 2 then laneTaken l v s else laneUnlock l (laneTaken l v s)) := by
  have hl := laneLevels_set l v s
  have hd : v ^^^ laneSample s l ≠ 0 := fun h => hv (BitVec.xor_eq_zero_iff.mp h)
  have hs : laneSample { s with prt := { s.prt with laneIn := tabSet (fun _ => 0) s.prt.laneIn l v } } l = laneSample s l := rfl
  show execLaneStatusChange l v s = _
  simp only [execLaneStatusChange]
  rw [if_pos (show clusterOn { s with prt := { s.prt with laneIn := tabSet (fun _ => 0) s.prt.laneIn l v } } (l / 8) = true from hc)]
  simp only [sampleLane, hl, hs, hd, if_false]
  rfl

theorem portOfLane_laneTaken (l : Nat) (v : BitVec 3) (s : State) : portOfLane (laneTaken l v s) l = portOfLane s l :=
  portOfLane_congr fun _ hi => getReg_laneTaken l v s (portLiveA_ne_laneStA l hi) (portLiveA_ne_laneChgA l hi)

theorem portOfLane_lt {s : State} {l q : Nat} (h : portOfLane s l = some q) : q / 8 = l / 8 := by
  unfold portOfLane at h
  split at h
  · cases h
  · next i hi =>
    have hlt : i < 8 := List.mem_range.mp (List.mem_of_find?_eq_some hi)
    split at h
    · cases h; omega
    · cases h

theorem laneChange_good {l : PortNo} {v : BitVec 3} {s : State} (hc : clusterOn s (l / 8) = true) (hv : v ≠ laneSample s l)
    (h1 : v.getLsbD 1 = true) (h2 : v.getLsbD 2 = true) :
    ∃ t, exec (.laneStatusChange l v) s = .next t ∧ laneLevels t l = v ∧ laneSample t l = v
      ∧ getF t (laneChgA l) 29 20 = satAdd 1023 (getF s (laneChgA l) 29 20) (flag ((v ^^^ laneSample s l).getLsbD 0))
      ∧ getF t (laneChgA l) 19 10 = satAdd 1023 (getF s (laneChgA l) 19 10) (flag ((v ^^^ laneSample s l).getLsbD 1))
      ∧ getF t (laneChgA l) 9 0 = satAdd 1023 (getF s (laneChgA l) 9 0) (flag ((v ^^^ laneSample s l).getLsbD 2))
      ∧ (∀ b, b ∉ [laneStA l, laneChgA l] → getReg t b = getReg s b)
      ∧ t.rest = State.rest { s with prt := t.prt } ∧ t.irq = s.irq := by
  have hexec := exec_laneStatusChange hc hv
  rw [h1, h2, Bool.and_self, if_pos rfl] at hexec
  obtain ⟨hA, hB, hC⟩ := countChanges_counts l (v ^^^ laneSample s l) (setF (laneStA l) 2 0 v.toNat
    { s with prt := { s.prt with laneIn := tabSet (fun _ => 0) s.prt.laneIn l v } })
  have hother : ∀ hi lo, getF (setF (laneStA l) 2 0 v.toNat
      { s with prt := { s.prt with laneIn := tabSet (fun _ => 0) s.prt.laneIn l v } }) (laneChgA l) hi lo
      = getF s (laneChgA l) hi lo := fun hi lo => getF_setF_other _ _ (laneStA_ne_laneChgA l l).symm
  rw [hother] at hA hB hC
  refine ⟨laneTaken l v s, hexec, ?_, laneSample_laneTaken l v s, hA, hB, hC, fun b hb => ?_, ?_, ?_⟩
  · rw [laneTaken_frame]
    exact laneLevels_set l v s
  · obtain ⟨hb1, hb2⟩ : b ≠ laneStA l ∧ b ≠ laneChgA l := by simpa using hb
    exact getReg_laneTaken l v s hb1 hb2
  · have hp : (laneTaken l v s).prt = { s.prt with laneIn := tabSet (fun _ => 0) s.prt.laneIn l v } :=
      congrArg (fun x => x.prt) (laneTaken_frame l v s)
    rw [hp]
    exact (congrArg State.rest (laneTaken_frame l v s)).trans rfl
  · rw [laneTaken_frame]

/-- The loss counted where a lock bit was set, and its event (Table 5.7). -/
def countLoss (l q was : Nat) (s : State) : State :=
  if was = 0 then s else hwEvent (pgCl (l / 8) 1) 5 (addLive (pcsCnt q 0x28) 1 s)

theorem countLoss_high {l q : Nat} (was : Nat) {s : State} (hi : s.irqSane) : (countLoss l q was s).irqSane
    ∧ ∀ b, clusterReg b → b ≠ adr (pgCl (l / 8) 1) 0x24 → b ≠ adr (pgCl (l / 8) 1) 0x40 →
      getReg (countLoss l q was s) b = getReg s b := by
  rw [countLoss]
  split
  · exact ⟨hi, fun _ _ _ _ => rfl⟩
  · have h := hwEvent_high (pgCl (l / 8) 1) 5 (addLive (pcsCnt q 0x28) 1 s) hi
    exact ⟨h.1, fun b hb h1 h2 => h.2 b hb.1 h1 h2⟩

theorem countLoss_parts (l q was : Nat) (s : State) : (countLoss l q was s).rx = s.rx ∧ (countLoss l q was s).dp = s.dp
    ∧ (countLoss l q was s).tx = s.tx ∧ (countLoss l q was s).ctl.mode = s.ctl.mode := by
  rw [countLoss]
  split
  · exact ⟨rfl, rfl, rfl, rfl⟩
  · have h := hwEvent_rest (pgCl (l / 8) 1) 5 (addLive (pcsCnt q 0x28) 1 s)
    exact ⟨congrArg (fun x => x.rx) h, congrArg (fun x => x.dp) h, congrArg (fun x => x.tx) h, congrArg (fun x => x.ctl.mode) h⟩

theorem getLive_countLoss {l q was : Nat} (h : was ≠ 0) (s : State) : getLive (countLoss l q was s) (pcsCnt q 0x28)
    = satAdd (liveMax (pcsCnt q 0x28)) (getLive s (pcsCnt q 0x28)) 1 := by
  rw [countLoss, if_neg h, getLive_of_rest (hwEvent_rest _ _ _), getLive_addLive, if_pos rfl]

theorem pcsCnt_ne_txCnt {q o : Nat} (ho : o < 0x80) (r x : Nat) (hx : x < 0xE0) : pcsCnt q o ≠ txCnt r x := by
  intro e
  have h := congrArg pageOf e
  rw [pcsCnt, pcsA, txCnt, statA, pageOf_adr (by omega), pageOf_adr (by omega)] at h
  simp only [pgCl] at h
  omega

theorem laneUnlock_port {l q : Nat} {s : State} (h : portOfLane s l = some q) :
    laneUnlock l s = downPort q (countLoss l q (getF s (laneStA l) 7 6) (setF (laneStA l) 7 6 0 s)) := by
  simp only [laneUnlock, h, countLoss]

theorem laneChange_bad {l : PortNo} {v : BitVec 3} {s : State} (hi : s.irqSane) (hc : clusterOn s (l / 8) = true)
    (hv : v ≠ laneSample s l) (hbad : (v.getLsbD 1 && v.getLsbD 2) = false)
    (hfree : ∀ q, portOfLane s l = some q → tabFind s.rx.merge q = none ∧ tabFind s.dp.opened q = none) :
    ∃ t, exec (.laneStatusChange l v) s = .next t ∧ laneSample t l = v ∧ getF t (laneStA l) 7 6 = 0
      ∧ (∀ q, portOfLane s l = some q → portUp t q = false ∧ (getF s (laneStA l) 7 6 ≠ 0 →
        getLive t (pcsCnt q 0x28) = satAdd (liveMax (pcsCnt q 0x28)) (getLive s (pcsCnt q 0x28)) 1))
      ∧ t.ctl.mode = s.ctl.mode ∧ t.rx = s.rx ∧ t.dp = s.dp
      ∧ ((∀ q, portOfLane s l = some q → txQueue s q = []) → t.tx = s.tx) := by
  have hexec := exec_laneStatusChange hc hv
  rw [hbad, if_neg (by decide)] at hexec
  have hfr := laneTaken_frame l v s
  have hsm := laneSample_laneTaken l v s
  have hlk := getF_laneTaken_locks l v s
  have hport := portOfLane_laneTaken l v s
  generalize laneTaken l v s = u at hexec hfr hsm hlk hport
  have hiu : u.irqSane := by rw [hfr]; exact hi
  have hlive : ∀ a, getLive u a = getLive s a := fun a => by rw [hfr]; rfl
  have hrx : u.rx = s.rx := congrArg (fun x => x.rx) hfr
  have hdp : u.dp = s.dp := congrArg (fun x => x.dp) hfr
  have htx : u.tx = s.tx := congrArg (fun x => x.tx) hfr
  have hmode : u.ctl.mode = s.ctl.mode := congrArg (fun x => x.ctl.mode) hfr
  have hsm' : getF (setF (laneStA l) 7 6 0 u) (laneStA l) 2 0 = getF u (laneStA l) 2 0 := getF_setF_field _ _ _ (.inr (by decide))
  have hlk' : getF (setF (laneStA l) 7 6 0 u) (laneStA l) 7 6 = 0 := getF_setF_same _ _ _ (by decide)
  cases hp : portOfLane s l with
  | none =>
    rw [laneUnlock_noPort (hport.trans hp)] at hexec
    exact ⟨_, hexec, by rw [laneSample, hsm', ← laneSample, hsm], hlk', (fun _ h => by cases h), hmode, hrx, hdp, fun _ => htx⟩
  | some q =>
    have hq8 := portOfLane_lt hp
    rw [laneUnlock_port (hport.trans hp), hlk] at hexec
    obtain ⟨hcs, hcr⟩ := countLoss_high (l := l) (q := q) (getF s (laneStA l) 7 6) (s := setF (laneStA l) 7 6 0 u) hiu
    obtain ⟨hcx, hcd, hct, hcm⟩ := countLoss_parts l q (getF s (laneStA l) 7 6) (setF (laneStA l) 7 6 0 u)
    have hcl := @getLive_countLoss l q (getF s (laneStA l) 7 6)
    have hcl' := fun h => hcl h (setF (laneStA l) 7 6 0 u)
    generalize countLoss l q (getF s (laneStA l) 7 6) (setF (laneStA l) 7 6 0 u) = w at hexec hcs hcr hcx hcd hct hcm hcl'
    have hcx' : w.rx = s.rx := hcx.trans hrx
    have hcd' : w.dp = s.dp := hcd.trans hdp
    have hct' : w.tx = s.tx := hct.trans htx
    obtain ⟨hup, hregs, hfl, hfm, hfx, hfd, hft⟩ := downPort_fell (p := q) (by omega) hcs (by rw [hcx']; exact (hfree q hp).1)
      (by rw [hcd']; exact (hfree q hp).2)
    have hst : getReg (downPort q w) (laneStA l) = getReg (setF (laneStA l) 7 6 0 u) (laneStA l) := by
      have hcr' : clusterReg (laneStA l) := clusterReg_adr _ (by omega) (by decide) (by omega)
      rw [hregs _ hcr' (by simp only [laneStA, upA, pcsA, adr]; omega) (by simp only [laneStA, adr]; omega)
          (by simp only [laneStA, adr]; omega),
        hcr _ hcr' (by simp only [laneStA, adr]; omega) (by simp only [laneStA, adr]; omega)]
    refine ⟨downPort q w, hexec, ?_, by rw [getF_congr hst]; exact hlk', fun r hr => ?_, hfm.trans (hcm.trans hmode), hfx.trans hcx',
      hfd.trans hcd', fun he => (hft (by rw [txQueue, hct']; exact he q rfl)).trans hct'⟩
    · rw [laneSample, getF_congr hst, hsm', ← laneSample, hsm]
    · cases hr
      refine ⟨hup, fun hwas => ?_⟩
      rw [hfl _ (pcsCnt_ne_txCnt (by decide)), hcl' hwas, ← hlive]
      rfl

end Sys2Proof.Machine
end

section
namespace Sys2Proof.Machine

/-! ### Lane bits of a port -/

/-- Set or clear bit `n` of LANE_STATUS of a list of lanes. -/
def setLaneBit (n : Nat) (v : Bool) : List Nat → State → State
  | [], s => s
  | l :: r, s => setLaneBit n v r (setB (laneStA l) n v s)

theorem setLocks_eq (blk v : Bool) (l : List Nat) (s : State) : setLocks blk v l s = setLaneBit (if blk then 6 else 7) v l s := by
  induction l generalizing s with
  | nil => rfl
  | cons k r ih => exact ih _

theorem setHiBer_eq (v : Bool) (l : List Nat) (s : State) : setHiBer v l s = setLaneBit 8 v l s := by
  induction l generalizing s with
  | nil => rfl
  | cons k r ih => exact ih _

theorem setLaneBit_frame (n : Nat) (v : Bool) (l : List Nat) (s : State) :
    setLaneBit n v l s = { s with win := { s.win with regs := (setLaneBit n v l s).win.regs } } := by
  induction l generalizing s with
  | nil => rfl
  | cons k r ih =>
    rw [setLaneBit, ih]
    rfl

theorem getReg_setLaneBit_other {n : Nat} {v : Bool} {l : List Nat} {b : Nat} (s : State) (h : ∀ k, b ≠ laneStA k) :
    getReg (setLaneBit n v l s) b = getReg s b := by
  induction l generalizing s with
  | nil => rfl
  | cons k r ih => rw [setLaneBit, ih, getReg_setB_other _ _ _ (h k)]

/-- Another bit of a lane stays. -/
theorem getB_setLaneBit_other {n m : Nat} (v : Bool) (l : List Nat) (k : Nat) (s : State) (h : m ≠ n) :
    getB (setLaneBit n v l s) (laneStA k) m = getB s (laneStA k) m := by
  induction l generalizing s with
  | nil => rfl
  | cons j r ih =>
    rw [setLaneBit, ih]
    by_cases e : laneStA k = laneStA j
    · rw [e, getB_setB_bit _ _ h]
    · rw [getB_setB_other _ _ _ _ e]

theorem getB_setLaneBit_mem {n : Nat} (v : Bool) {l : List Nat} {k : Nat} (s : State) (hn : n < 32)
    (h : k ∈ l ∨ getB s (laneStA k) n = v) : getB (setLaneBit n v l s) (laneStA k) n = v := by
  induction l generalizing s with
  | nil => exact h.resolve_left (by simp)
  | cons j r ih =>
    rw [setLaneBit]
    apply ih
    by_cases e : k = j
    · right
      rw [e, getB_setB_same _ _ _ _ hn]
    · rcases h with h | h
      · exact .inl ((List.mem_cons.mp h).resolve_left e)
      · right
        rw [getB_setB_other _ _ _ _ (fun hk => e (laneStA_inj hk)), h]

/-- The state but for its registers. -/
theorem setLaneBit_irqSane {n : Nat} {v : Bool} {l : List Nat} {s : State} (h : s.irqSane) : (setLaneBit n v l s).irqSane := by
  rw [setLaneBit_frame]
  exact h

theorem setLaneBit_rest (n : Nat) (v : Bool) (l : List Nat) (s : State) : (setLaneBit n v l s).rest = s.rest := by
  rw [setLaneBit_frame]
  rfl

/-! ### PORT_UP -/

theorem getReg_startVerify {p b : Nat} (s : State) (h : b ≠ txStA p) : getReg (startVerify p s) b = getReg s b := by
  rw [startVerify, setVerify, getReg_setB_other _ _ _ h, getReg_setF_other _ _ _ _ h]
  rfl

/-- Settling a reconfiguration moves its status, its event and its record. -/
theorem reconfSettle_keeps (cl : Nat) {s : State} (hi : s.irqSane) :
    (∀ b, 0xA9000 ≤ b → b ≠ recStA cl → b ≠ adr (pgCl cl 1) 0x24 → b ≠ adr (pgCl cl 1) 0x40 →
        getReg (reconfSettle cl s) b = getReg s b)
      ∧ (reconfSettle cl s).ctl.mode = s.ctl.mode ∧ (reconfSettle cl s).rx = s.rx ∧ (reconfSettle cl s).dp = s.dp := by
  unfold reconfSettle
  split
  · split
    · have hh := hwEvent_high (pgCl cl 1) 0 (setReg (recStA cl) (recStatus 0 0 2 ||| (getReg s (recStA cl) &&& 4))
        { s with prt := { s.prt with reconf := tabErase s.prt.reconf cl } }) hi
      have hr := hwEvent_rest (pgCl cl 1) 0 (setReg (recStA cl) (recStatus 0 0 2 ||| (getReg s (recStA cl) &&& 4))
        { s with prt := { s.prt with reconf := tabErase s.prt.reconf cl } })
      refine ⟨fun b hb h1 h2 h3 => ?_, (rest_mode hr).trans rfl, congrArg (fun x => x.rx) hr, congrArg (fun x => x.dp) hr⟩
      rw [reconfDone, hh.2 b hb h2 h3, getReg_setReg_other _ _ h1]
      rfl
    · exact ⟨fun _ _ _ _ _ => rfl, rfl, rfl, rfl⟩
  · exact ⟨fun _ _ _ _ _ => rfl, rfl, rfl, rfl⟩

/-- The lanes of a port that rises: locked, without high BER. -/
def lanesUp (blk : Bool) (l : List Nat) (s : State) : State := setLaneBit 8 false l (setLaneBit (if blk then 6 else 7) true l s)

theorem exec_portUp {s : State} {p : PortNo} {x : Shape} (hx : portShape s p = some x) (hm : mayRise s p = true) :
    exec (.portUp p) s = .next (reconfSettle (p / 8) (startVerify p (setB (upA p) (p % 8) true
      (lanesUp (usesBlockLock x) (portLanes s p) s)))) := by
  show execPortUp p s = _
  simp only [execPortUp, hm, if_true, hx, setLocks_eq, setHiBer_eq]
  rfl

theorem portUp_rises {s : State} {p : PortNo} {x : Shape} (hi : s.irqSane) (hx : portShape s p = some x)
    (hm : mayRise s p = true) :
    ∃ t, exec (.portUp p) s = .next t ∧ portUp t p = true ∧ (∀ q, q ≠ p.val → portUp t q = portUp s q)
      ∧ (∀ l ∈ portLanes s p, getB t (laneStA l) 8 = false ∧ getB t (laneStA l) (if usesBlockLock x then 6 else 7) = true)
      ∧ t.ctl.mode = s.ctl.mode ∧ t.rx = s.rx ∧ t.dp = s.dp := by
  have hexec := exec_portUp hx hm
  have hlane : ∀ b, (∀ k, b ≠ laneStA k) → getReg (lanesUp (usesBlockLock x) (portLanes s p) s) b = getReg s b := fun b hb => by
    rw [lanesUp, getReg_setLaneBit_other _ hb, getReg_setLaneBit_other _ hb]
  have hbits : ∀ l ∈ portLanes s p, getB (lanesUp (usesBlockLock x) (portLanes s p) s) (laneStA l) 8 = false
      ∧ getB (lanesUp (usesBlockLock x) (portLanes s p) s) (laneStA l) (if usesBlockLock x then 6 else 7) = true := by
    intro l hl
    refine ⟨getB_setLaneBit_mem _ _ (by decide) (.inl hl), ?_⟩
    have hk : (if usesBlockLock x then 6 else 7) ≠ 8 ∧ (if usesBlockLock x then 6 else 7) < 32 := by split <;> decide
    rw [lanesUp, getB_setLaneBit_other _ _ _ _ hk.1, getB_setLaneBit_mem _ _ hk.2 (.inl hl)]
  have hr : (lanesUp (usesBlockLock x) (portLanes s p) s).rest = s.rest := by rw [lanesUp, setLaneBit_rest, setLaneBit_rest]
  have hsane : (lanesUp (usesBlockLock x) (portLanes s p) s).irqSane := setLaneBit_irqSane (setLaneBit_irqSane hi)
  generalize lanesUp (usesBlockLock x) (portLanes s p) s = u at hexec hlane hbits hr hsane
  have hv : ∀ b, b ≠ txStA p → getReg (startVerify p (setB (upA p) (p % 8) true u)) b = getReg (setB (upA p) (p % 8) true u) b :=
    fun b hb => getReg_startVerify _ hb
  have hvs : (startVerify p (setB (upA p) (p % 8) true u)).irqSane := hsane
  have hvr : (startVerify p (setB (upA p) (p % 8) true u)).ctl.mode = s.ctl.mode
      ∧ (startVerify p (setB (upA p) (p % 8) true u)).rx = s.rx ∧ (startVerify p (setB (upA p) (p % 8) true u)).dp = s.dp :=
    ⟨congrArg (fun x => x.ctl.mode) hr, congrArg (fun x => x.rx) hr, congrArg (fun x => x.dp) hr⟩
  generalize startVerify p (setB (upA p) (p % 8) true u) = w at hexec hv hvs hvr
  obtain ⟨hregs, hmode, hrx, hdp⟩ := reconfSettle_keeps (p / 8) hvs
  have hup : ∀ q, getReg (reconfSettle (p / 8) w) (upA q) = getReg (setB (upA p) (p % 8) true u) (upA q) := fun q => by
    rw [hregs _ (by simp only [upA, pcsA, adr, pgCl]; omega) (by simp only [upA, pcsA, recStA, adr, pgCl]; omega)
      (by simp only [upA, pcsA, adr, pgCl]; omega) (by simp only [upA, pcsA, adr, pgCl]; omega),
      hv _ (by simp only [upA, pcsA, txStA, macA, adr, pgCl]; omega)]
  have hst : ∀ l, getReg (reconfSettle (p / 8) w) (laneStA l) = getReg u (laneStA l) := fun l => by
    rw [hregs _ (by simp only [laneStA, adr, pgCl]; omega) (by simp only [laneStA, recStA, adr, pgCl]; omega)
      (by simp only [laneStA, adr, pgCl]; omega) (by simp only [laneStA, adr, pgCl]; omega),
      hv _ (by simp only [laneStA, txStA, macA, adr, pgCl]; omega),
      getReg_setB_other _ _ _ (by simp only [laneStA, upA, pcsA, adr, pgCl]; omega)]
  refine ⟨_, hexec, ?_, fun q hq => ?_, fun l hl => ?_, hmode.trans hvr.1, hrx.trans hvr.2.1, hdp.trans hvr.2.2⟩
  · rw [portUp, getB_congr (hup p)]
    exact getB_setB_same (upA p) (p % 8) true u (by omega)
  · rw [portUp, getB_congr (hup q), portUp, ← getB_congr (hlane (upA q) fun k => by
      simp only [upA, pcsA, laneStA, adr, pgCl]; omega)]
    by_cases e : upA q = upA p
    · have hne : q % 8 ≠ p % 8 := by
        simp only [upA, pcsA, adr, pgCl] at e
        omega
      rw [e, getB_setB_bit _ _ hne]
    · exact getB_setB_other _ _ _ _ e
  · rw [getB_congr (hst l), getB_congr (hst l)]
    exact hbits l hl

/-! ### LOCK_LOSS -/

/-- What the monitors report before the port falls: the count, its event, and the lanes' bits. -/
structure lossNoted (p : Nat) (s t : State) : Prop where
  sane : t.irqSane
  mode : t.ctl.mode = s.ctl.mode
  rx : t.rx = s.rx
  dp : t.dp = s.dp
  tx : t.tx = s.tx

theorem lossNoted_refl {p : Nat} {s : State} (hi : s.irqSane) : lossNoted p s s := ⟨hi, rfl, rfl, rfl, rfl⟩

theorem lossNoted_event {p a n : Nat} {s : State} (hi : s.irqSane) :
    lossNoted p s (hwEvent (pgCl (p / 8) 1) n (addLive a 1 s)) := by
  have hr := hwEvent_rest (pgCl (p / 8) 1) n (addLive a 1 s)
  exact ⟨(hwEvent_high (pgCl (p / 8) 1) n (addLive a 1 s) hi).1, congrArg (fun x => x.ctl.mode) hr, congrArg (fun x => x.rx) hr,
    congrArg (fun x => x.dp) hr, congrArg (fun x => x.tx) hr⟩

theorem lossNoted_lanes {p n : Nat} {v : Bool} {l : List Nat} {s t : State} (h : lossNoted p s t) :
    lossNoted p s (setLaneBit n v l t) := by
  obtain ⟨hs, hm, hx, hd, ht⟩ := h
  rw [setLaneBit_frame]
  exact ⟨hs, hm, hx, hd, ht⟩

theorem lossNoted_highBer {p : Nat} {s : State} (hi : s.irqSane) : lossNoted p s (highBer p s) := by
  unfold highBer
  simp only
  split
  · exact lossNoted_refl hi
  · rw [setHiBer_eq]
    exact lossNoted_lanes (lossNoted_event hi)

theorem lossNoted_lockGone {p : Nat} {s : State} (hi : s.irqSane) : lossNoted p s (lockGone p s) := by
  unfold lockGone
  simp only
  split
  · rw [setLocks_eq, setLocks_eq]
    exact lossNoted_lanes (lossNoted_lanes (lossNoted_event hi))
  · exact lossNoted_refl hi

theorem getLive_setLaneBit (n : Nat) (v : Bool) (l : List Nat) (s : State) (a : Nat) :
    getLive (setLaneBit n v l s) a = getLive s a := getLive_of_rest (setLaneBit_rest n v l s) a

theorem highBer_begins {p : Nat} {s : State} (h : ∀ l ∈ portLanes s p, getB s (laneStA l) 8 = false) :
    getLive (highBer p s) (pcsCnt p 0x2C) = satAdd (liveMax (pcsCnt p 0x2C)) (getLive s (pcsCnt p 0x2C)) 1
      ∧ ∀ l ∈ portLanes s p, getB (highBer p s) (laneStA l) 8 = true := by
  have hn : ¬ ((portLanes s p).any (fun k => getB s (laneStA k) 8) = true) := by simpa using h
  have e : highBer p s = setLaneBit 8 true (portLanes s p) (hwEvent (pgCl (p / 8) 1) 4 (addLive (pcsCnt p 0x2C) 1 s)) := by
    simp only [highBer, if_neg hn, setHiBer_eq]
  rw [e]
  refine ⟨?_, fun l hl => getB_setLaneBit_mem _ _ (by decide) (.inl hl)⟩
  rw [getLive_setLaneBit, getLive_of_rest (hwEvent_rest _ _ _), getLive_addLive, if_pos rfl]

theorem getF_zero_of_bits {s : State} {a : Nat} (h6 : getB s a 6 = false) (h7 : getB s a 7 = false) : getF s a 7 6 = 0 := by
  apply Nat.eq_of_testBit_eq
  intro i
  rw [getF, testBit_bits, Nat.zero_testBit]
  have hi : i = 0 ∨ i = 1 ∨ 2 ≤ i := by omega
  rcases hi with rfl | rfl | hi
  · simpa [getB, bit] using h6
  · simpa [getB, bit] using h7
  · simp; omega

theorem lockGone_up {p : Nat} {s : State} (h : portUp s p = true) :
    getLive (lockGone p s) (pcsCnt p 0x28) = satAdd (liveMax (pcsCnt p 0x28)) (getLive s (pcsCnt p 0x28)) 1
      ∧ ∀ l ∈ portLanes s p, getF (lockGone p s) (laneStA l) 7 6 = 0 := by
  have e : lockGone p s = setLaneBit 6 false (portLanes s p) (setLaneBit 7 false (portLanes s p)
      (hwEvent (pgCl (p / 8) 1) 5 (addLive (pcsCnt p 0x28) 1 s))) := by
    simp only [lockGone, h, Bool.true_or, if_true, setLocks_eq, Bool.false_eq_true, if_false]
  rw [e]
  refine ⟨?_, fun l hl => getF_zero_of_bits (getB_setLaneBit_mem _ _ (by decide) (.inl hl)) ?_⟩
  · rw [getLive_setLaneBit, getLive_setLaneBit, getLive_of_rest (hwEvent_rest _ _ _), getLive_addLive, if_pos rfl]
  · rw [getB_setLaneBit_other _ _ _ _ (by decide), getB_setLaneBit_mem _ _ (by decide) (.inl hl)]

theorem portLanes_lt {s : State} {p l : Nat} (hp : p < 512) (h : l ∈ portLanes s p) : l < 520 := by
  unfold portLanes at h
  split at h
  · next x hx =>
    obtain ⟨k, hk, rfl⟩ := List.mem_map.mp h
    have hw : x.width ≤ 8 := by
      unfold portShape at hx
      simp only at hx
      split at hx
      · cases hx
        exact Nat.pow_le_pow_right (by decide) (Nat.le_of_lt_succ (bits_lt _ 13 12))
      · cases hx
    have := List.mem_range.mp hk
    omega
  · cases h

theorem lockLoss_falls {s : State} {p : PortNo} (hiBer : Bool) (hi : s.irqSane) (hup : portUp s p = true)
    (hx : (portShape s p).isSome = true) (hc : clusterOn s (p / 8) = true) (hm : tabFind s.rx.merge p = none)
    (ho : tabFind s.dp.opened p = none) :
    ∃ t, exec (.lockLoss p hiBer) s = .next t ∧ portUp t p = false
      ∧ (hiBer = false ∨ (∀ l ∈ portLanes s p, getB s (laneStA l) 8 = false) →
        (∀ a, a = pcsCnt p (if hiBer then 0x2C else 0x28) → getLive t a = satAdd (liveMax a) (getLive s a) 1)
        ∧ ∀ l ∈ portLanes s p, if hiBer then getB t (laneStA l) 8 = true else getF t (laneStA l) 7 6 = 0)
      ∧ t.ctl.mode = s.ctl.mode ∧ t.rx = s.rx ∧ t.dp = s.dp ∧ (txQueue s p = [] → t.tx = s.tx) := by
  have hexec : exec (.lockLoss p hiBer) s = .next (downPort p (if hiBer then highBer p s else lockGone p s)) := by
    show execLockLoss p hiBer s = _
    rw [execLockLoss, if_pos (by rw [hx, hc]; rfl)]
  have hnoted : lossNoted p s (if hiBer then highBer p s else lockGone p s) := by
    split
    · exact lossNoted_highBer hi
    · exact lossNoted_lockGone hi
  have hcnt : hiBer = false ∨ (∀ l ∈ portLanes s p, getB s (laneStA l) 8 = false) →
      (∀ a, a = pcsCnt p (if hiBer then 0x2C else 0x28) →
        getLive (if hiBer then highBer p s else lockGone p s) a = satAdd (liveMax a) (getLive s a) 1)
      ∧ ∀ l ∈ portLanes s p, if hiBer then getB (if hiBer then highBer p s else lockGone p s) (laneStA l) 8 = true
        else getF (if hiBer then highBer p s else lockGone p s) (laneStA l) 7 6 = 0 := by
    intro h
    cases hiBer with
    | true =>
      obtain ⟨h1, h2⟩ := highBer_begins (h.resolve_left (by decide))
      exact ⟨fun a ha => ha ▸ h1, h2⟩
    | false =>
      obtain ⟨h1, h2⟩ := lockGone_up hup
      exact ⟨fun a ha => ha ▸ h1, h2⟩
  generalize (if hiBer then highBer p s else lockGone p s) = u at hexec hnoted hcnt
  obtain ⟨hsane, hmode, hrx, hdp, htx⟩ := hnoted
  obtain ⟨hdown, hregs, hlive, hfm, hfx, hfd, hft⟩ := downPort_fell (p := p) p.isLt hsane (by rw [hrx]; exact hm) (by rw [hdp]; exact ho)
  refine ⟨_, hexec, hdown, fun h => ⟨fun a ha => ?_, fun l hl => ?_⟩, hfm.trans hmode, hfx.trans hrx, hfd.trans hdp,
    fun hq => (hft (by rw [txQueue, htx]; exact hq)).trans htx⟩
  · rw [hlive a, (hcnt h).1 a ha]
    intro q o ho'
    rw [ha]
    exact pcsCnt_ne_txCnt (by split <;> decide) q o ho'
  · have hl8 := portLanes_lt p.isLt hl
    have hst := hregs (laneStA l) (clusterReg_adr _ (by omega) (by decide) (by omega))
      (by simp only [laneStA, upA, pcsA, adr, pgCl]; omega) (by simp only [laneStA, adr, pgCl]; omega)
      (by simp only [laneStA, adr, pgCl]; omega)
    have := (hcnt h).2 l hl
    rw [getB_congr hst, getF_congr hst]
    exact this

/-! ### REMOTE_FAULT -/

theorem setInsert_iff (l : List Nat) (k x : Nat) : x ∈ setInsert l k ↔ x = k ∨ x ∈ l := by
  refine ⟨mem_setInsert l k x, fun h => ?_⟩
  induction l with
  | nil => simpa [setInsert] using h
  | cons a r ih =>
    unfold setInsert
    split
    · simpa using h
    · split
      · next e =>
        rcases h with rfl | h
        · exact e ▸ List.mem_cons_self
        · exact h
      · rcases h with rfl | h
        · exact List.mem_cons_of_mem _ (ih (.inl rfl))
        · rcases List.mem_cons.mp h with rfl | h
          · exact List.mem_cons_self
          · exact List.mem_cons_of_mem _ (ih (.inr h))

theorem setErase_iff (l : List Nat) (k x : Nat) : x ∈ setErase l k ↔ x ≠ k ∧ x ∈ l := by
  induction l with
  | nil => simp [setErase]
  | cons a r ih =>
    unfold setErase
    split
    · next e =>
      rw [ih, List.mem_cons]
      constructor
      · exact fun h => ⟨h.1, .inr h.2⟩
      · exact fun h => ⟨h.1, h.2.resolve_left (fun hx => h.1 (hx.trans e))⟩
    · next e =>
      rw [List.mem_cons, ih, List.mem_cons]
      constructor
      · rintro (rfl | h)
        · exact ⟨e, .inl rfl⟩
        · exact ⟨h.1, .inr h.2⟩
      · rintro ⟨h1, rfl | h2⟩
        · exact .inl rfl
        · exact .inr ⟨h1, h2⟩

theorem behindTx_prt {s t : State} (h : t.behindTx = s.behindTx) : t.prt = s.prt := congrArg (fun x => x.prt) h

theorem remoteFault_noted (s : State) (p : PortNo) (start : Bool) :
    ∃ t, exec (.remoteFault p start) s = .next t ∧ (p.val ∈ t.prt.remote ↔ start = true)
      ∧ (∀ q, q ≠ p.val → (q ∈ t.prt.remote ↔ q ∈ s.prt.remote)) ∧ t.ctl.mode = s.ctl.mode
      ∧ (start = false ∨ txQueue s p = [] → t = { s with prt := { s.prt with remote := t.prt.remote } }) := by
  cases start with
  | false =>
    refine ⟨_, rfl, ?_, fun q hq => ?_, rfl, fun _ => rfl⟩
    · exact (setErase_iff s.prt.remote p p).trans (by simp)
    · exact (setErase_iff s.prt.remote p q).trans (by simp [hq])
  | true =>
    have hk := txKeeps_sweep p { s with prt := { s.prt with remote := setInsert s.prt.remote p } }
    have hprt := behindTx_prt hk.behind
    have hmode := behindTx_mode hk.behind
    refine ⟨sweep p { s with prt := { s.prt with remote := setInsert s.prt.remote p } }, rfl, ?_, fun q hq => ?_, hmode, fun h => ?_⟩
    · rw [hprt]
      exact (setInsert_iff s.prt.remote p p).trans (by simp)
    · rw [hprt]
      exact (setInsert_iff s.prt.remote p q).trans (by simp [hq])
    · have hq : txQueue { s with prt := { s.prt with remote := setInsert s.prt.remote p } } p = [] := h.resolve_left (by decide)
      rw [sweep_empty hq]

end Sys2Proof.Machine
end

section
namespace Sys2Proof.Machine

/-! ### DEGRADE_WINDOW_END -/

/-- Counting moves no register, and no part of the state that frames pass through. -/
theorem addHist_live (p k : Nat) (l : List Nat) (s : State) : ∃ v, addHist p k l s = { s with win := { s.win with live := v } }
    ∧ ∀ o, o < 0x40 → getLive (addHist p k l s) (pcsCnt p o) = getLive s (pcsCnt p o) := by
  induction l generalizing k s with
  | nil => exact ⟨s.win.live, rfl, fun _ _ => rfl⟩
  | cons n r ih =>
    rw [addHist]
    split
    · next hk =>
      obtain ⟨v, hv, hl⟩ := ih (k + 1) (addLive (pcsCnt p (0x40 + 4 * k)) n s)
      refine ⟨v, hv.trans rfl, fun o ho => (hl o ho).trans (getLive_addLive_other _ _ ?_)⟩
      simp only [pcsCnt, pcsA, adr]
      omega
    · obtain ⟨v, hv, hl⟩ := ih (k + 1) s
      exact ⟨v, hv, hl⟩

theorem addLaneErrs_live (p : Nat) (ls l : List Nat) (s : State) :
    ∃ v, addLaneErrs p ls l s = { s with win := { s.win with live := v } }
      ∧ ∀ o, o < 0x40 → getLive (addLaneErrs p ls l s) (pcsCnt p o) = getLive s (pcsCnt p o) := by
  induction ls generalizing l s with
  | nil => cases l <;> exact ⟨s.win.live, rfl, fun _ _ => rfl⟩
  | cons k ks ih =>
    cases l with
    | nil => exact ⟨s.win.live, rfl, fun _ _ => rfl⟩
    | cons n r =>
      obtain ⟨v, hv, hl⟩ := ih r (addLive (pcsA p (0x500 + 8 * (k % 8))) n s)
      refine ⟨v, hv.trans rfl, fun o ho => (hl o ho).trans (getLive_addLive_other _ _ ?_)⟩
      simp only [pcsCnt, pcsA, adr]
      omega

/-- Latching an event more than once leaves what latching it once leaves. -/
theorem eventTimes_keeps (page n k : Nat) {s : State} (hi : s.irqSane) (hp : 0xA9 ≤ page) :
    (eventTimes page n k s).irqSane ∧ (eventTimes page n k s).rest = s.rest
      ∧ (∀ b, 0xA9000 ≤ b → b ≠ adr page 0x24 → b ≠ adr page 0x40 → getReg (eventTimes page n k s) b = getReg s b)
      ∧ (n < 32 → k ≠ 0 → (getReg (eventTimes page n k s) (adr page 0x24)).getLsbD n = true) := by
  induction k generalizing s with
  | zero => exact ⟨hi, rfl, fun _ _ _ _ => rfl, fun _ h => absurd rfl h⟩
  | succ k ih =>
    have hh := hwEvent_high page n s hi
    have hlatch := hwEvent_high_latch page n s hi hp
    obtain ⟨h1, h2, h3, h4⟩ := ih hh.1
    refine ⟨h1, h2.trans (hwEvent_rest page n s), fun b hb h24 h40 => (h3 b hb h24 h40).trans (hh.2 b hb h24 h40), fun hn _ => ?_⟩
    cases k with
    | zero =>
      rw [eventTimes, eventTimes, hlatch, getLsbD_putBit]
      simp [hn]
    | succ k => exact h4 hn (by omega)

/-- The state of port `p` when the counts of its FEC are in, before the events. -/
def fecCounted (p : Nat) (f : FecReport) (s : State) : State :=
  addLaneErrs p (portLanes s p) f.laneSymbols (addHist p 0 f.hist (addLive (pcsCnt p 0x30) f.deskew
    (addLive (pcsCnt p 0x20) f.pcsErr (addLive (pcsCnt p 0x18) f.symbols (addLive (pcsCnt p 0x10) f.uncorrected
      (addLive (pcsCnt p 0x08) f.corrected (addLive (pcsCnt p 0x00) f.codewords s)))))))

theorem countFec_eq (p : Nat) (f : FecReport) (s : State) :
    countFec p f s = eventTimes (pgCl (p / 8) 1) 2 f.uncorrected (fecCounted p f s) := rfl

theorem pcsCnt_ne {p a b : Nat} (h : a ≠ b) : pcsCnt p a ≠ pcsCnt p b := by simp only [pcsCnt, pcsA, adr]; omega

theorem fecCounted_live (p : Nat) (f : FecReport) (s : State) : ∃ v, fecCounted p f s = { s with win := { s.win with live := v } }
    ∧ getLive (fecCounted p f s) (pcsCnt p 0) = satAdd (liveMax (pcsCnt p 0)) (getLive s (pcsCnt p 0)) f.codewords
    ∧ getLive (fecCounted p f s) (pcsCnt p 0x10) = satAdd (liveMax (pcsCnt p 0x10)) (getLive s (pcsCnt p 0x10)) f.uncorrected
    ∧ getLive (fecCounted p f s) (pcsCnt p 0x34) = getLive s (pcsCnt p 0x34) := by
  rw [fecCounted]
  obtain ⟨u, hu⟩ : ∃ u, u = addLive (pcsCnt p 0x30) f.deskew (addLive (pcsCnt p 0x20) f.pcsErr (addLive (pcsCnt p 0x18) f.symbols
    (addLive (pcsCnt p 0x10) f.uncorrected (addLive (pcsCnt p 0x08) f.corrected (addLive (pcsCnt p 0x00) f.codewords s))))) := ⟨_, rfl⟩
  rw [← hu]
  obtain ⟨v, hv, hl⟩ := addHist_live p 0 f.hist u
  obtain ⟨w, hw, hm⟩ := addLaneErrs_live p (portLanes s p) f.laneSymbols (addHist p 0 f.hist u)
  have hus : u = { s with win := { s.win with live := u.win.live } } := by rw [hu]; rfl
  refine ⟨w, ?_, ?_, ?_, ?_⟩
  · rw [hw, hv, hus]
  · rw [hm 0 (by decide), hl 0 (by decide), hu]
    simp only [getLive_addLive, pcsCnt_ne (show 0 ≠ 0x30 by decide), pcsCnt_ne (show 0 ≠ 0x20 by decide),
      pcsCnt_ne (show 0 ≠ 0x18 by decide), pcsCnt_ne (show 0 ≠ 0x10 by decide), pcsCnt_ne (show 0 ≠ 0x08 by decide), if_false, if_true]
  · rw [hm 0x10 (by decide), hl 0x10 (by decide), hu]
    simp only [getLive_addLive, pcsCnt_ne (show 0x10 ≠ 0x30 by decide), pcsCnt_ne (show 0x10 ≠ 0x20 by decide),
      pcsCnt_ne (show 0x10 ≠ 0x18 by decide), pcsCnt_ne (show 0x10 ≠ 0x08 by decide), pcsCnt_ne (show 0x10 ≠ 0x00 by decide), if_false,
      if_true]
  · rw [hm 0x34 (by decide), hl 0x34 (by decide), hu]
    simp only [getLive_addLive, pcsCnt_ne (show 0x34 ≠ 0x30 by decide), pcsCnt_ne (show 0x34 ≠ 0x20 by decide),
      pcsCnt_ne (show 0x34 ≠ 0x18 by decide), pcsCnt_ne (show 0x34 ≠ 0x10 by decide), pcsCnt_ne (show 0x34 ≠ 0x08 by decide),
      pcsCnt_ne (show 0x34 ≠ 0x00 by decide), if_false]

/-- The judgement: the DEGRADE bit says whether the threshold was reached; a window that reaches it counts, and the first latches
event 3 (R103). -/
theorem judgeDegrade_judged {p symbols th : Nat} {s : State} (hi : s.irqSane) (hth : th = getF s (pcsA p 0x0B4) 23 0) :
    getB (judgeDegrade p symbols s) (upA p) (8 + p % 8) = decide (th ≠ 0 ∧ th ≤ symbols)
      ∧ (th ≠ 0 → th ≤ symbols →
        getLive (judgeDegrade p symbols s) (pcsCnt p 0x34) = satAdd (liveMax (pcsCnt p 0x34)) (getLive s (pcsCnt p 0x34)) 1
          ∧ (getB s (upA p) (8 + p % 8) = false → (getReg (judgeDegrade p symbols s) (adr (pgCl (p / 8) 1) 0x24)).getLsbD 3 = true))
      ∧ ((getReg s (adr (pgCl (p / 8) 1) 0x24)).getLsbD 2 = true →
        (getReg (judgeDegrade p symbols s) (adr (pgCl (p / 8) 1) 0x24)).getLsbD 2 = true)
      ∧ (∀ o, o ≠ 0x34 → getLive (judgeDegrade p symbols s) (pcsCnt p o) = getLive s (pcsCnt p o))
      ∧ (judgeDegrade p symbols s).ctl.mode = s.ctl.mode ∧ (judgeDegrade p symbols s).rx = s.rx
      ∧ (judgeDegrade p symbols s).dp = s.dp ∧ (judgeDegrade p symbols s).tx = s.tx := by
  have h24 : adr (pgCl (p / 8) 1) 0x24 ≠ upA p := by simp only [upA, pcsA, adr]; omega
  have hb : 8 + p % 8 < 32 := by omega
  unfold judgeDegrade
  simp only [← hth]
  by_cases hlow : th = 0 ∨ symbols < th
  · rw [if_pos hlow]
    refine ⟨?_, fun h1 h2 => by omega, fun h => ?_, fun _ _ => rfl, rfl, rfl, rfl, rfl⟩
    · rw [getB_setB_same (pcsA p 0x0B0) (8 + p % 8) false s hb]
      symm
      simp only [decide_eq_false_iff_not]
      omega
    · rw [getReg_setB_other _ _ _ h24]
      exact h
  · rw [if_neg hlow]
    have hth' : decide (th ≠ 0 ∧ th ≤ symbols) = true := by simp only [decide_eq_true_eq]; omega
    have hgb : getB (addLive (pcsCnt p 0x34) 1 s) (upA p) (8 + p % 8) = getB s (upA p) (8 + p % 8) := rfl
    by_cases hd : getB s (upA p) (8 + p % 8) = true
    · rw [if_pos hd]
      refine ⟨by rw [hth']; exact hd, fun _ _ => ⟨by rw [getLive_addLive, if_pos rfl], fun h => ?_⟩, id,
        fun o ho => getLive_addLive_other _ _ (pcsCnt_ne ho), rfl, rfl, rfl, rfl⟩
      rw [hd] at h
      cases h
    · rw [if_neg hd]
      have hi' : (setB (pcsA p 0x0B0) (8 + p % 8) true (addLive (pcsCnt p 0x34) 1 s)).irqSane := hi
      have hh := hwEvent_high (pgCl (p / 8) 1) 3 _ hi'
      have hl := hwEvent_high_latch (pgCl (p / 8) 1) 3 _ hi' (by simp only [pgCl]; omega)
      have hr := hwEvent_rest (pgCl (p / 8) 1) 3 (setB (pcsA p 0x0B0) (8 + p % 8) true (addLive (pcsCnt p 0x34) 1 s))
      have hup : 0xA9000 ≤ upA p := by simp only [upA, pcsA, adr, pgCl]; omega
      refine ⟨?_, fun _ _ => ⟨?_, fun _ => ?_⟩, fun h => ?_, fun o ho => ?_, congrArg (fun x => x.ctl.mode) hr,
        congrArg (fun x => x.rx) hr, congrArg (fun x => x.dp) hr, congrArg (fun x => x.tx) hr⟩
      · rw [hth', getB_congr (hh.2 (upA p) hup (Ne.symm h24) (by simp only [upA, pcsA, adr]; omega))]
        exact getB_setB_same (pcsA p 0x0B0) (8 + p % 8) true _ hb
      · rw [getLive_of_rest hr]
        exact (getLive_addLive _ _ _ _).trans (if_pos rfl)
      · rw [hl, getLsbD_putBit]
        simp
      · rw [hl, getLsbD_putBit, getReg_setB_other _ _ _ h24]
        simpa using h
      · rw [getLive_of_rest hr]
        exact getLive_addLive_other _ _ (pcsCnt_ne ho)

theorem degradeWindow_ends {s : State} {p : PortNo} {x : Shape} {f g : FecReport} {th : Nat} (hi : s.irqSane)
    (hx : portShape s p = some x) (hg : g = countedBy x.fec f) (hth : th = getF s (pcsA p 0x0B4) 23 0) :
    ∃ t, exec (.degradeWindowEnd p f) s = .next t
      ∧ getLive t (pcsCnt p 0) = satAdd (liveMax (pcsCnt p 0)) (getLive s (pcsCnt p 0)) g.codewords
      ∧ getLive t (pcsCnt p 0x10) = satAdd (liveMax (pcsCnt p 0x10)) (getLive s (pcsCnt p 0x10)) g.uncorrected
      ∧ (g.uncorrected ≠ 0 → (getReg t (adr (pgCl (p / 8) 1) 0x24)).getLsbD 2 = true)
      ∧ getB t (pcsA p 0x0B0) (8 + p % 8) = decide (th ≠ 0 ∧ th ≤ g.symbols)
      ∧ (th ≠ 0 → th ≤ g.symbols →
        getLive t (pcsCnt p 0x34) = satAdd (liveMax (pcsCnt p 0x34)) (getLive s (pcsCnt p 0x34)) 1
          ∧ (getB s (pcsA p 0x0B0) (8 + p % 8) = false → (getReg t (adr (pgCl (p / 8) 1) 0x24)).getLsbD 3 = true))
      ∧ t.ctl.mode = s.ctl.mode ∧ t.rx = s.rx ∧ t.dp = s.dp ∧ t.tx = s.tx := by
  have hexec : exec (.degradeWindowEnd p f) s = .next (judgeDegrade p g.symbols (countFec p g s)) := by
    show execDegradeWindowEnd p f s = _
    simp only [execDegradeWindowEnd, hx, hg]
  rw [countFec_eq] at hexec
  obtain ⟨v, hv, h0, h10, h34⟩ := fecCounted_live p g s
  generalize fecCounted p g s = u at hexec hv h0 h10 h34
  have hiu : u.irqSane := by rw [hv]; exact hi
  obtain ⟨hes, her, heg, hel⟩ := eventTimes_keeps (pgCl (p / 8) 1) 2 g.uncorrected hiu (by simp only [pgCl]; omega)
  generalize eventTimes (pgCl (p / 8) 1) 2 g.uncorrected u = w at hexec hes her heg hel
  have hreg : ∀ o, o = 0x0B0 ∨ o = 0x0B4 → getReg w (pcsA p o) = getReg s (pcsA p o) := fun o ho => by
    rw [heg _ (by simp only [pcsA, adr, pgCl]; omega) (by simp only [pcsA, adr]; omega) (by simp only [pcsA, adr]; omega), hv]
    rfl
  have hlive : ∀ a, getLive w a = getLive u a := getLive_of_rest her
  have hm : w.ctl.mode = s.ctl.mode ∧ w.rx = s.rx ∧ w.dp = s.dp ∧ w.tx = s.tx := by
    refine ⟨(rest_mode her).trans ?_, (congrArg (fun x => x.rx) her).trans ?_, (congrArg (fun x => x.dp) her).trans ?_,
      (congrArg (fun x => x.tx) her).trans ?_⟩
    all_goals rw [hv]
    all_goals rfl
  obtain ⟨hj1, hj2, hj3, hj4, hjm, hjx, hjd, hjt⟩ := judgeDegrade_judged (symbols := g.symbols) hes
    (hth.trans (getF_congr (hreg _ (.inr rfl)) 23 0).symm)
  refine ⟨_, hexec, ?_, ?_, fun hu => hj3 (hel (by decide) hu), hj1, fun h1 h2 => ⟨?_, fun hf => (hj2 h1 h2).2 ?_⟩,
    hjm.trans hm.1, hjx.trans hm.2.1, hjd.trans hm.2.2.1, hjt.trans hm.2.2.2⟩
  · rw [hj4 _ (by decide), hlive, h0]
  · rw [hj4 _ (by decide), hlive, h10]
  · rw [(hj2 h1 h2).1, hlive, h34]
  · rw [getB_congr (hreg _ (.inl rfl))]
    exact hf

/-- Settles O47, row by row: a lane's sample, a port's rise, its fall, remote fault and the degrade window. -/
theorem laneRows : Obligations.LaneRows := by
  intro s p v hi
  refine ⟨fun hc => ?_, fun hc hv h1 h2 => laneChange_good hc hv h1 h2, fun hc hv hb hf => laneChange_bad hi hc hv hb hf,
    fun x hx hm => portUp_rises hi hx hm, fun hm => ?_, fun hb hup hx hc hm ho => lockLoss_falls hb hi hup hx hc hm ho, fun hb hn => ?_,
    remoteFault_noted s p, fun x f g th hx hg hth => degradeWindow_ends hi hx hg hth⟩
  · show execLaneStatusChange p v s = _
    simp only [execLaneStatusChange]
    rw [if_neg]
    exact Bool.eq_false_iff.mp hc
  · show execPortUp p s = _
    rw [execPortUp, hm]
    rfl
  · have hk : ((portShape s p).isSome && clusterOn s (p / 8)) = false := by
      rcases hn with hn | hn
      · rw [hn]; rfl
      · rw [hn, Bool.and_false]
    show execLockLoss p hb s = _
    rw [execLockLoss, hk]
    rfl

end Sys2Proof.Machine
end

section
namespace Sys2Proof.Machine

/-! ### A frame at the MAC: what is counted -/

theorem rxCnt_inj {p a b : Nat} (h : a ≠ b) : rxCnt p a ≠ rxCnt p b := by simp only [rxCnt, statA, adr]; omega

/-- Counting moves live counters, LOUPE and what LOUPE's events reach, and nothing else. -/
structure rxCounted (s t : State) : Prop where
  rest : t.rest = State.rest { s with win := t.win, loupe := t.loupe }
  ev : evKeeps s t

theorem rxCounted_trans {s t u : State} (h : rxCounted s t) (k : rxCounted t u) : rxCounted s u where
  rest := k.rest.trans (congrArg (fun y : State => { y with win := { u.win with regs := [] }, loupe := u.loupe }) h.rest)
  ev := evKeeps_trans h.ev k.ev

theorem rxCounted_addLive (a n : Nat) (s : State) : rxCounted s (addLive a n s) := ⟨rfl, fun h => ⟨h, fun _ _ => rfl⟩⟩

theorem rxCounted_loupe (u i g n : Nat) (s : State) : rxCounted s (loupe u i g n s) where
  rest := (loupe_rest u i g n s).trans
    (congrArg (fun y : State => { s.rest with win := y.win, loupe := y.loupe }) (loupe_rest u i g n s)).symm
  ev := loupe_high u i g n s

theorem rxCounted_ite {c : Prop} [Decidable c] {s t u : State} (ht : rxCounted s t) (hu : rxCounted s u) :
    rxCounted s (if c then t else u) := by
  split
  · exact ht
  · exact hu

theorem rxCounted_countOctets (p n : Nat) (s : State) : rxCounted s (countOctets p n s) := ⟨rfl, fun h => ⟨h, fun _ _ => rfl⟩⟩

theorem getLive_countOctets (p n a : Nat) (s : State) :
    getLive (countOctets p n s) a = if a = rxCnt p 0 then satAdd (liveMax (rxCnt p 0)) (getLive s (rxCnt p 0)) n else getLive s a := by
  rw [countOctets, getLive_addLive]
  rfl

section
variable {s t : State} (h : rxCounted s t)
include h

theorem rxCounted.dp : t.dp = s.dp := congrArg (fun x => x.dp) h.rest
theorem rxCounted.rx : t.rx = s.rx := congrArg (fun x => x.rx) h.rest
theorem rxCounted.sec : t.sec = s.sec := congrArg (fun x => x.sec) h.rest
theorem rxCounted.mode : t.ctl.mode = s.ctl.mode := congrArg (fun x => x.ctl.mode) h.rest

end

/-- What row 7 of Table 6.1 counts of a good frame of `n` octets to `da` before admission. -/
def goodCounted (p n : Nat) (da : List Byte) (s : State) : State :=
  let s2 := addLive (rxCnt p (if isBcast da then 0x28 else if isGroup da then 0x20 else 0x18)) 1
    (addLive (rxCnt p 0x10) 1 (addLive (rxCnt p 0x08) n (addLive (rxCnt p (0x30 + 8 * sizeBin n)) 1 (countOctets p n s))))
  loupe 1 p 1 n (loupe 1 p 0 1 (if bits (rxCfg s2 p) 29 16 < n then addLive (rxCnt p 0x88) 1 s2 else s2))

theorem goodCounted_counted (p n : Nat) (da : List Byte) (s : State) : rxCounted s (goodCounted p n da s) := by
  have h2 : rxCounted s (addLive (rxCnt p (if isBcast da then 0x28 else if isGroup da then 0x20 else 0x18)) 1
      (addLive (rxCnt p 0x10) 1 (addLive (rxCnt p 0x08) n (addLive (rxCnt p (0x30 + 8 * sizeBin n)) 1 (countOctets p n s))))) := by
    refine rxCounted_trans ?_ (rxCounted_addLive _ _ _)
    refine rxCounted_trans ?_ (rxCounted_addLive _ _ _)
    refine rxCounted_trans ?_ (rxCounted_addLive _ _ _)
    refine rxCounted_trans ?_ (rxCounted_addLive _ _ _)
    exact rxCounted_countOctets p n s
  refine rxCounted_trans ?_ (rxCounted_loupe _ _ _ _ _)
  refine rxCounted_trans ?_ (rxCounted_loupe _ _ _ _ _)
  exact rxCounted_ite (rxCounted_trans h2 (rxCounted_addLive _ _ _)) h2

theorem sizeBin_le (n : Nat) : sizeBin n ≤ 9 := by
  unfold sizeBin
  repeat' split
  all_goals decide

/-- The counters of drops and of good frames after the counts of row 7. -/
theorem getLive_goodCounted (p n : Nat) (da : List Byte) (s : State) {o : Nat} (ho : o = 0xAC ∨ o = 0xA4 ∨ o = 0x10) :
    getLive (goodCounted p n da s) (rxCnt p o)
      = if o = 0x10 then satAdd (liveMax (rxCnt p 0x10)) (getLive s (rxCnt p 0x10)) 1 else getLive s (rxCnt p o) := by
  have hk : (if isBcast da then 0x28 else if isGroup da then 0x20 else 0x18) < 0x30
      ∧ 0x10 < (if isBcast da then 0x28 else if isGroup da then 0x20 else 0x18) := by split <;> [skip; split] <;> decide
  have hb := sizeBin_le n
  have hlong : ∀ (c : Prop) [Decidable c] (u : State),
      getLive (if c then addLive (rxCnt p 0x88) 1 u else u) (rxCnt p o) = getLive u (rxCnt p o) := fun c _ u => by
    split
    · exact getLive_addLive_other _ _ (rxCnt_inj (by omega))
    · rfl
  rw [goodCounted, getLive_of_rest (loupe_rest _ _ _ _ _), getLive_of_rest (loupe_rest _ _ _ _ _), hlong,
    getLive_addLive_other _ _ (rxCnt_inj (by omega))]
  by_cases e : o = 0x10
  · subst e
    rw [if_pos rfl, getLive_addLive, if_pos rfl, getLive_addLive_other _ _ (rxCnt_inj (by decide)),
      getLive_addLive_other _ _ (rxCnt_inj (by omega)), getLive_countOctets, if_neg (rxCnt_inj (by decide))]
  · rw [if_neg e, getLive_addLive_other _ _ (rxCnt_inj e), getLive_addLive_other _ _ (rxCnt_inj (by omega)),
      getLive_addLive_other _ _ (rxCnt_inj (by omega)), getLive_countOctets, if_neg (rxCnt_inj (by omega))]

/-! ### RX_FRAME in RUN at a port that takes the frame -/

theorem flushOpen_none {p : Nat} {s : State} (h : tabFind s.dp.opened p = none) : flushOpen p s = s := by rw [flushOpen, h]

theorem exec_rxFrame_run {s : State} {p : PortNo} {frag : Byte} {o : List Byte} {headLeft : Bool} {age : Nat} {lane : Fin 8}
    (hm : s.ctl.mode = .run) (hup : portUp s p = true) (hr : refuses s p 0xD5 age = false) :
    exec (.rxFrame p 0xD5 frag o false headLeft ⟨age, lane⟩) s
      = .next (flushOpen p (rowsRx p o false false headLeft (rxStart s p lane age) false s)) := by
  show execRxFrame p 0xD5 frag o false headLeft ⟨age, lane⟩ s = _
  simp only [execRxFrame, hm, rxAt, hup, if_true, hr, Bool.false_eq_true, if_false, rxLive, finishRx]

theorem rowsRx_short {p : Nat} {o : List Byte} (headLeft : Bool) (x : RxStart) {s : State} (hn : o.length < 64) :
    rowsRx p o false false headLeft x false s
      = loupe 1 p 2 1 (addLive (rxCnt p (if fcsGood o then 0x80 else 0x84)) 1 (countOctets p o.length s)) := by
  have ht : o.take 16383 = o := List.take_of_length_le (by omega)
  rw [rowsRx]
  simp only [ht, Bool.false_eq_true, if_false, if_neg (show ¬ 16383 < o.length by omega), if_pos hn]

theorem rowsRx_good {p : Nat} {o : List Byte} (headLeft : Bool) (x : RxStart) {s : State} (h1 : 64 ≤ o.length)
    (h2 : o.length ≤ 16383) (hg : fcsGood o = true) :
    rowsRx p o false false headLeft x false s
      = (intake p (o.take (o.length - 4)) (o.drop (o.length - 4)) 0 false (headLeft && bit (rxCfg s p) 1) x false
          (goodCounted p o.length (slice o 0 6) s)).1 := by
  have ht : o.take 16383 = o := List.take_of_length_le h2
  rw [rowsRx]
  simp only [ht, Bool.false_eq_true, if_false, if_neg (show ¬ 16383 < o.length by omega), if_neg (show ¬ o.length < 64 by omega), hg,
    Bool.true_eq_false]
  rfl

section
variable {s t : State} (h : rxCounted s t) (hi : s.irqSane)
include h hi

theorem rxCounted.reg {b : Nat} (hb : 0xA9000 ≤ b) : getReg t b = getReg s b := (h.ev hi).2 b hb

theorem rxCounted.rxCfg (p : Nat) : rxCfg t p = rxCfg s p := h.reg hi (by simp only [macA, adr, pgCl]; omega)

theorem rxCounted.isMacCtrl (p : Nat) (f : List Byte) : isMacCtrl t p f = isMacCtrl s p f := by
  simp only [Machine.isMacCtrl, h.rxCfg hi, exactAddr, tblGet, h.rx]

theorem rxCounted.addrPass (p : Nat) (f : List Byte) : addrPass t p f = addrPass s p f := by
  simp only [Machine.addrPass, h.rxCfg hi, exactHit, tblGet, h.rx, exactAddr]

theorem rxCounted.vlanPass (p : Nat) (f : List Byte) : vlanPass t p f = vlanPass s p f := by
  simp only [Machine.vlanPass, h.rxCfg hi, tblGet, h.rx]

theorem rxCounted.parseCfgWords : parseCfgWords t = parseCfgWords s := by
  refine List.map_congr_left fun i hm => h.reg hi ?_
  simp only [adr, pgPipe]
  omega

omit hi in
theorem rxCounted.admits (c : Nat) : admits t c = admits s c := by
  have hu : rxUsed t c = rxUsed s c := by rw [rxUsed, queueOf, h.dp, rxUsed, queueOf]
  rw [Machine.admits, hu, Machine.admits]

end

theorem setPause_dp (p i q : Nat) (s : State) : (setPause p i q s).dp = s.dp := by
  have hun : ∀ u : State, (untrip p i u).dp = u.dp := fun u => by
    rw [untrip]
    split <;> split <;> rfl
  have hs : ∀ (c : Prop) [Decidable c] (e : Emit) (u : State), (if c then u else emit e u).dp = u.dp := fun c _ e u => by
    split <;> rfl
  simp only [setPause]
  split
  · rw [hun, hs]
  · split
    · rw [rest_dp (hwEvent_rest _ _ _), hs]
    · rw [hs]

theorem pauseOf_of_rx {s t : State} (h : t.rx = s.rx) (k : Nat) : pauseOf t k = pauseOf s k := by rw [pauseOf, h, pauseOf]

theorem setPause_rx (p i q : Nat) (s : State) :
    (setPause p i q s).rx = { s.rx with pause := tabSet (fun _ => 0) s.rx.pause (16 * p + i) q } := by
  have hun : ∀ u : State, (untrip p i u).rx = u.rx := fun u => by
    rw [untrip]
    split <;> split <;> rfl
  have hs : ∀ (c : Prop) [Decidable c] (e : Emit) (u : State), (if c then u else emit e u).rx = u.rx := fun c _ e u => by
    split <;> rfl
  have hev : ∀ (page n : Nat) (u : State), (hwEvent page n u).rx = u.rx := fun page n u =>
    congrArg (fun x => x.rx) (hwEvent_rest page n u)
  simp only [setPause]
  split
  · rw [hun, hs]
  · split
    · rw [hev, hs]
    · rw [hs]

theorem pauseOf_setPause (p i q k : Nat) (s : State) :
    pauseOf (setPause p i q s) k = if k = 16 * p + i then q else pauseOf s k := by
  rw [pauseOf, setPause_rx]
  exact tabGet_set (fun _ => 0) s.rx.pause (16 * p + i) k q

/-- What a frame that joins the spreader queue leaves (R143). -/
theorem spreadIn_joins {f : RxFrm} {s : State} (h : (queueOf s (f.port / 8)).length < 32) :
    queueOf (spreadIn f s).1 (f.port / 8) = queueOf s (f.port / 8) ++ [f]
      ∧ (∀ c, c ≠ f.port / 8 → queueOf (spreadIn f s).1 c = queueOf s c)
      ∧ (spreadIn f s).1.dp.opened = s.dp.opened ∧ (spreadIn f s).1.win.live = s.win.live ∧ (spreadIn f s).1.sec = s.sec
      ∧ (spreadIn f s).1.ctl = s.ctl := by
  have hq : ∀ c, queueOf { s with dp := { s.dp with queues := tabPut s.dp.queues (f.port / 8) (queueOf s (f.port / 8) ++ [f]) } } c
      = if c = f.port / 8 then queueOf s (f.port / 8) ++ [f] else queueOf s c :=
    fun c => tabGet_put (fun _ => []) s.dp.queues (f.port / 8) c _
  have e : ∃ r, (spreadIn f s).1 = { s with
      dp := { s.dp with queues := tabPut s.dp.queues (f.port / 8) (queueOf s (f.port / 8) ++ [f]) }
      win := { s.win with regs := r } } := by
    simp only [spreadIn, if_pos h]
    split
    · exact ⟨_, rfl⟩
    · exact ⟨s.win.regs, rfl⟩
  obtain ⟨r, e⟩ := e
  rw [e]
  exact ⟨(hq _).trans (if_pos rfl), fun c hc => (hq c).trans (if_neg hc), rfl, rfl, rfl, rfl⟩

/-- The frame that a port with the SecY off sends to its spreader queue. -/
def plainFrm (s : State) (p : Nat) (f got : List Byte) (x : RxStart) : RxFrm :=
  { port := p, data := f, fcs := if bit (rxCfg s p) 2 then got else [], secTag := false, encrypted := false, endMarks := 0
    macDiscard := false, ts := x.ts, unlocked := x.unlocked, cfg := parseCfgWords s, pend := false }

theorem enterSecY_plain {p : Nat} {f got : List Byte} (headLeft : Bool) {x : RxStart} {s : State} (hm : s.ctl.mode = .run)
    (hs : bit x.secy 16 = false) (hv : vlanPass s p f = true) :
    enterSecY p f got 0 false headLeft x false s = spreadIn (plainFrm s p f got x) s := by
  have hst : safeStopped s p = false := by rw [safeStopped, hm]; rfl
  have hsec : ∀ b, secRx x.secy p f b s = secPass f s := fun b => by rw [secRx]; simp only [hs, if_true]
  have hf : fcsOut s p f got false false = if bit (rxCfg s p) 2 then got else [] := by
    rw [fcsOut]
    cases bit (rxCfg s p) 2 <;> rfl
  rw [enterSecY]
  simp only [hst, Bool.false_eq_true, if_false, hsec, secPass, hv, Bool.true_eq_false, Bool.false_and, ite_self, enterQueue, hf,
    Bool.or_self]
  rfl

end Sys2Proof.Machine
end

section
namespace Sys2Proof.Machine

/-! ### The outcomes of RX_FRAME -/

section
variable {s : State} {p : PortNo} {frag : Byte} {o : List Byte} {headLeft : Bool} {age : Nat} {lane : Fin 8}
  (ho : tabFind s.dp.opened p = none) (hm : s.ctl.mode = .run) (hup : portUp s p = true) (hr : refuses s p 0xD5 age = false)
include ho hm hup hr

theorem rxFrame_short (hn : o.length < 64) :
    ∃ t, exec (.rxFrame p 0xD5 frag o false headLeft ⟨age, lane⟩) s = .next t ∧ t.dp = s.dp ∧ t.sec = s.sec
      ∧ (∀ a, a = rxCnt p (if fcsGood o then 0x80 else 0x84) → getLive t a = satAdd (liveMax a) (getLive s a) 1)
      ∧ getLive t (rxCnt p 0) = satAdd (liveMax (rxCnt p 0)) (getLive s (rxCnt p 0)) o.length := by
  have hexec := exec_rxFrame_run (frag := frag) (o := o) (headLeft := headLeft) (lane := lane) hm hup hr
  rw [rowsRx_short _ _ hn] at hexec
  generalize hc : (if fcsGood o then 0x80 else 0x84) = c at hexec ⊢
  have hc0 : c ≠ 0 := by rw [← hc]; split <;> decide
  have hk : rxCounted s (loupe 1 p 2 1 (addLive (rxCnt p c) 1 (countOctets p o.length s))) := by
    refine rxCounted_trans ?_ (rxCounted_loupe _ _ _ _ _)
    refine rxCounted_trans ?_ (rxCounted_addLive _ _ _)
    exact rxCounted_countOctets _ _ s
  rw [flushOpen_none (by rw [hk.dp]; exact ho)] at hexec
  refine ⟨_, hexec, hk.dp, hk.sec, fun a ha => ?_, ?_⟩
  · rw [ha, getLive_of_rest (loupe_rest _ _ _ _ _), getLive_addLive, if_pos rfl, getLive_countOctets, if_neg (rxCnt_inj hc0)]
  · rw [getLive_of_rest (loupe_rest _ _ _ _ _), getLive_addLive_other _ _ (rxCnt_inj hc0.symm), getLive_countOctets, if_pos rfl]

variable {f : List Byte} (hi : s.irqSane) (hf : f = o.take (o.length - 4)) (h1 : 64 ≤ o.length) (h2 : o.length ≤ 16383)
  (hg : fcsGood o = true)
include hi hf h1 h2 hg

omit ho hi in
/-- A good frame: what row 7 counts, and then admission and what lies behind it. -/
theorem exec_rxFrame_good {u : State}
    (hu : (intake p f (o.drop (o.length - 4)) 0 false (headLeft && bit (rxCfg s p) 1) (rxStart s p lane age) false
      (goodCounted p o.length (slice o 0 6) s)).1 = u) (hou : tabFind u.dp.opened p = none) :
    exec (.rxFrame p 0xD5 frag o false headLeft ⟨age, lane⟩) s = .next u := by
  rw [exec_rxFrame_run hm hup hr, rowsRx_good _ _ h1 h2 hg, ← hf, hu, flushOpen_none hou]

omit hi in
theorem rxFrame_full (ha : admits s (p / 8) = false) :
    ∃ t, exec (.rxFrame p 0xD5 frag o false headLeft ⟨age, lane⟩) s = .next t ∧ t.dp = s.dp
      ∧ getLive t (rxCnt p 0xAC) = satAdd (liveMax (rxCnt p 0xAC)) (getLive s (rxCnt p 0xAC)) 1 := by
  have hk := goodCounted_counted p o.length (slice o 0 6) s
  have hl := getLive_goodCounted p o.length (slice o 0 6) s (.inl rfl)
  have hin : (intake p f (o.drop (o.length - 4)) 0 false (headLeft && bit (rxCfg s p) 1) (rxStart s p lane age) false
      (goodCounted p o.length (slice o 0 6) s)).1 = addLive (rxCnt p 0xAC) 1 (goodCounted p o.length (slice o 0 6) s) := by
    rw [intake]
    simp only [hk.mode, hm, hk.admits, ha, ne_eq, reduceCtorEq, not_false_eq_true, true_and, if_true]
  refine ⟨_, exec_rxFrame_good hm hup hr hf h1 h2 hg hin (by rw [addLive_dp, hk.dp]; exact ho), hk.dp, ?_⟩
  rw [getLive_addLive, if_pos rfl, hl, if_neg (by decide)]

variable (ha : admits s (p / 8) = true)
include ha

theorem rxFrame_pause (hc : isMacCtrl s p f = true) (hop : beField f 14 2 = 1) (hmode : bits (rxCfg s p) 9 8 = 1) :
    ∃ t, exec (.rxFrame p 0xD5 frag o false headLeft ⟨age, lane⟩) s = .next t ∧ t.dp = s.dp
      ∧ pauseOf t (16 * p + 8) = beField f 16 2 := by
  have hk := goodCounted_counted p o.length (slice o 0 6) s
  have hcfg : rxCfg (goodCounted p o.length (slice o 0 6) s) p = rxCfg s p := hk.rxCfg hi p
  have hin : (intake p f (o.drop (o.length - 4)) 0 false (headLeft && bit (rxCfg s p) 1) (rxStart s p lane age) false
      (goodCounted p o.length (slice o 0 6) s)).1
        = setPause p 8 (beField f 16 2) (addLive (rxCnt p 0xB8) 1 (goodCounted p o.length (slice o 0 6) s)) := by
    rw [intake]
    simp only [hk.mode, hm, hk.admits, ha, Bool.true_eq_false, and_false, if_false, hk.isMacCtrl hi, hc, if_true, decide_true,
      Bool.not_false, Bool.and_self, macCtrlRx, hop, hcfg, hmode]
  refine ⟨_, exec_rxFrame_good hm hup hr hf h1 h2 hg hin (by rw [setPause_dp, addLive_dp, hk.dp]; exact ho), ?_, ?_⟩
  · rw [setPause_dp, addLive_dp, hk.dp]
  · rw [pauseOf_setPause, if_pos rfl]

variable (hc : isMacCtrl s p f = false)
include hc

theorem rxFrame_filtered (hd : addrPass s p f = false) :
    ∃ t, exec (.rxFrame p 0xD5 frag o false headLeft ⟨age, lane⟩) s = .next t ∧ t.dp = s.dp
      ∧ getLive t (rxCnt p 0xA4) = satAdd (liveMax (rxCnt p 0xA4)) (getLive s (rxCnt p 0xA4)) 1 := by
  have hk := goodCounted_counted p o.length (slice o 0 6) s
  have hl := getLive_goodCounted p o.length (slice o 0 6) s (.inr (.inl rfl))
  have hin : (intake p f (o.drop (o.length - 4)) 0 false (headLeft && bit (rxCfg s p) 1) (rxStart s p lane age) false
      (goodCounted p o.length (slice o 0 6) s)).1 = addLive (rxCnt p 0xA4) 1 (goodCounted p o.length (slice o 0 6) s) := by
    rw [intake]
    simp only [hk.mode, hm, hk.admits, ha, Bool.true_eq_false, and_false, if_false, hk.isMacCtrl hi, hc, Bool.false_eq_true,
      hk.addrPass hi, hd, if_true]
  refine ⟨_, exec_rxFrame_good hm hup hr hf h1 h2 hg hin (by rw [addLive_dp, hk.dp]; exact ho), hk.dp, ?_⟩
  rw [getLive_addLive, if_pos rfl, hl, if_neg (by decide)]

theorem rxFrame_queued (hd : addrPass s p f = true) (hs : bit (secCfg s p) 16 = false) (hv : vlanPass s p f = true)
    (hq : (queueOf s (p / 8)).length < 32) :
    ∃ t x, exec (.rxFrame p 0xD5 frag o false headLeft ⟨age, lane⟩) s = .next t
      ∧ queueOf t (p / 8) = queueOf s (p / 8) ++ [x] ∧ (∀ c, c ≠ p / 8 → queueOf t c = queueOf s c)
      ∧ x.port = p.val ∧ x.data = f ∧ x.fcs = (if bit (rxCfg s p) 2 then o.drop (o.length - 4) else [])
      ∧ x.macDiscard = false ∧ x.endMarks = 0 ∧ x.secTag = false ∧ x.pend = false
      ∧ x.ts = stampRx s p (startLane s p lane) age ∧ x.unlocked = unlockedAt s (serving s (p / 8)) ∧ x.cfg = parseCfgWords s
      ∧ getLive t (rxCnt p 0x10) = satAdd (liveMax (rxCnt p 0x10)) (getLive s (rxCnt p 0x10)) 1
      ∧ t.sec = s.sec ∧ t.ctl.mode = .run := by
  have hk := goodCounted_counted p o.length (slice o 0 6) s
  have hl := getLive_goodCounted p o.length (slice o 0 6) s (.inr (.inr rfl))
  rw [if_pos rfl] at hl
  have hexec := @exec_rxFrame_good s p frag o headLeft age lane hm hup hr f hf h1 h2 hg
  generalize goodCounted p o.length (slice o 0 6) s = w at hk hl hexec
  have hwm : w.ctl.mode = .run := hk.mode.trans hm
  have hqw : ∀ c, queueOf w c = queueOf s c := fun c => by rw [queueOf, hk.dp, queueOf]
  have hcfg : rxCfg w p = rxCfg s p := hk.rxCfg hi p
  have hsx : bit (rxStart s p lane age).secy 16 = false := hs
  have hin : (intake p f (o.drop (o.length - 4)) 0 false (headLeft && bit (rxCfg s p) 1) (rxStart s p lane age) false w).1
      = (spreadIn (plainFrm w p f (o.drop (o.length - 4)) (rxStart s p lane age)) w).1 := by
    rw [intake]
    simp only [hwm, hk.admits, ha, Bool.true_eq_false, and_false, if_false, hk.isMacCtrl hi, hc, Bool.false_eq_true,
      hk.addrPass hi, hd, reduceCtorEq]
    rw [enterSecY_plain _ hwm hsx ((hk.vlanPass hi p f).trans hv)]
  have hjoin := spreadIn_joins (f := plainFrm w p f (o.drop (o.length - 4)) (rxStart s p lane age)) (s := w)
    (show (queueOf w (p / 8)).length < 32 by rw [hqw]; exact hq)
  rw [← hin] at hjoin
  obtain ⟨hjq, hjo, hjop, hjl, hjs, hjc⟩ := hjoin
  have hpl : (plainFrm w p f (o.drop (o.length - 4)) (rxStart s p lane age)).fcs
      = if bit (rxCfg s p) 2 then o.drop (o.length - 4) else [] := by rw [← hcfg]; rfl
  refine ⟨_, plainFrm w p f (o.drop (o.length - 4)) (rxStart s p lane age), hexec rfl (by rw [hjop, hk.dp]; exact ho),
    hjq.trans (by rw [hqw]; rfl), fun c hne => (hjo c fun e => hne (Fin.ext e)).trans (hqw c), rfl, rfl, hpl, rfl, rfl, rfl, rfl, rfl, rfl,
    hk.parseCfgWords hi, ?_, hjs.trans hk.sec, ?_⟩
  · rw [getLive, hjl]
    exact hl
  · rw [hjc]
    exact hwm

end

/-! ### PAUSE_TIMER_EXPIRY -/

/-- A running timer that stops changes the pause state the switch core sees. -/
theorem pauseBits_stopped {s t : State} {p i : Nat} (hi : i < 9) (hs : pauseOf s (16 * p + i) ≠ 0)
    (ht : pauseOf t (16 * p + i) = 0) (ho : ∀ k, k ≠ 16 * p + i → pauseOf t k = pauseOf s k) : pauseBits t p ≠ pauseBits s p := by
  refine Nat.ne_of_lt (List.sum_lt_sum _ _ (fun j _ => ?_) ⟨i, List.mem_range.mpr hi, ?_⟩)
  · by_cases h0 : pauseOf t (16 * p + j) = 0
    · rw [if_pos h0]
      exact Nat.zero_le _
    · rw [ho _ fun e => h0 (by rw [e, ht])]
  · rw [if_pos ht, if_neg hs]
    exact Nat.two_pow_pos i

theorem untrip_frame (p i : Nat) (s : State) :
    untrip p i s = { s with win := { s.win with regs := (untrip p i s).win.regs } } := by
  rw [untrip]
  split <;> split <;> rfl

theorem getReg_untrip {p i b : Nat} (s : State) (h : b ≠ txStA p) : getReg (untrip p i s) b = getReg s b := by
  rw [untrip]
  split <;> split
  · rfl
  · exact getReg_setF_other _ _ _ _ h
  · exact getReg_setB_other _ _ _ h
  · rfl

theorem untrip_clear (p i : Nat) (s : State) (hi : i < 9) :
    if i = 8 then getF (untrip p i s) (txStA p) 23 16 = 0 else getB (untrip p i s) (txStA p) (16 + i) = false := by
  rw [untrip]
  by_cases e : i = 8
  · rw [if_pos e, if_pos e]
    split
    · assumption
    · exact getF_setF_same (txStA p) 0 s (by decide)
  · rw [if_neg e, if_neg e]
    split
    · exact getB_setB_same _ _ _ _ (by omega)
    · next h => exact Bool.eq_false_iff.mpr h

theorem setPause_stop {p i : Nat} {s : State} (hi : i < 9) (hs : pauseOf s (16 * p + i) ≠ 0) :
    ∃ u, u = { s with rx := { s.rx with pause := tabSet (fun _ => 0) s.rx.pause (16 * p + i) 0 } }
      ∧ setPause p i 0 s = untrip p i (emit (.pause p (pauseBits u p)) u) := by
  have hp : ∀ k, pauseOf { s with rx := { s.rx with pause := tabSet (fun _ => 0) s.rx.pause (16 * p + i) 0 } } k
      = if k = 16 * p + i then 0 else pauseOf s k := fun k => tabGet_set (fun _ => 0) s.rx.pause (16 * p + i) k 0
  have hb := pauseBits_stopped (t := { s with rx := { s.rx with pause := tabSet (fun _ => 0) s.rx.pause (16 * p + i) 0 } }) hi hs
    ((hp _).trans (if_pos rfl)) fun k hk => (hp k).trans (if_neg hk)
  refine ⟨_, rfl, ?_⟩
  simp only [setPause, if_true, if_neg hb]

theorem pauseTimer_expires {s : State} {p : PortNo} {i : Fin 9} (hs : pauseOf s (16 * p.val + i.val) ≠ 0) :
    ∃ t, exec (.pauseTimerExpiry p i) s = .next t ∧ pauseOf t (16 * p.val + i.val) = 0
      ∧ (∀ k, k ≠ 16 * p.val + i.val → pauseOf t k = pauseOf s k)
      ∧ (if i = 8 then getF t (txStA p) 23 16 = 0 else getB t (txStA p) (16 + i.val) = false)
      ∧ (∀ b, b ≠ txStA p → getReg t b = getReg s b) ∧ t.out = s.out ++ [.pause p (pauseBits t p)]
      ∧ t = { s with win := { s.win with regs := t.win.regs }, rx := t.rx, out := t.out } := by
  have hexec : exec (.pauseTimerExpiry p i) s = .next (setPause p i 0 s) := by
    show execPauseTimerExpiry p i s = _
    rw [execPauseTimerExpiry, if_neg hs]
  have hpk := fun k => pauseOf_setPause p i 0 k s
  obtain ⟨u, hu, he⟩ := setPause_stop i.isLt hs
  have hfr := untrip_frame p i (emit (.pause p (pauseBits u p)) u)
  have hcl := untrip_clear p i (emit (.pause p (pauseBits u p)) u) i.isLt
  have hreg := fun b hb => @getReg_untrip p i b (emit (.pause p (pauseBits u p)) u) hb
  rw [← he] at hfr hcl hreg
  have hrx : (setPause p i 0 s).rx = u.rx := congrArg (fun x => x.rx) hfr
  have hbits : pauseBits (setPause p i 0 s) p = pauseBits u p := by
    rw [pauseBits, pauseBits]
    simp only [pauseOf_of_rx hrx]
  have hout : (setPause p i 0 s).out = s.out ++ [.pause p (pauseBits u p)] := by
    rw [congrArg (fun x => x.out) hfr, hu]
    rfl
  refine ⟨_, hexec, (hpk _).trans (if_pos rfl), fun k hk => (hpk k).trans (if_neg hk), ?_, fun b hb => ?_, ?_, ?_⟩
  · by_cases e : i = 8
    · rw [if_pos e]
      rwa [if_pos (by rw [e]; rfl)] at hcl
    · rw [if_neg e]
      rwa [if_neg (show ¬ i.val = 8 from fun h => e (Fin.ext h))] at hcl
  · rw [hreg b hb, hu]
    rfl
  · rw [hbits, hout]
  · generalize setPause p i 0 s = v at hfr hrx
    rw [hfr, hu]
    rfl

/-! ### MAC_TABLE_WRITE and MAC_TABLE_READ -/

/-- A table command that ends shows STATE and latches its event. -/
theorem tblEnd_ends {n : Nat} {s : State} (ok : Bool) (hi : s.irqSane) :
    getReg (tblEnd n ok s) (adr (pgCl n 0) 0x0D8) = (if ok then 2 else 11)
      ∧ (getReg (tblEnd n ok s) (adr (pgCl n 0) 0x24)).getLsbD (if ok then 3 else 4) = true
      ∧ (∀ b, 0xA9000 ≤ b → b ≠ adr (pgCl n 0) 0x0D8 → b ≠ adr (pgCl n 0) 0x24 → b ≠ adr (pgCl n 0) 0x40 →
        getReg (tblEnd n ok s) b = getReg s b)
      ∧ (tblEnd n ok s).rest = s.rest := by
  have hp : 0xA9 ≤ pgCl n 0 := by simp only [pgCl]; omega
  have hi' : (setReg (adr (pgCl n 0) 0x0D8) (if ok then 2 else 11) s).irqSane := hi
  have hh := hwEvent_high (pgCl n 0) (if ok then 3 else 4) _ hi'
  rw [tblEnd]
  refine ⟨?_, ?_, fun b hb h1 h2 h3 => ?_, ?_⟩
  · rw [hh.2 _ (by simp only [adr]; omega) (by simp only [adr]; omega) (by simp only [adr]; omega), getReg_setReg_same]
  · rw [hwEvent_high_latch _ _ _ hi' hp, getLsbD_putBit]
    cases ok <;> simp
  · rw [hh.2 b hb h2 h3, getReg_setReg_other _ _ h1]
  · rw [hwEvent_rest, rest_setReg]

theorem exec_macTableWrite {s : State} {q : CmdPort} {cl : ClusterNo} (h : plainWrite s q (adr (pgCl cl 0) 0x0CC)) :
    exec (.macTableWrite q cl) s = .next (tblWrite (home s cl) s) := congrArg Host.Outcome.next (gatedWrite_plain 1 _ h)

theorem exec_macTableRead {s : State} {q : CmdPort} {cl : ClusterNo} (h : plainWrite s q (adr (pgCl cl 0) 0x0CC)) :
    exec (.macTableRead q cl) s = .next (tblRead (home s cl) s) := congrArg Host.Outcome.next (gatedWrite_plain 2 _ h)

section
variable {s : State} {q : CmdPort} {cl : ClusterNo} {n : Nat} (hi : s.irqSane) (hn : n = home s cl)
  (hw : plainWrite s q (adr (pgCl cl 0) 0x0CC))
include hi hn hw

theorem macTable_named {t sl i : Nat} (h : tblNamed s n = some (t, sl, i)) :
    (∃ u, exec (.macTableWrite q cl) s = .next u
        ∧ tblGet u n t sl i = BitVec.ofNat 64 (getPair s (adr (pgCl n 0) 0x0C4)) &&& tblMask t
        ∧ (∀ k, k ≠ tblKey n t sl i → tabGet (fun _ => 0) u.rx.tables k = tabGet (fun _ => 0) s.rx.tables k)
        ∧ getReg u (adr (pgCl n 0) 0x0D8) = 2 ∧ u.dp = s.dp)
      ∧ ∃ u, exec (.macTableRead q cl) s = .next u ∧ getPair u (adr (pgCl n 0) 0x0D0) = (tblGet s n t sl i).toNat
        ∧ getReg u (adr (pgCl n 0) 0x0D8) = 2 ∧ u.rx = s.rx ∧ u.dp = s.dp := by
  refine ⟨?_, ?_⟩
  · have hexec := exec_macTableWrite hw
    rw [← hn, tblWrite, h] at hexec
    obtain ⟨hst, _, _, hr⟩ := tblEnd_ends (n := n) (s := tblPut n t sl i (BitVec.ofNat 64 (getPair s (adr (pgCl n 0) 0x0C4))) s)
      true hi
    have hrx : (tblEnd n true (tblPut n t sl i (BitVec.ofNat 64 (getPair s (adr (pgCl n 0) 0x0C4))) s)).rx
        = (tblPut n t sl i (BitVec.ofNat 64 (getPair s (adr (pgCl n 0) 0x0C4))) s).rx := congrArg (fun x => x.rx) hr
    have hk : ∀ k, tabGet (fun _ => 0) (tblPut n t sl i (BitVec.ofNat 64 (getPair s (adr (pgCl n 0) 0x0C4))) s).rx.tables k
        = if k = tblKey n t sl i then BitVec.ofNat 64 (getPair s (adr (pgCl n 0) 0x0C4)) &&& tblMask t
          else tabGet (fun _ => 0) s.rx.tables k := fun k => tabGet_set (fun _ => 0) s.rx.tables (tblKey n t sl i) k _
    refine ⟨_, hexec, ?_, fun k hne => ?_, hst, congrArg (fun x => x.dp) hr⟩
    · rw [tblGet, hrx, hk, if_pos rfl]
    · rw [hrx, hk, if_neg hne]
  · have hexec := exec_macTableRead hw
    rw [← hn, tblRead, h] at hexec
    obtain ⟨hst, _, hreg, hr⟩ := tblEnd_ends (n := n) (s := setPair (adr (pgCl n 0) 0x0D0) (tblGet s n t sl i).toNat s) true hi
    refine ⟨_, hexec, ?_, hst, congrArg (fun x => x.rx) hr, congrArg (fun x => x.dp) hr⟩
    rw [getPair_congr (hreg _ (by simp only [adr, pgCl]; omega) (by simp only [adr]; omega) (by simp only [adr]; omega)
        (by simp only [adr]; omega)) (hreg _ (by simp only [adr, pgCl]; omega) (by simp only [adr]; omega)
        (by simp only [adr]; omega) (by simp only [adr]; omega)), getPair_setPair, Nat.mod_eq_of_lt (tblGet s n t sl i).isLt]

theorem macTable_unnamed (h : tblNamed s n = none) {c : Instr} (hc : c = .macTableWrite q cl ∨ c = .macTableRead q cl) :
    ∃ u, exec c s = .next u ∧ getReg u (adr (pgCl n 0) 0x0D8) = 11 ∧ (getReg u (adr (pgCl n 0) 0x24)).getLsbD 4 = true
      ∧ u.rest = s.rest := by
  have hexec : exec c s = .next (tblEnd n false s) := by
    rcases hc with rfl | rfl
    · rw [exec_macTableWrite hw, ← hn, tblWrite, h]
    · rw [exec_macTableRead hw, ← hn, tblRead, h]
  obtain ⟨h1, h2, _, h4⟩ := tblEnd_ends (n := n) false hi
  exact ⟨_, hexec, h1, h2, h4⟩

end

/-! ### What changes nothing -/

theorem rxFrame_nothing {s : State} {p : PortNo} {start frag : Byte} {o : List Byte} {codeErr headLeft : Bool} {age : Nat}
    {lane : Fin 8} (ho : tabFind s.dp.opened p = none)
    (h : s.ctl.mode = .hold ∨ s.ctl.mode = .proof
      ∨ (s.ctl.mode = .still ∧ (s.ctl.sleep ≠ .dim ∨ portShape s p = none ∨ bit (rxCfg s p) 12 = false))
      ∨ (s.ctl.mode = .run ∧ portUp s p = false ∧ tabFind s.prt.fell p = none)
      ∨ (s.ctl.mode = .run ∧ portUp s p = true ∧ refuses s p start age = true)) :
    exec (.rxFrame p start frag o codeErr headLeft ⟨age, lane⟩) s = .next s := by
  show execRxFrame p start frag o codeErr headLeft ⟨age, lane⟩ s = _
  rcases h with hm | hm | ⟨hm, hn⟩ | ⟨hm, hd, hf⟩ | ⟨hm, hu, hr⟩
  · simp only [execRxFrame, hm]
  · simp only [execRxFrame, hm]
  · have hno : ¬ (s.ctl.sleep = .dim ∧ (portShape s p).isSome = true ∧ bit (rxCfg s p) 12 = true) := by
      rintro ⟨h1, h2, h3⟩
      rcases hn with hn | hn | hn
      · exact hn h1
      · rw [hn] at h2; cases h2
      · rw [hn] at h3; cases h3
    simp only [execRxFrame, hm, if_neg hno]
  · simp only [execRxFrame, hm, rxAt, hd, Bool.false_eq_true, if_false, hf, flushOpen_none ho]
  · simp only [execRxFrame, hm, rxAt, hu, if_true, hr, flushOpen_none ho]

/-- Settles O50: a frame by its outcome at the MAC, a pause timer that runs out, and the named entry of a table. -/
theorem macReceive : Obligations.MacReceive := by
  intro s p frag o f headLeft age lane hi ho
  refine ⟨fun start codeErr h => rxFrame_nothing ho h, fun hm hup hr hf => ⟨fun hn => rxFrame_short ho hm hup hr hn,
    fun h1 h2 hg => ⟨?_, ?_, ?_, ?_⟩⟩, fun i => ⟨fun h0 => ?_, pauseTimer_expires⟩,
    fun q cl n hn hw => ⟨fun t sl i h => macTable_named hi hn hw h, fun h c hc => macTable_unnamed hi hn hw h hc⟩⟩
  · exact rxFrame_full ho hm hup hr hf h1 h2 hg
  · exact rxFrame_pause ho hm hup hr hi hf h1 h2 hg
  · exact rxFrame_filtered ho hm hup hr hi hf h1 h2 hg
  · exact rxFrame_queued ho hm hup hr hi hf h1 h2 hg
  · show execPauseTimerExpiry p i s = _
    rw [execPauseTimerExpiry, if_pos h0]

end Sys2Proof.Machine
end

section
namespace Sys2Proof.Machine

/-! ### What the repairs of PROOF leave alone -/

/-- The mode, the pins, PROOF_STATUS and the command ports with what waits at them. -/
def State.stand (s : State) : (Mode × Bool × Bool × Pins × Proof) × Cmd × Option CmdPort × List (List Byte) :=
  ((s.ctl.mode, s.ctl.halted, s.ctl.warm, s.ctl.pins, s.ctl.proof), s.cmd, s.nv.restore, s.fed.outbox)

theorem stand_of_rest {s t : State} (h : t.rest = s.rest) : t.stand = s.stand :=
  show t.rest.stand = s.rest.stand by rw [h]

theorem stand_of_data {s t : State} (h : dataKeeps s t) : t.stand = s.stand :=
  show t.control.stand = s.control.stand by rw [h.control]

theorem stand_of_tx {s t : State} (h : txKeeps s t) : t.stand = s.stand := stand_of_data (dataKeeps_of_tx h)

section
variable (s : State)

@[simp] theorem stand_win (x : Win) : State.stand { s with win := x } = s.stand := rfl
@[simp] theorem stand_fix (x : Fix) : State.stand { s with fix := x } = s.stand := rfl
@[simp] theorem stand_rx (x : Rx) : State.stand { s with rx := x } = s.stand := rfl
@[simp] theorem stand_dp (x : Dp) : State.stand { s with dp := x } = s.stand := rfl
@[simp] theorem stand_sec (x : Sec) : State.stand { s with sec := x } = s.stand := rfl
@[simp] theorem stand_prt (x : Prt) : State.stand { s with prt := x } = s.stand := rfl
@[simp] theorem stand_pwr (x : Pwr) : State.stand { s with pwr := x } = s.stand := rfl
@[simp] theorem stand_tim (x : Tim) : State.stand { s with tim := x } = s.stand := rfl
@[simp] theorem stand_faults (x : Faults) : State.stand { s with ctl := { s.ctl with faults := x } } = s.stand := rfl
@[simp] theorem stand_win_rx (x : Win) (y : Rx) : State.stand { s with win := x, rx := y } = s.stand := rfl
@[simp] theorem stand_fix_faults (x : Fix) (y : Faults) :
    State.stand { s with fix := x, ctl := { s.ctl with faults := y } } = s.stand := rfl
@[simp] theorem setReg_stand (a : Nat) (w : Word) : (setReg a w s).stand = s.stand := rfl
@[simp] theorem setF_stand (a hi lo v : Nat) : (setF a hi lo v s).stand = s.stand := rfl
@[simp] theorem setB_stand (a n : Nat) (b : Bool) : (setB a n b s).stand = s.stand := rfl
@[simp] theorem addF_stand (a hi lo n : Nat) : (addF a hi lo n s).stand = s.stand := rfl
@[simp] theorem setPair_stand (a v : Nat) : (setPair a v s).stand = s.stand := rfl
@[simp] theorem setWords_stand (a : Nat) (l : List Word) : (setWords a l s).stand = s.stand := stand_of_rest (setWords_rest a l s)
@[simp] theorem addLive_stand (a n : Nat) : (addLive a n s).stand = s.stand := rfl
@[simp] theorem nextFree_stand : (nextFree s).stand = s.stand := rfl
@[simp] theorem nvWrite_stand (a : Nat) (d : List Byte) : (nvWrite a d s).stand = s.stand := rfl
@[simp] theorem hwEvent_stand (page n : Nat) : (hwEvent page n s).stand = s.stand := stand_of_rest (hwEvent_rest page n s)
@[simp] theorem loupe_stand (u i g n : Nat) : (loupe u i g n s).stand = s.stand := stand_of_rest (loupe_rest u i g n s)
@[simp] theorem irqEdge_stand (n : Nat) : (irqEdge n s).stand = s.stand := stand_of_rest (irqEdge_rest n s)
@[simp] theorem irqSettle_stand : (irqSettle s).stand = s.stand := stand_of_rest (irqSettle_rest s)

end

/-- A fold whose steps keep the stand keeps it. -/
theorem foldl_stand {α : Type} {f : State → α → State} (h : ∀ s a, (f s a).stand = s.stand) (l : List α) (s : State) :
    (l.foldl f s).stand = s.stand := by
  induction l generalizing s with
  | nil => rfl
  | cons a r ih => exact (ih _).trans (h s a)

/-! ### Units, pipes and clusters -/

@[simp] theorem putMap_stand (u : UnitId) (m : UnitMap) (s : State) : (putMap u m s).stand = s.stand := rfl
@[simp] theorem setUnit_stand (u : UnitId) (v : Nat) (s : State) : (setUnit u v s).stand = s.stand := rfl
@[simp] theorem setStands_stand (u : UnitId) (f : Option Nat) (s : State) : (setStands u f s).stand = s.stand := rfl
@[simp] theorem countRetired_stand (u : UnitId) (c : Nat) (s : State) : (countRetired u c s).stand = s.stand := rfl
@[simp] theorem queueDecision_stand (d : Decision) (s : State) : (queueDecision d s).stand = s.stand := rfl
@[simp] theorem setRing_stand (k : Nat) (x : Option Nat) (s : State) : (setRing k x s).stand = s.stand := rfl
@[simp] theorem powerCluster_stand (n : Nat) (v : Bool) (s : State) : (powerCluster n v s).stand = s.stand := rfl
@[simp] theorem copyKeys_stand (a b : Nat) (s : State) : (copyKeys a b s).stand = s.stand := rfl
@[simp] theorem storeMap_stand (s : State) : (storeMap s).stand = s.stand := by
  have h : ∀ (x : Fix) (w : Tab Nat), State.stand { s with fix := x, nv := { s.nv with wear := w } } = s.stand := fun _ _ => rfl
  exact h _ _
@[simp] theorem drainDown_stand (k : Nat) (s : State) : (drainDown k s).stand = s.stand := rfl
@[simp] theorem resolveNumber_stand (d : Dealt) (f : Fate) (s : State) : (resolveNumber d f s).stand = s.stand := rfl
@[simp] theorem countLost_stand (p n : Nat) (s : State) : (countLost p n s).stand = s.stand :=
  (loupe_stand _ _ _ _ _).trans ((addLive_stand _ _ _).trans (addLive_stand _ _ _))
@[simp] theorem latchLost_stand (c p n r : Nat) (s : State) : (latchLost c p n r s).stand = s.stand :=
  (hwEvent_stand _ _ _).trans ((setReg_stand _ _ _).trans (setReg_stand _ _ _))
@[simp] theorem rotationChanged_stand (s : State) : (rotationChanged s).stand = s.stand := hwEvent_stand s pgSpread 1
@[simp] theorem noSpare_stand (s : State) : (noSpare s).stand = s.stand :=
  (hwEvent_stand _ _ _).trans (stand_faults s _)
@[simp] theorem lastRepair_stand (o : Nat) (d : Decision) (n : Nat) (s : State) : (lastRepair o d n s).stand = s.stand :=
  (setPair_stand _ _ _).trans (setReg_stand _ _ _)

@[simp] theorem noteUsed_stand (x : Nat) (s : State) : (noteUsed x s).stand = s.stand := by
  unfold noteUsed
  split <;> rfl

@[simp] theorem setPipe_stand (p v : Nat) (s : State) : (setPipe p v s).stand = s.stand := by
  unfold setPipe
  split
  · rfl
  · exact hwEvent_stand _ _ _

@[simp] theorem setAny_stand (u : UnitId) (v : Nat) (s : State) : (setAny u v s).stand = s.stand := by
  unfold setAny
  split
  · exact setPipe_stand _ _ _
  · rfl

@[simp] theorem joinAt_stand (k x : Nat) (s : State) : (joinAt k x s).stand = s.stand := by simp [joinAt]

@[simp] theorem replacePipe_stand (p v : Nat) (sub : Option Nat) (s : State) : (replacePipe p v sub s).stand = s.stand := by
  unfold replacePipe
  simp only [rotationChanged_stand, setPipe_stand]
  split
  · exact joinAt_stand _ _ _
  · rfl

@[simp] theorem loseDealt_stand (l : List Dealt) (s : State) : (loseDealt l s).stand = s.stand := by
  induction l generalizing s with
  | nil => rfl
  | cons d r ih =>
    simp only [loseDealt, ih]
    split <;> simp

@[simp] theorem losePipe_stand (p : Nat) (s : State) : (losePipe p s).stand = s.stand := by
  unfold losePipe
  simp only
  split <;> simp

@[simp] theorem pipeOut_stand (p : Nat) (sub : Option Nat) (s : State) : (pipeOut p sub s).stand = s.stand := by simp [pipeOut]

@[simp] theorem showNoKeys_stand (c : Nat) (s : State) : (showNoKeys c s).stand = s.stand := by
  unfold showNoKeys
  refine (foldl_stand (fun x i => ?_) _ _).trans (foldl_stand (fun x i => ?_) _ _)
  · simp only
    split <;> rfl
  · simp only [setPair_stand]
    split <;> rfl

@[simp] theorem clearKeys_stand (c : Nat) (s : State) : (clearKeys c s).stand = s.stand := by
  unfold clearKeys
  split
  · simp only
    split <;> simp
  · rfl

@[simp] theorem clusterKeysOff_stand (c : Nat) (s : State) : (clusterKeysOff c s).stand = s.stand := by simp [clusterKeysOff]

@[simp] theorem clusterKeysOn_stand (c : Nat) (s : State) : (clusterKeysOn c s).stand = s.stand := by
  unfold clusterKeysOn
  split
  · simp only
    split <;> simp
  · rfl

@[simp] theorem clusterDown_stand (n : Nat) (s : State) : (clusterDown n s).stand = s.stand := by simp [clusterDown]

@[simp] theorem clusterUp_stand (n : Nat) (s : State) : (clusterUp n s).stand = s.stand := by
  unfold clusterUp
  split <;> simp

@[simp] theorem downAll_stand (l : List Nat) (s : State) : (downAll l s).stand = s.stand := by
  induction l generalizing s with
  | nil => rfl
  | cons p r ih => exact (ih _).trans (stand_of_data (dataKeeps_downPort p s))

@[simp] theorem holdPorts_stand (v : Bool) (l : List Nat) (s : State) : (holdPorts v l s).stand = s.stand := by
  induction l generalizing s with
  | nil => rfl
  | cons p r ih => exact ih _

@[simp] theorem degradeUnit_stand (u : UnitId) (s : State) : (degradeUnit u s).stand = s.stand := by
  unfold degradeUnit
  split <;> simp

@[simp] theorem retire_stand (u : UnitId) (c : Nat) (s : State) : (retire u c s).stand = s.stand := by
  unfold retire
  simp only
  split
  · rfl
  · simp only [setStands_stand, setUnit_stand]
    split <;> simp

@[simp] theorem showSlice8_stand (h c : Nat) (s : State) : (showSlice8 h c s).stand = s.stand := by
  unfold showSlice8
  exact (setReg_stand _ _ _).trans (foldl_stand (fun x _ => setB_stand x _ _ _) _ _)

@[simp] theorem moveToSpare_stand (m : Migration) (s : State) : (moveToSpare m s).stand = s.stand := by
  match h : m.dec.unit.type with
  | 0 => simp only [moveToSpare, h, hwEvent_stand, showSlice8_stand, setStands_stand, setUnit_stand, retire_stand]
  | 1 =>
    simp only [moveToSpare, h, hwEvent_stand, showSlice8_stand, setStands_stand, setUnit_stand, retire_stand, stand_prt,
      copyKeys_stand]
  | n + 2 =>
    simp only [moveToSpare, h]
    split
    · exact (pipeOut_stand _ _ _).trans (retire_stand _ _ _)
    · exact (replacePipe_stand _ _ _ _).trans (retire_stand _ _ _)

/-! ### The repair journal -/

@[simp] theorem writeEntry_stand (e : HeldEntry) (s : State) : (writeEntry e s).stand = s.stand := by
  unfold writeEntry
  simp only
  split <;> rfl

@[simp] theorem flushEntries_stand (l : List HeldEntry) (s : State) : (flushEntries l s).stand = s.stand := by
  induction l generalizing s with
  | nil => rfl
  | cons e r ih =>
    unfold flushEntries
    split
    · simp [ih]
    · rfl

@[simp] theorem flushJournal_stand (s : State) : (flushJournal s).stand = s.stand := by
  unfold flushJournal
  split
  · rfl
  · simp only [flushEntries_stand]
    split <;> simp

@[simp] theorem journalHour_stand (s : State) : (journalHour s).stand = s.stand := by
  unfold journalHour
  split <;> simp

@[simp] theorem journalEntry_stand (e : HeldEntry) (s : State) : (journalEntry e s).stand = s.stand := by
  unfold journalEntry
  simp only
  split
  · simp
  · split <;> simp

@[simp] theorem proofJournal_stand (ev : Nat) (u : UnitId) (n : Nat) (s : State) : (proofJournal ev u n s).stand = s.stand :=
  journalEntry_stand _ _

@[simp] theorem journal_stand (ev : Nat) (d : Decision) (u : UnitId) (n k : Nat) (s : State) :
    (journal ev d u n k s).stand = s.stand := journalEntry_stand _ _

@[simp] theorem journalOther_stand (d : Decision) (u : UnitId) (n k : Nat) (s : State) :
    (journalOther d u n k s).stand = s.stand := journalEntry_stand _ _

@[simp] theorem condemn_stand (d : Decision) (u : UnitId) (n : Nat) (s : State) : (condemn d u n s).stand = s.stand := by
  simp [condemn]

/-! ### The fate of a tested unit -/

@[simp] theorem clusterBack_stand (n : Nat) (s : State) : (clusterBack n s).stand = s.stand := by
  unfold clusterBack
  split
  · rfl
  · exact (stand_of_data (dataKeeps_sampleLanes _ _)).trans (clusterUp_stand n s)

@[simp] theorem passedUnit_stand (u : UnitId) (s : State) : (passedUnit u s).stand = s.stand := by
  unfold passedUnit
  split
  · split <;> simp
  · split
    · rfl
    split
    · rfl
    split <;> simp

@[simp] theorem decideFate_stand (d : Decision) (n : Nat) (u : UnitId) (pass : Bool) (s : State) :
    (decideFate d n u pass s).stand = s.stand := by
  unfold decideFate
  simp only
  split
  · simp
  · split <;> simp

/-! ### The units that PROOF may not use -/

@[simp] theorem proofSpare_stand (u : UnitId) (v : Nat) (s : State) : (proofSpare u v s).1.stand = s.stand := by
  unfold proofSpare
  split
  · split
    · simp
    · simp only [setUnit_stand]
      split <;> split <;> simp
  · simp only [noSpare_stand, stand_fix]
    split <;> simp

@[simp] theorem placeUnits_stand (l : List UnitId) (s : State) : (placeUnits l s).stand = s.stand := by
  induction l generalizing s with
  | nil => rfl
  | cons u r ih =>
    simp only [placeUnits, ih]
    split <;> simp

@[simp] theorem placePipes_stand (l : List Nat) (s : State) : (placePipes l s).stand = s.stand := by
  induction l generalizing s with
  | nil => rfl
  | cons p r ih =>
    simp only [placePipes, ih]
    split
    · split <;> simp
    · rfl

@[simp] theorem testFates_stand (l : List (UnitId × Nat)) (s : State) : (testFates l s).stand = s.stand := by
  induction l generalizing s with
  | nil => rfl
  | cons x r ih =>
    simp only [testFates, ih]
    split
    · rfl
    split
    · simp
    split <;> simp

@[simp] theorem returnRest_stand (l : List TestJob) (s : State) : (returnRest l s).stand = s.stand := by
  induction l generalizing s with
  | nil => rfl
  | cons j r ih =>
    simp only [returnRest, ih]
    split <;> simp

@[simp] theorem returnTested_stand (s : State) : (returnTested s).stand = s.stand := by
  have h : ∀ x : State, (clearTested x).stand = x.stand := fun x => rfl
  have hr : ∀ x : State, (restClusters x).stand = x.stand := fun x => rfl
  simp only [returnTested, hr]
  exact (placeUnits_stand _ _).trans (by simp [h])

/-! ### The steps' own operations -/

@[simp] theorem darkClear_stand (ok : Bool) (c : Nat) (s : State) : (darkClear ok c s).stand = s.stand := by
  unfold darkClear
  simp only
  split
  · simp
  · split <;> simp

@[simp] theorem clearBefore_stand (l : List Nat) (s : State) : (clearBefore l s).stand = s.stand :=
  foldl_stand (fun _ _ => darkClear_stand _ _ _) l s

@[simp] theorem repairL2_stand (f : Nat → Bool) (n : Nat) (s : State) : (repairL2 f n s).stand = s.stand := rfl
@[simp] theorem acquire_stand (l : List Nat) (s : State) : (acquire l s).stand = s.stand := rfl

@[simp] theorem writeMapOnce_stand (s : State) : (writeMapOnce s).stand = s.stand := by
  unfold writeMapOnce
  split
  · rfl
  · exact (addF_stand _ _ _ _ _).trans (storeMap_stand s)

@[simp] theorem putPipes_stand (m : Tab UnitMap) (l : List Nat) (s : State) : (putPipes m l s).stand = s.stand := by
  induction l generalizing s with
  | nil => rfl
  | cons p r ih =>
    simp only [putPipes, ih]
    split <;> simp

@[simp] theorem applyMap_stand (s : State) : (applyMap s).stand = s.stand := by
  unfold applyMap
  refine (foldl_stand (fun x n => showSlice8_stand _ _ x) _ _).trans ?_
  exact putPipes_stand _ _ _

@[simp] theorem setSlotKeys_stand (v : Nat) (sel miss tag : List Byte) (s : State) :
    (setSlotKeys v sel miss tag s).stand = s.stand := by simp [setSlotKeys]

theorem loadBoot_stand {sel miss tag recs : List Byte} {n : Nat} {s t : State}
    (h : loadBoot sel miss tag recs n s = some t) : t.stand = s.stand := by
  unfold loadBoot at h
  split at h
  · cases h
  · cases h
    simp
    rfl

theorem evtMaskClr_rest (page : Nat) (v : Word) (s : State) : (evtMaskClr page v s).rest = s.rest := by
  unfold evtMaskClr
  simp only
  split
  · split <;> simp
  · rfl

@[simp] theorem unmaskPages_stand (l : List Nat) (s : State) : (unmaskPages l s).stand = s.stand := by
  induction l generalizing s with
  | nil => rfl
  | cons g r ih =>
    simp only [unmaskPages, ih]
    split
    · exact stand_of_rest (evtMaskClr_rest _ _ _)
    · rfl

@[simp] theorem maskClrWrite_stand (w : Nat) (v : Word) (s : State) : (maskClrWrite w v s).stand = s.stand :=
  (irqSettle_stand _).trans (setReg_stand _ _ _)

@[simp] theorem unmask3_stand (s : State) : (unmask3 s).stand = s.stand := by
  rw [unmask3, unmaskPages_stand]
  exact foldl_stand (fun x w => maskClrWrite_stand w _ x) _ s

@[simp] theorem setSelected_stand (sel : Nat → Bool) (l : Tab Word) (s : State) : (setSelected sel l s).stand = s.stand := by
  induction l generalizing s with
  | nil => rfl
  | cons x r ih =>
    simp only [setSelected, ih]
    split <;> rfl

@[simp] theorem setTs_stand (o : Overlay) (l : List Nat) (s : State) : (setTs o l s).stand = s.stand := by
  induction l generalizing s with
  | nil => rfl
  | cons p r ih =>
    simp only [setTs, ih]
    split <;> rfl

@[simp] theorem setMaps_stand (o : Overlay) (l : List Nat) (s : State) : (setMaps o l s).stand = s.stand := by
  induction l generalizing s with
  | nil => rfl
  | cons n r ih => simp [setMaps, ih, setMap]

@[simp] theorem loadCal_stand (o : Overlay) (l : List Nat) (rest live : Bool) (s : State) :
    (loadCal o l rest live s).stand = s.stand := by
  unfold loadCal
  simp only
  split
  · simp only [setTs_stand, setMaps_stand, setSelected_stand, stand_win_rx]
  · simp only [setSelected_stand, stand_win_rx]

end Sys2Proof.Machine
end

section
namespace Sys2Proof.Machine

/-! ### What a SAFELIGHT trigger leaves alone -/

/-- The mode, PROOF_STATUS, the pins and the time island. -/
def State.drive (s : State) : Mode × Proof × Pins × Tim := (s.ctl.mode, s.ctl.proof, s.ctl.pins, s.tim)

theorem drive_of_rest {s t : State} (h : t.rest = s.rest) : t.drive = s.drive :=
  show t.rest.drive = s.rest.drive by rw [h]

@[simp] theorem hwEvent_drive (page n : Nat) (s : State) : (hwEvent page n s).drive = s.drive :=
  drive_of_rest (hwEvent_rest page n s)

@[simp] theorem noteWake_drive (c l : Nat) (s : State) : (noteWake c l s).drive = s.drive :=
  drive_of_rest (noteWake_rest c l s)

@[simp] theorem setWords_drive (a : Nat) (l : List Word) (s : State) : (setWords a l s).drive = s.drive :=
  drive_of_rest (setWords_rest a l s)

@[simp] theorem setReg_drive (a : Nat) (w : Word) (s : State) : (setReg a w s).drive = s.drive := rfl
@[simp] theorem addF_drive (a hi lo n : Nat) (s : State) : (addF a hi lo n s).drive = s.drive := rfl
@[simp] theorem nextFree_drive (s : State) : (nextFree s).drive = s.drive := rfl

@[simp] theorem setPort_drive (p : CmdPort) (x : PortState) (s : State) : (setPort p x s).drive = s.drive := by
  cases p <;> rfl

@[simp] theorem answerSheetH_drive (r : Resp) (d : Option (List Byte)) (s : State) : (answerSheetH r d s).drive = s.drive := by
  unfold answerSheetH
  simp only
  split
  · simp only [hwEvent_drive]
    split <;> simp
  · rfl

@[simp] theorem answerMailbox_drive (r : Resp) (s : State) : (answerMailbox r s).drive = s.drive := by
  simp only [answerMailbox, hwEvent_drive, setWords_drive, setReg_drive]

@[simp] theorem deliver_drive (q : Req) (r : Resp) (d : Option (List Byte)) (s : State) : (deliver q r d s).drive = s.drive := by
  unfold deliver
  split
  · simp only
    split <;> split <;> simp
  · rfl
  · rfl
  · split <;> rfl
  · rfl

@[simp] theorem finishReq_drive (q : Req) (res : Byte) (d : List Byte) (s : State) : (finishReq q res d s).drive = s.drive := by
  simp only [finishReq, deliver_drive, setPort_drive]

@[simp] theorem finishCmd_drive (p : CmdPort) (res : Byte) (d : List Byte) (s : State) : (finishCmd p res d s).drive = s.drive := by
  unfold finishCmd
  split
  · exact finishReq_drive _ _ _ _
  · rfl

@[simp] theorem reqStatus_drive (r : PwrReq) (k : Nat) (res : Byte) (m : Nat) (s : State) : (reqStatus r k res m s).drive = s.drive :=
  setReg_drive _ _ _

@[simp] theorem showSlot_drive (s : State) : (showSlot s).drive = s.drive := setReg_drive _ _ _

@[simp] theorem endReq_drive (r : PwrReq) (res : Byte) (k : Nat) (s : State) : (endReq r res k s).drive = s.drive := by
  unfold endReq
  simp only
  split
  · split <;> simp
  · rw [finishCmd_drive]
    split <;> simp

@[simp] theorem startReq_drive (r : PwrReq) (s : State) : (startReq r s).drive = s.drive := by
  unfold startReq
  simp only
  split
  · rfl
  · rfl

@[simp] theorem startSlot_drive (s : State) : (startSlot s).drive = s.drive := by
  have h : ∀ x : Pwr, (showSlot { s with pwr := x }).drive = s.drive := fun x => rfl
  unfold startSlot
  split
  · rfl
  split
  · rfl
  split
  · simp only
    split <;> simp [h]
  · simp only
    split <;> simp [h]
  · simp [h]

@[simp] theorem dropSlot_drive (s : State) : (dropSlot s).drive = s.drive := by
  unfold dropSlot
  split
  · rfl
  · rw [endReq_drive]
    rfl

@[simp] theorem cancelSleep_drive (s : State) : (cancelSleep s).drive = s.drive := by
  unfold cancelSleep
  split
  · split
    · rw [startSlot_drive, endReq_drive]
      rfl
    · rfl
  · rfl

@[simp] theorem outcomeEvents_drive (o : Nat) (s : State) : (outcomeEvents o s).drive = s.drive := by
  unfold outcomeEvents
  split <;> simp

@[simp] theorem countOutcome_drive (o : Nat) (s : State) : (countOutcome o s).drive = s.drive := by
  unfold countOutcome
  split <;> rfl

@[simp] theorem logResult_drive (j : TestJob) (o m n g k r : Nat) (s : State) : (logResult j o m n g k r s).drive = s.drive := by
  have h : ∀ (x : State) (d : Dark), State.drive { x with dark := d } = x.drive := fun _ _ => rfl
  unfold logResult
  simp only [outcomeEvents_drive]
  split <;> simp only [addF_drive, h, countOutcome_drive, setWords_drive]

@[simp] theorem logAbandoned_drive (l : List TestJob) (s : State) : (logAbandoned l s).drive = s.drive := by
  induction l generalizing s with
  | nil => rfl
  | cons j r ih => simp only [logAbandoned, ih, logResult_drive, nextFree_drive]

@[simp] theorem abandonTest_drive (s : State) : (abandonTest s).drive = s.drive := by
  have h : ∀ (x : State) (d : Dark) (y : Option Mode),
      State.drive { x with dark := d, ctl := { x.ctl with target := y } } = x.drive := fun _ _ _ => rfl
  unfold abandonTest
  split
  · simp only [h]
    split <;> simp
  · rfl

@[simp] theorem deferRestore_drive (s : State) : (deferRestore s).drive = s.drive := by
  unfold deferRestore
  split
  · split
    · rw [finishCmd_drive]
      rfl
    · rfl
  · rfl

@[simp] theorem cancelExit_drive (s : State) : (cancelExit s).drive = s.drive := by
  unfold cancelExit
  split
  · rw [finishCmd_drive]
    rfl
  · rfl

/-- A SAFELIGHT trigger moves neither the mode nor what PROOF has reached: the switch comes later (R53). -/
theorem safeTrigger_drive (c k l : Nat) (s : State) : (safeTrigger c k l s).drive = s.drive := by
  have h : ∀ (x : State) (e : Option SafeEntry), State.drive { x with ctl := { x.ctl with entry := e } } = x.drive :=
    fun _ _ => rfl
  have h2 : ∀ (x : State) (e : Option Mode), State.drive { x with ctl := { x.ctl with target := e } } = x.drive :=
    fun _ _ => rfl
  unfold safeTrigger
  split
  · rfl
  · exact cancelExit_drive s
  · split
    · rfl
    · simp only
      split <;> simp [h, h2]

/-! ### Step 1 -/

/-- Before step 3 the command ports are not served. -/
theorem settle_unserved {s : State} (h : portsServed s = false) : settle s = s := settle_idle s (by simp [cmdWork, h])

theorem portsServed_early {s : State} (hm : s.ctl.mode = .proof) (hp : s.ctl.proof.step < 3) : portsServed s = false := by
  simp only [portsServed, hm]
  rw [decide_eq_false (by omega), Bool.false_and]

/-- An accepted ALARM_IN in the first steps of PROOF moves only the pins of the alarm beside what a trigger does. -/
theorem drive_of_acceptAlarm {s : State} (hm : s.ctl.mode = .proof) (hp : s.ctl.proof.step < 3) :
    (acceptAlarm s).drive
      = (s.ctl.mode, s.ctl.proof, { s.ctl.pins with alarmLevel := true, alarmRise := none }, s.tim) := by
  have h1 : ∀ x : State, x.drive = (s.ctl.mode, s.ctl.proof, { s.ctl.pins with alarmLevel := true, alarmRise := none }, s.tim) →
      settle x = x := by
    intro x hx
    simp only [State.drive, Prod.mk.injEq] at hx
    obtain ⟨hxm, hxp, -, -⟩ := hx
    exact settle_unserved (portsServed_early (hxm.trans hm) (by rw [hxp]; exact hp))
  unfold acceptAlarm
  simp only
  split
  · simp only [hwEvent_drive, noteWake_drive]
    rfl
  · rw [h1] <;> simp only [safeTrigger_drive, hwEvent_drive, noteWake_drive] <;> rfl

/-- Step 1 drives the outputs and starts the time island, time of day at 0 (R26, R220). -/
theorem proofStep1_does {s : State} (hm : s.ctl.mode = .proof) (t : State) (ht : t = proofStep1 s) :
    t.ctl.mode = .proof ∧ t.ctl.proof.step = 1 ∧ t.ctl.pins.driven = true ∧ t.tim.on = true ∧ t.tim.tod = 0 := by
  obtain ⟨u, hu⟩ : ∃ u, u = hwEvent pgMode 0 (onProof (fun p => { p with step := 1 }) { s with
      ctl := { s.ctl with pins := { s.ctl.pins with driven := true } }
      tim := { s.tim with on := true, pllLocked := true, tod := 0 } }) := ⟨_, rfl⟩
  have hd : u.drive = (s.ctl.mode, { s.ctl.proof with step := 1 }, { s.ctl.pins with driven := true },
      { s.tim with on := true, pllLocked := true, tod := 0 }) := hu ▸ hwEvent_drive _ _ _
  have hf : t = if s.ctl.pins.alarmIn then acceptAlarm u else u := by rw [ht, hu]; rfl
  simp only [State.drive, Prod.mk.injEq] at hd
  obtain ⟨h1, h2, h3, h4⟩ := hd
  split at hf
  · have ha := drive_of_acceptAlarm (s := u) (h1.trans hm) (h2 ▸ (by decide : 1 < 3))
    rw [← hf] at ha
    simp only [State.drive, Prod.mk.injEq] at ha
    obtain ⟨k1, k2, k3, k4⟩ := ha
    rw [k1, k2, k3, k4, h1, h2, h3, h4]
    exact ⟨hm, rfl, rfl, rfl, rfl⟩
  · subst hf
    rw [h1, h2, h3, h4]
    exact ⟨hm, rfl, rfl, rfl, rfl⟩

end Sys2Proof.Machine
end

section
namespace Sys2Proof.Machine

/-! ### Step 2 -/

theorem portsIdle_of_places {s t : State} (h : t.stand.2 = s.stand.2) (hs : portsIdle s) : portsIdle t := by
  simp only [State.stand, Prod.mk.injEq] at h
  obtain ⟨hc, hr, ho⟩ := h
  rwa [portsIdle, hc, hr, ho]

/-- Changing PROOF_STATUS changes the same in every state of one stand. -/
theorem onProof_stand {f : Proof → Proof} {s t : State} (h : t.stand = s.stand) : (onProof f t).stand = (onProof f s).stand :=
  congrArg (fun x => ((x.1.1, x.1.2.1, x.1.2.2.1, x.1.2.2.2.1, f x.1.2.2.2.2), x.2)) h

theorem hwEvent_nv (page n : Nat) (s : State) : (hwEvent page n s).nv = s.nv := congrArg (fun x => x.nv) (hwEvent_rest page n s)

theorem countBad_nv (s : State) : (countBad s).nv = s.nv := hwEvent_nv _ _ _

@[simp] theorem countBad_stand (s : State) : (countBad s).stand = s.stand := by simp [countBad]

/-- Reading the repair map notes whether a copy was good, and moves no start tag (R339). -/
theorem readMap_does (a b : Bool) (s : State) :
    (readMap a b s).stand = (onProof (fun p => { p with repairMapOk := a || b }) s).stand
      ∧ (readMap a b s).nv.startTag = s.nv.startTag := by
  have hw : ∀ (x : State) (w : Tab Nat), (countRepaired { x with nv := { x.nv with wear := w } }).stand = x.stand
      ∧ (countRepaired { x with nv := { x.nv with wear := w } }).nv.startTag = x.nv.startTag := fun x w =>
    ⟨(hwEvent_stand _ _ _).trans rfl, (congrArg Nv.startTag (hwEvent_nv pgNv 0 _)).trans rfl⟩
  unfold readMap
  simp only
  split
  · exact ⟨rfl, rfl⟩
  split
  · exact hw _ _
  · exact ⟨(countBad_stand _).trans rfl, congrArg Nv.startTag (countBad_nv _)⟩

theorem repairCopy_does (b : Bool) (l : List Byte) (s : State) :
    (repairCopy b l s).stand = s.stand ∧ (repairCopy b l s).nv.startTag = s.nv.startTag :=
  ⟨by simp [repairCopy], (congrArg Nv.startTag (hwEvent_nv pgNv 0 _)).trans rfl⟩

/-- Reading the overlay mends a copy at most. -/
theorem readOverlay_does (a b : Bool) (s : State) :
    (readOverlay a b s).1.stand = s.stand ∧ (readOverlay a b s).1.nv.startTag = s.nv.startTag := by
  unfold readOverlay
  split
  · split
    · exact ⟨rfl, rfl⟩
    split <;> exact repairCopy_does _ _ _
  · exact repairCopy_does _ _ _
  · exact repairCopy_does _ _ _
  · exact ⟨by simp, congrArg Nv.startTag (hwEvent_nv _ _ _)⟩

/-- Step 2 of cold PROOF: what was found good is on record, and the start count moves on. -/
theorem proofStep2Cold_does (r : ProofReport) (s t : State) (ht : t = proofStep2Cold r s) :
    ∃ u, t.stand = (onProof (fun p => { p with
        repairMapOk := r.mapA || r.mapB, step := 2, userCalOk := u, factoryCalOk := r.factA || r.factB }) s).stand
      ∧ t.nv.startTag = (s.nv.startTag + 1) % 2 ^ 32 := by
  obtain ⟨hm, hmt⟩ := readMap_does r.mapA r.mapB s
  generalize hs0 : readMap r.mapA r.mapB s = s0 at hm hmt
  obtain ⟨s2, hs2⟩ : ∃ x, x = if r.factA || r.factB then
      { s0 with fix := { s0.fix with l2Pending := s0.fix.storedL2, l2Repairs := s0.fix.storedRows } }
    else countBad { s0 with fix := { s0.fix with l2Pending := s0.fix.storedL2, l2Repairs := s0.fix.storedRows } } := ⟨_, rfl⟩
  have h2 : s2.stand = s0.stand ∧ s2.nv = s0.nv := by
    rw [hs2]
    split
    · exact ⟨rfl, rfl⟩
    · exact ⟨countBad_stand _, countBad_nv _⟩
  obtain ⟨h3, h3t⟩ := readOverlay_does r.userA r.userB s2
  generalize hx : readOverlay r.userA r.userB s2 = x at h3 h3t
  have hf : t = onProof (fun p => { p with
        step := 2, userCalOk := x.2.isSome, factoryCalOk := r.factA || r.factB })
      (setB (adr pgSafety 0x010) 1 (bit (calSettings (overlayOf x.2)) 3)
        (setReg (calA 0x084) (word (nextSeq (setReg (calA 0x080)
            (word (1 + 2 * flag (!r.factA && r.factB) + 4 * userCode x.2)) { x.1 with nv := { x.1.nv with
          user := x.2, settings := calSettings (overlayOf x.2), roles := (overlayOf x.2).roles,
          startTag := (x.1.nv.startTag + 1) % 2 ^ 32 } }) - 1))
          (setReg (calA 0x080) (word (1 + 2 * flag (!r.factA && r.factB) + 4 * userCode x.2)) { x.1 with nv := { x.1.nv with
          user := x.2, settings := calSettings (overlayOf x.2), roles := (overlayOf x.2).roles,
          startTag := (x.1.nv.startTag + 1) % 2 ^ 32 } }))) := by
    rw [ht, ← hx, hs2, ← hs0]
    rfl
  refine ⟨x.2.isSome, ?_, ?_⟩
  · rw [hf]
    exact onProof_stand (s := onProof (fun p => { p with repairMapOk := r.mapA || r.mapB }) s)
      ((setB_stand _ _ _ _).trans ((setReg_stand _ _ _).trans ((setReg_stand _ _ _).trans (h3.trans (h2.1.trans hm)))))
  · rw [hf]
    show (x.1.nv.startTag + 1) % 2 ^ 32 = _
    rw [h3t, h2.2, hmt]

/-! ### Steps 3 to 5 -/

/-- The stand but for what PROOF finds wrong on its way. -/
def State.core (s : State) : (Mode × Bool × Bool × Pins × Proof) × Cmd × Option CmdPort × List (List Byte) :=
  (onProof (fun p => { p with unitBad := false, bootRulesFallback := false, safeListFallback := false }) s).stand

theorem core_of_stand {s t : State} (h : t.stand = s.stand) : t.core = s.core := onProof_stand h

/-- What a state of the same core as `s` has of it, once its step is `k`. -/
theorem core_step {k : Nat} {s t : State} (h : t.core = s.core) (u : State)
    (hu : u.stand = (onProof (fun p => { p with step := k }) t).stand) (hs : portsIdle s) :
    u.ctl.mode = s.ctl.mode ∧ u.ctl.halted = s.ctl.halted ∧ u.ctl.proof.step = k
      ∧ u.ctl.proof.factoryCalOk = s.ctl.proof.factoryCalOk ∧ portsIdle u := by
  have hp : portsIdle u := portsIdle_of_places ((congrArg (fun x => x.2) hu).trans (congrArg (fun x => x.2) h :)) hs
  simp only [State.core, State.stand, onProof, Prod.mk.injEq] at h hu
  obtain ⟨⟨hm, hh, -, -, hpr⟩, -⟩ := h
  obtain ⟨⟨km, kh, -, -, kpr⟩, -⟩ := hu
  refine ⟨km.trans hm, kh.trans hh, by rw [kpr], ?_, hp⟩
  rw [kpr]
  exact congrArg (fun x => x.factoryCalOk) hpr

theorem proofFails_core (u : UnitId) (s : State) : (proofFails u s).core = s.core := by
  have h0 : (onProof (fun p => { p with unitBad := true }) s).core = s.core := rfl
  unfold proofFails
  simp only
  split
  · exact h0
  · refine (core_of_stand ?_).trans h0
    simp only [proofJournal_stand, lastRepair_stand, hwEvent_stand]
    split <;> simp

theorem proofFailures_core (l : List UnitId) (s : State) : (proofFailures l s).core = s.core := by
  induction l generalizing s with
  | nil => rfl
  | cons u r ih => exact (ih _).trans (proofFails_core u s)

theorem loadBoot_getD_stand (sel miss tag recs : List Byte) (n : Nat) {s x : State} (hx : x.stand = s.stand) :
    ((loadBoot sel miss tag recs n s).getD x).stand = s.stand := by
  cases h : loadBoot sel miss tag recs n s with
  | none => exact hx
  | some t => exact loadBoot_stand h

theorem loadBoot_getD_core (sel miss tag recs : List Byte) (n : Nat) {s x : State} (hx : x.core = s.core) :
    ((loadBoot sel miss tag recs n s).getD x).core = s.core := by
  cases h : loadBoot sel miss tag recs n s with
  | none => exact hx
  | some t => exact core_of_stand (loadBoot_stand h)

theorem bootRules_core (s : State) : (bootRules s).core = s.core := by
  have hf : ∀ x : State, ((loadBoot (List.replicate 24 0) (leBytes 1 4) (List.replicate 8 0) [] 0 x).getD x).core = x.core :=
    fun x => core_of_stand (loadBoot_getD_stand _ _ _ _ _ rfl)
  unfold bootRules
  simp only
  split
  · exact hf s
  · split
    · exact loadBoot_getD_core _ _ _ _ _ (hf s)
    · exact hf s

theorem chooseList_core (s : State) : (chooseList s).core = s.core := by
  unfold chooseList
  simp only
  split <;> rfl

/-- Step 3 where neither the management core nor its firmware fails, and a factory copy was good (R50, R51). -/
theorem proofStep3_does {r : ProofReport} {s : State} (hg : r.mgmtBad = false) (hw : r.fwBad = false) (hs : portsIdle s)
    (hc : s.ctl.warm = true ∨ s.ctl.proof.factoryCalOk = true) (t : State) (ht : t = proofStep3 r s) :
    t.ctl.mode = s.ctl.mode ∧ t.ctl.halted = s.ctl.halted ∧ t.ctl.proof.step = 3 ∧ portsIdle t := by
  have h1 : ∀ c : Bool, (if c then placePipes (List.range 44) (placeUnits (unplaced (applyMap s)) (applyMap s)) else s).stand
      = s.stand := by
    intro c
    split
    · rw [placePipes_stand, placeUnits_stand, applyMap_stand]
    · rfl
  have h2 : ∀ (c : Bool) (x : State), (if c then bootRules (chooseList x) else x).core = x.core := by
    intro c x
    split
    · exact (bootRules_core _).trans (chooseList_core x)
    · rfl
  have h4 : ∀ (x : State) (l l2 l3 : List Nat) (o : Overlay) (a b : Bool),
      (acquire l (loadCal o l2 a b (clearBefore l3 x))).stand = x.stand := by
    intro x l l2 l3 o a b
    rw [acquire_stand, loadCal_stand, clearBefore_stand]
  unfold proofStep3 at ht
  rw [hg, hw] at ht
  simp only [Bool.false_eq_true, if_false] at ht
  specialize h1 (!s.ctl.warm)
  generalize (if (!s.ctl.warm) = true then placePipes (List.range 44) (placeUnits (unplaced (applyMap s)) (applyMap s)) else s)
    = s1 at h1 ht
  have h1r := (proofFailures_core r.failed (repairL2 islandOf3 r.repaired s1)).trans
    (core_of_stand ((repairL2_stand _ _ s1).trans h1))
  generalize proofFailures r.failed (repairL2 islandOf3 r.repaired s1) = s2 at h1r ht
  specialize h2 (!s.ctl.warm) s2
  generalize (if (!s.ctl.warm) = true then bootRules (chooseList s2) else s2) = s3 at h2 ht
  specialize h4 s3 (70 :: 71 :: (safeClusters s3).map (serving s3)) (safeClusters s3) ((safeClusters s3).map (serving s3))
    (calInForce s3) false true
  generalize acquire (70 :: 71 :: (safeClusters s3).map (serving s3)) (loadCal (calInForce s3) (safeClusters s3) false true
    (clearBefore ((safeClusters s3).map (serving s3)) s3)) = s4 at h4 ht
  have hcore : s4.core = s.core := (core_of_stand h4).trans (h2.trans h1r)
  have hstep : ∀ u : State, u.stand = (onProof (fun p => { p with step := 3 }) s4).stand →
      u.ctl.mode = s.ctl.mode ∧ u.ctl.halted = s.ctl.halted ∧ u.ctl.proof.step = 3
        ∧ u.ctl.proof.factoryCalOk = s.ctl.proof.factoryCalOk ∧ portsIdle u := fun u hu => core_step hcore u hu hs
  cases hwarm : s.ctl.warm with
  | true =>
    simp only [hwarm, Bool.not_true, Bool.false_eq_true, if_false] at ht
    obtain ⟨k1, k2, k3, -, k5⟩ := hstep t (by rw [ht])
    exact ⟨k1, k2, k3, k5⟩
  | false =>
    have hfc := hc.resolve_left (by rw [hwarm]; decide)
    simp only [hwarm, Bool.not_false, if_true] at ht
    have h6 := unmask3_stand (onProof (fun p => { p with step := 3 }) s4)
    generalize unmask3 (onProof (fun p => { p with step := 3 }) s4) = s6 at h6 ht
    have h7 : ∀ c : Bool, (if c then { s6 with ctl := { s6.ctl with wdogSince := some s6.tim.powered } } else s6).stand
        = s6.stand := by
      intro c
      split <;> rfl
    specialize h7 (getB s6 (adr pgSafety 0x010) 1)
    generalize (if getB s6 (adr pgSafety 0x010) 1 = true then
      { s6 with ctl := { s6.ctl with wdogSince := some s6.tim.powered } } else s6) = s7 at h7 ht
    obtain ⟨k1, k2, k3, k4, k5⟩ := hstep s7 (h7.trans h6)
    rw [if_pos (k4.trans hfc)] at ht
    subst ht
    exact ⟨k1, k2, k3, k5⟩

theorem proofStep4_does (r : ProofReport) {s : State} (hs : portsIdle s) (t : State) (ht : t = proofStep4 r s) :
    t.ctl.mode = s.ctl.mode ∧ t.ctl.proof.step = 4 ∧ portsIdle t := by
  unfold proofStep4 at ht
  simp only at ht
  have h0 := clearBefore_stand ((List.range 66).filter (fun n => !(safeClusters s).any (fun h => serving s h == n))) s
  generalize clearBefore ((List.range 66).filter (fun n => !(safeClusters s).any (fun h => serving s h == n))) s = s0 at h0 ht
  have hr : (if s0.ctl.warm then returnTested s0 else s0).stand = s0.stand := by
    split
    · exact returnTested_stand s0
    · rfl
  generalize (if s0.ctl.warm = true then returnTested s0 else s0) = x at hr ht
  have h1 := (proofFailures_core r.failed (repairL2 (fun i => !islandOf3 i) r.repaired x)).trans
    (core_of_stand ((repairL2_stand _ _ x).trans (hr.trans h0)))
  generalize proofFailures r.failed (repairL2 (fun i => !islandOf3 i) r.repaired x) = s1 at h1 ht
  have h2 : (if lbistNext s1 then s1 else writeMapOnce s1).stand = s1.stand := by
    split
    · rfl
    · exact writeMapOnce_stand s1
  generalize (if lbistNext s1 = true then s1 else writeMapOnce s1) = y at h2 ht
  obtain ⟨k1, -, k3, -, k5⟩ := core_step (k := 4) ((core_of_stand h2).trans h1) t (by rw [ht]) hs
  exact ⟨k1, k3, k5⟩

theorem proofStep5_does (r : ProofReport) {s : State} (hs : portsIdle s) (t : State) (ht : t = proofStep5 r s) :
    t.ctl.mode = s.ctl.mode ∧ t.ctl.proof.step = 5 ∧ t.ctl.proof.lbistRun = true ∧ t.ctl.proof.lbistPass = r.failed.isEmpty
      ∧ portsIdle t := by
  unfold proofStep5 at ht
  have h := (core_of_stand (writeMapOnce_stand _)).trans (proofFailures_core r.failed s)
  generalize writeMapOnce (proofFailures r.failed s) = x at h ht
  obtain ⟨k1, -, -, -, k5⟩ := core_step (k := 5) h (onProof (fun p => { p with step := 5 }) x) rfl hs
  subst ht
  exact ⟨k1, rfl, rfl, rfl, k5⟩

/-! ### Step 6 -/

theorem refFall_stand (s : State) : (refFall s).stand = s.stand := by
  unfold refFall
  split <;> simp

@[simp] theorem cfgMoved_stand (s s1 : State) : (cfgMoved s s1).stand = s1.stand := by
  have h2 : (if refSel s1 = refSel s then s1 else refFall (if refSel s1 = 1 then dropEdge s1 else s1)).stand = s1.stand := by
    split
    · rfl
    · rw [refFall_stand]
      split <;> rfl
  unfold cfgMoved
  simp only
  generalize (if refSel s1 = refSel s then s1 else refFall (if refSel s1 = 1 then dropEdge s1 else s1)) = s2 at h2
  split
  · exact h2
  split
  · exact h2
  have hy : ∀ x : Tim, State.stand { s2 with tim := x } = s1.stand := fun _ => h2
  have hf : ∀ {c : Prop} [Decidable c] {y : State}, y.stand = s1.stand → (if c then refFall y else y).stand = s1.stand := by
    intro c _ y h
    split
    · exact (refFall_stand y).trans h
    · exact h
  split
  · exact hf ((hwEvent_stand _ _ _).trans (hy _))
  · exact hf (hy _)

@[simp] theorem applyCal_stand (l : List Nat) (s : State) : (applyCal l s).stand = s.stand := by
  have hu : ∀ x : State, (unmask6 (fixCorrection x)).stand = x.stand := fun x =>
    (unmaskPages_stand _ _).trans rfl
  unfold applyCal
  simp only [acquire_stand]
  split <;> simp [hu]

/-- The stand is kept and, outside sleep, mode and power. -/
structure ctlKeeps (s t : State) : Prop where
  stand : t.stand = s.stand
  watch : s.calm → t.watch = s.watch

theorem ctlKeeps_refl (s : State) : ctlKeeps s s := ⟨rfl, fun _ => rfl⟩

theorem ctlKeeps_trans {s t u : State} (h : ctlKeeps s t) (k : ctlKeeps t u) : ctlKeeps s u :=
  ⟨k.stand.trans h.stand, fun hs => (k.watch (calm_of_watch (h.watch hs) hs)).trans (h.watch hs)⟩

theorem ctlKeeps_of_tx {s t : State} (h : txKeeps s t) : ctlKeeps s t := ⟨stand_of_tx h, h.watch⟩

theorem ctlKeeps_hwEvent (page n : Nat) (s : State) : ctlKeeps s (hwEvent page n s) :=
  ⟨hwEvent_stand s page n, hwEvent_watch page n s⟩

theorem ctlKeeps_badPort (p : Nat) (s : State) : ctlKeeps s (badPort p s) :=
  ctlKeeps_trans (ctlKeeps_trans (t := addF (adr (pgCl (p / 8) 0) 0x2A8) 31 0 1 s) ⟨rfl, fun _ => rfl⟩
    (ctlKeeps_hwEvent _ _ _)) (ctlKeeps_of_tx (txKeeps_loupe _ _ _ _ _))

theorem ctlKeeps_enqueue (p : Nat) (f : TxFrm) (s : State) : ctlKeeps s (enqueue p f s) := by
  unfold enqueue
  split
  · unfold joinQueue
    exact ctlKeeps_of_tx (txKeeps_ite (fun _ => txKeeps_trans (txKeeps_setTxQueue _ _ _) (txKeeps_sweep _ _))
      fun _ => txKeeps_setTxQueue _ _ _)
  · exact ctlKeeps_trans (ctlKeeps_badPort _ _) (ctlKeeps_of_tx (txKeeps_hostDone _ _ _))

theorem ctlKeeps_handQueue (q n : Nat) (s : State) : ctlKeeps s (handQueue q n s) := by
  induction n generalizing s with
  | zero => exact ctlKeeps_refl s
  | succ n ih =>
    unfold handQueue
    simp only
    split
    · exact ctlKeeps_refl s
    split
    · exact ctlKeeps_refl s
    · exact ctlKeeps_trans (ctlKeeps_trans (ctlKeeps_of_tx (txKeeps_setQ _ _ _ _)) (ctlKeeps_enqueue _ _ _)) (ih _)

theorem ctlKeeps_handHosts (s : State) : ctlKeeps s (handHosts s) := by
  unfold handHosts
  generalize (s.dma.txq.filter (fun e => e.2.frames.any (fun h => h.phase == 1))).map (fun e => e.1) = l
  induction l generalizing s with
  | nil => exact ctlKeeps_refl s
  | cons q r ih => exact ctlKeeps_trans (ctlKeeps_handQueue q 64 s) (ih _)

theorem txKeeps_runListed (rx : Bool) (l : List Nat) (s : State) : txKeeps s (runListed rx l s) := by
  induction l generalizing s with
  | nil => exact txKeeps_refl s
  | cons q r ih => exact txKeeps_trans (txKeeps_runQueue rx q s) (ih _)

theorem ctlKeeps_thawQueues (s : State) : ctlKeeps s (thawQueues s) := by
  have hf : ∀ l : List Nat, txKeeps s (l.foldl (fun x q => flushFrames q 65 x) s) := by
    intro l
    induction l generalizing s with
    | nil => exact txKeeps_refl s
    | cons q r ih => exact txKeeps_trans (txKeeps_flushFrames q 65 s) (ih _)
  unfold thawQueues
  exact ctlKeeps_trans (ctlKeeps_of_tx (txKeeps_trans (txKeeps_trans (hf _) (txKeeps_runListed _ _ _))
    (txKeeps_runListed _ _ _))) (ctlKeeps_handHosts _)

theorem setLevel_side (pl : BitVec 2) (s : State) : (setLevel pl s).stand = s.stand := (setReg_stand _ _ _).trans rfl

/-- Step 6 enters RUN, FAULT_N's cause 0 as PROOF found it (R50, R52). -/
theorem proofStep6_does {s : State} (hs : portsIdle s) (t : State) (ht : t = proofStep6 s) :
    t.ctl.mode = .run ∧ t.ctl.proof = { s.ctl.proof with step := 6 } ∧ t.ctl.target = none ∧ t.ctl.pins = s.ctl.pins
      ∧ t.ctl.faults.proof = (!s.ctl.proof.userCalOk || s.ctl.proof.safeListFallback || s.ctl.proof.bootRulesFallback
          || s.ctl.proof.unitBad) ∧ portsIdle t := by
  have ha := applyCal_stand [] s
  unfold proofStep6 at ht
  simp only at ht
  generalize applyCal [] s = a at ha ht
  have hb := setLevel_side (BitVec.ofNat 2 (bits (onProof (fun p => { p with step := 6 }) a).nv.settings 1 0))
    (onProof (fun p => { p with step := 6 }) a)
  generalize setLevel (BitVec.ofNat 2 (bits (onProof (fun p => { p with step := 6 }) a).nv.settings 1 0))
    (onProof (fun p => { p with step := 6 }) a) = b at hb ht
  obtain ⟨u, hu⟩ : ∃ u : State, u = { proofFault b with
      ctl := { (proofFault b).ctl with mode := .run, target := none }
      dp := { (proofFault b).dp with seq := [], expect := [] } } := ⟨_, rfl⟩
  have hcalm : u.calm := by
    rw [hu]
    exact fun h => by cases h
  have hk := ctlKeeps_trans (ctlKeeps_hwEvent pgMode 0 u) (ctlKeeps_thawQueues _)
  have hctl : t.ctl = u.ctl := by
    rw [ht, ← hu]
    exact (Prod.mk.inj (hk.watch hcalm)).1
  have hst : t.stand = u.stand := by
    rw [ht, ← hu]
    exact hk.stand
  have hub : u.stand.2 = b.stand.2 := by rw [hu]; rfl
  have hp : portsIdle t := portsIdle_of_places
    ((congrArg (fun x => x.2) hst).trans (hub.trans ((congrArg (fun x => x.2) hb).trans (congrArg (fun x => x.2) ha :)))) hs
  simp only [State.stand, onProof, Prod.mk.injEq] at ha hb
  obtain ⟨⟨-, -, -, hpins, hproof⟩, -⟩ := ha
  obtain ⟨⟨-, -, -, bpins, bproof⟩, -⟩ := hb
  have hproof' : b.ctl.proof = { s.ctl.proof with step := 6 } := by rw [bproof, hproof]
  rw [hctl, hu]
  refine ⟨rfl, hproof', rfl, bpins.trans hpins, ?_, hp⟩
  show (!b.ctl.proof.userCalOk || b.ctl.proof.safeListFallback || b.ctl.proof.bootRulesFallback || b.ctl.proof.unitBad) = _
  rw [hproof']

end Sys2Proof.Machine
end

section
namespace Sys2Proof.Machine

/-! ### The row PROOF_STEP_DONE -/

/-- In a PROOF that runs, a step's end is carried out, and no command was waiting for it. -/
theorem exec_proofStepDone {r : ProofReport} {s : State} (hm : s.ctl.mode = .proof) (hh : s.ctl.halted = false)
    (he : s.ctl.entry = none) {t : State} (ht : endStep r s = t) (hset : settle t = t) :
    exec (.proofStepDone r) s = .next t := by
  show execProofStepDone r s = _
  have hw : proofWaits s = false := by simp [proofWaits, hh, he]
  simp only [execProofStepDone, hm, hw, ht, hset]
  rfl

section
variable {s : State} (r : ProofReport)

theorem endStep_one (h : nextStep s = 1) : endStep r s = proofStep1 s := by simp only [endStep, h]

theorem endStep_two (h : nextStep s = 2) :
    endStep r s = if s.ctl.warm then proofStep2Warm r s else proofStep2Cold r s := by simp only [endStep, h]

theorem endStep_three (h : nextStep s = 3) : endStep r s = proofStep3 r s := by simp only [endStep, h]
theorem endStep_four (h : nextStep s = 4) : endStep r s = proofStep4 r s := by simp only [endStep, h]
theorem endStep_five (h : nextStep s = 5) : endStep r s = proofStep5 r s := by simp only [endStep, h]
theorem endStep_six (h : nextStep s = 6) : endStep r s = proofStep6 s := by simp only [endStep, h]

end

theorem nextStep_early {s : State} {k : Nat} (h : s.ctl.proof.step = k) (hk : k < 4) : nextStep s = k + 1 := by
  unfold nextStep
  split
  · omega
  · rw [h]

theorem nextStep_four {s : State} (h : s.ctl.proof.step = 4) : nextStep s = if lbistNext s then 5 else 6 := by
  simp only [nextStep, h]

theorem nextStep_five {s : State} (h : s.ctl.proof.step = 5) : nextStep s = 6 := by simp only [nextStep, h]

/-- Step 2 of warm PROOF changes of FIXER only what it knows to be stored (R50, R350). -/
theorem proofStep2Warm_does (r : ProofReport) (s t : State) (ht : t = proofStep2Warm r s) :
    t.stand = (onProof (fun p => { p with repairMapOk := r.mapA || r.mapB, step := 2 }) s).stand
      ∧ t.nv.startTag = s.nv.startTag
      ∧ t.fix = { s.fix with stored := t.fix.stored, storedL2 := t.fix.storedL2, storedRows := t.fix.storedRows } := by
  obtain ⟨hm, hmt⟩ := readMap_does r.mapA r.mapB s
  subst ht
  exact ⟨onProof_stand (s := onProof (fun p => { p with repairMapOk := r.mapA || r.mapB }) s) ((stand_fix _ _).trans hm),
    hmt, rfl⟩

/-- Settles O41. -/
theorem proofSequence : Obligations.ProofSequence := by
  intro s r hi
  refine ⟨fun hm hh he => ⟨fun h => ?_, fun h => ?_, fun h hbad => ?_, fun h hg hw hc => ?_, fun h => ?_, fun h hl => ?_,
    fun h => ?_⟩, fun hm hx hd => ?_⟩
  · have hend := endStep_one r (nextStep_early h (by decide))
    obtain ⟨k1, k2, k3, k4, k5⟩ := proofStep1_does hm _ rfl
    exact ⟨proofStep1 s, exec_proofStepDone hm hh he hend
      (settle_unserved (portsServed_early k1 (by rw [k2]; decide))), k1, k2, k3, k4, k5⟩
  · have hend := endStep_two r (nextStep_early h (by decide))
    cases hwarm : s.ctl.warm with
    | true =>
      obtain ⟨k1, k2, k3⟩ := proofStep2Warm_does r s _ rfl
      have hp : portsIdle (proofStep2Warm r s) := portsIdle_of_places (congrArg (fun x => x.2) k1 :) hi
      simp only [State.stand, onProof, Prod.mk.injEq] at k1
      obtain ⟨⟨hm1, -, -, hpins, hpr⟩, -⟩ := k1
      refine ⟨_, exec_proofStepDone hm hh he (hend.trans (if_pos hwarm)) (settle_portsIdle _ hp), hm1.trans hm, by rw [hpr],
        by rw [hpr], hpins, fun hc => (by cases hc), fun _ => ⟨k2, k3⟩⟩
    | false =>
      obtain ⟨u, k1, k2⟩ := proofStep2Cold_does r s _ rfl
      have hp : portsIdle (proofStep2Cold r s) := portsIdle_of_places (congrArg (fun x => x.2) k1 :) hi
      simp only [State.stand, onProof, Prod.mk.injEq] at k1
      obtain ⟨⟨hm1, -, -, hpins, hpr⟩, -⟩ := k1
      refine ⟨_, exec_proofStepDone hm hh he (hend.trans (if_neg (by rw [hwarm]; decide))) (settle_portsIdle _ hp), hm1.trans hm,
        by rw [hpr], by rw [hpr], hpins, fun _ => ⟨by rw [hpr], k2⟩, fun hc => (by cases hc)⟩
  · have hend := endStep_three r (nextStep_early h (by decide))
    obtain ⟨k, hk, hs3⟩ : ∃ k, k = (if r.mgmtBad then 3 else 2) ∧ proofStep3 r s = haltProof k s := by
      cases hg : r.mgmtBad with
      | true => exact ⟨3, rfl, by rw [proofStep3, hg]; rfl⟩
      | false => exact ⟨2, rfl, by rw [proofStep3, hg, hbad.resolve_left (by rw [hg]; decide)]; rfl⟩
    rw [← hk]
    have hr : (haltProof k s).rest = State.rest (onProof (fun p => { p with haltReason := k })
        { s with ctl := { s.ctl with halted := true, entry := none, target := none } }) := hwEvent_rest _ _ _
    have hp : portsIdle (haltProof k s) := portsIdle_of_places (congrArg (fun x => x.2) (stand_of_rest hr) :) hi
    refine ⟨_, exec_proofStepDone hm hh he (hend.trans hs3) (settle_portsIdle _ hp), ?_, ?_, ?_, ?_⟩
    · exact (rest_mode hr).trans hm
    · exact congrArg (fun x => x.ctl.proof) hr
    · exact congrArg (fun x => x.ctl.halted) hr
    · have hd : (haltProof k s).rest.dataPath = _ := congrArg State.dataPath hr
      exact hd
  · have hend := endStep_three r (nextStep_early h (by decide))
    obtain ⟨k1, k2, k3, k4⟩ := proofStep3_does hg hw hi hc _ rfl
    exact ⟨_, exec_proofStepDone hm hh he hend (settle_portsIdle _ k4), k1.trans hm, k3, k2.trans hh⟩
  · have hend := endStep_four r (nextStep_early h (by decide))
    obtain ⟨k1, k2, k3⟩ := proofStep4_does r hi _ rfl
    exact ⟨_, exec_proofStepDone hm hh he hend (settle_portsIdle _ k3), k1.trans hm, k2⟩
  · have hend := endStep_five r ((nextStep_four h).trans (if_pos hl))
    obtain ⟨k1, k2, k3, k4, k5⟩ := proofStep5_does r hi _ rfl
    exact ⟨_, exec_proofStepDone hm hh he hend (settle_portsIdle _ k5), k1.trans hm, k2, k3, k4⟩
  · have hn : nextStep s = 6 := by
      rcases h with ⟨h, hl⟩ | h
      · exact (nextStep_four h).trans (if_neg (by rw [hl]; decide))
      · exact nextStep_five h
    have hend := endStep_six r hn
    obtain ⟨k1, k2, k3, k4, k5, k6⟩ := proofStep6_does hi _ rfl
    exact ⟨_, exec_proofStepDone hm hh he hend (settle_portsIdle _ k6), k1, k2, k3, k4, k5⟩
  · have ha := applyCal_stand (safeClusters s) s
    obtain ⟨a, hadef⟩ : ∃ a, a = applyCal (safeClusters s) s := ⟨_, rfl⟩
    rw [← hadef] at ha
    have hp : portsIdle (endDeferred r s) := portsIdle_of_places (s := s) (by
      simp only [endDeferred, hd, ← hadef]
      exact (congrArg (fun x => x.2) ha :)) hi
    refine ⟨endDeferred r s, ?_, ?_, ?_, ?_⟩
    · show execProofStepDone r s = _
      simp only [execProofStepDone, hm]
      rw [if_pos ⟨hx, by rw [hd]; decide⟩, settle_portsIdle _ hp]
    · simp only [endDeferred, hd, ← hadef]
      simp only [State.stand, Prod.mk.injEq] at ha
      exact ha.1.1.trans hm
    · simp only [endDeferred, hd]
    · simp only [endDeferred, hd]
      rfl

end Sys2Proof.Machine
end

section
namespace Sys2Proof.Machine

/-! ### A command that nothing holds up (R69-R72) -/

theorem portOf_setPort_same (p : CmdPort) (x : PortState) (s : State) : portOf (setPort p x s) p = x := by cases p <;> rfl

theorem portOf_setPort_other {p q : CmdPort} (x : PortState) (s : State) (h : q ≠ p) : portOf (setPort p x s) q = portOf s q := by
  cases p <;> cases q <;> simp_all [portOf, setPort]

/-- Every port is busy or empty. -/
def State.portsQuiet (s : State) : Prop := ∀ p, portWork (portOf s p) = false

theorem portsQuiet_of_idle {s : State} (h : portsIdle s) : s.portsQuiet := by
  obtain ⟨-, hh, hs, hm, hf, hw, -, -⟩ := h
  intro p
  cases p <;> assumption

theorem startPort_quiet {p : CmdPort} {s : State} (h : portWork (portOf s p) = false) : startPort p s = s := by
  simp only [startPort]
  unfold portWork at h
  split
  · rename_i run _ he
    rw [he] at h
    rw [if_pos (by simpa using h)]
  · rename_i q he hw
    rw [he, hw] at h
    cases h
  · rfl

theorem startAll_quiet (l : List CmdPort) {s : State} (h : s.portsQuiet) : l.foldl (fun x p => startPort p x) s = s := by
  induction l with
  | nil => rfl
  | cons p r ih => rw [List.foldl_cons, startPort_quiet (h p), ih]

theorem servePorts_quiet (n : Nat) {s : State} (h : s.portsQuiet) : servePorts n s = s := by
  induction n with
  | zero => rfl
  | succ n ih => rw [servePorts, startAll_quiet _ h, ih]

/-- A command that has not started is tried where the ports are served; the others have nothing to do. -/
theorem startAll_tries {p : CmdPort} {q : Req} {s v : State} (l : List CmdPort) (hl : p ∈ l)
    (ho : ∀ r, r ≠ p → portWork (portOf s r) = false) (hx : (portOf s p).exec = some { req := q, started := false })
    (hv : tryRun q s = v) (hq : v.portsQuiet) : l.foldl (fun x r => startPort r x) s = v := by
  induction l with
  | nil => cases hl
  | cons r l ih =>
    rw [List.foldl_cons]
    by_cases hr : r = p
    · have ht : startPort r s = v := by
        unfold startPort
        simp only [hr, hx]
        exact hv
      rw [ht]
      exact startAll_quiet _ hq
    · rw [startPort_quiet (ho r hr)]
      exact ih ((List.mem_cons.mp hl).resolve_left fun e => hr e.symm)

theorem serveSheets_none {s : State} (h : s.cmd.sheets = []) : serveSheets s = s := by
  have e : { s with cmd := { s.cmd with sheets := [] } } = s := by rw [← h]
  rw [serveSheets, h, e]
  rfl

theorem fedFlush_none {s : State} (h : s.fed.outbox = []) : fedFlush s = s := by
  unfold fedFlush
  rw [if_neg fun hc => hc.2.2 h]

theorem restoreStep_none {s : State} (h : s.nv.restore = none) : restoreStep s = s := by rw [restoreStep, h]

/-- Settling tries the one command that has not started, and leaves the state that comes of it. -/
theorem settle_tries {p : CmdPort} {q : Req} {s v : State} (hp : portsServed s = true) (hs : s.cmd.sheets = [])
    (hr : s.nv.restore = none) (ho : ∀ r, r ≠ p → portWork (portOf s r) = false)
    (hx : (portOf s p).exec = some { req := q, started := false }) (hv : tryRun q s = v) (hq : v.portsQuiet)
    (hb : v.fed.outbox = []) : settle s = v := by
  have hw : portWork (portOf s p) = true := by
    unfold portWork
    rw [hx]
    rfl
  have hc : cmdWork s = true := by
    unfold cmdWork
    rw [hp]
    cases p <;> simp only [portOf] at hw <;> simp [hw]
  have hall : p ∈ [CmdPort.W, .H, .F, .S, .M] := by cases p <;> decide
  rw [settle, if_pos hc, serveSheets_none hs, restoreStep_none hr, servePorts, startAll_tries _ hall ho hx hv hq,
    servePorts_quiet 2 hq, fedFlush_none hb]

/-! ### A command row on port S -/

/-- The request of a row whose arrival names no code of its own. -/
theorem requestOf_code {a : Arrival} (h : a.code = none) (p : CmdPort) (c : BitVec 16) (args : List Byte) :
    requestOf a p c args = { port := p, code := c, seq := a.seq, args := args, ingress := a.ingress, source := a.source,
                             relayed := none, sheetReq := false } := by
  rw [requestOf, h]
  rfl

theorem cancelSleep_none {s : State} (h : s.pwr.flight = none) : cancelSleep s = s := by rw [cancelSleep, h]

/-- The state in which a command has its place and its tag, and has not started. -/
def placed (q : Req) (s : State) : State :=
  setPort q.port { portOf s q.port with tags := enterTag q (portOf s q.port).tags, exec := some { req := q, started := false } } s

/-- A command that its port may issue, with tag and places free, takes its place (R69). -/
theorem takeCommand_places {q : Req} {s : State} {l : List CmdPort} (hs : portsServed s = true)
    (hl : permitted (getB s (adr pgCmd 0x0A0) 0) q.code = some l) (hp : l.contains q.port = true)
    (ht : findTag q.seq (portOf s q.port).tags = none) (hc : q.code ≠ cSheet) (hx : (portOf s q.port).exec = none)
    (hw : (portOf s q.port).wait = none) (hf : s.pwr.flight = none) : takeCommand q s = placed q s := by
  rw [takeCommand, cancelSleep_none hf, ite_self, submit, if_pos hs]
  simp only [hl, if_pos hp, ht]
  rw [place]
  simp only [if_neg hc, placed, hx, hw]

section
variable {q : Req} {s : State}

theorem placed_exec : (portOf (placed q s) q.port).exec = some { req := q, started := false } := by
  rw [placed, portOf_setPort_same]

theorem placed_other {r : CmdPort} (h : r ≠ q.port) : portOf (placed q s) r = portOf s r := portOf_setPort_other _ s h

/-- Everything but the ports is as before. -/
theorem setPort_frame (p : CmdPort) (x : PortState) (s : State) :
    setPort p x s = { s with cmd := (setPort p x s).cmd } := by cases p <;> rfl

theorem setPort_sheets (p : CmdPort) (x : PortState) (s : State) : (setPort p x s).cmd.sheets = s.cmd.sheets := by cases p <;> rfl

end

/-- The state in which the command of `placed` has started. -/
def running (q : Req) (s : State) : State := markStarted q (placed q s)

theorem running_exec (q : Req) (s : State) : (portOf (running q s) q.port).exec = some { req := q, started := true } := by
  rw [running, markStarted, portOf_setPort_same]

theorem running_tags (q : Req) (s : State) : (portOf (running q s) q.port).tags = enterTag q (portOf s q.port).tags := by
  rw [running, markStarted, portOf_setPort_same, placed, portOf_setPort_same]

theorem running_wait (q : Req) (s : State) : (portOf (running q s) q.port).wait = (portOf s q.port).wait := by
  rw [running, markStarted, portOf_setPort_same, placed, portOf_setPort_same]

theorem running_other {q : Req} {r : CmdPort} (s : State) (h : r ≠ q.port) : portOf (running q s) r = portOf s r := by
  rw [running, markStarted, portOf_setPort_other _ _ h, placed_other h]

/-- A started command differs from `s` in the command ports alone. -/
theorem running_frame (q : Req) (s : State) : running q s = { s with cmd := (running q s).cmd } := by
  rw [running, markStarted, setPort_frame, placed, setPort_frame]

theorem placed_frame (q : Req) (s : State) : placed q s = { s with cmd := (placed q s).cmd } := by rw [placed, setPort_frame]

/-! ### How a command ends -/

theorem findTag_enterTag (q : Req) (l : List TagEntry) :
    findTag q.seq (enterTag q l) = some { seq := q.seq, code := q.code, done := none, dup := false } := by
  rw [enterTag, findTag, if_pos rfl]

theorem findTag_storeResult {q : Req} (res : Byte) (d : List Byte) (l : List TagEntry) :
    findTag q.seq (storeResult q.seq res d (enterTag q l))
      = some { seq := q.seq, code := q.code, done := some (res, d.take 64), dup := false } := by
  rw [enterTag, storeResult, if_pos rfl, findTag, if_pos rfl]

/-- On ports S and M a response is driven or waits to be polled; nothing else moves (R68, R74). -/
theorem deliver_frame {q : Req} (hq : q.port = .S ∨ q.port = .M) (r : Resp) (d : Option (List Byte)) (s : State) :
    deliver q r d s = { s with out := (deliver q r d s).out } := by
  unfold deliver
  rcases hq with h | h
  · rw [h]
    rfl
  · rw [h]

/-- A command of port S or M that ends moves its port's place and tags, and what is driven. -/
theorem finishReq_frame {q : Req} (hq : q.port = .S ∨ q.port = .M) (res : Byte) (d : List Byte) (s : State) :
    finishReq q res d s = { s with
      cmd := (setPort q.port { portOf s q.port with
        tags := storeResult q.seq res d (portOf s q.port).tags, exec := none } s).cmd
      out := (finishReq q res d s).out } := by
  rw [finishReq, deliver_frame hq, setPort_frame]

theorem finishReq_port {q : Req} (hq : q.port = .S ∨ q.port = .M) (res : Byte) (d : List Byte) (s : State) :
    portOf (finishReq q res d s) q.port = { portOf s q.port with
      tags := storeResult q.seq res d (portOf s q.port).tags, exec := none } := by
  rw [finishReq_frame hq]
  rcases hq with h | h <;> rw [h] <;> rfl

theorem finishReq_other {q : Req} (hq : q.port = .S ∨ q.port = .M) (res : Byte) (d : List Byte) (s : State) {r : CmdPort}
    (h : r ≠ q.port) : portOf (finishReq q res d s) r = portOf s r := by
  rw [finishReq_frame hq]
  exact (show portOf (setPort q.port _ s) r = _ from portOf_setPort_other _ s h)

end Sys2Proof.Machine
end

section
namespace Sys2Proof.Machine

theorem portOf_congr {s t : State} (h : t.cmd = s.cmd) (p : CmdPort) : portOf t p = portOf s p := by
  cases p <;> simp only [portOf, h]

/-! ### From the row to the command's own work -/

/-- Nothing of a fresh arrival's port or of another waits once its command runs. -/
theorem running_quiet {q : Req} {s u : State} (hi : portsIdle s) (hu : u.cmd = (running q s).cmd) : u.portsQuiet := by
  intro r
  rw [portOf_congr hu]
  by_cases hr : r = q.port
  · rw [hr, portWork, running_exec]
    rfl
  · rw [running_other s hr]
    exact portsQuiet_of_idle hi r

/-- A command that began as `running` and ends leaves its port free. -/
theorem ended_quiet {q : Req} {s u : State} (hq : q.port = .S ∨ q.port = .M) (hi : portsIdle s)
    (hw : (portOf s q.port).wait = none) (hu : u.cmd = (running q s).cmd) (res : Byte) (d : List Byte) :
    (finishReq q res d u).portsQuiet := by
  intro r
  by_cases hr : r = q.port
  · rw [hr, finishReq_port hq, portWork]
    simp only [portOf_congr hu, running_wait, hw]
  · rw [finishReq_other hq _ _ _ hr]
    exact running_quiet hi hu r

theorem runs_of_running {q : Req} {s u : State} {a : Arrival} (hs : q.seq = a.seq) (hu : u.cmd = (running q s).cmd) :
    commandRuns u q.port a q.code := by
  refine ⟨?_, ?_⟩
  · rw [portOf_congr hu, running_tags, ← hs]
    exact findTag_enterTag q _
  · rw [executing, portOf_congr hu, running_exec]
    simp

theorem ends_of_finished {q : Req} {s u : State} {a : Arrival} (hq : q.port = .S ∨ q.port = .M) (hs : q.seq = a.seq)
    (hu : u.cmd = (running q s).cmd) (res : Byte) (d : List Byte) :
    commandEnds (finishReq q res d u) q.port a q.code res (d.take 64) := by
  refine ⟨?_, ?_⟩
  · rw [finishReq_port hq]
    simp only
    rw [portOf_congr hu, running_tags, ← hs]
    exact findTag_storeResult res d _
  · rw [finishReq_port hq]

/-- A command that runs is the one its port ends. -/
theorem finishCmd_running {q : Req} {s u : State} (hu : u.cmd = (running q s).cmd) (res : Byte) (d : List Byte) :
    finishCmd q.port res d u = finishReq q res d u := by
  rw [finishCmd, portOf_congr hu, running_exec]

/-- A command finds its port's places and its tag free, no command waiting anywhere and no power request in flight. -/
structure findsFree (q : Req) (s : State) : Prop where
  served : portsServed s = true
  idle : portsIdle s
  exec : (portOf s q.port).exec = none
  wait : (portOf s q.port).wait = none
  tag : findTag q.seq (portOf s q.port).tags = none
  flight : s.pwr.flight = none

/-- A command that finds its places free and passes every gate comes to what its own work leaves (R69-R72). -/
theorem settle_takes {q : Req} {s v : State} {l : List CmdPort} (hf : findsFree q s)
    (hl : permitted (getB s (adr pgCmd 0x0A0) 0) q.code = some l) (hp : l.contains q.port = true) (hc : q.code ≠ cSheet)
    (hg : gateOf (placed q s) q = .go) (ha : argsOk q = true) (hv : runCmd q (running q s) = v) (hquiet : v.portsQuiet)
    (hb : v.fed.outbox = []) : settle (takeCommand q s) = v := by
  have hi := hf.idle
  have htry : tryRun q (placed q s) = v := by
    rw [tryRun, hg]
    simp only
    rw [if_pos ha]
    exact hv
  rw [takeCommand_places hf.served hl hp hf.tag hc hf.exec hf.wait hf.flight]
  refine settle_tries (p := q.port) ?_ ?_ ?_ ?_ placed_exec htry hquiet hb
  · rw [placed_frame]; exact hf.served
  · rw [placed, setPort_sheets]; exact hi.1
  · rw [placed_frame]; exact hi.2.2.2.2.2.2.1
  · intro r hr
    rw [placed_other hr]
    exact portsQuiet_of_idle hi r

/-- A command row on port S whose command passes every gate comes to what its own work leaves. -/
theorem arriveRow_runs {s v : State} {a : Arrival} {c : BitVec 16} {args : List Byte} {l : List CmdPort} {q : Req}
    (hf : freshAt s .S a) (hq : q = requestOf a .S c args) (hlen : args.length ≤ 256)
    (hl : permitted (getB s (adr pgCmd 0x0A0) 0) c = some l) (hp : l.contains .S = true) (hc : c ≠ cSheet)
    (hg : gateOf (placed q s) q = .go) (ha : argsOk q = true) (hv : runCmd q (running q s) = v) (hquiet : v.portsQuiet)
    (hb : v.fed.outbox = []) : arriveRow a c args s = v := by
  obtain ⟨hport, hwhole, hcode, -, hi, hserved, hx, hw, htag, hflight, -, -⟩ := hf
  rw [requestOf_code hcode] at hq
  have hqp : q.port = .S := by rw [hq]
  have hqc : q.code = c := by rw [hq]
  have hqs : q.seq = a.seq := by rw [hq]
  have hfree : findsFree q s :=
    ⟨hserved, hi, by rw [hqp]; exact hx, by rw [hqp]; exact hw, by rw [hqp, hqs]; exact htag, hflight⟩
  have hdec : (a.whole && decide (args.length ≤ 256)) = true := by rw [hwhole, decide_eq_true hlen]; rfl
  rw [arriveRow, hport]
  simp only [hdec, if_true]
  rw [requestOf_code hcode, ← hq]
  exact settle_takes hfree (by rw [hqc]; exact hl) (by rw [hqp]; exact hp) (by rw [hqc]; exact hc) hg ha hv hquiet hb

/-- In RUN, VERSION_LOAD and VERSION_COMMIT are executed at once (Table 3.6). -/
theorem gateOf_version {q : Req} {s : State} (hm : s.ctl.mode = .run) (he : s.pwr.entering = false)
    (hc : q.code = cLoad ∨ q.code = cCommit) : gateOf (placed q s) q = .go := by
  have hctl : (placed q s).ctl = s.ctl := by rw [placed_frame]
  have hpwr : (placed q s).pwr = s.pwr := by rw [placed_frame]
  have hr : q.code ≠ cRegRead ∧ q.code ≠ cRegWrite ∧ q.code ≠ cTestStart ∧ q.code ≠ cRestore := by
    rcases hc with h | h <;> rw [h] <;> decide
  have hv : ∀ b, modeVerdict b .run q.code = .accept := by
    intro b
    rcases hc with h | h <;> rw [h] <;> rfl
  obtain ⟨h1, h2, h3, h4⟩ := hr
  rw [gateOf, if_neg h1, if_neg h2, modeGate, hctl, hpwr, hm, he, hv]
  simp [h3, h4]

/-! ### Reads of host memory (R17) -/

theorem rangeReqs_line {addr : Nat} (h : addr % 64 = 0) : rangeReqs addr 64 = [(addr, 64)] := by
  have hn : min 64 (512 - addr % 512) = 64 := by omega
  show readReqs 2 addr 64 = _
  rw [readReqs, if_neg (by decide)]
  simp only [hn, Nat.sub_self]
  rfl

/-- Of the reads that a channel is to make, the last is made or still waits; it is made where all fit below 512. -/
theorem sendReads_last (ch : Nat) (r : Nat × Nat) (l : List (Nat × Nat)) (s : State) :
    (Emit.fabricRead ch r.1 r.2 ∈ (sendReads ch (l ++ [r]) s).out ∨ r ∈ readsHeld (sendReads ch (l ++ [r]) s) ch)
      ∧ (readsOut s ch + l.length < 512 → Emit.fabricRead ch r.1 r.2 ∈ (sendReads ch (l ++ [r]) s).out) := by
  have hnil : ∀ x : State, (sendReads ch [] x).out = x.out := fun _ => rfl
  have hput : ∀ (x : State) (m : List (Nat × Nat)),
      readsHeld { x with dma := { x.dma with readQ := tabPut x.dma.readQ ch m } } ch = m := by
    intro x m
    exact (tabGet_put _ _ _ _ _).trans (if_pos rfl)
  induction l generalizing s with
  | nil =>
    obtain ⟨a, n⟩ := r
    simp only [List.nil_append, sendReads]
    split
    · refine ⟨.inr ?_, fun h => absurd h (by simp only [List.length_nil]; omega)⟩
      rw [hput]
      exact List.mem_singleton.mpr rfl
    · exact ⟨.inl (by simp [emit]), fun _ => by simp [emit]⟩
  | cons x l ih =>
    obtain ⟨a, n⟩ := x
    simp only [List.cons_append, sendReads]
    split
    · refine ⟨.inr ?_, fun h => absurd h (by omega)⟩
      rw [hput]
      simp
    · obtain ⟨h1, h2⟩ := ih (emit (.fabricRead ch a n)
        { s with dma := { s.dma with reads := tabSet (fun _ => 0) s.dma.reads ch (readsOut s ch + 1) } })
      refine ⟨h1, fun h => h2 ?_⟩
      have hro : readsOut (emit (.fabricRead ch a n)
          { s with dma := { s.dma with reads := tabSet (fun _ => 0) s.dma.reads ch (readsOut s ch + 1) } }) ch
          = readsOut s ch + 1 := by
        show tabGet (fun _ => 0) (tabSet (fun _ => 0) s.dma.reads ch (readsOut s ch + 1)) ch = _
        rw [tabGet_set, if_pos rfl]
      rw [hro]
      rw [List.length_cons] at h
      omega

/-- Reads move the channels and what is driven. -/
theorem sendReads_frame (ch : Nat) (l : List (Nat × Nat)) (s : State) :
    sendReads ch l s = { s with dma := (sendReads ch l s).dma, out := (sendReads ch l s).out } := by
  induction l generalizing s with
  | nil => rfl
  | cons x r ih =>
    unfold sendReads
    split
    · rfl
    · rw [ih]
      rfl

end Sys2Proof.Machine
end

section
namespace Sys2Proof.Machine

/-! ### VERSION_LOAD (R176) -/

theorem runCmd_load {q : Req} (h : q.code = cLoad) (s : State) : runCmd q s = versionLoad q.port q.args s := by
  simp [runCmd, h, cLoad, cTestStart, cTestAbort, cStepArm, cForceRepair, cRestore]

theorem runCmd_commit {q : Req} (h : q.code = cCommit) (s : State) : runCmd q s = versionCommit q.port q.args s := by
  simp [runCmd, h, cLoad, cCommit, cTestStart, cTestAbort, cStepArm, cForceRepair, cRestore]

theorem argsOk_load {q : Req} (h : q.code = cLoad) (hl : q.args.length = 16) (h13 : byteAt q.args 13 = 0) :
    argsOk q = true := by
  simp [argsOk, h, cLoad, cTestStart, cForceRepair, cRegRead, cRegWrite, cSetLevel, cSleep, cSafeExit, hl, h13]

theorem argsOk_commit {q : Req} (h : q.code = cCommit)
    (hl : q.args.length = if byteAt q.args 1 = 1 then 12 else 2) : argsOk q = true := by
  simp [argsOk, h, cLoad, cCommit, cTestStart, cForceRepair, cRegRead, cRegWrite, cSetLevel, cSleep, cSafeExit, hl]

theorem getReg_of_win {s t : State} (h : t.win.regs = s.win.regs) (b : Nat) : getReg t b = getReg s b := by rw [getReg, h, getReg]

theorem slotState_of_win {s t : State} (h : t.win.regs = s.win.regs) (v : Nat) : slotState t v = slotState s v :=
  getF_congr (getReg_of_win h _) _ _

theorem commitRefusal_congr {s t : State} (hw : t.win.regs = s.win.regs) (ht : t.tim = s.tim) (v : Nat) (c b : Bool) :
    commitRefusal t v c b = commitRefusal s v c b := by
  have h : ∀ k, slotState t k = slotState s k := slotState_of_win hw
  have hd : draining t = draining s := by simp only [draining, h]
  have hc : currentSlot t = currentSlot s := by simp only [currentSlot, h]
  rw [commitRefusal, commitRefusal, h, hd, hc, ht]

/-- A load that its slot admits is recorded, shown, and begins to read (R176). -/
theorem versionLoad_starts {p : CmdPort} {args : List Byte} {u : State} {l : Load}
    (hl : l = { port := p, slot := (byteAt args 12).toNat, len := leField args 8 4, addr := leField args 0 8
                fn := leField args 14 2 })
    (h1 : l.slot ≤ 3) (h2 : l.fn ≤ 255) (h3 : l.addr % 64 = 0) (h4 : 68 ≤ l.len) (h5 : slotState u l.slot = 0)
    (h6 : u.cls.load = none) :
    versionLoad p args u = sendReads (fnChan u l.fn) (readsHeld u (fnChan u l.fn) ++ [(l.addr, 64)])
      (setReg (adr pgVersion 0x0A0) (word (4 * l.slot + 1)) { u with cls := { u.cls with load := some l } }) := by
  have hn : ¬ (3 < l.slot ∨ 255 < l.fn ∨ l.addr % 64 ≠ 0 ∨ l.len < 68) := by omega
  have hst : loadStatus 0 0 l.slot 1 = word (4 * l.slot + 1) := by
    rw [loadStatus]
    congr 1
    omega
  have h6' : ¬ u.cls.load.isSome = true := by rw [h6]; decide
  subst hl
  rw [versionLoad]
  exact (if_neg hn).trans ((if_neg (not_not_intro h5)).trans ((if_neg h6').trans (by
    rw [hst, readRange, rangeReqs_line h3]
    rfl)))

/-- VERSION_LOAD of O38. -/
theorem versionLoad_row {s : State} {a : Arrival} {args : List Byte} {l : Load} (hf : freshAt s .S a)
    (hm : s.ctl.mode = .run)
    (hl : l = { port := .S, slot := (byteAt args 12).toNat, len := leField args 8 4, addr := leField args 0 8
                fn := leField args 14 2 })
    (hlen : args.length = 16) (h13 : byteAt args 13 = 0) (h1 : l.slot ≤ 3) (h2 : l.fn ≤ 255) (h3 : l.addr % 64 = 0)
    (h4 : 68 ≤ l.len) (h5 : slotState s l.slot = 0) (h6 : s.cls.load = none) :
    ∃ t, exec (.versionLoad a args) s = .next t ∧ commandRuns t .S a cLoad ∧ t.cls = { s.cls with load := some l }
      ∧ (Emit.fabricRead (fnChan s l.fn) l.addr 64 ∈ t.out ∨ (l.addr, 64) ∈ readsHeld t (fnChan s l.fn))
      ∧ (readsOut s (fnChan s l.fn) + (readsHeld s (fnChan s l.fn)).length < 512 →
        Emit.fabricRead (fnChan s l.fn) l.addr 64 ∈ t.out) ∧ getReg t (adr pgVersion 0x0A0) = word (4 * l.slot + 1)
      ∧ (∀ b, b ≠ adr pgVersion 0x0A0 → getReg t b = getReg s b) ∧ t.ctl = s.ctl := by
  have hfr := hf
  obtain ⟨-, -, hcode, -, hi, -, -, -, -, -, he, -⟩ := hf
  obtain ⟨q, hq⟩ : ∃ q, q = requestOf a .S cLoad args := ⟨_, rfl⟩
  have hq' := hq
  rw [requestOf_code hcode] at hq'
  have hqc : q.code = cLoad := by rw [hq']
  have hqa : q.args = args := by rw [hq']
  have hqp : q.port = .S := by rw [hq']
  have hqs : q.seq = a.seq := by rw [hq']
  have hu := running_frame q s
  generalize hru : running q s = u at hu
  have hcmd : u.cmd = (running q s).cmd := by rw [hru]
  have hch : fnChan u l.fn = fnChan s l.fn := by rw [hu]; rfl
  have hheld : ∀ ch, readsHeld u ch = readsHeld s ch := fun ch => by rw [hu]; rfl
  have hwork : runCmd q u = sendReads (fnChan s l.fn) (readsHeld s (fnChan s l.fn) ++ [(l.addr, 64)])
      (setReg (adr pgVersion 0x0A0) (word (4 * l.slot + 1)) { u with cls := { u.cls with load := some l } }) := by
    rw [runCmd_load hqc, hqp, hqa, versionLoad_starts hl h1 h2 h3 h4
      ((slotState_of_win (by rw [hu]) _).trans h5) (by rw [hu]; exact h6), hch, hheld]
  obtain ⟨x, hx⟩ : ∃ x, x = setReg (adr pgVersion 0x0A0) (word (4 * l.slot + 1))
    { u with cls := { u.cls with load := some l } } := ⟨_, rfl⟩
  rw [← hx] at hwork
  have hxo : readsOut x (fnChan s l.fn) = readsOut s (fnChan s l.fn) := by rw [hx, hu]; rfl
  obtain ⟨hsent, hfit⟩ := sendReads_last (fnChan s l.fn) (l.addr, 64) (readsHeld s (fnChan s l.fn)) x
  have hfr2 := sendReads_frame (fnChan s l.fn) (readsHeld s (fnChan s l.fn) ++ [(l.addr, 64)]) x
  generalize sendReads (fnChan s l.fn) (readsHeld s (fnChan s l.fn) ++ [(l.addr, 64)]) x = v at hwork hsent hfit hfr2
  have hvcmd : v.cmd = (running q s).cmd := by rw [hfr2, hx]; exact hcmd
  have hreg : ∀ b, getReg v b = getReg x b := fun b => by rw [hfr2]; rfl
  have hxr : ∀ b, b ≠ adr pgVersion 0x0A0 → getReg x b = getReg s b := fun b hb => by
    rw [hx, getReg_setReg_other _ _ hb, hu]
    rfl
  have hrow : arriveRow a cLoad args s = v := by
    refine arriveRow_runs hfr hq (by omega) (l := [.H, .S]) rfl (by decide) (by decide) (gateOf_version hm he (.inl hqc))
      (argsOk_load hqc (by rw [hqa]; exact hlen) (by rw [hqa]; exact h13)) (by rw [hru]; exact hwork)
      (running_quiet hi hvcmd) ?_
    rw [hfr2, hx, hu]
    exact hi.2.2.2.2.2.2.2
  refine ⟨v, by rw [← hrow]; rfl, ?_, ?_, hsent, fun h => hfit (by rw [hxo]; exact h), ?_,
    fun b hb => (hreg b).trans (hxr b hb), ?_⟩
  · have hr := runs_of_running (a := a) hqs hvcmd
    rwa [hqp, hqc] at hr
  · rw [hfr2, hx, hu]
    rfl
  · rw [hreg, hx, getReg_setReg_same]
  · rw [hfr2, hx, hu]
    rfl

end Sys2Proof.Machine
end

section
namespace Sys2Proof.Machine

/-! ### VERSION_COMMIT (R177, R180) -/

section
variable {s : State} {a : Arrival} {args : List Byte} {q : Req} (hf : freshAt s .S a) (hm : s.ctl.mode = .run)
  (hq : q = requestOf a .S cCommit args) (hlen : args.length = if byteAt args 1 = 1 then 12 else 2)

theorem commitReq_fields (hcode : a.code = none) (hq : q = requestOf a .S cCommit args) :
    q.port = .S ∧ q.code = cCommit ∧ q.args = args ∧ q.seq = a.seq := by
  rw [hq, requestOf_code hcode]
  exact ⟨rfl, rfl, rfl, rfl⟩

include hf hm hq hlen

/-- A VERSION_COMMIT row whose command stays under way. -/
theorem commitRow_runs {v : State} (hv : versionCommit .S args (running q s) = v) (hcmd : v.cmd = (running q s).cmd)
    (hb : v.fed.outbox = []) : arriveRow a cCommit args s = v ∧ commandRuns v .S a cCommit := by
  have hfr := hf
  obtain ⟨-, -, hcode, -, hi, -, -, -, -, -, he, -⟩ := hf
  obtain ⟨hqp, hqc, hqa, hqs⟩ := commitReq_fields hcode hq
  refine ⟨arriveRow_runs hfr hq (by rw [hlen]; split <;> decide) (l := [.H, .S, .F]) rfl (by decide) (by decide)
    (gateOf_version hm he (.inr hqc)) (argsOk_commit hqc (by rw [hqa]; exact hlen)) ?_ (running_quiet hi hcmd) hb, ?_⟩
  · rw [runCmd_commit hqc, hqp, hqa]
    exact hv
  · have hr := runs_of_running (a := a) hqs hcmd
    rwa [hqp, hqc] at hr

/-- A VERSION_COMMIT row whose command ends. -/
theorem commitRow_ends {w : State} {res : Byte} {d : List Byte}
    (hv : versionCommit .S args (running q s) = finishCmd .S res d w) (hcmd : w.cmd = (running q s).cmd)
    (hb : w.fed.outbox = []) :
    arriveRow a cCommit args s = finishReq q res d w ∧ commandEnds (finishReq q res d w) .S a cCommit res (d.take 64) := by
  have hfr := hf
  obtain ⟨-, -, hcode, -, hi, -, -, hw, -, -, he, -⟩ := hf
  obtain ⟨hqp, hqc, hqa, hqs⟩ := commitReq_fields hcode hq
  refine ⟨arriveRow_runs hfr hq (by rw [hlen]; split <;> decide) (l := [.H, .S, .F]) rfl (by decide) (by decide)
    (gateOf_version hm he (.inr hqc)) (argsOk_commit hqc (by rw [hqa]; exact hlen)) ?_
    (ended_quiet (.inl hqp) hi (by rw [hqp]; exact hw) hcmd res d) ?_, ?_⟩
  · have h := finishCmd_running hcmd res d
    rw [hqp] at h
    rw [runCmd_commit hqc, hqp, hqa, hv, h]
  · rw [finishReq_frame (.inl hqp)]
    exact hb
  · have hr := ends_of_finished (a := a) (.inl hqp) hqs hcmd res d
    rwa [hqp, hqc] at hr

end

section
variable {p : CmdPort} {v op : Byte} {rest : List Byte} {u : State} (hv : v.toNat ≤ 3)

include hv

theorem versionCommit_discards (hop : op.toNat = 2) : versionCommit p (v :: op :: rest) u = discardSlot p v.toNat u := by
  have h0 : byteAt (v :: op :: rest) 0 = v := rfl
  have h1 : byteAt (v :: op :: rest) 1 = op := rfl
  rw [versionCommit]
  simp only [h0, h1]
  rw [if_neg (by omega), if_pos hop]

variable (hop : op.toNat ≤ 1) (hns : op.toNat = 1 → leField (v :: op :: rest) 8 4 < 1000000000)

include hop hns

theorem versionCommit_refused {k : Nat} (hr : commitRefusal u v.toNat u.cls.commit.isSome (op.toNat == 1) = some k) :
    versionCommit p (v :: op :: rest) u = finishCmd p rFailed [BitVec.ofNat 8 k] u := by
  have h0 : byteAt (v :: op :: rest) 0 = v := rfl
  have h1 : byteAt (v :: op :: rest) 1 = op := rfl
  rw [versionCommit]
  simp only [h0, h1, hr]
  rw [if_neg (by omega), if_neg (by omega)]

theorem versionCommit_goes (hr : commitRefusal u v.toNat u.cls.commit.isSome (op.toNat == 1) = none) :
    versionCommit p (v :: op :: rest) u =
      if op.toNat = 1 then commitAt p v.toNat (leField (v :: op :: rest) 2 6) (leField (v :: op :: rest) 8 4) u
      else setReg (adr pgVersion 0x0A4) (commitStatus 0 false v.toNat 1) { u with cls := { u.cls with
        commit := some { slot := v.toNat, now := some p, late := false, before := getReg u (adr pgVersion 0x0A4) } } } := by
  have h0 : byteAt (v :: op :: rest) 0 = v := rfl
  have h1 : byteAt (v :: op :: rest) 1 = op := rfl
  rw [versionCommit]
  simp only [h0, h1, hr]
  rw [if_neg (by omega), if_neg (by omega)]

end

theorem commitStatus_pending (v : Nat) : commitStatus 0 false v 1 = word (4 * v + 1) := by
  rw [commitStatus]
  congr 1
  simp [flag]
  omega

/-- A slot that is freed reads FREE, the others as before. -/
theorem freeSlot_frees {v : Nat} (hv : v ≤ 3) (s : State) : slotState (freeSlot v s) v = 0
    ∧ ∀ w, w ≠ v → slotState (freeSlot v s) w = slotState s w := by
  refine ⟨?_, fun w hw => getF_congr (getReg_setReg_other _ _ ?_) _ _⟩
  · rw [slotState, getF, freeSlot, getReg_setReg_same]
    interval_cases v <;> decide
  · simp only [slotA, adr]
    omega

/-- The slots' registers lie outside what events move. -/
theorem slotState_event {s : State} (h : s.irqSane) (n w : Nat) (hw : w < 4) :
    slotState (hwEvent pgVersion n s) w = slotState s w := by
  refine getF_congr ((hwEvent_wide pgVersion n s (irqWide_of_sane h)).2 _ (.inl ?_) ?_ ?_) _ _
  · simp only [slotA, adr, pgVersion]
    omega
  · simp only [slotA, adr]
    omega
  · simp only [slotA, adr]
    omega

end Sys2Proof.Machine
end

section
namespace Sys2Proof.Machine

theorem leNat_lt (l : List Byte) : leNat l < 256 ^ l.length := by
  induction l with
  | nil => decide
  | cons b r ih =>
    have hb := b.isLt
    rw [leNat, List.length_cons, Nat.pow_succ]
    omega

theorem leField_lt (l : List Byte) (off n : Nat) : leField l off n < 256 ^ n := by
  have h := leNat_lt (slice l off n)
  have hn : (slice l off n).length = n := by
    simp only [slice, List.length_append, List.length_replicate, List.length_take, List.length_drop]
    omega
  rwa [hn] at h

/-- A slot's clear moves its own register and the tables. -/
theorem freeSlot_side (v : Nat) (s : State) : (freeSlot v s).cmd = s.cmd
    ∧ (freeSlot v s).cls = { s.cls with tern := clearTern v s.cls.tern, exact := clearExact v s.cls.exact }
    ∧ (freeSlot v s).ctl = s.ctl ∧ (freeSlot v s).fed = s.fed ∧ (freeSlot v s).irq = s.irq ∧ (freeSlot v s).dark = s.dark := by
  rw [freeSlot, setReg]
  exact ⟨rfl, rfl, rfl, rfl, rfl, rfl⟩

/-- A LOADED slot that no commit names is freed (R180). -/
theorem discardSlot_frees (p : CmdPort) {v : Nat} {u : State} (hst : slotState u v = 1)
    (hc : ∀ c, u.cls.commit = some c → c.slot ≠ v) :
    discardSlot p v u = finishCmd p rOk [] (hwEvent pgVersion 4 (freeSlot v u)) := by
  rw [discardSlot]
  cases h : u.cls.commit with
  | none => simp only [hst, ne_eq, not_true_eq_false, if_false, Bool.false_eq_true]
  | some c =>
    have hb : (c.slot == v) = false := by simpa using hc c h
    simp only [hst, hb, ne_eq, not_true_eq_false, if_false, Bool.false_eq_true]

theorem rest_cls {s t : State} (h : t.rest = s.rest) : t.cls = s.cls := congrArg (fun x => x.cls) h
theorem rest_fed {s t : State} (h : t.rest = s.rest) : t.fed = s.fed := congrArg (fun x => x.fed) h

/-- What a command ends leaves registers, the tables and the mode sequencer alone on port S. -/
theorem finished_keeps {q : Req} (hq : q.port = .S ∨ q.port = .M) (res : Byte) (d : List Byte) (w : State) :
    (finishReq q res d w).cls = w.cls ∧ (finishReq q res d w).ctl = w.ctl ∧ (finishReq q res d w).win = w.win := by
  rw [finishReq_frame hq]
  exact ⟨rfl, rfl, rfl⟩

section
variable {s : State} {a : Arrival} {v : Byte} (hf : freshAt s .S a) (hm : s.ctl.mode = .run) (hv : v.toNat ≤ 3)

include hf hm hv

theorem commitNow_pends (hr : commitRefusal s v.toNat s.cls.commit.isSome false = none) :
    ∃ t, exec (.versionCommitNow a v []) s = .next t ∧ commandRuns t .S a cCommit
      ∧ t.cls = { s.cls with commit := some { slot := v.toNat, now := some .S, late := false
                                              before := getReg s (adr pgVersion 0x0A4) } }
      ∧ getReg t (adr pgVersion 0x0A4) = word (4 * v.toNat + 1) ∧ t.ctl = s.ctl := by
  have hi := hf.2.2.2.2.1
  obtain ⟨q, hq⟩ : ∃ q, q = requestOf a .S cCommit [v, 0x00] := ⟨_, rfl⟩
  have hu := running_frame q s
  generalize hru : running q s = u at hu
  have hcom : commitRefusal u v.toNat u.cls.commit.isSome ((0x00 : Byte).toNat == 1) = none := by
    rw [commitRefusal_congr (s := s) (by rw [hu]) (by rw [hu]), hu]
    exact hr
  have hreg : getReg u (adr pgVersion 0x0A4) = getReg s (adr pgVersion 0x0A4) := getReg_of_win (by rw [hu]) _
  have hw := (versionCommit_goes (p := .S) (rest := []) hv (by decide) (fun h => absurd h (by decide)) hcom).trans
    (if_neg (by decide))
  rw [hreg, commitStatus_pending] at hw
  obtain ⟨x, hx⟩ : ∃ x, x = setReg (adr pgVersion 0x0A4) (word (4 * v.toNat + 1)) { u with cls := { u.cls with
    commit := some { slot := v.toNat, now := some .S, late := false, before := getReg s (adr pgVersion 0x0A4) } } } := ⟨_, rfl⟩
  rw [← hx] at hw
  obtain ⟨hrow, hruns⟩ := commitRow_runs (v := x) hf hm hq rfl (by rw [hru]; exact hw) (by rw [hru, hx]; rfl) (by
    rw [hx, hu]
    exact hi.2.2.2.2.2.2.2)
  refine ⟨x, by rw [← hrow]; rfl, hruns, ?_, by rw [hx, getReg_setReg_same], ?_⟩
  · rw [hx, hu]
    rfl
  · rw [hx, hu]
    rfl

theorem commitNow_refused {k : Nat} (hr : commitRefusal s v.toNat s.cls.commit.isSome false = some k) :
    ∃ t, exec (.versionCommitNow a v []) s = .next t ∧ commandEnds t .S a cCommit 0x0B [BitVec.ofNat 8 k]
      ∧ t.cls = s.cls ∧ t.ctl = s.ctl := by
  have hi := hf.2.2.2.2.1
  obtain ⟨q, hq⟩ : ∃ q, q = requestOf a .S cCommit [v, 0x00] := ⟨_, rfl⟩
  obtain ⟨hqp, -, -, -⟩ := commitReq_fields hf.2.2.1 hq
  have hu := running_frame q s
  generalize hru : running q s = u at hu
  have hcom : commitRefusal u v.toNat u.cls.commit.isSome ((0x00 : Byte).toNat == 1) = some k := by
    rw [commitRefusal_congr (s := s) (by rw [hu]) (by rw [hu]), hu]
    exact hr
  have hw := versionCommit_refused (p := .S) (rest := []) hv (by decide) (fun h => absurd h (by decide)) hcom
  obtain ⟨hrow, hends⟩ := commitRow_ends hf hm hq rfl (by rw [hru]; exact hw) (by rw [hru]) (by
    rw [hu]
    exact hi.2.2.2.2.2.2.2)
  obtain ⟨k1, k2, -⟩ := finished_keeps (.inl hqp) rFailed [BitVec.ofNat 8 k] u
  refine ⟨_, by rw [← hrow]; rfl, hends, k1.trans (by rw [hu]), k2.trans (by rw [hu])⟩

theorem commitAt_pends {rest : List Byte} (hlen : rest.length = 10) (hns : leField (v :: 0x01 :: rest) 8 4 < 1000000000)
    (hr : commitRefusal s v.toNat s.cls.commit.isSome true = none) :
    ∃ t late, exec (.versionCommitAtTime a v rest) s = .next t ∧ commandEnds t .S a cCommit 0x00 []
      ∧ t.cls = { s.cls with commit := some { slot := v.toNat, now := none, late := late
                                              before := getReg s (adr pgVersion 0x0A4) } }
      ∧ getPair t (adr pgVersion 0x0A8) = leField (v :: 0x01 :: rest) 2 6
      ∧ getReg t (adr pgVersion 0x0B0) = word (leField (v :: 0x01 :: rest) 8 4) ∧ t.ctl = s.ctl := by
  have hi := hf.2.2.2.2.1
  obtain ⟨q, hq⟩ : ∃ q, q = requestOf a .S cCommit (v :: 0x01 :: rest) := ⟨_, rfl⟩
  obtain ⟨hqp, -, -, -⟩ := commitReq_fields hf.2.2.1 hq
  have hu := running_frame q s
  generalize hru : running q s = u at hu
  have hcom : commitRefusal u v.toNat u.cls.commit.isSome ((0x01 : Byte).toNat == 1) = none := by
    rw [commitRefusal_congr (s := s) (by rw [hu]) (by rw [hu]), hu]
    exact hr
  have hreg : getReg u (adr pgVersion 0x0A4) = getReg s (adr pgVersion 0x0A4) := getReg_of_win (by rw [hu]) _
  have hw := (versionCommit_goes (p := .S) (rest := rest) hv (by decide) (fun _ => hns) hcom).trans (if_pos (by decide))
  have hsec : leField (v :: 0x01 :: rest) 2 6 < 2 ^ 64 := Nat.lt_of_lt_of_le (leField_lt _ _ _) (by decide)
  generalize leField (v :: 0x01 :: rest) 2 6 = sec at hw hsec ⊢
  generalize leField (v :: 0x01 :: rest) 8 4 = ns at hw ⊢
  rw [commitAt] at hw
  simp only [hreg] at hw
  obtain ⟨late, hlate⟩ : ∃ b, b = decide ((sec * 1000000000 + ns) * nsUnit ≤ u.tim.tod) := ⟨_, rfl⟩
  rw [← hlate] at hw
  obtain ⟨x, hx⟩ : ∃ x, x = setReg (adr pgVersion 0x0B0) (word ns) (setPair (adr pgVersion 0x0A8) sec
    (setReg (adr pgVersion 0x0A4) (commitStatus 0 false v.toNat 1) { u with cls := { u.cls with
      commit := some { slot := v.toNat, now := none, late := late, before := getReg s (adr pgVersion 0x0A4) } } })) := ⟨_, rfl⟩
  rw [← hx] at hw
  have hl2 : (v :: 0x01 :: rest).length = if byteAt (v :: 0x01 :: rest) 1 = 1 then 12 else 2 := by
    have h1 : byteAt (v :: 0x01 :: rest) 1 = 1 := rfl
    rw [if_pos h1, List.length_cons, List.length_cons, hlen]
  obtain ⟨hrow, hends⟩ := commitRow_ends hf hm hq hl2 (by rw [hru]; exact hw) (by rw [hru, hx]; rfl) (by
    rw [hx, hu]
    exact hi.2.2.2.2.2.2.2)
  obtain ⟨k1, k2, k3⟩ := finished_keeps (.inl hqp) rOk [] x
  have hg : ∀ b, getReg (finishReq q rOk [] x) b = getReg x b := getReg_of_win (by rw [k3])
  refine ⟨finishReq q rOk [] x, late, by rw [← hrow]; rfl, hends, ?_, ?_, ?_, ?_⟩
  · rw [k1, hx, hu]
    rfl
  · rw [getPair_congr (hg _) (hg _), hx, getPair_congr (getReg_setReg_other _ _ (by decide))
      (getReg_setReg_other _ _ (by decide)), getPair_setPair, Nat.mod_eq_of_lt hsec]
  · rw [hg, hx, getReg_setReg_same]
  · rw [k2, hx, hu]
    rfl

theorem discard_loaded (hs : s.irqSane) (hst : slotState s v.toNat = 1)
    (hc : ∀ c, s.cls.commit = some c → c.slot ≠ v.toNat) :
    ∃ t, exec (.versionDiscard a v []) s = .next t ∧ commandEnds t .S a cCommit 0x00 [] ∧ slotState t v.toNat = 0
      ∧ t.cls.tern = clearTern v.toNat s.cls.tern ∧ t.cls.exact = clearExact v.toNat s.cls.exact
      ∧ (∀ w, w < 4 → w ≠ v.toNat → slotState t w = slotState s w) ∧ t.ctl.mode = .run := by
  have hi := hf.2.2.2.2.1
  obtain ⟨q, hq⟩ : ∃ q, q = requestOf a .S cCommit [v, 0x02] := ⟨_, rfl⟩
  obtain ⟨hqp, -, -, -⟩ := commitReq_fields hf.2.2.1 hq
  have hu := running_frame q s
  generalize hru : running q s = u at hu
  have hslot : ∀ w, slotState u w = slotState s w := slotState_of_win (by rw [hu])
  have hw : versionCommit .S [v, 0x02] u = finishCmd .S rOk [] (hwEvent pgVersion 4 (freeSlot v.toNat u)) :=
    (versionCommit_discards hv (by decide)).trans (discardSlot_frees .S ((hslot _).trans hst) (by rw [hu]; exact hc))
  obtain ⟨hycmd, hycls, hyctl, hyfed, hyirq, hydark⟩ := freeSlot_side v.toNat u
  have hfs := freeSlot_frees hv u
  generalize freeSlot v.toNat u = y at hw hycmd hycls hyctl hyfed hyirq hydark hfs
  have hrest := hwEvent_rest pgVersion 4 y
  have hsane : y.irqSane := by
    rw [State.irqSane, hyirq, hydark, hu]
    exact hs
  have hev := fun w hw => slotState_event hsane 4 w hw
  generalize hwEvent pgVersion 4 y = x at hw hrest hev
  have hcls : x.cls = { u.cls with tern := clearTern v.toNat u.cls.tern, exact := clearExact v.toNat u.cls.exact } :=
    (rest_cls hrest).trans hycls
  have hxm : x.ctl.mode = s.ctl.mode := (rest_mode hrest).trans ((congrArg Ctl.mode hyctl).trans (by rw [hu]))
  have hxfed : x.fed = s.fed := (rest_fed hrest).trans (hyfed.trans (by rw [hu]))
  obtain ⟨hrow, hends⟩ := commitRow_ends hf hm hq rfl (by rw [hru]; exact hw)
    (by rw [hru]; exact (rest_cmd hrest).trans hycmd) (by rw [hxfed]; exact hi.2.2.2.2.2.2.2)
  obtain ⟨k1, k2, k3⟩ := finished_keeps (.inl hqp) rOk [] x
  have hst2 : ∀ w, slotState (finishReq q rOk [] x) w = slotState x w := slotState_of_win (by rw [k3])
  refine ⟨finishReq q rOk [] x, by rw [← hrow]; rfl, hends, ?_, ?_, ?_, fun w h4 hne => ?_, ?_⟩
  · rw [hst2, hev _ (by omega)]
    exact hfs.1
  · rw [k1, hcls, hu]
  · rw [k1, hcls, hu]
  · rw [hst2, hev w h4, hfs.2 w hne, hslot]
  · rw [k2, hxm, hm]

end

/-- Settles O38. -/
theorem versionCommands : Obligations.VersionCommands := by
  intro s a args v hf hm
  refine ⟨fun l hl h16 h13 h1 h2 h3 h4 h5 h6 => ?_, fun hv hr => ?_, fun k hv hr => ?_, fun rest h10 hv hns hr => ?_,
    fun hs hv hst hc => ?_⟩
  · exact versionLoad_row hf hm hl h16 h13 h1 h2 h3 h4 h5 h6
  · exact commitNow_pends hf hm hv hr
  · exact commitNow_refused hf hm hv hr
  · exact commitAt_pends hf hm hv h10 hns hr
  · exact discard_loaded hf hm hv hs hst hc

end Sys2Proof.Machine
end

section
namespace Sys2Proof.Machine

/-! ### Arrival on ports S and M (R68, R74) -/

/-- What a command meets on its arrival is `s`, but for what a link frame records and drives. -/
structure arrivesFrom (s t : State) : Prop where
  ports : ∀ p, portOf t p = portOf s p
  sheets : t.cmd.sheets = s.cmd.sheets
  mode : t.ctl.mode = s.ctl.mode
  served : portsServed t = portsServed s
  path : t.dataPath = s.dataPath
  pwr : t.pwr = s.pwr
  nv : t.nv = s.nv
  fed : t.fed = s.fed
  dark : t.dark = s.dark

theorem arrivesFrom_refl (s : State) : arrivesFrom s s :=
  ⟨fun _ => rfl, rfl, rfl, rfl, rfl, rfl, rfl, rfl, rfl⟩

theorem portsIdle_of_arrival {s t : State} (h : arrivesFrom s t) (hi : portsIdle s) : portsIdle t := by
  obtain ⟨h1, h2, h3, h4, h5, h6, h7, h8⟩ := hi
  have hp := h.ports
  refine ⟨h.sheets.trans h1, ?_, ?_, ?_, ?_, ?_, by rw [h.nv]; exact h7, by rw [h.fed]; exact h8⟩
  · rw [show t.cmd.h = s.cmd.h from hp .H]; exact h2
  · rw [show t.cmd.s = s.cmd.s from hp .S]; exact h3
  · rw [show t.cmd.m = s.cmd.m from hp .M]; exact h4
  · rw [show t.cmd.f = s.cmd.f from hp .F]; exact h5
  · rw [show t.cmd.w = s.cmd.w from hp .W]; exact h6

/-- A link frame in a complex that is awake, with no request in flight, wakes nothing and cancels nothing. -/
theorem linkFrame_arrives {s : State} (hm : s.ctl.mode ≠ .still) (he : s.pwr.entering = false) (hf : s.pwr.flight = none) :
    arrivesFrom s (linkFrame s) := by
  obtain ⟨u, hu⟩ : ∃ u, u = setPair (adr pgSafety 0x094) s.tim.powered (addF (adr pgSafety 0x088) 31 0 1 s) := ⟨_, rfl⟩
  obtain ⟨x, hx⟩ : ∃ x : State, x = { u with ctl := { u.ctl with
    wdogExpired := false, wdogSince := if wdogCounts u then some u.tim.powered else none
    faults := { u.ctl.faults with wdog := false } } } := ⟨_, rfl⟩
  have hxs : arrivesFrom s x := by
    rw [hx, hu]
    exact ⟨fun p => by cases p <;> rfl, rfl, rfl, rfl, rfl, rfl, rfl, rfl, rfl⟩
  have hxf : x.pwr.flight = none := by rw [hxs.pwr]; exact hf
  have hl : linkFrame s = noteWake 2 14 (cancelSleep x) := by rw [hx, hu]; rfl
  rw [hl, cancelSleep_none hxf, noteWake]
  split
  · exact hxs
  · rw [if_neg (by rw [hxs.mode]; exact hm), hxs.pwr, he]
    exact hxs

/-- What a fresh arrival on port S or M comes to: its request, met by `t`. -/
theorem arrival_request {s : State} {p : CmdPort} {a : Arrival} {c : BitVec 16} {args : List Byte} (hp : p = .S ∨ p = .M)
    (hf : freshAt s p a) (hm : s.ctl.mode ≠ .still) (hlen : args.length ≤ 256) :
    ∃ t, arrivesFrom s t ∧ arriveRow a c args s = settle (takeCommand { port := p, code := c, seq := a.seq, args := args
                                                                        ingress := a.ingress, source := a.source
                                                                        relayed := none, sheetReq := false } t) := by
  obtain ⟨hport, hwhole, hcode, -, -, -, -, -, -, hflight, he, hlink⟩ := hf
  have hdec : (a.whole && decide (args.length ≤ 256)) = true := by rw [hwhole, decide_eq_true hlen]; rfl
  rcases hp with rfl | rfl
  · refine ⟨s, arrivesFrom_refl s, ?_⟩
    rw [arriveRow, hport]
    simp only [hdec, if_true]
    rw [requestOf_code hcode]
  · obtain ⟨x, hx⟩ : ∃ x, x = emit (.slk (List.replicate (14 + args.length) (linkStatus (setCs false s)))) (setCs false s) :=
      ⟨_, rfl⟩
    obtain ⟨y, hy⟩ : ∃ y : State, y = { x with cmd := { x.cmd with slkLast := .tag a.seq } } := ⟨_, rfl⟩
    have hys : arrivesFrom s y := by
      rw [hy, hx]
      exact ⟨fun p => by cases p <;> rfl, rfl, rfl, rfl, rfl, rfl, rfl, rfl, rfl⟩
    have hyt := linkFrame_arrives (s := y) (by rw [hys.mode]; exact hm) (by rw [hys.pwr]; exact he)
      (by rw [hys.pwr]; exact hflight)
    have hon : linkOn (setCs false s) = true := hlink rfl
    refine ⟨linkFrame y, ⟨fun p => (hyt.ports p).trans (hys.ports p), hyt.sheets.trans hys.sheets, hyt.mode.trans hys.mode,
      hyt.served.trans hys.served, hyt.path.trans hys.path, hyt.pwr.trans hys.pwr, hyt.nv.trans hys.nv,
      hyt.fed.trans hys.fed, hyt.dark.trans hys.dark⟩, ?_⟩
    rw [arriveRow, hport]
    simp only [arriveM, hon, hdec, if_true]
    rw [requestOf_code hcode, hy, hx]

/-- A fresh arrival finds its places free. -/
theorem findsFree_of_fresh {s t : State} {p : CmdPort} {a : Arrival} {q : Req} (hf : freshAt s p a) (ha : arrivesFrom s t)
    (hp : q.port = p) (hs : q.seq = a.seq) : findsFree q t := by
  obtain ⟨-, -, -, -, hi, hserved, hx, hw, htag, hflight, -, -⟩ := hf
  exact ⟨ha.served.trans hserved, portsIdle_of_arrival ha hi, by rw [hp, ha.ports]; exact hx, by rw [hp, ha.ports]; exact hw,
    by rw [hp, hs, ha.ports]; exact htag, by rw [ha.pwr]; exact hflight⟩

/-! ### The length of the CONTACT SHEET record (Table 4.7) -/

@[simp] theorem leBytes_length (v n : Nat) : (leBytes v n).length = n := by
  induction n generalizing v with
  | zero => rfl
  | succ n ih => rw [leBytes, List.length_cons, ih]

theorem flatMap_length {α β : Type} {f : α → List β} {k : Nat} (h : ∀ x, (f x).length = k) (l : List α) :
    (l.flatMap f).length = l.length * k := by
  induction l with
  | nil => simp
  | cons x r ih =>
    rw [List.flatMap_cons, List.length_append, ih, h, List.length_cons]
    ring

theorem sheetHead_length (s : State) (p : CmdPort) (n : BitVec 16) : (sheetHead s p n).length = 28 := by
  simp only [sheetHead, List.length_append, leBytes_length]

theorem sheetMode_length (s : State) : (sheetMode s).length = 28 := by
  simp only [sheetMode, sheetReg, List.length_append, leBytes_length]

theorem sheetTime_length (s : State) : (sheetTime s).length = 24 := by
  simp only [sheetTime, List.length_append, leBytes_length]

theorem sheetSlots_length (s : State) : (sheetSlots s).length = 48 := by
  have h := flatMap_length (k := 8) (f := fun v => leBytes (slotTag s v).toNat 4 ++ leBytes (slotState s v) 1
    ++ leBytes (min (2 ^ 24 - 1) (getReg s (drainA v)).toNat) 3)
    (fun v => by simp only [List.length_append, leBytes_length]) (List.range 4)
  rw [sheetSlots, List.length_append, h, leBytes_length, List.length_range]

theorem sheetUnits_length (s : State) : (sheetUnits s).length = 456 := by
  have h := flatMap_length (k := 4) (f := fun n => leBytes (clStateWord s n).toNat 4) (fun n => leBytes_length _ _)
    (List.range 66)
  have h2 := flatMap_length (k := 4) (f := sheetPipe s)
    (fun n => by simp only [sheetPipe, List.length_append, leBytes_length]) (List.range 48)
  rw [sheetUnits, List.length_append, h, h2, List.length_range, List.length_range]

theorem fourLowest_length (l : List Nat) : (fourLowest l).length = 8 := by
  rw [fourLowest, flatMap_length (fun q => leBytes_length q 2), List.length_take, List.length_append]
  simp only [List.length_cons, List.length_nil]
  omega

theorem words_length (f : Nat → Nat) (n : Nat) : ((List.range n).flatMap (fun w => leBytes (f w) 4)).length = n * 4 := by
  rw [flatMap_length (fun w => leBytes_length _ 4), List.length_range]

theorem halves_length (f : Nat → Nat) (n : Nat) : ((List.range n).flatMap (fun w => leBytes (f w) 2)).length = n * 2 := by
  rw [flatMap_length (fun w => leBytes_length _ 2), List.length_range]

theorem sheetQueues_length (s : State) : (sheetQueues s).length = 60 := by
  simp only [sheetQueues, List.length_append, leBytes_length, fourLowest_length, words_length]

theorem sheetRepair_length (s : State) : (sheetRepair s).length = 20 := by
  simp only [sheetRepair, List.length_append, leBytes_length]

theorem sheetFed_length (s : State) : (sheetFed s).length = 156 := by
  simp only [sheetFed, List.length_append, leBytes_length, words_length]

theorem sheetSafety_length (s : State) : (sheetSafety s).length = 40 := by
  simp only [sheetSafety, List.length_append, leBytes_length, halves_length]

/-- The record is 1024 bytes long (R81). -/
theorem sheetRecord_length (s : State) (p : CmdPort) (n : BitVec 16) : (sheetRecord s p n).length = 1024 := by
  simp only [sheetRecord, List.length_append, leBytes_length, sheetHead_length, sheetMode_length, sheetTime_length,
    sheetSlots_length, sheetUnits_length, sheetQueues_length, sheetRepair_length, sheetFed_length, sheetSafety_length]

end Sys2Proof.Machine
end

section
namespace Sys2Proof.Machine

/-! ### CONTACT_SHEET (R81) -/

/-- A record that is generated keeps everything but PG_SHEET, its port's tags and record, and what is driven. -/
theorem genSheet_does {q : Req} (hq : q.port = .S ∨ q.port = .M) (s g : State) (hg : g = genSheet q s) :
    g.stand.1 = s.stand.1 ∧ g.dataPath = s.dataPath ∧ g.nv = s.nv ∧ g.fed = s.fed ∧ g.cmd.sheets = s.cmd.sheets
      ∧ portOf g q.port = { portOf s q.port with
          tags := storeResult q.seq rOk [] (portOf s q.port).tags, sheet := some (q.seq, sheetRecord s q.port q.seq) }
      ∧ (∀ r, r ≠ q.port → portOf g r = portOf s r)
      ∧ getReg g (adr pgSheet 0x080) = word (q.seq.toNat * 2 ^ 16 + portCode q.port)
      ∧ (q.port = .S → Emit.response .S 0 0 (respBytes
          { code := q.code, seq := q.seq, result := rOk, dup := false, data := sheetRecord s q.port q.seq }) ∈ g.out) := by
  obtain ⟨x, hx⟩ : ∃ x, x = setWords (adr pgSheet 0x400) (wordsOf (sheetRecord s q.port q.seq) 0 256) s := ⟨_, rfl⟩
  have hxr : x.rest = s.rest := by rw [hx]; exact setWords_rest _ _ _
  obtain ⟨y, hy⟩ : ∃ y, y = setReg (adr pgSheet 0x080) (word (q.seq.toNat * 2 ^ 16 + portCode q.port)) x := ⟨_, rfl⟩
  have hyr : y.rest = s.rest := by rw [hy, ← hxr]; rfl
  have hyp : ∀ r, portOf y r = portOf s r := portOf_congr (rest_cmd hyr)
  have hyreg : getReg y (adr pgSheet 0x080) = word (q.seq.toNat * 2 ^ 16 + portCode q.port) := by
    rw [hy, getReg_setReg_same]
  have hne : q.port ≠ .H := by rcases hq with h | h <;> rw [h] <;> decide
  generalize hd : sheetRecord s q.port q.seq = d at hx
  have hgen : g = deliver q { code := q.code, seq := q.seq, result := rOk, dup := false, data := d } (some d)
      (setPort q.port { portOf y q.port with
        tags := storeResult q.seq rOk [] (portOf y q.port).tags, sheet := some (q.seq, d) } y) := by
    rw [hg, genSheet]
    simp only [hd, if_neg hne, ← hx, ← hy]
  have hout : q.port = .S → Emit.response .S 0 0 (respBytes
      { code := q.code, seq := q.seq, result := rOk, dup := false, data := d }) ∈ g.out := by
    intro hs
    rw [hgen, deliver, hs]
    simp [emit]
  have hcmd : g.cmd = (setPort q.port { portOf y q.port with
      tags := storeResult q.seq rOk [] (portOf y q.port).tags, sheet := some (q.seq, d) } y).cmd := by
    rw [hgen, deliver_frame hq]
  have hport : ∀ r, portOf g r = portOf (setPort q.port { portOf y q.port with
      tags := storeResult q.seq rOk [] (portOf y q.port).tags, sheet := some (q.seq, d) } y) r := portOf_congr hcmd
  obtain ⟨c, o, hfr⟩ : ∃ c o, g = { y with cmd := c, out := o } := by
    refine ⟨g.cmd, g.out, ?_⟩
    rw [hgen, deliver_frame hq, setPort_frame]
  have hst := stand_of_rest hyr
  have hdp : y.rest.dataPath = s.rest.dataPath := by rw [hyr]
  have hnv : y.nv = s.nv := congrArg (fun z => z.nv) hyr
  have hfd := rest_fed hyr
  refine ⟨?_, ?_, ?_, ?_, ?_, ?_, fun r hr => ?_, ?_, hout⟩
  · rw [hfr, ← hst]
    rfl
  · rw [hfr]
    exact hdp
  · rw [hfr]
    exact hnv
  · rw [hfr]
    exact hfd
  · rw [hcmd]
    exact (setPort_sheets _ _ _).trans (congrArg Cmd.sheets (rest_cmd hyr))
  · rw [hport, portOf_setPort_same, hyp]
  · rw [hport, portOf_setPort_other _ _ hr, hyp]
  · rw [← hyreg, hfr]
    rfl

/-- A CONTACT_SHEET whose port and tag are free is entered and listed for service (R69). -/
theorem takeCommand_sheet {q : Req} {s : State} (hf : findsFree q s) (hc : q.code = cSheet) (u : State)
    (hu : u = setPort q.port { portOf s q.port with tags := enterTag q (portOf s q.port).tags } s) :
    takeCommand q s = { u with cmd := { u.cmd with sheets := [q] } } := by
  have hp : permitted (getB s (adr pgCmd 0x0A0) 0) q.code = some [.H, .S, .M, .F, .W] := by rw [hc]; rfl
  have hm : [CmdPort.H, .S, .M, .F, .W].contains q.port = true := by cases q.port <;> decide
  have hus : u.cmd.sheets = [] := by rw [hu, setPort_sheets, hf.idle.1]
  rw [takeCommand, if_pos (.inl hc), submit, if_pos hf.served]
  simp only [hp, if_pos hm, hf.tag]
  rw [place, if_pos hc]
  simp only [← hu, hus, List.nil_append]

/-- A CONTACT_SHEET without arguments is answered at once where the complex is awake (R81). -/
theorem settle_sheet {q : Req} {s u : State} (hsv : portsServed u = true) (hm : u.ctl.mode ≠ .still)
    (he : u.pwr.entering = false) (ha : q.args = []) (hs : u.cmd.sheets = []) (hg : s = genSheet q u)
    (hr : s.nv.restore = none) (hb : s.fed.outbox = []) (hq : s.portsQuiet) :
    settle { u with cmd := { u.cmd with sheets := [q] } } = s := by
  have e : { u with cmd := { u.cmd with sheets := [] } } = u := by rw [← hs]
  have hw : cmdWork { u with cmd := { u.cmd with sheets := [q] } } = true := by
    have hp : portsServed { u with cmd := { u.cmd with sheets := [q] } } = true := hsv
    rw [cmdWork, hp]
    simp
  have hserve : serveSheets { u with cmd := { u.cmd with sheets := [q] } } = s := by
    show serveSheet q { u with cmd := { u.cmd with sheets := [] } } = s
    rw [e, serveSheet, if_neg (by rw [he]; exact fun h => h.elim hm (by decide)), if_pos ha, hg]
  rw [settle, if_pos hw, hserve, restoreStep_none hr, servePorts_quiet 3 hq, fedFlush_none hb]

theorem contactSheet_row {s : State} {p : CmdPort} {a : Arrival} (hp : p = .S ∨ p = .M) (hf : freshAt s p a)
    (hm : s.ctl.mode ≠ .still) :
    ∃ t d, exec (.contactSheet a []) s = .next t ∧ commandEnds t p a cSheet 0x00 []
      ∧ (portOf t p).sheet = some (a.seq, d) ∧ d.length = 1024 ∧ t.ctl.mode = s.ctl.mode ∧ t.dataPath = s.dataPath
      ∧ getReg t (adr pgSheet 0x080) = word (a.seq.toNat * 2 ^ 16 + portCode p)
      ∧ (p = .S → Emit.response .S 0 0 (respBytes { code := cSheet, seq := a.seq, result := 0x00, dup := false, data := d })
        ∈ t.out) := by
  obtain ⟨t, ht, hrow⟩ := arrival_request (c := cSheet) (args := []) hp hf hm (by decide)
  obtain ⟨q, hq⟩ : ∃ q : Req, q = { port := p, code := cSheet, seq := a.seq, args := [], ingress := a.ingress
                                    source := a.source, relayed := none, sheetReq := false } := ⟨_, rfl⟩
  rw [← hq] at hrow
  have hqp : q.port = p := by rw [hq]
  have hqs : q.seq = a.seq := by rw [hq]
  have hqc : q.code = cSheet := by rw [hq]
  have hqe : q.port = .S ∨ q.port = .M := by rw [hqp]; exact hp
  have hfree := findsFree_of_fresh hf ht hqp hqs
  obtain ⟨u, hu⟩ : ∃ u, u = setPort q.port { portOf t q.port with tags := enterTag q (portOf t q.port).tags } t := ⟨_, rfl⟩
  have huf : u = { t with cmd := u.cmd } := by rw [hu]; exact setPort_frame _ _ _
  obtain ⟨g, hg⟩ : ∃ g, g = genSheet q u := ⟨_, rfl⟩
  obtain ⟨g1, g2, g3, g4, -, g6, g7, g8, g9⟩ := genSheet_does hqe u g hg
  have hup : portOf u q.port = { portOf t q.port with tags := enterTag q (portOf t q.port).tags } := by
    rw [hu, portOf_setPort_same]
  have huo : ∀ r, r ≠ q.port → portOf u r = portOf t r := fun r hr => by rw [hu, portOf_setPort_other _ _ hr]
  have hquiet : g.portsQuiet := by
    intro r
    by_cases hr : r = q.port
    · rw [hr, g6, hup, portWork]
      simp only [hfree.exec, hfree.wait]
    · rw [g7 r hr, huo r hr]
      exact portsQuiet_of_idle hfree.idle r
  have hset : arriveRow a cSheet [] s = g := by
    rw [hrow, takeCommand_sheet hfree hqc u hu]
    refine settle_sheet ?_ ?_ ?_ (by rw [hq]) (by rw [hu, setPort_sheets, hfree.idle.1]) hg ?_ ?_ hquiet
    · rw [huf]; exact hfree.served
    · rw [huf]; exact fun h => hm (ht.mode.symm.trans h)
    · rw [huf]
      exact (congrArg Pwr.entering ht.pwr).trans hf.2.2.2.2.2.2.2.2.2.2.1
    · rw [g3, huf]; exact hfree.idle.2.2.2.2.2.2.1
    · rw [g4, huf]; exact hfree.idle.2.2.2.2.2.2.2
  rw [hqp] at g6 g8 g9 hup
  rw [hqs] at g6 g8 g9
  rw [hqc] at g9
  refine ⟨g, sheetRecord u p a.seq, by rw [← hset]; rfl, ⟨?_, ?_⟩, by rw [g6], sheetRecord_length _ _ _, ?_, ?_, g8, g9⟩
  · rw [g6, hup, ← hqs, ← hqc]
    exact findTag_storeResult rOk [] _
  · rw [g6, hup]
    exact (congrArg PortState.exec (ht.ports p)).trans hf.2.2.2.2.2.2.1
  · have h1 := congrArg Prod.fst g1
    refine h1.trans ?_
    rw [huf]
    exact ht.mode
  · rw [g2, huf]
    exact ht.path

end Sys2Proof.Machine
end

section
namespace Sys2Proof.Machine

/-! ### REG_READ (R21, R66) -/

@[simp] theorem clearRead_stand (a : Nat) (s : State) : (clearRead a s).stand = s.stand := by
  unfold clearRead
  split
  · split <;> rfl
  · rfl

@[simp] theorem takeSnap_stand (p : CmdPort) (a : Nat) (s : State) : (takeSnap p a s).stand = s.stand := rfl

@[simp] theorem peakRead_stand (a : Nat) (s : State) : (peakRead a s).stand = s.stand := by
  unfold peakRead
  simp only
  split <;> rfl

@[simp] theorem claimRead_stand (t : Nat) (s : State) : (claimRead t s).2.stand = s.stand := by
  unfold claimRead
  split
  · exact (loupe_stand _ _ _ _ _).trans ((irqSettle_stand _).trans rfl)
  · rfl

@[simp] theorem regRead_stand (p : CmdPort) (a : Nat) (s : State) : (regRead p a s).2.stand = s.stand := by
  unfold regRead
  simp only
  split
  · exact claimRead_stand _ _
  split
  · rfl
  split
  · simp
  split
  · simp
  split
  · rfl
  · simp

@[simp] theorem wakeQuarter_stand (a : Nat) (s : State) : (wakeQuarter a s).stand = s.stand := by
  unfold wakeQuarter
  split
  · rfl
  split
  · split <;> rfl
  · split <;> simp
  · rfl

@[simp] theorem readWord_stand (p : CmdPort) (a : Nat) (s : State) : (readWord p a s).2.stand = s.stand := by
  unfold readWord
  split
  · split
    · simp
    · rfl
  · simp [recordBad]
  · rfl
  · rfl

@[simp] theorem readWords_stand (p : CmdPort) (l : List Nat) (s : State) : (readWords p l s).2.stand = s.stand := by
  induction l generalizing s with
  | nil => rfl
  | cons a r ih => exact (ih _).trans (readWord_stand p a s)

theorem readWords_length (p : CmdPort) (l : List Nat) (s : State) : (readWords p l s).1.length = 4 * l.length := by
  induction l generalizing s with
  | nil => rfl
  | cons a r ih =>
    rw [readWords, List.length_append, leBytes_length, ih, List.length_cons]
    omega

/-- With no privileged unit under test and the complex awake no word waits for a wake (Table 3.6). -/
theorem readWaits_awake {s : State} (hd : s.dark.now = none) (hm : s.ctl.mode ≠ .still) (he : s.pwr.entering = false) (a : Nat) :
    readWaits s a = false := by
  have hp : privTest s (pageOf a) = false := by rw [privTest, hd]
  unfold readWaits
  simp only
  split
  · rfl
  · rw [hp, decide_eq_false hm, he]
    rfl

theorem runCmd_basic {q : Req} (h : q.code = cRegRead ∨ q.code = cRegWrite) (s : State) : runCmd q s = runBasic q s := by
  rcases h with h | h <;>
    simp [runCmd, h, cRegRead, cRegWrite, cLoad, cCommit, cTestStart, cTestAbort, cStepArm, cForceRepair, cRestore]

theorem regRead_row {s : State} {p : CmdPort} {a : Arrival} {args : List Byte} (hp : p = .S ∨ p = .M) (hf : freshAt s p a)
    (hm : s.ctl.mode ≠ .still) (hd : s.dark.now = none) (hlen : args.length = 5) (h1 : 1 ≤ (byteAt args 4).toNat)
    (h16 : (byteAt args 4).toNat ≤ 16) :
    ∃ t d, exec (.regRead a args none) s = .next t ∧ d.length = 4 * (byteAt args 4).toNat
      ∧ commandEnds t p a cRegRead 0x00 d ∧ t.ctl.mode = s.ctl.mode := by
  obtain ⟨t, ht, hrow⟩ := arrival_request (c := cRegRead) (args := args) hp hf hm (by omega)
  obtain ⟨q, hq⟩ : ∃ q : Req, q = { port := p, code := cRegRead, seq := a.seq, args := args, ingress := a.ingress
                                    source := a.source, relayed := none, sheetReq := false } := ⟨_, rfl⟩
  rw [← hq] at hrow
  have hqp : q.port = p := by rw [hq]
  have hqs : q.seq = a.seq := by rw [hq]
  have hqc : q.code = cRegRead := by rw [hq]
  have hqa : q.args = args := by rw [hq]
  have hqe : q.port = .S ∨ q.port = .M := by rw [hqp]; exact hp
  have hfree := findsFree_of_fresh hf ht hqp hqs
  have hu := running_frame q t
  obtain ⟨u, hudef⟩ : ∃ u, u = running q t := ⟨_, rfl⟩
  rw [← hudef] at hu
  have hst := readWords_stand q.port (cmdAddrs q.args) u
  have hwl := readWords_length q.port (cmdAddrs q.args) u
  obtain ⟨x, hx⟩ : ∃ x, x = readWords q.port (cmdAddrs q.args) u := ⟨_, rfl⟩
  rw [← hx] at hst hwl
  have hxl : x.1.length = 4 * (byteAt args 4).toNat := by
    rw [hwl, hqa, cmdAddrs, List.length_map, List.length_range, Nat.min_eq_right h16]
  have hpl : placed q t = { t with cmd := (placed q t).cmd } := placed_frame q t
  have hgate : gateOf (placed q t) q = .go := by
    have hw : (cmdAddrs q.args).any (readWaits (placed q t)) = false := by
      rw [List.any_eq_false]
      intro b _
      rw [readWaits_awake (by rw [hpl]; exact (congrArg Dark.now ht.dark).trans hd)
        (by rw [hpl]; exact fun h => hm (ht.mode.symm.trans h))
        (by rw [hpl]; exact (congrArg Pwr.entering ht.pwr).trans hf.2.2.2.2.2.2.2.2.2.2.1)]
      decide
    rw [gateOf, if_pos hqc, hw]
    rfl
  have hargs : argsOk q = true := by
    rw [argsOk]
    simp only [if_pos hqc, hqa, hlen, decide_eq_true h1, decide_eq_true h16]
    rfl
  have hrun : runCmd q u = finishReq q rOk x.1 x.2 := by
    rw [runCmd_basic (.inl hqc), runBasic, if_pos hqc, hx]
  simp only [State.stand, Prod.mk.injEq] at hst
  obtain ⟨⟨hxm, -⟩, hxc, -, hxo⟩ := hst
  have hcmd : x.2.cmd = (running q t).cmd := by rw [hxc, hudef]
  have hset : arriveRow a cRegRead args s = finishReq q rOk x.1 x.2 := by
    rw [hrow]
    refine settle_takes hfree (l := [.H, .S, .M, .F, .W]) (by rw [hqc]; rfl) (by cases q.port <;> decide)
      (by rw [hqc]; decide) hgate hargs (by rw [← hudef]; exact hrun)
      (ended_quiet hqe hfree.idle hfree.wait hcmd rOk x.1) ?_
    rw [finishReq_frame hqe]
    exact hxo.trans (by rw [hu]; exact hfree.idle.2.2.2.2.2.2.2)
  have hends := ends_of_finished (a := a) hqe hqs hcmd rOk x.1
  rw [List.take_of_length_le (by omega), hqp, hqc] at hends
  refine ⟨finishReq q rOk x.1 x.2, x.1, by rw [← hset]; rfl, hxl, hends, ?_⟩
  rw [finishReq_frame hqe]
  exact hxm.trans (by rw [hu]; exact ht.mode)

end Sys2Proof.Machine
end

section
namespace Sys2Proof.Machine

/-! ### REG_WRITE of one word on port S (R69) -/

/-- PG_OFFLOAD is one page: no other branch of Table 2.1 gives its kind. -/
theorem offload_page {p : Nat} (h : (pageInfo p).kind = .offload) : p = 0x018 := by
  by_contra hne
  simp only [pageInfo, if_neg hne, apply_ite PageInfo.kind, ite_eq_iff, reduceCtorEq, and_false, false_or, or_false] at h
  split at h <;> simp only [reduceCtorEq, and_false] at h

/-- An access to PG_OFFLOAD wakes no quarter and no cluster. -/
theorem wakeQuarter_offload {a : Nat} (h : (pageInfo (pageOf a)).kind = .offload) (s : State) : wakeQuarter a s = s := by
  have hp : (pageInfo (pageOf a)).domain = .hd := by rw [offload_page h]; rfl
  unfold wakeQuarter
  rw [hp]
  simp only [ite_self]

section
variable {s : State} {a : Arrival} {args : List Byte} {q : Req} {x : Nat}

/-- What a REG_WRITE of one word spells, and that nothing holds it up in RUN. -/
structure oneWord (s : State) (a : Arrival) (args : List Byte) (q : Req) (x : Nat) : Prop where
  fresh : freshAt s .S a
  run : s.ctl.mode = .run
  dark : s.dark.now = none
  pages : s.prt.testPages = []
  len : args.length = 12
  one : byteAt args 4 = 1
  zero : leField args 5 3 = 0
  addr : x = leField args 0 4
  req : q = requestOf a .S cRegWrite args

theorem oneWord_fields (h : oneWord s a args q x) : q.port = .S ∧ q.code = cRegWrite ∧ q.args = args ∧ q.seq = a.seq := by
  rw [h.req, requestOf_code h.fresh.2.2.1]
  exact ⟨rfl, rfl, rfl, rfl⟩

theorem oneWord_addrs (h : oneWord s a args q x) : cmdAddrs args = [x] := by
  rw [cmdAddrs, h.one, h.addr]
  rfl

theorem oneWord_gate (h : oneWord s a args q x) : gateOf (placed q s) q = .go := by
  obtain ⟨-, hqc, -, -⟩ := oneWord_fields h
  have hp : ∀ g, privTest (placed q s) g = false := fun g => by
    rw [privTest, placed_frame]
    simp only [h.dark]
  have hctl : (placed q s).ctl = s.ctl := by rw [placed_frame]
  have hprt : (placed q s).prt = s.prt := by rw [placed_frame]
  have hpwr : (placed q s).pwr = s.pwr := by rw [placed_frame]
  have he := h.fresh.2.2.2.2.2.2.2.2.2.2.1
  rw [gateOf, if_neg (by rw [hqc]; decide), if_pos hqc, writeGate]
  simp [hctl, hprt, hpwr, h.run, h.pages, hp, he]

theorem oneWord_args (h : oneWord s a args q x) : argsOk q = true := by
  obtain ⟨-, hqc, hqa, -⟩ := oneWord_fields h
  have hn : (byteAt args 4).toNat = 1 := by rw [h.one]; rfl
  rw [argsOk]
  simp only [hqa, hn, h.len, h.zero]
  rw [if_neg (by rw [hqc]; decide), if_pos hqc]
  rfl

/-- The row comes to the write, and then to its answer. -/
theorem regWrite_row (h : oneWord s a args q x) {w : State} {denied : Bool}
    (hd : decide (writeVerdict (running q s) .S x true = .denied) = denied)
    (hw : gatedWrite .S x true (word (leField (args.drop 8) 0 4)) (regWrite .S x (word (leField (args.drop 8) 0 4)))
      (running q s) = w)
    (hcmd : w.cmd = (running q s).cmd) (hb : w.fed.outbox = []) :
    exec (.regWrite a args) s = .next (finishReq q (if denied then rPageDenied else rOk) [] w)
      ∧ commandEnds (finishReq q (if denied then rPageDenied else rOk) [] w) .S a cRegWrite
        (if denied then rPageDenied else rOk) [] := by
  obtain ⟨hqp, hqc, hqa, hqs⟩ := oneWord_fields h
  have hf := h.fresh
  have hok : wordOk .S x = true := rfl
  have hwords : writeWords .S [x] (args.drop 8) (running q s) = (denied, w) := by
    rw [writeWords]
    simp only [hok, hd, hw]
    rw [writeWords, Bool.or_false]
  have hrun : runCmd q (running q s) = finishReq q (if denied then rPageDenied else rOk) [] w := by
    rw [runCmd_basic (.inr hqc), runBasic, if_neg (by rw [hqc]; decide), if_pos hqc]
    simp only [hqp, hqa, oneWord_addrs h, hwords]
  have hset : arriveRow a cRegWrite args s = finishReq q (if denied then rPageDenied else rOk) [] w := by
    refine arriveRow_runs hf h.req (by rw [h.len]; decide) (l := [.H, .S, .M, .F, .W]) rfl (by decide) (by decide)
      (oneWord_gate h) (oneWord_args h) hrun
      (ended_quiet (.inl hqp) hf.2.2.2.2.1 (by rw [hqp]; exact hf.2.2.2.2.2.2.2.1) hcmd _ _) ?_
    rw [finishReq_frame (.inl hqp)]
    exact hb
  refine ⟨by rw [← hset]; rfl, ?_⟩
  have hends := ends_of_finished (a := a) (.inl hqp) hqs hcmd (if denied then rPageDenied else rOk) []
  rwa [hqp, hqc] at hends

/-- The checks of R410 do not look at the command ports. -/
theorem writeVerdict_ports (s : State) (c : Cmd) (x : Nat) (ok : Bool) :
    writeVerdict { s with cmd := c } .S x ok = writeVerdict s .S x ok := rfl

theorem dropHeld_plain {p : CmdPort} {s : State} (h : dropHeld p x s = s) (c : Cmd) :
    dropHeld p x { s with cmd := c } = { s with cmd := c } := by
  have e : dropHeld p x { s with cmd := c } = { dropHeld p x s with cmd := c } := by
    unfold dropHeld
    simp only
    split
    · split <;> rfl
    · rfl
  rw [e, h]

theorem regWrite_offload {p : CmdPort} {r : RegRow} {u : State} (v : Word) (hr : rowAt x = some r) (hp : r.pair = 0)
    (ha : aliasOf u x = x) (hk : (pageInfo (pageOf x)).kind = .offload) (h80 : 0x080 ≤ offOf x) (hb0 : offOf x ≠ 0x0B0)
    (hb4 : offOf x ≠ 0x0B4) :
    regWrite p x v u = setReg x ((getReg u x &&& ~~~(r.rw ||| r.wo)) ||| (v &&& (r.rw ||| r.wo))) u := by
  have hc : pairCode x = 0 := by simp only [pairCode, hr, hp]
  have hpage : pageWrite p x x v u = storeAny x v u := by
    simp only [pageWrite, hk, storePair, hc]
  simp only [regWrite, ha, hk, snapOff]
  rw [if_neg (by omega), if_neg (by omega), if_neg (by omega), if_neg (by omega), if_neg (by omega), if_neg hb0,
    if_neg (by omega), hpage]
  simp only [storeAny, hr]

theorem regWrite_plain {r : RegRow} (h : oneWord s a args q x) (hpl : plainWrite s .S x) (hr : rowAt x = some r)
    (hp : r.pair = 0) (ha : aliasOf s x = x) (hk : (pageInfo (pageOf x)).kind = .offload) (h80 : 0x080 ≤ offOf x)
    (hb0 : offOf x ≠ 0x0B0) (hb4 : offOf x ≠ 0x0B4) :
    ∃ t, exec (.regWrite a args) s = .next t ∧ commandEnds t .S a cRegWrite 0x00 []
      ∧ getReg t x = (getReg s x &&& ~~~(r.rw ||| r.wo)) ||| (word (leField (args.drop 8) 0 4) &&& (r.rw ||| r.wo))
      ∧ (∀ b, b ≠ x → getReg t b = getReg s b) ∧ t.ctl = s.ctl ∧ t.dataPath = s.dataPath := by
  obtain ⟨hacc, hbefore⟩ := hpl
  obtain ⟨hqp, -, -, -⟩ := oneWord_fields h
  generalize hv : word (leField (args.drop 8) 0 4) = v
  have hu := running_frame q s
  have hdrop : dropHeld .S x s = s := by
    have e : beforeWrite .S x s = wakeQuarter x (dropHeld .S x s) := rfl
    rwa [e, wakeQuarter_offload hk] at hbefore
  have hverd : writeVerdict (running q s) .S x true = .accepted := by rw [hu, writeVerdict_ports, hacc]
  have hbu : beforeWrite .S x (running q s) = running q s := by
    have e : beforeWrite .S x (running q s) = wakeQuarter x (dropHeld .S x (running q s)) := rfl
    rw [e, wakeQuarter_offload hk, hu, dropHeld_plain hdrop]
  have halias : aliasOf (running q s) x = x := by
    rw [hu]
    exact ha
  have hreg : ∀ b, getReg (running q s) b = getReg s b := getReg_of_win (by rw [hu])
  obtain ⟨w, hwdef⟩ : ∃ w, w = setReg x ((getReg s x &&& ~~~(r.rw ||| r.wo)) ||| (v &&& (r.rw ||| r.wo))) (running q s) :=
    ⟨_, rfl⟩
  have hw : gatedWrite .S x true v (regWrite .S x v) (running q s) = w := by
    rw [gatedWrite, hverd]
    simp only
    rw [hbu, regWrite_offload v hr hp halias hk h80 hb0 hb4, hreg, hwdef]
  obtain ⟨hex, hends⟩ := regWrite_row h (denied := false) (w := w) (by rw [hverd]; rfl) (by rw [hv]; exact hw)
    (by rw [hwdef]; rfl) (by rw [hwdef, hu]; exact h.fresh.2.2.2.2.1.2.2.2.2.2.2.2)
  obtain ⟨-, k2, k3⟩ := finished_keeps (.inl hqp) rOk [] w
  have hg : ∀ b, getReg (finishReq q rOk [] w) b = getReg w b := getReg_of_win (by rw [k3])
  refine ⟨_, hex, hends, ?_, fun b hb => ?_, ?_, ?_⟩
  · exact (hg x).trans (by rw [hwdef, getReg_setReg_same])
  · exact (hg b).trans (by rw [hwdef, getReg_setReg_other _ _ hb, hreg])
  · exact k2.trans (by rw [hwdef, hu]; rfl)
  · rw [finishReq_frame (.inl hqp), hwdef, hu]
    rfl

theorem regWrite_denied (h : oneWord s a args q x) (hden : writeVerdict s .S x true = .denied) :
    ∃ t, exec (.regWrite a args) s = .next t ∧ commandEnds t .S a cRegWrite 0x09 [] ∧ t.ctl.mode = .run
      ∧ t.dataPath = s.dataPath := by
  obtain ⟨hqp, -, -, -⟩ := oneWord_fields h
  have hu := running_frame q s
  have hverd : writeVerdict (running q s) .S x true = .denied := by rw [hu, writeVerdict_ports, hden]
  have hw : ∀ v, gatedWrite .S x true v (regWrite .S x v) (running q s) = recordDeny .S x (running q s) := by
    intro v
    rw [gatedWrite, hverd]
  have hrest : (recordDeny .S x (running q s)).rest = (running q s).rest := hwEvent_rest _ _ _
  generalize recordDeny .S x (running q s) = w at hw hrest
  obtain ⟨hex, hends⟩ := regWrite_row h (denied := true) (w := w) (by rw [hverd]; rfl) (hw _) (rest_cmd hrest)
    (by rw [rest_fed hrest, hu]; exact h.fresh.2.2.2.2.1.2.2.2.2.2.2.2)
  obtain ⟨-, k2, -⟩ := finished_keeps (.inl hqp) rPageDenied [] w
  have hpath : w.dataPath = s.dataPath := by
    have h1 : w.rest.dataPath = (running q s).rest.dataPath := by rw [hrest]
    rw [hu] at h1
    exact h1
  refine ⟨_, hex, hends, ?_, ?_⟩
  · refine (congrArg Ctl.mode k2).trans ((rest_mode hrest).trans ?_)
    rw [hu]
    exact h.run
  · rw [← hpath]
    show (finishReq q rPageDenied [] w).dataPath = w.dataPath
    rw [finishReq_frame (.inl hqp)]
    rfl

end

/-! ### The window read (R21) -/

theorem windowRead_stored {s : State} {p : CmdPort} {x : Nat} {r : RegRow} (hs : readVerdict s p x true = .served)
    (hw : wakeQuarter x s = s) (hr : rowAt x = some r) (hp : r.pair = 0) (hrc : r.rc = 0)
    (hv : viewOf s p (pageOf x) (offOf x) = none) (hh : viewHeader s (pageOf x) (offOf x) = none) (ht : x ≠ timA 0x090)
    (hk : (pageInfo (pageOf x)).kind ≠ .irqT) (hd : x ≠ darkA 0x080) :
    gatedRead p x true (regRead p x) s
      = emit (.regData p x (getReg s (aliasOf s x) &&& ~~~r.wo)) (peakRead x s) := by
  have hc : pairCode x = 0 := by simp only [pairCode, hr, hp]
  have hval : regValue s p x = getReg s (aliasOf s x) &&& ~~~r.wo := by simp only [regValue, hv, hh, hr]
  have hclear : clearRead x s = s := by simp only [clearRead, hr, if_pos hrc]
  have hfree : readsFree s x = false := by simp [readsFree, hd]
  have hread : regRead p x s = (getReg s (aliasOf s x) &&& ~~~r.wo, peakRead x s) := by
    rw [regRead]
    simp only
    rw [if_neg (fun h => hk h.1), if_neg ht, hc, if_neg (by decide), if_neg (by decide), hfree, if_neg (by decide), hval,
      hclear]
  rw [gatedRead, hs]
  simp only
  rw [hw, hread]

/-- Settles O33. -/
theorem registerCommands : Obligations.RegisterCommands := by
  intro s p a args hp
  refine ⟨fun hf hm => contactSheet_row hp hf hm, fun hf hm hd h5 h1 h16 => regRead_row hp hf hm hd h5 h1 h16,
    fun x r hx hf hm hd ht h12 hone hz hpl hr hpair hal hk h80 hb0 hb4 _ => ?_, fun x hx hf hm hd ht h12 hone hz hden => ?_,
    fun x r hs hw hr hpair hrc hv hh _ ht hk hd => ?_⟩
  · exact regWrite_plain ⟨hf, hm, hd, ht, h12, hone, hz, hx, rfl⟩ hpl hr hpair hal hk h80 hb0 hb4
  · exact regWrite_denied ⟨hf, hm, hd, ht, h12, hone, hz, hx, rfl⟩ hden
  · show Host.Outcome.next (gatedRead a.port x.toNat true (regRead a.port x.toNat) s) = _
    rw [windowRead_stored hs hw hr hpair hrc hv hh ht hk hd]

end Sys2Proof.Machine
end

section
namespace Sys2Proof.Machine

/-! ### Writes of plain registers (R35, R42) -/

/-- The kinds of page on which every register that is no event or snapshot register only holds what is written. -/
abbrev plainKinds : List PageKind := [.mode, .retain, .darkslide, .nv, .offload, .pipe, .reorder, .clsKeys, .version]

theorem pageWrite_plainKind {a : Nat} (h : (pageInfo (pageOf a)).kind ∈ plainKinds) (p : CmdPort) (w : Nat) (v : Word)
    (s : State) : pageWrite p w a v s = storePair p w a v s := by
  unfold pageWrite
  simp only
  generalize (pageInfo (pageOf a)).kind = k at h
  cases k
  case mode | retain | darkslide | nv | offload | pipe | reorder | clsKeys | version => rfl
  all_goals exact absurd h (by decide)

/-- Above the common header a register that is neither SNAP nor CNT_CLR of its page takes the page's own write. -/
theorem regWrite_eq_pageWrite {a : Nat} {s : State} (ha : aliasOf s a = a) (h80 : 0x080 ≤ offOf a)
    (hk : ∀ k, snapOff (pageInfo (pageOf a)).kind = some k → offOf a ≠ k ∧ offOf a ≠ k + 4) (p : CmdPort) (v : Word) :
    regWrite p a v s = pageWrite p a a v s := by
  simp only [regWrite, ha]
  rw [if_neg (by omega), if_neg (by omega), if_neg (by omega), if_neg (by omega), if_neg (by omega)]
  split
  · rename_i k hs
    obtain ⟨hsnap, hclear⟩ := hk k hs
    rw [if_neg hsnap, if_neg hclear]
  · rfl

/-- A register that is no half of a pair takes the bits that software can write, at once (R42). -/
theorem storePair_single {a : Nat} {r : RegRow} (hr : rowAt a = some r) (hp : r.pair = 0) (p : CmdPort) (w : Nat) (v : Word)
    (s : State) :
    storePair p w a v s = setReg a ((getReg s a &&& ~~~(r.rw ||| r.wo)) ||| (v &&& (r.rw ||| r.wo))) s := by
  have hc : pairCode a = 0 := by simp only [pairCode, hr, hp]
  simp only [storePair, hc, storeAny, hr]

/-- Settles O13. -/
theorem plainRegisterWrite : Obligations.PlainRegisterWrite := by
  intro s p a v r hplain hidle hrow hpair halias hkind h80 hsnap
  have hwrite := (gatedWrite_plain v (regWrite p a.toNat v) hplain).trans (regWrite_eq_pageWrite halias h80 hsnap p v)
  have hstore := (pageWrite_plainKind hkind p a.toNat v s).trans (storePair_single hrow hpair p a.toNat v s)
  exact ⟨_, exec_registerWrite_of_rest (hwrite.trans hstore) rfl hidle, getReg_setReg_same _ _ s,
    fun _ hb => getReg_setReg_other _ s hb, rfl, rfl, rfl⟩

end Sys2Proof.Machine
end

section
namespace Sys2Proof.Machine

/-! ### The event registers of a page (R37-R39) -/

/-- On a page below the interrupt counts, edges move no register of the common header but EVT_LATCH and EVT_CNT of
PG_IRQ_CTRL. -/
theorem eventFree_header {g o : Nat} (hg : g < 0x043) (ho : o < 0x080) (h : g = pgIrq → o ≠ 0x24 ∧ o ≠ 0x40) :
    eventFree (adr g o) := by
  simp only [pgIrq] at h
  simp only [eventFree, adr, pgCount, pgIrq, pgPower]
  omega

/-- A register is written, and an edge may follow: the register holds what was written, and what edges do not move stays. -/
theorem written_then_edge {a : Nat} {w : Word} {s t : State} (ha : eventFree a)
    (h : t = setReg a w s ∨ ∃ k, t = irqEdge k (setReg a w s)) :
    getReg t a = w ∧ (∀ b, eventFree b → b ≠ a → getReg t b = getReg s b) ∧ t.rest = s.rest := by
  have hreg : ∀ b, eventFree b → getReg t b = getReg (setReg a w s) b := by
    rcases h with rfl | ⟨k, rfl⟩
    · exact fun _ _ => rfl
    · exact fun b hb => irqEdge_free hb k _
  have hrest : t.rest = (setReg a w s).rest := by
    rcases h with rfl | ⟨k, rfl⟩
    · rfl
    · exact irqEdge_rest k _
  exact ⟨(hreg a ha).trans (getReg_setReg_same a w s), fun b hb hba => (hreg b hb).trans (getReg_setReg_other w s hba), hrest⟩

/-- What a change of EVT_LATCH or EVT_MASK does after its store `u`: nothing more, or an edge of the page's source (R39). -/
theorem edge_if_visible (f : Nat → State → State) (c : Prop) [Decidable c] (page : Nat) (u : State) :
    (if c then match sourceOf page with | some k => f k u | none => u else u) = u
      ∨ ∃ k, (if c then match sourceOf page with | some k => f k u | none => u else u) = f k u := by
  split
  · cases sourceOf page with
    | none => exact .inl rfl
    | some k => exact .inr ⟨k, rfl⟩
  · exact .inl rfl

/-- What a write of EVT_SET moves (R37). -/
theorem evtSet_moves {g : Nat} (hg : g < 0x043) (hirq : g ≠ pgIrq) (v : Word) (s : State) :
    getReg (evtSet g v s) (adr g 0x24) = getReg s (adr g 0x24) ||| (v &&& word (2 ^ evtCount (pageInfo g).kind - 1))
      ∧ (∀ b, eventFree b → b ≠ adr g 0x24 → getReg (evtSet g v s) b = getReg s b) ∧ (evtSet g v s).rest = s.rest :=
  written_then_edge (eventFree_header hg (by decide) (absurd · hirq)) (edge_if_visible irqEdge _ g _)

/-- What a write of EVT_MASK_CLR moves (R37, R39). -/
theorem evtMaskClr_moves {g : Nat} (hg : g < 0x043) (v : Word) (s : State) :
    getReg (evtMaskClr g v s) (adr g 0x30) = getReg s (adr g 0x30) &&& ~~~v
      ∧ (∀ b, eventFree b → b ≠ adr g 0x30 → getReg (evtMaskClr g v s) b = getReg s b)
      ∧ (evtMaskClr g v s).rest = s.rest :=
  written_then_edge (eventFree_header hg (by decide) fun _ => by decide) (edge_if_visible irqEdge _ g _)

/-- An accepted write of an event register has its effect on the page whose registers it reaches (R101). -/
theorem evtRow_plain {s : State} {p : CmdPort} {page off : Nat} (v : Word) (eff : Nat → Word → State → State)
    (h : plainWrite s p (adr page off)) :
    evtRow p page off v eff s = eff (pageOf (aliasOf s (adr page off))) v s :=
  gatedWrite_plain v (fun x => eff (pageOf (aliasOf x (adr page off))) v x) h

/-- Reading a register after one register is changed from what it held. -/
theorem getReg_update (a : Nat) (f : Word → Word) (s : State) (b : Nat) :
    getReg (setReg a (f (getReg s a)) s) b = if b = a then f (getReg s b) else getReg s b := by
  rw [getReg_setReg]
  split
  · rename_i hb
    rw [hb]
  · rfl

theorem getReg_evtClr (g : Nat) (v : Word) (s : State) (b : Nat) :
    getReg (evtClr g v s) b = if b = adr g 0x24 then getReg s b &&& ~~~v else getReg s b :=
  getReg_update _ (· &&& ~~~v) s b

theorem getReg_evtMaskSet (g : Nat) (v : Word) (s : State) (b : Nat) :
    getReg (evtMaskSet g v s) b = if b = adr g 0x30 then
      getReg s b ||| (v &&& word (2 ^ evtCount (pageInfo g).kind - 1)) else getReg s b :=
  getReg_update _ (· ||| (v &&& word (2 ^ evtCount (pageInfo g).kind - 1))) s b

theorem getReg_evtCntSel (g : Nat) (v : Word) (s : State) (b : Nat) :
    getReg (evtCntSel g v s) b = if b = adr g 0x40 then 0 else if b = adr g 0x3C then v &&& 31 else getReg s b := by
  rw [evtCntSel, getReg_setReg, getReg_setReg]

/-- Settles O16. -/
theorem eventRegisterWrites : Obligations.EventRegisterWrites := by
  intro s p page v
  refine ⟨fun h => ?_, fun h => ?_, fun h => ?_, ?_, ?_⟩
  · exact ⟨_, congrArg Host.Outcome.next (evtRow_plain v evtClr h), getReg_evtClr _ v s, rfl, rfl⟩
  · exact ⟨_, congrArg Host.Outcome.next (evtRow_plain v evtMaskSet h), getReg_evtMaskSet _ v s, rfl, rfl⟩
  · exact ⟨_, congrArg Host.Outcome.next (evtRow_plain v evtCntSel h), getReg_evtCntSel _ v s, rfl, rfl⟩
  · rintro g rfl h hg hirq
    exact ⟨_, congrArg Host.Outcome.next (evtRow_plain v evtSet h), evtSet_moves hg hirq v s⟩
  · rintro g rfl h hg
    exact ⟨_, congrArg Host.Outcome.next (evtRow_plain v evtMaskClr h), evtMaskClr_moves hg v s⟩

/-! ### A hardware event (R37) -/

/-- What latching event `n` stores before any edge: its bit of EVT_LATCH, and a count where EVT_CNT_SEL selects it. -/
def latchStored (page n : Nat) (s : State) : State :=
  let u := setReg (adr page 0x24) (putBit (getReg s (adr page 0x24)) n true) s
  if getF u (adr page 0x3C) 4 0 = n then addF (adr page 0x40) 31 0 1 u else u

theorem latchBit_stored_or_edge (f : Nat → State → State) (page n : Nat) (s : State) :
    latchBit f page n s = latchStored page n s ∨ ∃ k, latchBit f page n s = f k (latchStored page n s) :=
  edge_if_visible f _ page _

theorem latchStored_count (page n : Nat) (s : State) :
    getF (latchStored page n s) (adr page 0x40) 31 0 = if getF s (adr page 0x3C) 4 0 = n
      then satAdd (2 ^ 32 - 1) (getF s (adr page 0x40) 31 0) 1 else getF s (adr page 0x40) 31 0 := by
  have h3C : adr page 0x3C ≠ adr page 0x24 := by simp only [adr]; omega
  have h40 : adr page 0x40 ≠ adr page 0x24 := by simp only [adr]; omega
  simp only [latchStored]
  rw [getF_congr (getReg_setReg_other _ s h3C)]
  split
  · rw [getF_addF_same _ _ _ (by decide), getF_congr (getReg_setReg_other _ s h40)]
  · rw [getF_congr (getReg_setReg_other _ s h40)]

/-- An event counts in EVT_CNT where EVT_CNT_SEL selects it, and edges leave that count alone (R37). -/
theorem hwEvent_count (page n : Nat) (s : State) (h : eventFree (adr page 0x40)) :
    getF (hwEvent page n s) (adr page 0x40) 31 0 = if getF s (adr page 0x3C) 4 0 = n
      then satAdd (2 ^ 32 - 1) (getF s (adr page 0x40) 31 0) 1 else getF s (adr page 0x40) 31 0 := by
  rw [← latchStored_count]
  refine getF_congr ?_ 31 0
  simp only [hwEvent, latchWith]
  rw [latchBanks_free h irqEdge (irqEdge_free h), lpAddAll_free h]
  obtain e | ⟨k, e⟩ := latchBit_stored_or_edge irqEdge page n s
  · rw [e]
  · rw [e, irqEdge_free h]

/-- Settles O17. -/
theorem hardwareEvent : Obligations.HardwareEvent := fun s page n hpage hirq =>
  ⟨hwEvent_latch page n s (eventFree_header hpage (by decide) (absurd · hirq)),
    hwEvent_count page n s (eventFree_header hpage (by decide) (absurd · hirq)),
    fun _ hb h24 h40 => hwEvent_free hb page n s h24 h40, hwEvent_rest page n s⟩

end Sys2Proof.Machine
end

section
namespace Sys2Proof.Machine

/-! ## POWERED_NS moves with the passing of time only (R219)

One lemma for each function of the model that yields a state, in the order of the definitions: it leaves POWERED_NS, the
queue of waiting commands, the mode, SAFE_ACTIVE and the drive of the outputs as they were. What ends in another mode or moves
those pins leaves the first two. -/

/-- What time and the changes of mode alone move: the count of powered nanoseconds, the queue of waiting commands, the mode,
SAFE_ACTIVE and the drive of the outputs. -/
def State.regime (s : State) : Nat × List Instr × Mode × Bool × Bool :=
  (s.tim.powered, s.pending, s.ctl.mode, s.ctl.pins.safeActive, s.ctl.pins.driven)

@[simp] theorem regime_mk (s : State) (win cmd irq pwr prt rx dp cls tx sec shut dma mem loupe fix dark nv fed out free) :
    State.regime ⟨s.ctl, win, cmd, irq, pwr, s.tim, prt, rx, dp, cls, tx, sec, shut, dma, mem, loupe, fix, dark, nv, fed, out,
      free, s.pending⟩ = s.regime := rfl

@[simp] theorem regime_tim (s : State) (win cmd irq pwr prt rx dp cls tx sec shut dma mem loupe fix dark nv fed out free)
    (t : Tim) (h : t.powered = s.tim.powered) :
    State.regime ⟨s.ctl, win, cmd, irq, pwr, t, prt, rx, dp, cls, tx, sec, shut, dma, mem, loupe, fix, dark, nv, fed, out,
      free, s.pending⟩ = s.regime := by simp only [State.regime, h]

@[simp] theorem regime_ctl (s : State) (win cmd irq pwr prt rx dp cls tx sec shut dma mem loupe fix dark nv fed out free)
    (c : Ctl) (hm : c.mode = s.ctl.mode) (ha : c.pins.safeActive = s.ctl.pins.safeActive)
    (hd : c.pins.driven = s.ctl.pins.driven) (t : Tim) (h : t.powered = s.tim.powered) :
    State.regime ⟨c, win, cmd, irq, pwr, t, prt, rx, dp, cls, tx, sec, shut, dma, mem, loupe, fix, dark, nv, fed, out,
      free, s.pending⟩ = s.regime := by simp only [State.regime, hm, ha, hd, h]

@[simp] theorem regime_ite (c : Prop) [Decidable c] (a b : State) :
    (if c then a else b).regime = if c then a.regime else b.regime := apply_ite _ c a b

theorem regime_of_rest {s t : State} (h : t.rest = s.rest) : t.regime = s.regime :=
  congrArg (fun x => (x.tim.powered, x.pending, x.ctl.mode, x.ctl.pins.safeActive, x.ctl.pins.driven)) h

@[simp] theorem regime_foldl {β : Type} (f : State → β → State) (h : ∀ s b, (f s b).regime = s.regime) (l : List β)
    (s : State) : (l.foldl f s).regime = s.regime := foldl_keeps State.regime f h l s

/-- The count of powered nanoseconds and the queue of waiting commands. -/
def State.clock (s : State) : Nat × List Instr := (s.tim.powered, s.pending)

theorem clock_of_regime {s t : State} (h : t.regime = s.regime) : t.clock = s.clock :=
  congrArg (fun x : Nat × List Instr × Mode × Bool × Bool => (x.1, x.2.1)) h

@[simp] theorem clock_mk (s : State) (ctl win cmd irq pwr prt rx dp cls tx sec shut dma mem loupe fix dark nv fed out free) :
    State.clock ⟨ctl, win, cmd, irq, pwr, s.tim, prt, rx, dp, cls, tx, sec, shut, dma, mem, loupe, fix, dark, nv, fed, out,
      free, s.pending⟩ = s.clock := rfl

@[simp] theorem clock_ite (c : Prop) [Decidable c] (a b : State) :
    (if c then a else b).clock = if c then a.clock else b.clock := apply_ite _ c a b

/-- The clock as a part of the regime, for what moves the rest of it. -/
theorem clock_regime (s : State) : s.clock = (s.regime.1, s.regime.2.1) := rfl

/-- A change of mode or of its pins leaves the clock. -/
theorem regime_turn (s : State) (win cmd irq pwr prt rx dp cls tx sec shut dma mem loupe fix dark nv fed out free) (c : Ctl)
    (t : Tim) (h : t.powered = s.tim.powered) :
    State.regime ⟨c, win, cmd, irq, pwr, t, prt, rx, dp, cls, tx, sec, shut, dma, mem, loupe, fix, dark, nv, fed, out,
      free, s.pending⟩ = (s.regime.1, s.regime.2.1, c.mode, c.pins.safeActive, c.pins.driven) := by simp only [State.regime, h]

theorem regime_eq {s t : State} : t.regime = s.regime ↔ t.tim.powered = s.tim.powered ∧ t.pending = s.pending
    ∧ t.ctl.mode = s.ctl.mode ∧ t.ctl.pins.safeActive = s.ctl.pins.safeActive ∧ t.ctl.pins.driven = s.ctl.pins.driven := by
  simp only [State.regime, Prod.mk.injEq]

/-- Whatever state `o` answers has the clock of `s`. -/
def answersClock (s : State) (o : Out) : Prop := ∀ t, o = .next t → t.clock = s.clock

@[simp] theorem answersClock_next (s t : State) : answersClock s (.next t) ↔ t.clock = s.clock :=
  ⟨fun h => h t rfl, fun h _ e => Host.Outcome.next.inj e ▸ h⟩

/-- Whatever state `o` answers has the regime of `s`. -/
def answersRegime (s : State) (o : Out) : Prop := ∀ t, o = .next t → t.regime = s.regime

@[simp] theorem answersRegime_next (s t : State) : answersRegime s (.next t) ↔ t.regime = s.regime :=
  ⟨fun h => h t rfl, fun h _ e => Host.Outcome.next.inj e ▸ h⟩

/-! ### Registers, counters, events and the interrupt controller -/

@[simp] theorem setReg_regime (a : Nat) (w : Word) (s : State) : (setReg a w s).regime = s.regime := by simp [setReg]
@[simp] theorem setReg_clock (a : Nat) (w : Word) (s : State) : (setReg a w s).clock = s.clock := by simp [setReg]
@[simp] theorem setF_regime (a hi lo v : Nat) (s : State) : (setF a hi lo v s).regime = s.regime := by simp [setF]
@[simp] theorem setB_regime (a n : Nat) (b : Bool) (s : State) : (setB a n b s).regime = s.regime := by simp [setB]
@[simp] theorem addF_regime (a hi lo n : Nat) (s : State) : (addF a hi lo n s).regime = s.regime := by simp [addF]
@[simp] theorem peakF_regime (a hi lo v : Nat) (s : State) : (peakF a hi lo v s).regime = s.regime := by simp [peakF]
@[simp] theorem setPair_regime (a v : Nat) (s : State) : (setPair a v s).regime = s.regime := by simp [setPair]

@[simp] theorem setWords_regime (n : Nat) (l : List Word) (s : State) : (setWords n l s).regime = s.regime := by
  fun_induction setWords n l s <;> simp [*]

@[simp] theorem setLive_regime (a v : Nat) (s : State) : (setLive a v s).regime = s.regime := by simp [setLive]
@[simp] theorem addLive_regime (a n : Nat) (s : State) : (addLive a n s).regime = s.regime := by simp [addLive]

@[simp] theorem captureLive_regime (p : Nat → Bool) (l : Tab Nat) (s : State) : (captureLive p l s).regime = s.regime := by
  fun_induction captureLive p l s <;> simp_all

@[simp] theorem clearLive_regime (p : Nat → Bool) (s : State) : (clearLive p s).regime = s.regime := by simp [clearLive]
@[simp] theorem emit_regime (e : Emit) (s : State) : (emit e s).regime = s.regime := by simp [emit]
@[simp] theorem nextFree_regime (s : State) : (nextFree s).regime = s.regime := by simp [nextFree]

@[simp] theorem loupePlain_regime (unit inst sig n : Nat) (s : State) : (loupePlain unit inst sig n s).regime = s.regime :=
  regime_of_rest (by simp)

@[simp] theorem notify_regime (t dataOff enBit : Nat) (s : State) : (notify t dataOff enBit s).regime = s.regime := by
  simp [notify]

@[simp] theorem irqSettle_regime (s : State) : (irqSettle s).regime = s.regime := regime_of_rest (by simp)
@[simp] theorem noteWake_regime (code loc : Nat) (s : State) : (noteWake code loc s).regime = s.regime := regime_of_rest (by simp)
@[simp] theorem irqEdge_regime (n : Nat) (s : State) : (irqEdge n s).regime = s.regime := regime_of_rest (by simp)
@[simp] theorem hwEvent_regime (page n : Nat) (s : State) : (hwEvent page n s).regime = s.regime := regime_of_rest (by simp)

@[simp] theorem loupe_regime (unit inst sig n : Nat) (s : State) : (loupe unit inst sig n s).regime = s.regime :=
  regime_of_rest (by simp)

@[simp] theorem evtSet_regime (page : Nat) (v : Word) (s : State) : (evtSet page v s).regime = s.regime := by
  unfold evtSet
  split <;> simp

@[simp] theorem evtClr_regime (page : Nat) (v : Word) (s : State) : (evtClr page v s).regime = s.regime := by simp [evtClr]

@[simp] theorem evtMaskSet_regime (page : Nat) (v : Word) (s : State) : (evtMaskSet page v s).regime = s.regime := by
  simp [evtMaskSet]

@[simp] theorem evtMaskClr_regime (page : Nat) (v : Word) (s : State) : (evtMaskClr page v s).regime = s.regime := by
  unfold evtMaskClr
  split <;> simp

@[simp] theorem evtCntSel_regime (page : Nat) (v : Word) (s : State) : (evtCntSel page v s).regime = s.regime := by
  simp [evtCntSel]

/-! ### Command ports -/

@[simp] theorem setPort_regime (p : CmdPort) (x : PortState) (s : State) : (setPort p x s).regime = s.regime := by
  unfold setPort
  split <;> simp

@[simp] theorem answerSheetH_regime (r : Resp) (record : Option (List Byte)) (s : State) :
    (answerSheetH r record s).regime = s.regime := by
  unfold answerSheetH
  split <;> simp

@[simp] theorem answerMailbox_regime (r : Resp) (s : State) : (answerMailbox r s).regime = s.regime := by simp [answerMailbox]

@[simp] theorem deliver_regime (q : Req) (r : Resp) (record : Option (List Byte)) (s : State) :
    (deliver q r record s).regime = s.regime := by
  unfold deliver
  repeat' split
  all_goals simp

@[simp] theorem refuse_regime (q : Req) (code : Byte) (dup : Bool) (s : State) : (refuse q code dup s).regime = s.regime := by
  simp [refuse]

@[simp] theorem finishReq_regime (q : Req) (res : Byte) (data : List Byte) (s : State) :
    (finishReq q res data s).regime = s.regime := by
  simp [finishReq]

@[simp] theorem finishCmd_regime (p : CmdPort) (res : Byte) (data : List Byte) (s : State) :
    (finishCmd p res data s).regime = s.regime := by
  unfold finishCmd
  split <;> simp

@[simp] theorem answerDup_regime (q : Req) (t : TagEntry) (s : State) : (answerDup q t s).regime = s.regime := by
  unfold answerDup
  dsimp only
  repeat' split
  all_goals simp

@[simp] theorem place_regime (q : Req) (s : State) : (place q s).regime = s.regime := by
  unfold place
  dsimp only
  repeat' split
  all_goals simp

@[simp] theorem submit_regime (q : Req) (s : State) : (submit q s).regime = s.regime := by
  unfold submit
  repeat' split
  all_goals simp

@[simp] theorem rejectByMode_regime (p : CmdPort) (code : Nat) (s : State) : (rejectByMode p code s).regime = s.regime := by
  simp [rejectByMode]

/-! ### Ports -/

@[simp] theorem setLocks_regime (blk v : Bool) (l : List Nat) (s : State) : (setLocks blk v l s).regime = s.regime := by
  fun_induction setLocks blk v l s <;> simp [*]

@[simp] theorem setHiBer_regime (v : Bool) (l : List Nat) (s : State) : (setHiBer v l s).regime = s.regime := by
  fun_induction setHiBer v l s <;> simp [*]

@[simp] theorem portDown_regime (p : Nat) (s : State) : (portDown p s).regime = s.regime := by simp [portDown]

/-! ### Power requests -/

@[simp] theorem reqStatus_regime (r : PwrReq) (state : Nat) (res : Byte) (reason : Nat) (s : State) :
    (reqStatus r state res reason s).regime = s.regime := by
  simp [reqStatus]

@[simp] theorem endReq_regime (r : PwrReq) (res : Byte) (reason : Nat) (s : State) :
    (endReq r res reason s).regime = s.regime := by
  unfold endReq
  repeat' split
  all_goals simp

@[simp] theorem startReq_regime (r : PwrReq) (s : State) : (startReq r s).regime = s.regime := by simp [startReq]
@[simp] theorem showSlot_regime (s : State) : (showSlot s).regime = s.regime := by simp [showSlot]

@[simp] theorem slotReq_regime (r : PwrReq) (s : State) : (slotReq r s).regime = s.regime := by
  unfold slotReq
  split <;> simp

@[simp] theorem acceptReq_regime (r : PwrReq) (s : State) : (acceptReq r s).regime = s.regime := by
  unfold acceptReq
  repeat' split
  all_goals simp

@[simp] theorem startSlot_regime (s : State) : (startSlot s).regime = s.regime := by
  unfold startSlot
  dsimp only
  repeat' split
  all_goals simp

@[simp] theorem cancelSleep_regime (s : State) : (cancelSleep s).regime = s.regime := by
  unfold cancelSleep
  split <;> simp

/-! ### MACsec -/

@[simp] theorem saPut_regime (cl : Nat) (tx : Bool) (sc an : Nat) (x : SA) (s : State) :
    (saPut cl tx sc an x s).regime = s.regime := by
  simp [saPut]

@[simp] theorem saErase_regime (cl : Nat) (tx : Bool) (sc an : Nat) (s : State) : (saErase cl tx sc an s).regime = s.regime := by
  simp [saErase]

@[simp] theorem copyKeys_regime (a b : Nat) (s : State) : (copyKeys a b s).regime = s.regime := by simp [copyKeys]
@[simp] theorem secPass_regime (f : List Byte) (s : State) : (secPass f s).st.regime = s.regime := by simp [secPass]
@[simp] theorem secDrop_regime (cnt p : Nat) (s : State) : (secDrop cnt p s).st.regime = s.regime := by simp [secDrop]

@[simp] theorem secStrip_regime (f : List Byte) (t : SecTag) (n : Nat) (body : List Byte) (s : State) :
    (secStrip f t n body s).st.regime = s.regime := by
  simp [secStrip]

@[simp] theorem secIcv_regime (cfg : Word) (p sc : Nat) (f : List Byte) (t : SecTag) (n : Nat) (sa : SA) (pn : Nat) (s : State) :
    (secIcv cfg p sc f t n sa pn s).st.regime = s.regime := by
  unfold secIcv
  dsimp only
  repeat' split
  all_goals simp

@[simp] theorem secRx_regime (cfg : Word) (p : Nat) (f : List Byte) (verdict : Bool) (s : State) :
    (secRx cfg p f verdict s).st.regime = s.regime := by
  unfold secRx
  dsimp only
  repeat' split
  all_goals simp

@[simp] theorem txSecDiscard_regime (p reason : Nat) (s : State) : (txSecDiscard p reason s).regime = s.regime := by
  simp [txSecDiscard]

@[simp] theorem takeSwitch_regime (cl sc : Nat) (s : State) : (takeSwitch cl sc s).regime = s.regime := by simp [takeSwitch]
@[simp] theorem showPn_regime (cl sc : Nat) (s : State) : (showPn cl sc s).regime = s.regime := by simp [showPn]

@[simp] theorem spendPn_regime (p cl sc an : Nat) (sa : SA) (s : State) : (spendPn p cl sc an sa s).regime = s.regime := by
  simp [spendPn]

@[simp] theorem txSpend_regime (p sc : Nat) (s : State) : (txSpend p sc s).2.regime = s.regime := by
  unfold txSpend
  dsimp only
  repeat' split
  all_goals simp

@[simp] theorem countSealed_regime (p n : Nat) (x : TxSec) (s : State) : (countSealed p n x s).regime = s.regime := by
  simp [countSealed]

@[simp] theorem showNoKeys_regime (cl : Nat) (s : State) : (showNoKeys cl s).regime = s.regime := by simp [showNoKeys]

@[simp] theorem clearKeys_regime (c : Nat) (s : State) : (clearKeys c s).regime = s.regime := by
  unfold clearKeys
  repeat' split
  all_goals simp

@[simp] theorem darkClear_regime (ok : Bool) (c : Nat) (s : State) : (darkClear ok c s).regime = s.regime := by
  unfold darkClear
  split <;> simp

@[simp] theorem clusterKeysOff_regime (c : Nat) (s : State) : (clusterKeysOff c s).regime = s.regime := by simp [clusterKeysOff]

@[simp] theorem clusterKeysOn_regime (c : Nat) (s : State) : (clusterKeysOn c s).regime = s.regime := by
  unfold clusterKeysOn
  dsimp only
  repeat' split
  all_goals simp

/-! ### Register access -/

@[simp] theorem recordBad_regime (write : Bool) (a : Nat) (s : State) : (recordBad write a s).regime = s.regime := by
  simp [recordBad]

@[simp] theorem recordDeny_regime (p : CmdPort) (a : Nat) (s : State) : (recordDeny p a s).regime = s.regime := by
  simp [recordDeny]

@[simp] theorem dropHeld_regime (p : CmdPort) (a : Nat) (s : State) : (dropHeld p a s).regime = s.regime := by
  unfold dropHeld
  split <;> simp

@[simp] theorem wakeQuarter_regime (a : Nat) (s : State) : (wakeQuarter a s).regime = s.regime := by
  unfold wakeQuarter
  repeat' split
  all_goals simp

@[simp] theorem beforeWrite_regime (p : CmdPort) (a : Nat) (s : State) : (beforeWrite p a s).regime = s.regime := by
  simp [beforeWrite]

@[simp] theorem gatedWrite_regime (p : CmdPort) (a : Nat) (ok : Bool) (v : Word) (eff : State → State) (s : State)
    (h : (eff (beforeWrite p a s)).regime = s.regime) : (gatedWrite p a ok v eff s).regime = s.regime := by
  unfold gatedWrite
  split <;> simp [h]

@[simp] theorem gatedRead_regime (p : CmdPort) (a : Nat) (ok : Bool) (eff : State → Word × State) (s : State)
    (h : (eff (wakeQuarter a s)).2.regime = s.regime) : (gatedRead p a ok eff s).regime = s.regime := by
  unfold gatedRead
  split <;> simp [h]

@[simp] theorem storeRw_regime (a : Nat) (v : Word) (s : State) : (storeRw a v s).regime = s.regime := by
  unfold storeRw
  split <;> simp

/-! ### Keys -/

@[simp] theorem clearStaging_regime (cl : Nat) (s : State) : (clearStaging cl s).regime = s.regime := by simp [clearStaging]

@[simp] theorem keyInstall_regime (cl : Nat) (k : KeyOp) (s : State) : (keyInstall cl k s).regime = s.regime := by
  simp [keyInstall]

@[simp] theorem keyRemove_regime (cl : Nat) (tx : Bool) (sc an : Nat) (s : State) :
    (keyRemove cl tx sc an s).regime = s.regime := by
  simp [keyRemove]

@[simp] theorem keyCmd_regime (cl : Nat) (v : Word) (s : State) : (keyCmd cl v s).regime = s.regime := by
  unfold keyCmd
  dsimp only
  repeat' split
  all_goals simp

@[simp] theorem saRead_regime (cl : Nat) (v : Word) (s : State) : (saRead cl v s).regime = s.regime := by
  unfold saRead
  dsimp only
  repeat' split
  all_goals simp

@[simp] theorem txScWrite_regime (cl sc : Nat) (v : Word) (s : State) : (txScWrite cl sc v s).regime = s.regime := by
  simp [txScWrite]

@[simp] theorem secyCfgWrite_regime (cl i : Nat) (v : Word) (s : State) : (secyCfgWrite cl i v s).regime = s.regime := by
  simp [secyCfgWrite]

@[simp] theorem dropSlotSas_regime (cl mask : Nat) (tx : Bool) (l : List Nat) (s : State) :
    (dropSlotSas cl mask tx l s).regime = s.regime := by
  fun_induction dropSlotSas cl mask tx l s <;> simp [*]

@[simp] theorem dropMaskSas_regime (cl mask : Nat) (s : State) : (dropMaskSas cl mask s).regime = s.regime := by
  simp [dropMaskSas]

@[simp] theorem keyWrite_regime (p : CmdPort) (cl op sc an : Nat) (s : State) : (keyWrite p cl op sc an s).regime = s.regime := by
  simp [keyWrite]

/-! ### The NV store -/

@[simp] theorem nvWrite_regime (a : Nat) (d : List Byte) (s : State) : (nvWrite a d s).regime = s.regime := by simp [nvWrite]

@[simp] theorem repairCopy_regime (b : Bool) (l : List Byte) (s : State) : (repairCopy b l s).regime = s.regime := by
  simp [repairCopy]

@[simp] theorem readOverlay_regime (okA okB : Bool) (s : State) : (readOverlay okA okB s).1.regime = s.regime := by
  unfold readOverlay
  repeat' split
  all_goals simp

@[simp] theorem writeOverlay_regime (l : List Byte) (s : State) : (writeOverlay l s).regime = s.regime := by simp [writeOverlay]
@[simp] theorem eraseOverlay_regime (s : State) : (eraseOverlay s).regime = s.regime := by simp [eraseOverlay]

/-! ### Receive path -/

@[simp] theorem tblPut_regime (cl table slot idx : Nat) (v : DWord) (s : State) :
    (tblPut cl table slot idx v s).regime = s.regime := by
  simp [tblPut]

@[simp] theorem untrip_regime (p i : Nat) (s : State) : (untrip p i s).regime = s.regime := by simp [untrip]
@[simp] theorem setPause_regime (p i q : Nat) (s : State) : (setPause p i q s).regime = s.regime := by simp [setPause]

@[simp] theorem endPauses_regime (l : List Nat) (s : State) : (endPauses l s).regime = s.regime := by
  fun_induction endPauses l s <;> simp [*]

@[simp] theorem clearPauses_regime (q : Nat → Bool) (s : State) : (clearPauses q s).regime = s.regime := by simp [clearPauses]

@[simp] theorem pfcRx_regime (p : Nat) (f : List Byte) (act : Bool) (l : List Nat) (s : State) :
    (pfcRx p f act l s).regime = s.regime := by
  fun_induction pfcRx p f act l s <;> simp [*]

@[simp] theorem macCtrlRx_regime (p : Nat) (f : List Byte) (s : State) : (macCtrlRx p f s).regime = s.regime := by
  unfold macCtrlRx
  split <;> simp

@[simp] theorem spreadIn_regime (f : RxFrm) (s : State) : (spreadIn f s).1.regime = s.regime := by
  unfold spreadIn
  dsimp only
  repeat' split
  all_goals simp

@[simp] theorem wakeFrame_regime (p : Nat) (f got : List Byte) (m : Option Nat) (x : RxStart) (s : State) :
    (wakeFrame p f got m x s).regime = s.regime := by
  simp [wakeFrame]

@[simp] theorem endOpen_regime (p : Nat) (x : Option RxFrm) (s : State) : (endOpen p x s).regime = s.regime := by simp [endOpen]

@[simp] theorem enterQueue_regime (slot : Bool) (f : RxFrm) (s : State) : (enterQueue slot f s).1.regime = s.regime := by
  unfold enterQueue
  split <;> simp

@[simp] theorem enterSecY_regime (p : Nat) (f got : List Byte) (mark : Nat) (discard headLeft : Bool) (x : RxStart)
    (slot : Bool) (s : State) :
    (enterSecY p f got mark discard headLeft x slot s).1.regime = s.regime := by
  unfold enterSecY
  dsimp only
  repeat' split
  all_goals simp

@[simp] theorem wakeIntake_regime (p : Nat) (f got : List Byte) (row7 : Bool) (x : RxStart) (s : State) :
    (wakeIntake p f got row7 x s).regime = s.regime := by
  unfold wakeIntake
  split <;> simp

@[simp] theorem intake_regime (p : Nat) (f got : List Byte) (mark : Nat) (discard headLeft : Bool) (x : RxStart)
    (slot : Bool) (s : State) :
    (intake p f got mark discard headLeft x slot s).1.regime = s.regime := by
  unfold intake
  repeat' split
  all_goals simp

@[simp] theorem countOctets_regime (p n : Nat) (s : State) : (countOctets p n s).regime = s.regime := by simp [countOctets]

@[simp] theorem errorFrame_regime (p : Nat) (o : List Byte) (cnt late mark : Nat) (headLeft : Bool) (x : RxStart)
    (slot : Bool) (s : State) :
    (errorFrame p o cnt late mark headLeft x slot s).regime = s.regime := by
  simp [errorFrame]

@[simp] theorem rowsRx_regime (p : Nat) (o : List Byte) (codeErr mergeErr headLeft : Bool) (x : RxStart) (slot : Bool)
    (s : State) :
    (rowsRx p o codeErr mergeErr headLeft x slot s).regime = s.regime := by
  simp [rowsRx]

@[simp] theorem finishRx_regime (p : Nat) (o : List Byte) (codeErr mergeErr headLeft : Bool) (x : RxStart) (slot : Bool)
    (s : State) :
    (finishRx p o codeErr mergeErr headLeft x slot s).regime = s.regime := by
  simp [finishRx]

@[simp] theorem setMerge_regime (p : Nat) (m : Option MergeRx) (s : State) : (setMerge p m s).regime = s.regime := by
  simp [setMerge]

@[simp] theorem mergeError_regime (p : Nat) (extra : List Byte) (codeErr headLeft : Bool) (s : State) :
    (mergeError p extra codeErr headLeft s).regime = s.regime := by
  unfold mergeError
  split <;> simp

@[simp] theorem handOver_regime (p : Nat) (m : MergeRx) (s : State) : (handOver p m s).2.regime = s.regime := by
  unfold handOver
  repeat' split
  all_goals simp

@[simp] theorem mergeStep_regime (p : Nat) (m : MergeRx) (o : List Byte) (codeErr headLeft : Bool) (s : State) :
    (mergeStep p m o codeErr headLeft s).regime = s.regime := by
  simp [mergeStep]

@[simp] theorem mergeStart_regime (p num : Nat) (o : List Byte) (codeErr headLeft : Bool) (x : RxStart) (s : State) :
    (mergeStart p num o codeErr headLeft x s).regime = s.regime := by
  simp [mergeStart]

@[simp] theorem mergeCont_regime (p num count : Nat) (o : List Byte) (codeErr headLeft : Bool) (s : State) :
    (mergeCont p num count o codeErr headLeft s).regime = s.regime := by
  unfold mergeCont
  split <;> simp

/-! ### The memory port -/

@[simp] theorem recordDrop_regime (u : Nat) (s : State) : (recordDrop u s).regime = s.regime := by
  unfold recordDrop
  split <;> simp

@[simp] theorem advanceWr_regime (u : Nat) (s : State) : (advanceWr u s).regime = s.regime := by
  unfold advanceWr
  split <;> simp

@[simp] theorem memPump_regime (n : Nat) (s : State) : (memPump n s).regime = s.regime := by
  fun_induction memPump n s <;> simp [*]

@[simp] theorem memGo_regime (s : State) : (memGo s).regime = s.regime := by simp [memGo]

@[simp] theorem issueRecord_regime (u : Nat) (mk : Nat → List Byte) (s : State) : (issueRecord u mk s).regime = s.regime := by
  simp [issueRecord]

@[simp] theorem settleRegion_regime (u : Nat) (s : State) : (settleRegion u s).regime = s.regime := by simp [settleRegion]

@[simp] theorem endRequest_regime (i : Nat) (q : MemReq) (ok : Bool) (s : State) : (endRequest i q ok s).regime = s.regime := by
  simp [endRequest]

@[simp] theorem regionBit_regime (r : Nat) (v : Bool) (s : State) : (regionBit r v s).regime = s.regime := by
  unfold regionBit
  repeat' split
  all_goals simp

@[simp] theorem regionWrite_regime (v : Word) (s : State) : (regionWrite v s).regime = s.regime := by simp [regionWrite]

@[simp] theorem ringRdWrite_regime (u : Nat) (v : Word) (s : State) : (ringRdWrite u v s).regime = s.regime := by
  simp [ringRdWrite]

/-! ### Stored registers -/

@[simp] theorem storeAny_regime (a : Nat) (v : Word) (s : State) : (storeAny a v s).regime = s.regime := by
  unfold storeAny
  split <;> simp

@[simp] theorem holdLow_regime (p : CmdPort) (a : Nat) (v : Word) (s : State) : (holdLow p a v s).regime = s.regime := by
  simp [holdLow]

@[simp] theorem releaseLow_regime (p : CmdPort) (page : Nat) (s : State) : (releaseLow p page s).regime = s.regime := by
  simp [releaseLow]

@[simp] theorem storePair_regime (p : CmdPort) (w a : Nat) (v : Word) (s : State) : (storePair p w a v s).regime = s.regime := by
  unfold storePair
  split <;> simp

/-! ### Watches of the federation -/

@[simp] theorem fjWrite_regime (event member detail : Nat) (s : State) : (fjWrite event member detail s).regime = s.regime := by
  simp [fjWrite]

@[simp] theorem fjEach_regime (event : Nat) (value : List Byte → Nat) (l : List Nat) (s : State) :
    (fjEach event value l s).regime = s.regime := by
  fun_induction fjEach event value l s <;> simp_all

@[simp] theorem disagree_regime (onset evt : Nat) (value : List Byte → Nat) (old new : List Nat) (s : State) :
    (disagree onset evt value old new s).regime = s.regime := by
  simp [disagree]

@[simp] theorem fedCompare_regime (s : State) : (fedCompare s).regime = s.regime := by simp [fedCompare]
@[simp] theorem fedWithdraw_regime (s : State) : (fedWithdraw s).regime = s.regime := by simp [fedWithdraw]
@[simp] theorem fedSource_regime (s : State) : (fedSource s).regime = s.regime := by simp [fedSource]
@[simp] theorem fedWatch_regime (s : State) : (fedWatch s).regime = s.regime := by simp [fedWatch]

/-! ### SHUTTER -/

@[simp] theorem setChan_regime (c : Nat) (x : Chan) (s : State) : (setChan c x s).regime = s.regime := by simp [setChan]
@[simp] theorem dropChan_regime (c : Nat) (s : State) : (dropChan c s).regime = s.regime := by simp [dropChan]
@[simp] theorem chState_regime (c v : Nat) (s : State) : (chState c v s).regime = s.regime := by simp [chState]
@[simp] theorem driveShutter_regime (s : State) : (driveShutter s).regime = s.regime := by simp [driveShutter]
@[simp] theorem setPulse_regime (c : Nat) (b : Bool) (s : State) : (setPulse c b s).regime = s.regime := by simp [setPulse]
@[simp] theorem skipEdges_regime (c n : Nat) (s : State) : (skipEdges c n s).regime = s.regime := by simp [skipEdges]

@[simp] theorem jumpChan_regime (t0 t1 c : Nat) (s : State) : (jumpChan t0 t1 c s).regime = s.regime := by
  unfold jumpChan
  repeat' split
  all_goals simp

@[simp] theorem shutterJump_regime (t0 t1 : Nat) (s : State) : (shutterJump t0 t1 s).regime = s.regime := by simp [shutterJump]

/-! ### The time engine -/

@[simp] theorem addTod_regime (m : ℤ) (s : State) : (addTod m s).regime = s.regime := by simp [addTod]
@[simp] theorem slewBy_regime (m : ℤ) (s : State) : (slewBy m s).regime = s.regime := by simp [slewBy]
@[simp] theorem enterLocked_regime (s : State) : (enterLocked s).regime = s.regime := by simp [enterLocked]
@[simp] theorem setValidity_regime (v : Nat) (s : State) : (setValidity v s).regime = s.regime := by simp [setValidity]
@[simp] theorem setDisjoint_regime (d : Bool) (s : State) : (setDisjoint d s).regime = s.regime := by simp [setDisjoint]
@[simp] theorem timeEval_regime (s : State) : (timeEval s).regime = s.regime := by simp [timeEval]
@[simp] theorem refFall_regime (s : State) : (refFall s).regime = s.regime := by simp [refFall]
@[simp] theorem dropEdge_regime (s : State) : (dropEdge s).regime = s.regime := by simp [dropEdge]
@[simp] theorem pllLoss_regime (s : State) : (pllLoss s).regime = s.regime := by simp [pllLoss]
@[simp] theorem pllReturn_regime (s : State) : (pllReturn s).regime = s.regime := by simp [pllReturn]
@[simp] theorem measure_regime (m : ℤ) (s : State) : (measure m s).regime = s.regime := by simp [measure]

@[simp] theorem stepPast_regime (t : Nat) (s : State) : (stepPast t s).regime = s.regime := by
  unfold stepPast
  split <;> simp

@[simp] theorem takeStep_regime (m : ℤ) (s : State) : (takeStep m s).regime = s.regime := by simp [takeStep]
@[simp] theorem startSlew_regime (m : ℤ) (s : State) : (startSlew m s).regime = s.regime := by simp [startSlew]

@[simp] theorem opStep_regime (m : ℤ) (s : State) : (opStep m s).1.regime = s.regime := by
  unfold opStep
  dsimp only
  repeat' split
  all_goals simp

@[simp] theorem opSlew_regime (m : ℤ) (s : State) : (opSlew m s).1.regime = s.regime := by
  unfold opSlew
  dsimp only
  repeat' split
  all_goals simp

@[simp] theorem opReport_regime (m : ℤ) (s : State) : (opReport m s).1.regime = s.regime := by simp [opReport]
@[simp] theorem adjDone_regime (x : State × Nat) : (adjDone x).regime = x.1.regime := by simp [adjDone]
@[simp] theorem softRef_regime (s : State) : (softRef s).regime = s.regime := by simp [softRef]

@[simp] theorem adjCmd_regime (v : Word) (s : State) : (adjCmd v s).regime = s.regime := by
  unfold adjCmd
  dsimp only
  repeat' split
  all_goals simp

@[simp] theorem tickCommit_regime (p : CmdPort) (v : Word) (s : State) : (tickCommit p v s).regime = s.regime := by
  have h (a n : Nat) (c : Bool) : ({ setPair a n (releaseLow p pgTime s) with
      tim := { (setPair a n (releaseLow p pgTime s)).tim with clamped := c } } : State).regime = s.regime := by simp
  exact h _ _ _

@[simp] theorem cfgMoved_regime (s s1 : State) : (cfgMoved s s1).regime = s1.regime := by simp [cfgMoved]
@[simp] theorem timeCfgWrite_regime (v : Word) (s : State) : (timeCfgWrite v s).regime = s.regime := by simp [timeCfgWrite]

@[simp] theorem goodEdge_regime (phase : Nat) (s : State) : (goodEdge phase s).regime = s.regime := by
  unfold goodEdge
  dsimp only
  repeat' split
  all_goals simp

@[simp] theorem badEdge_regime (s : State) : (badEdge s).regime = s.regime := by simp [badEdge]

@[simp] theorem ppsEdge_regime (phase : Nat) (s : State) : (ppsEdge phase s).regime = s.regime := by
  unfold ppsEdge
  repeat' split
  all_goals simp

@[simp] theorem timeIslandOff_regime (s : State) : (timeIslandOff s).regime = s.regime := by simp [timeIslandOff]
@[simp] theorem timeIslandOn_regime (s : State) : (timeIslandOn s).regime = s.regime := by simp [timeIslandOn]

/-! ### Decisions of FIXER -/

@[simp] theorem queueDecision_regime (d : Decision) (s : State) : (queueDecision d s).regime = s.regime := by simp [queueDecision]

/-! ### Receive queues -/

@[simp] theorem setQ_regime (rx : Bool) (q : Nat) (x : Queue) (s : State) : (setQ rx q x s).regime = s.regime := by simp [setQ]
@[simp] theorem setR_regime (c : Nat) (x : Ring) (s : State) : (setR c x s).regime = s.regime := by simp [setR]
@[simp] theorem fnCount_regime (f n : Nat) (s : State) : (fnCount f n s).regime = s.regime := by simp [fnCount]

@[simp] theorem queueError_regime (rx : Bool) (q reason idx : Nat) (s : State) :
    (queueError rx q reason idx s).regime = s.regime := by
  simp [queueError]

@[simp] theorem puntDrop_regime (s : State) : (puntDrop s).regime = s.regime := by simp [puntDrop]

@[simp] theorem countRefusal_regime (q row : Nat) (s : State) : (countRefusal q row s).regime = s.regime := by
  unfold countRefusal
  split <;> simp

@[simp] theorem rxDrop_regime (q row : Nat) (s : State) : (rxDrop q row s).regime = s.regime := by simp [rxDrop]

@[simp] theorem rxCheck_regime (q n : Nat) (s : State) : (rxCheck q n s).regime = s.regime := by
  unfold rxCheck
  dsimp only
  repeat' split
  all_goals simp

/-! ### Spreader and reorder -/

@[simp] theorem setPipe_regime (p v : Nat) (s : State) : (setPipe p v s).regime = s.regime := by simp [setPipe]
@[simp] theorem setRing_regime (k : Nat) (x : Option Nat) (s : State) : (setRing k x s).regime = s.regime := by simp [setRing]
@[simp] theorem rotationChanged_regime (s : State) : (rotationChanged s).regime = s.regime := by simp [rotationChanged]

@[simp] theorem noteUsed_regime (x : Nat) (s : State) : (noteUsed x s).regime = s.regime := by
  unfold noteUsed
  split <;> simp

@[simp] theorem joinAt_regime (k x : Nat) (s : State) : (joinAt k x s).regime = s.regime := by simp [joinAt]

@[simp] theorem replacePipe_regime (p v : Nat) (sub : Option Nat) (s : State) : (replacePipe p v sub s).regime = s.regime := by
  unfold replacePipe
  split <;> simp

@[simp] theorem setSlot_regime (slot v : Nat) (s : State) : (setSlot slot v s).regime = s.regime := by simp [setSlot]
@[simp] theorem drainUp_regime (slot : Nat) (s : State) : (drainUp slot s).regime = s.regime := by simp [drainUp]
@[simp] theorem drainDown_regime (slot : Nat) (s : State) : (drainDown slot s).regime = s.regime := by simp [drainDown]
@[simp] theorem setExpect_regime (p n : Nat) (s : State) : (setExpect p n s).regime = s.regime := by simp [setExpect]
@[simp] theorem dropHeldAt_regime (p n : Nat) (s : State) : (dropHeldAt p n s).regime = s.regime := by simp [dropHeldAt]

@[simp] theorem resolveNumber_regime (d : Dealt) (fate : Fate) (s : State) : (resolveNumber d fate s).regime = s.regime := by
  simp [resolveNumber]

@[simp] theorem countLost_regime (p n : Nat) (s : State) : (countLost p n s).regime = s.regime := by simp [countLost]

@[simp] theorem latchLost_regime (cause p n run : Nat) (s : State) : (latchLost cause p n run s).regime = s.regime := by
  simp [latchLost]

@[simp] theorem declareGap_regime (cause p : Nat) (s : State) : (declareGap cause p s).regime = s.regime := by
  unfold declareGap
  split <;> simp

@[simp] theorem loseDealt_regime (l : List Dealt) (s : State) : (loseDealt l s).regime = s.regime := by
  induction l generalizing s with
  | nil => rfl
  | cons d r ih => simp [loseDealt, ih]

@[simp] theorem losePipe_regime (p : Nat) (s : State) : (losePipe p s).regime = s.regime := by
  unfold losePipe
  dsimp only
  repeat' split
  all_goals simp

@[simp] theorem sendCells_regime (cl : Nat) (l : List RxCell) (s : State) : (sendCells cl l s).regime = s.regime := by
  fun_induction sendCells cl l s <;> simp [*]

@[simp] theorem putCells_regime (f : RxFrm) (side : List Byte) (s : State) : (putCells f side s).regime = s.regime := by
  simp [putCells]

@[simp] theorem addStaged_regime (x : Staged) (s : State) : (addStaged x s).regime = s.regime := by simp [addStaged]

@[simp] theorem stage_regime (x : Staged) (s : State) : (stage x s).1.regime = s.regime := by
  unfold stage
  dsimp only
  repeat' split
  all_goals simp

@[simp] theorem releaseRecord_regime (h : Held) (s : State) : (releaseRecord h s).regime = s.regime := by
  unfold releaseRecord
  repeat' split
  all_goals simp

@[simp] theorem releaseHeld_regime (h : Held) (s : State) : (releaseHeld h s).regime = s.regime := by simp [releaseHeld]

@[simp] theorem flushOpen_regime (p : Nat) (s : State) : (flushOpen p s).regime = s.regime := by
  unfold flushOpen
  split <;> simp

@[simp] theorem releaseNext_regime (p n : Nat) (s : State) : (releaseNext p n s).regime = s.regime := by
  induction n generalizing s with
  | zero => rfl
  | succ n ih =>
    unfold releaseNext
    split <;> simp [ih]

@[simp] theorem releaseAll_regime (p n : Nat) (s : State) : (releaseAll p n s).regime = s.regime := by
  fun_induction releaseAll p n s <;> simp [*]

@[simp] theorem makeRoom_regime (q n : Nat) (s : State) : (makeRoom q n s).regime = s.regime := by
  induction n generalizing s with
  | zero => rfl
  | succ n ih =>
    unfold makeRoom
    split
    · rfl
    · simp only [ih, releaseAll_regime]
      split <;> simp

@[simp] theorem storeRecord_regime (h : Held) (s : State) : (storeRecord h s).regime = s.regime := by simp [storeRecord]
@[simp] theorem countKey_regime (s : State) : (countKey s).regime = s.regime := by simp [countKey]

@[simp] theorem putKey_regime (q : Nat) (k : List Byte) (s : State) : (putKey q k s).1.regime = s.regime := by
  unfold putKey
  repeat' split
  all_goals simp

@[simp] theorem sendKeys_regime (q : Nat) (l : List (List Byte)) (s : State) : (sendKeys q l s).regime = s.regime := by
  fun_induction sendKeys q l s <;> simp [*]

@[simp] theorem clearSeed_regime (s : State) : (clearSeed s).regime = s.regime := by simp [clearSeed]

/-! ### Classifier -/

@[simp] theorem lookup_regime (d : Dealt) (record : List Byte) (s : State) : (lookup d record s).2.regime = s.regime := by
  unfold lookup
  dsimp only
  repeat' split
  all_goals simp

@[simp] theorem mismatchStep_regime (d : Dealt) (x : Px) (r : Resolved) (s : State) :
    (mismatchStep d x r s).2.regime = s.regime := by
  unfold mismatchStep
  dsimp only
  repeat' split
  all_goals simp

@[simp] theorem finalStep_regime (d : Dealt) (malf : Bool) (r : Resolved) (s : State) :
    (finalStep d malf r s).2.regime = s.regime := by
  unfold finalStep
  dsimp only
  repeat' split
  all_goals simp

@[simp] theorem leaveClassifier_regime (d : Dealt) (s : State) : (leaveClassifier d s).regime = s.regime := by
  simp [leaveClassifier]

@[simp] theorem arrive_regime (d : Dealt) (f : State → State) (s : State) (h : (f s).regime = s.regime) :
    (arrive d f s).regime = s.regime := by simp [arrive, h]

@[simp] theorem forwardFrame_regime (d : Dealt) (x : Px) (record : List Byte) (r : Resolved) (s : State) :
    (forwardFrame d x record r s).regime = s.regime := by
  simp [forwardFrame]

@[simp] theorem classify_regime (d : Dealt) (x : Px) (record : List Byte) (s : State) :
    (classify d x record s).regime = s.regime := by
  unfold classify
  split <;> simp

@[simp] theorem pipeCounts_regime (d : Dealt) (x : Px) (s : State) : (pipeCounts d x s).regime = s.regime := by simp [pipeCounts]

@[simp] theorem controlFrame_regime (d : Dealt) (msg : Nat) (s : State) : (controlFrame d msg s).regime = s.regime := by
  simp [controlFrame]

@[simp] theorem shadowCompare_regime (d : Dealt) (differs : Bool) (s : State) :
    (shadowCompare d differs s).regime = s.regime := by
  simp [shadowCompare]

@[simp] theorem recordDone_regime (d : Dealt) (differs : Bool) (s : State) : (recordDone d differs s).regime = s.regime := by
  unfold recordDone
  dsimp only
  repeat' split
  all_goals simp

/-! ### Version slots -/

@[simp] theorem sendReads_regime (ch : Nat) (l : List (Nat × Nat)) (s : State) : (sendReads ch l s).regime = s.regime := by
  fun_induction sendReads ch l s <;> simp [*]

@[simp] theorem askRead_regime (ch addr len : Nat) (s : State) : (askRead ch addr len s).regime = s.regime := by simp [askRead]
@[simp] theorem endReads_regime (ch n : Nat) (s : State) : (endReads ch n s).regime = s.regime := by simp [endReads]

@[simp] theorem readRange_regime (ch addr len : Nat) (s : State) : (readRange ch addr len s).regime = s.regime := by
  simp [readRange]

@[simp] theorem freeSlot_regime (v : Nat) (s : State) : (freeSlot v s).regime = s.regime := by simp [freeSlot]

@[simp] theorem setSlotKeys_regime (v : Nat) (sel miss tag : List Byte) (s : State) :
    (setSlotKeys v sel miss tag s).regime = s.regime := by
  simp [setSlotKeys]

@[simp] theorem loadFail_regime (l : Load) (rec_ reason : Nat) (s : State) : (loadFail l rec_ reason s).regime = s.regime := by
  simp [loadFail]

@[simp] theorem loadDone_regime (l : Load) (img : Option (List Byte)) (s : State) : (loadDone l img s).regime = s.regime := by
  unfold loadDone
  repeat' split
  all_goals simp

theorem loadBoot_regime {sel miss tag recs : List Byte} {n : Nat} {s t : State} (h : loadBoot sel miss tag recs n s = some t) :
    t.regime = s.regime := by
  unfold loadBoot at h
  split at h
  · cases h
  · cases h
    simp

@[simp] theorem commitNow_regime (v : Nat) (late : Bool) (s : State) : (commitNow v late s).regime = s.regime := by
  unfold commitNow
  split <;> simp

@[simp] theorem abandonCommit_regime (v reason : Nat) (s : State) : (abandonCommit v reason s).regime = s.regime := by
  simp [abandonCommit]

@[simp] theorem decideTimed_regime (c : Commit) (late : Bool) (s : State) : (decideTimed c late s).regime = s.regime := by
  simp [decideTimed]

@[simp] theorem commitBoundary_regime (s : State) : (commitBoundary s).regime = s.regime := by
  unfold commitBoundary
  dsimp only
  repeat' split
  all_goals simp

@[simp] theorem versionsToSafe_regime (s : State) : (versionsToSafe s).regime = s.regime := by
  unfold versionsToSafe
  dsimp only
  repeat' split
  all_goals simp

@[simp] theorem retireSlot_regime (v : Nat) (s : State) : (retireSlot v s).regime = s.regime := by simp [retireSlot]

/-! ### Overlay and calibration images -/

@[simp] theorem setSelected_regime (sel : Nat → Bool) (l : Tab Word) (s : State) : (setSelected sel l s).regime = s.regime := by
  fun_induction setSelected sel l s <;> simp [*]

@[simp] theorem setMap_regime (cl : Nat) (m : List Word) (s : State) : (setMap cl m s).regime = s.regime := by simp [setMap]

@[simp] theorem setMaps_regime (o : Overlay) (l : List Nat) (s : State) : (setMaps o l s).regime = s.regime := by
  fun_induction setMaps o l s <;> simp [*]

@[simp] theorem setTs_regime (o : Overlay) (l : List Nat) (s : State) : (setTs o l s).regime = s.regime := by
  induction l generalizing s with
  | nil => rfl
  | cons p r ih =>
    rw [setTs, ih]
    split <;> simp

@[simp] theorem loadCal_regime (o : Overlay) (cls : List Nat) (rest live : Bool) (s : State) :
    (loadCal o cls rest live s).regime = s.regime := by
  simp [loadCal]

/-! ### Host rings -/

@[simp] theorem fabricWrites_regime (ch n k : Nat) (l : List Byte) (s : State) : (fabricWrites ch n k l s).regime = s.regime := by
  fun_induction fabricWrites ch n k l s <;> simp [*]

@[simp] theorem writeHost_regime (ch addr : Nat) (d : List Byte) (s : State) : (writeHost ch addr d s).regime = s.regime := by
  simp [writeHost]

@[simp] theorem ringEdge_regime (x : Ring) (s : State) : (ringEdge x s).regime = s.regime := by simp [ringEdge]

@[simp] theorem pushCompletion_regime (c : Nat) (r : List Byte) (s : State) : (pushCompletion c r s).regime = s.regime := by
  simp [pushCompletion]

@[simp] theorem flushHeld_regime (q n : Nat) (s : State) : (flushHeld q n s).regime = s.regime := by
  fun_induction flushHeld q n s <;> simp_all

@[simp] theorem flushFrames_regime (q n : Nat) (s : State) : (flushFrames q n s).regime = s.regime := by
  fun_induction flushFrames q n s <;> simp [*]

@[simp] theorem issueFetch_regime (rx : Bool) (q i : Nat) (single : Bool) (s : State) :
    (issueFetch rx q i single s).regime = s.regime := by
  simp [issueFetch]

@[simp] theorem prefetchFrom_regime (rx : Bool) (q n k : Nat) (s : State) : (prefetchFrom rx q n k s).regime = s.regime := by
  fun_induction prefetchFrom rx q n k s <;> simp [*]

@[simp] theorem prefetch_regime (rx : Bool) (q : Nat) (s : State) : (prefetch rx q s).regime = s.regime := by simp [prefetch]

@[simp] theorem readBufs_regime (ch : Nat) (l : List (Nat × Nat)) (s : State) : (readBufs ch l s).regime = s.regime := by
  fun_induction readBufs ch l s <;> simp [*]

@[simp] theorem takeTx_regime (q n : Nat) (s : State) : (takeTx q n s).regime = s.regime := by
  fun_induction takeTx q n s <;> simp [*]

@[simp] theorem prefetchAll_regime (rx : Bool) (l : List Nat) (s : State) : (prefetchAll rx l s).regime = s.regime := by
  fun_induction prefetchAll rx l s <;> simp [*]

@[simp] theorem runQueue_regime (rx : Bool) (q : Nat) (s : State) : (runQueue rx q s).regime = s.regime := by simp [runQueue]

@[simp] theorem runListed_regime (rx : Bool) (l : List Nat) (s : State) : (runListed rx l s).regime = s.regime := by
  fun_induction runListed rx l s <;> simp [*]

@[simp] theorem txDone_regime (q first status reason len : Nat) (ts : Option (Stamp × Bool)) (s : State) :
    (txDone q first status reason len ts s).regime = s.regime := by
  simp [txDone]

/-! ### Transmit path -/

@[simp] theorem setTxQueue_regime (p : Nat) (l : List TxFrm) (s : State) : (setTxQueue p l s).regime = s.regime := by
  simp [setTxQueue]

@[simp] theorem freeCells_regime (cl n : Nat) (s : State) : (freeCells cl n s).regime = s.regime := by simp [freeCells]

@[simp] theorem hostDone_regime (src : TxSrc) (reason : Nat) (s : State) : (hostDone src reason s).regime = s.regime := by
  unfold hostDone
  split <;> simp

@[simp] theorem discardFrm_regime (p reason : Nat) (f : TxFrm) (s : State) : (discardFrm p reason f s).2.regime = s.regime := by
  simp [discardFrm]

@[simp] theorem countDiscard_regime (p cnt : Nat) (s : State) : (countDiscard p cnt s).regime = s.regime := by simp [countDiscard]
@[simp] theorem badPort_regime (p : Nat) (s : State) : (badPort p s).regime = s.regime := by simp [badPort]

@[simp] theorem discardHeads_regime (p : Nat) (l r : List TxFrm) (s : State) : (discardHeads p l r s).2.regime = s.regime := by
  induction r generalizing l s with
  | nil => rfl
  | cons f r ih =>
    unfold discardHeads
    split
    · exact ih _ _
    · split <;> simp [ih]

@[simp] theorem sweep_regime (p : Nat) (s : State) : (sweep p s).regime = s.regime := by
  unfold sweep
  split <;> simp

@[simp] theorem joinQueue_regime (p : Nat) (f : TxFrm) (s : State) : (joinQueue p f s).regime = s.regime := by simp [joinQueue]

@[simp] theorem sweepAll_regime (l : List Nat) (s : State) : (sweepAll l s).regime = s.regime := by
  fun_induction sweepAll l s <;> simp [*]

@[simp] theorem openGap_regime (p : Nat) (s : State) : (openGap p s).regime = s.regime := by
  unfold openGap
  repeat' split
  all_goals simp

@[simp] theorem closeGap_regime (p n : Nat) (s : State) : (closeGap p n s).regime = s.regime := by simp [closeGap]

@[simp] theorem logTs_regime (f : TxFrm) (p kind skip : Nat) (unlocked : Bool) (t : Stamp) (s : State) :
    (logTs f p kind skip unlocked t s).regime = s.regime := by
  unfold logTs
  split <;> simp

@[simp] theorem ptpStage_regime (p shift t : Nat) (x : TxFrm) (unlocked : Bool) (f : List Byte) (s : State) :
    (ptpStage p shift t x unlocked f s).2.regime = s.regime := by
  unfold ptpStage
  dsimp only
  repeat' split
  all_goals simp

@[simp] theorem sendOwn_regime (p : Nat) (f : List Byte) (s : State) : (sendOwn p f s).regime = s.regime := by simp [sendOwn]
@[simp] theorem sendSmd_regime (p kind : Nat) (s : State) : (sendSmd p kind s).regime = s.regime := by simp [sendSmd]
@[simp] theorem sendPfc_regime (p mask : Nat) (s : State) : (sendPfc p mask s).regime = s.regime := by simp [sendPfc]
@[simp] theorem sendPause_regime (p : Nat) (s : State) : (sendPause p s).regime = s.regime := by simp [sendPause]
@[simp] theorem flushFc_regime (p : Nat) (s : State) : (flushFc p s).regime = s.regime := by simp [flushFc]
@[simp] theorem fcChange_regime (p m : Nat) (or : Bool) (s : State) : (fcChange p m or s).regime = s.regime := by simp [fcChange]
@[simp] theorem xoffMoved_regime (p old : Nat) (s : State) : (xoffMoved p old s).regime = s.regime := by simp [xoffMoved]
@[simp] theorem setVerify_regime (p v : Nat) (s : State) : (setVerify p v s).regime = s.regime := by simp [setVerify]
@[simp] theorem startVerify_regime (p : Nat) (s : State) : (startVerify p s).regime = s.regime := by simp [startVerify]
@[simp] theorem enqueue_regime (p : Nat) (f : TxFrm) (s : State) : (enqueue p f s).regime = s.regime := by simp [enqueue]

@[simp] theorem handQueue_regime (q n : Nat) (s : State) : (handQueue q n s).regime = s.regime := by
  fun_induction handQueue q n s <;> simp [*]

@[simp] theorem handAll_regime (l : List Nat) (s : State) : (handAll l s).regime = s.regime := by
  fun_induction handAll l s <;> simp [*]

@[simp] theorem handHosts_regime (s : State) : (handHosts s).regime = s.regime := by simp [handHosts]

/-! ### Frames received -/

@[simp] theorem sendSmdR_regime (p n : Nat) (s : State) : (sendSmdR p n s).regime = s.regime := by
  fun_induction sendSmdR p n s <;> simp [*]

@[simp] theorem verifyRx_regime (p : Nat) (isV : Bool) (s : State) : (verifyRx p isV s).regime = s.regime := by
  unfold verifyRx
  dsimp only
  repeat' split
  all_goals simp

@[simp] theorem alignRx_regime (p : Nat) (s : State) : (alignRx p s).regime = s.regime := by simp [alignRx]

@[simp] theorem rxLive_regime (p : Nat) (start frag : Byte) (o : List Byte) (codeErr headLeft : Bool) (x : RxStart) (s : State) :
    (rxLive p start frag o codeErr headLeft x s).regime = s.regime := by
  unfold rxLive
  repeat' split
  all_goals simp

@[simp] theorem rxAt_regime (p : Nat) (start frag : Byte) (o : List Byte) (codeErr headLeft : Bool) (x : RxStart) (age : Nat)
    (s : State) :
    (rxAt p start frag o codeErr headLeft x age s).regime = s.regime := by
  unfold rxAt
  repeat' split
  all_goals simp

@[simp] theorem execRxFrame_regime (p : PortNo) (start frag : Byte) (o : List Byte) (codeErr headLeft : Bool)
    (block : RxBlock) (s : State) :
    answersRegime s (execRxFrame p start frag o codeErr headLeft block s) := by
  unfold execRxFrame
  split <;> simp

@[simp] theorem tblEnd_regime (cl : Nat) (ok : Bool) (s : State) : (tblEnd cl ok s).regime = s.regime := by simp [tblEnd]

@[simp] theorem tblWrite_regime (cl : Nat) (s : State) : (tblWrite cl s).regime = s.regime := by
  unfold tblWrite
  split <;> simp

@[simp] theorem tblRead_regime (cl : Nat) (s : State) : (tblRead cl s).regime = s.regime := by
  unfold tblRead
  split <;> simp

/-! ### Lanes -/

@[simp] theorem downPort_regime (p : Nat) (s : State) : (downPort p s).regime = s.regime := by simp [downPort]

@[simp] theorem downAll_regime (l : List Nat) (s : State) : (downAll l s).regime = s.regime := by
  fun_induction downAll l s <;> simp [*]

@[simp] theorem countChanges_regime (l : Nat) (d : BitVec 3) (s : State) : (countChanges l d s).regime = s.regime := by
  simp [countChanges]

@[simp] theorem laneUnlock_regime (l : Nat) (s : State) : (laneUnlock l s).regime = s.regime := by
  unfold laneUnlock
  split <;> simp

@[simp] theorem sampleLane_regime (l : Nat) (s : State) : (sampleLane l s).regime = s.regime := by simp [sampleLane]

@[simp] theorem sampleLanes_regime (l : List Nat) (s : State) : (sampleLanes l s).regime = s.regime := by
  fun_induction sampleLanes l s <;> simp [*]

@[simp] theorem reconfStart_regime (cl mask : Nat) (w : List Word) (factory : Bool) (s : State) :
    (reconfStart cl mask w factory s).1.regime = s.regime := by
  unfold reconfStart
  split <;> simp

@[simp] theorem reconfGo_regime (cl : Nat) (v : Word) (s : State) : (reconfGo cl v s).regime = s.regime := by simp [reconfGo]
@[simp] theorem clearTables_regime (cl mask : Nat) (s : State) : (clearTables cl mask s).regime = s.regime := by
  simp [clearTables]
@[simp] theorem reconfDone_regime (cl : Nat) (s : State) : (reconfDone cl s).regime = s.regime := by simp [reconfDone]

@[simp] theorem liveWords_regime (cl : Nat) (r : Reconf) (l : List Nat) (s : State) : (liveWords cl r l s).regime = s.regime := by
  fun_induction liveWords cl r l s <;> simp_all

@[simp] theorem restartLanes_regime (l : List Nat) (s : State) : (restartLanes l s).regime = s.regime := by
  fun_induction restartLanes l s <;> simp [*]

@[simp] theorem reconfRestart_regime (cl : Nat) (r : Reconf) (s : State) : (reconfRestart cl r s).regime = s.regime := by
  simp [reconfRestart]

/-! ### The repair journal -/

@[simp] theorem putMap_regime (u : UnitId) (m : UnitMap) (s : State) : (putMap u m s).regime = s.regime := by simp [putMap]
@[simp] theorem setUnit_regime (u : UnitId) (v : Nat) (s : State) : (setUnit u v s).regime = s.regime := by simp [setUnit]

@[simp] theorem setStands_regime (u : UnitId) (f : Option Nat) (s : State) : (setStands u f s).regime = s.regime := by
  simp [setStands]

@[simp] theorem storeMap_regime (s : State) : (storeMap s).regime = s.regime := by simp [storeMap]
@[simp] theorem writeEntry_regime (e : HeldEntry) (s : State) : (writeEntry e s).regime = s.regime := by simp [writeEntry]

@[simp] theorem flushEntries_regime (l : List HeldEntry) (s : State) : (flushEntries l s).regime = s.regime := by
  fun_induction flushEntries l s <;> simp [*]

@[simp] theorem flushJournal_regime (s : State) : (flushJournal s).regime = s.regime := by simp [flushJournal]
@[simp] theorem journalHour_regime (s : State) : (journalHour s).regime = s.regime := by simp [journalHour]
@[simp] theorem journalEntry_regime (e : HeldEntry) (s : State) : (journalEntry e s).regime = s.regime := by simp [journalEntry]

@[simp] theorem journal_regime (event : Nat) (d : Decision) (u : UnitId) (spare detail : Nat) (s : State) :
    (journal event d u spare detail s).regime = s.regime := by
  simp [journal]

@[simp] theorem journalOther_regime (d : Decision) (u : UnitId) (spare detail : Nat) (s : State) :
    (journalOther d u spare detail s).regime = s.regime := by
  simp [journalOther]

@[simp] theorem repairEntry_regime (b : Bool) (i : Nat) (d : List Byte) (s : State) :
    (repairEntry b i d s).regime = s.regime := by
  simp [repairEntry]

@[simp] theorem readEntry_regime (i : Nat) (s : State) : (readEntry i s).1.regime = s.regime := by
  unfold readEntry
  repeat' split
  all_goals simp

@[simp] theorem jrnlRead_regime (v : Word) (s : State) : (jrnlRead v s).regime = s.regime := by
  have h := readEntry_regime (bits v 10 0) s
  unfold jrnlRead
  split
  · rfl
  · split <;> simp_all

/-! ### Calibration -/

@[simp] theorem countOverlay_regime (s : State) : (countOverlay s).regime = s.regime := by simp [countOverlay]
@[simp] theorem calFail_regime (entry reason : Nat) (s : State) : (calFail entry reason s).regime = s.regime := by simp [calFail]

@[simp] theorem calCheck_regime (img : Option (List Byte)) (s : State) : (calCheck img s).regime = s.regime := by
  unfold calCheck
  dsimp only
  repeat' split
  all_goals simp

@[simp] theorem calCmd_regime (v : Word) (img : State → State × Option (List Byte)) (s : State)
    (h : ∀ s, (img s).1.regime = s.regime) : (calCmd v img s).regime = s.regime := by simp [calCmd, h]

@[simp] theorem freeImage_regime (s : State) : (freeImage s).1.regime = s.regime := by simp [freeImage]
@[simp] theorem overlayWritten_regime (s : State) : (overlayWritten s).regime = s.regime := by simp [overlayWritten]

@[simp] theorem execCalWriteDone_regime (s : State) : answersRegime s (execCalWriteDone s) := by
  unfold execCalWriteDone
  split <;> simp

@[simp] theorem readRecords_regime (l : Nat) (s : State) : (readRecords l s).regime = s.regime := by
  unfold readRecords
  repeat' split
  all_goals simp

@[simp] theorem nvRead_regime (v : Word) (s : State) : (nvRead v s).regime = s.regime := by simp [nvRead]

/-! ### Counter snapshots -/

@[simp] theorem snapPage_regime (page : Nat) (s : State) : (snapPage page s).regime = s.regime := by simp [snapPage]

@[simp] theorem snapWrite_regime (page : Nat) (v : Word) (s : State) : (snapWrite page v s).regime = s.regime := by
  simp [snapWrite]

@[simp] theorem clearWrite_regime (page : Nat) (v : Word) (s : State) : (clearWrite page v s).regime = s.regime := by
  simp [clearWrite]

@[simp] theorem execCounterSnap_regime (p : CmdPort) (page : Fin 1024) (s : State) : answersRegime s
    (execCounterSnap p page s) := by
  unfold execCounterSnap
  split <;> simp

@[simp] theorem execCounterClear_regime (p : CmdPort) (page : Fin 1024) (v : Word) (s : State) :
    answersRegime s (execCounterClear p page v s) := by
  unfold execCounterClear
  split <;> simp

/-! ### Units and spares -/

@[simp] theorem lastRepair_regime (outcome : Nat) (d : Decision) (spare : Nat) (s : State) :
    (lastRepair outcome d spare s).regime = s.regime := by
  simp [lastRepair]

@[simp] theorem endForced_regime (d : Decision) (res : Byte) (reason : Nat) (s : State) :
    (endForced d res reason s).regime = s.regime := by
  simp [endForced]

@[simp] theorem endMig_regime (s : State) : (endMig s).regime = s.regime := by simp [endMig]
@[simp] theorem setStep_regime (v : Nat) (m : Migration) (s : State) : (setStep v m s).regime = s.regime := by simp [setStep]

@[simp] theorem holdPorts_regime (v : Bool) (l : List Nat) (s : State) : (holdPorts v l s).regime = s.regime := by
  fun_induction holdPorts v l s <;> simp [*]

@[simp] theorem powerCluster_regime (n : Nat) (v : Bool) (s : State) : (powerCluster n v s).regime = s.regime := by
  unfold powerCluster
  split <;> simp

@[simp] theorem clusterDown_regime (n : Nat) (s : State) : (clusterDown n s).regime = s.regime := by simp [clusterDown]
@[simp] theorem clusterUp_regime (n : Nat) (s : State) : (clusterUp n s).regime = s.regime := by simp [clusterUp]
@[simp] theorem noSpare_regime (s : State) : (noSpare s).regime = s.regime := by simp [noSpare]
@[simp] theorem pipeOut_regime (p : Nat) (sub : Option Nat) (s : State) : (pipeOut p sub s).regime = s.regime := by simp [pipeOut]

@[simp] theorem degradeUnit_regime (u : UnitId) (s : State) : (degradeUnit u s).regime = s.regime := by
  unfold degradeUnit
  split <;> simp

@[simp] theorem degrade_regime (d : Decision) (s : State) : (degrade d s).regime = s.regime := by simp [degrade]
@[simp] theorem setAny_regime (u : UnitId) (v : Nat) (s : State) : (setAny u v s).regime = s.regime := by simp [setAny]

@[simp] theorem countRetired_regime (u : UnitId) (cause : Nat) (s : State) : (countRetired u cause s).regime = s.regime := by
  simp [countRetired]

@[simp] theorem condemn_regime (d : Decision) (u : UnitId) (spare : Nat) (s : State) :
    (condemn d u spare s).regime = s.regime := by
  simp [condemn]

@[simp] theorem requeueDegraded_regime (l : Tab Nat) (s : State) : (requeueDegraded l s).regime = s.regime := by
  fun_induction requeueDegraded l s <;> simp [*]

@[simp] theorem spareBack_regime (s : State) : (spareBack s).regime = s.regime := by simp [spareBack]
@[simp] theorem askTest_regime (u : UnitId) (s : State) : (askTest u s).regime = s.regime := by simp [askTest]
@[simp] theorem retire_regime (u : UnitId) (cause : Nat) (s : State) : (retire u cause s).regime = s.regime := by simp [retire]

@[simp] theorem afterRetired_regime (m : Migration) (u : UnitId) (s : State) : (afterRetired m u s).regime = s.regime := by
  unfold afterRetired
  repeat' split
  all_goals simp

@[simp] theorem shadowFlag_regime (m : Migration) (v : Bool) (s : State) : (shadowFlag m v s).regime = s.regime := by
  unfold shadowFlag
  split <;> simp

@[simp] theorem lastSpare_regime (u : UnitId) (s : State) : (lastSpare u s).regime = s.regime := by simp [lastSpare]

@[simp] theorem takeSpare_regime (d : Decision) (u : UnitId) (spare : Nat) (failed : List Nat) (s : State) :
    (takeSpare d u spare failed s).regime = s.regime := by
  unfold takeSpare
  split <;> simp

@[simp] theorem withoutSpare_regime (d : Decision) (failed : List Nat) (c : Choice) (s : State) :
    (withoutSpare d failed c s).regime = s.regime := by
  unfold withoutSpare
  repeat' split
  all_goals simp

@[simp] theorem beginMig_regime (d : Decision) (failed : List Nat) (s : State) : (beginMig d failed s).regime = s.regime := by
  unfold beginMig
  split <;> simp

@[simp] theorem beginReturn_regime (d : Decision) (s : State) : (beginReturn d s).regime = s.regime := by simp [beginReturn]

@[simp] theorem freeTaken_regime (m : Migration) (s : State) : (freeTaken m s).regime = s.regime := by
  unfold freeTaken
  repeat' split
  all_goals simp

@[simp] theorem abandonMig_regime (m : Migration) (s : State) : (abandonMig m s).regime = s.regime := by simp [abandonMig]
@[simp] theorem spareFails_regime (m : Migration) (s : State) : (spareFails m s).regime = s.regime := by simp [spareFails]
@[simp] theorem miscompare_regime (m : Migration) (s : State) : (miscompare m s).regime = s.regime := by simp [miscompare]

@[simp] theorem hardFault_regime (u : UnitId) (cause : Nat) (s : State) : (hardFault u cause s).regime = s.regime := by
  unfold hardFault
  split <;> simp

/-! ### Self test -/

@[simp] theorem addPages_regime (u : UnitId) (s : State) : (addPages u s).regime = s.regime := by simp [addPages]
@[simp] theorem dropPages_regime (u : UnitId) (s : State) : (dropPages u s).regime = s.regime := by simp [dropPages]

@[simp] theorem outcomeEvents_regime (outcome : Nat) (s : State) : (outcomeEvents outcome s).regime = s.regime := by
  unfold outcomeEvents
  split <;> simp

@[simp] theorem countOutcome_regime (outcome : Nat) (s : State) : (countOutcome outcome s).regime = s.regime := by
  unfold countOutcome
  split <;> simp

@[simp] theorem logResult_regime (j : TestJob) (outcome reason patterns sig mask rows : Nat) (s : State) :
    (logResult j outcome reason patterns sig mask rows s).regime = s.regime := by
  simp [logResult]

@[simp] theorem clearSecrets_regime (ok : Bool) (u : UnitId) (s : State) : (clearSecrets ok u s).regime = s.regime := by
  unfold clearSecrets
  split <;> simp

@[simp] theorem savePriv_regime (k : Nat) (s : State) : (savePriv k s).regime = s.regime := by simp [savePriv]
@[simp] theorem enterTest_regime (j : TestJob) (s : State) : (enterTest j s).regime = s.regime := by simp [enterTest]
@[simp] theorem runTest_regime (j : TestJob) (s : State) : (runTest j s).regime = s.regime := by simp [runTest]

@[simp] theorem resetPriv_regime (k : Nat) (s : State) : (resetPriv k s).regime = s.regime := by
  unfold resetPriv
  split <;> simp

@[simp] theorem applyEdges_regime (l : List Nat) (s : State) : (applyEdges l s).regime = s.regime := by
  fun_induction applyEdges l s <;> simp [*]

@[simp] theorem restorePriv_regime (k : Nat) (bad : Bool) (s : State) : (restorePriv k bad s).regime = s.regime := by
  unfold restorePriv
  repeat' split
  all_goals simp

@[simp] theorem idleDark_regime (s : State) : (idleDark s).regime = s.regime := by simp [idleDark]

@[simp] theorem reportFixer_regime (u : UnitId) (pass : Bool) (s : State) : (reportFixer u pass s).regime = s.regime := by
  unfold reportFixer
  split <;> simp

@[simp] theorem reportFailing_regime (u : UnitId) (s : State) : (reportFailing u s).regime = s.regime := by simp [reportFailing]
@[simp] theorem pipeTestEnds_regime (pass : Bool) (s : State) : (pipeTestEnds pass s).regime = s.regime := by simp [pipeTestEnds]
@[simp] theorem restCluster_regime (u : UnitId) (s : State) : (restCluster u s).regime = s.regime := by simp [restCluster]

@[simp] theorem afterTest_regime (j : TestJob) (pass : Bool) (s : State) : (afterTest j pass s).regime = s.regime := by
  unfold afterTest
  split <;> simp

@[simp] theorem noteRows_regime (j : TestJob) (r : TestReport) (s : State) : (noteRows j r s).regime = s.regime := by
  simp [noteRows]

@[simp] theorem finishTest_regime (j : TestJob) (outcome reason : Nat) (r : TestReport) (s : State) :
    (finishTest j outcome reason r s).regime = s.regime := by
  simp [finishTest]

@[simp] theorem leaveUnit_regime (j : TestJob) (s : State) : (leaveUnit j s).regime = s.regime := by
  unfold leaveUnit
  repeat' split
  all_goals simp

@[simp] theorem cutTest_regime (reason : Nat) (s : State) : (cutTest reason s).regime = s.regime := by
  unfold cutTest
  split <;> simp

@[simp] theorem dropWaiting_regime (s : State) : (dropWaiting s).regime = s.regime := by simp [dropWaiting]

@[simp] theorem reclaim_regime (d : Decision) (s : State) : (reclaim d s).regime = s.regime := by
  unfold reclaim
  split <;> simp

@[simp] theorem clearAllSecrets_regime (ok : Bool) (s : State) : (clearAllSecrets ok s).regime = s.regime := by
  simp [clearAllSecrets]

@[simp] theorem openGate_regime (s : State) : (openGate s).regime = s.regime := by simp [openGate]
@[simp] theorem closeGate_regime (s : State) : (closeGate s).regime = s.regime := by simp [closeGate]

@[simp] theorem logScanned_regime (l : List TestJob) (s : State) : (logScanned l s).regime = s.regime := by
  fun_induction logScanned l s <;> simp [*]

@[simp] theorem endTest_regime (s : State) : (endTest s).regime = s.regime := by simp [endTest]
@[simp] theorem listOver_regime (s : State) : (listOver s).regime = s.regime := by simp [listOver]

/-! ### Modes -/

@[simp] theorem dropSlot_regime (s : State) : (dropSlot s).regime = s.regime := by
  unfold dropSlot
  split <;> simp

@[simp] theorem logAbandoned_regime (l : List TestJob) (s : State) : (logAbandoned l s).regime = s.regime := by
  fun_induction logAbandoned l s <;> simp [*]

@[simp] theorem abandonTest_regime (s : State) : (abandonTest s).regime = s.regime := by
  unfold abandonTest
  dsimp only
  repeat' split
  all_goals simp

@[simp] theorem deferRestore_regime (s : State) : (deferRestore s).regime = s.regime := by
  unfold deferRestore
  split <;> simp

@[simp] theorem cancelExit_regime (s : State) : (cancelExit s).regime = s.regime := by
  unfold cancelExit
  split <;> simp

@[simp] theorem safeTrigger_regime (cause code loc : Nat) (s : State) : (safeTrigger cause code loc s).regime = s.regime := by
  unfold safeTrigger
  split <;> simp

@[simp] theorem holdState_clock (pins : Pins) (s : State) : (holdState pins s).clock = s.clock := by
  simp [holdState, clock_regime, State.regime]

/-! ### Offload contexts -/

@[simp] theorem rxVerify_regime (f rec_ : List Byte) (s : State) : (rxVerify f rec_ s).2.regime = s.regime := by
  unfold rxVerify
  split <;> simp

@[simp] theorem txGenerate_regime (q : Nat) (desc f : List Byte) (s : State) : (txGenerate q desc f s).2.regime = s.regime := by
  unfold txGenerate
  dsimp only
  repeat' split
  all_goals simp

@[simp] theorem cvEnd_regime (u : Nat) (s : State) : (cvEnd u s).regime = s.regime := by
  unfold cvEnd
  split <;> simp

@[simp] theorem cvFail_regime (u reason : Nat) (s : State) : (cvFail u reason s).regime = s.regime := by simp [cvFail]

@[simp] theorem cvStart_regime (u : Nat) (s : State) : (cvStart u s).regime = s.regime := by
  unfold cvStart
  dsimp only
  repeat' split
  all_goals simp

@[simp] theorem cvAbort_regime (u : Nat) (s : State) : (cvAbort u s).regime = s.regime := by simp [cvAbort]

@[simp] theorem jobCmd_regime (u : Nat) (v : Word) (s : State) : (jobCmd u v s).regime = s.regime := by
  unfold jobCmd
  repeat' split
  all_goals simp

@[simp] theorem execCvJobDone_regime (u : Fin 8) (data : Option (List Byte)) (s : State) :
    answersRegime s (execCvJobDone u data s) := by
  unfold execCvJobDone
  split <;> simp

/-! ### Host rings, row by row -/

@[simp] theorem doorbellDiscard_regime (f n : Nat) (s : State) : (doorbellDiscard f n s).regime = s.regime := by
  simp [doorbellDiscard]

@[simp] theorem doorbell_regime (f : Nat) (rx : Bool) (v : Word) (s : State) : (doorbell f rx v s).regime = s.regime := by
  unfold doorbell
  dsimp only
  repeat' split
  all_goals simp

@[simp] theorem stableWrite_regime (f : Nat) (rx : Bool) (v : Word) (s : State) : (stableWrite f rx v s).regime = s.regime := by
  unfold stableWrite
  dsimp only
  repeat' split
  all_goals simp

@[simp] theorem flushRing_regime (c : Nat) (l : List Nat) (s : State) : (flushRing c l s).regime = s.regime := by
  fun_induction flushRing c l s <;> simp [*]

@[simp] theorem doorbellCq_regime (f : Nat) (v : Word) (s : State) : (doorbellCq f v s).regime = s.regime := by
  unfold doorbellCq
  dsimp only
  repeat' split
  all_goals simp

@[simp] theorem execDescriptorFetchDone_regime (rx : Bool) (q : QueueNo) (i : Nat) (data : Option (List Byte)) (s : State) :
    answersRegime s (execDescriptorFetchDone rx q i data s) := by
  unfold execDescriptorFetchDone
  dsimp only
  repeat' split
  all_goals simp

@[simp] theorem execTxHostFrameFetched_regime (q : QueueNo) (data : Option (List Byte)) (s0 : State) :
    answersRegime s0 (execTxHostFrameFetched q data s0) := by
  unfold execTxHostFrameFetched
  dsimp only
  repeat' split
  all_goals simp

@[simp] theorem writeBufs_regime (ch : Nat) (l : List (List Byte)) (r : List Byte) (s : State) :
    (writeBufs ch l r s).regime = s.regime := by
  fun_induction writeBufs ch l r s <;> simp [*]

@[simp] theorem rxDeliver_regime (q : Nat) (x : Staged) (redirected : Bool) (s : State) :
    (rxDeliver q x redirected s).regime = s.regime := by
  unfold rxDeliver
  dsimp only
  repeat' split
  all_goals simp

@[simp] theorem rxHandle_regime (q : Nat) (x : Staged) (s : State) : (rxHandle q x s).regime = s.regime := by
  unfold rxHandle
  dsimp only
  repeat' split
  all_goals simp

@[simp] theorem execRxQueueDelivery_regime (q : QueueNo) (s : State) : answersRegime s (execRxQueueDelivery q s) := by
  unfold execRxQueueDelivery
  split <;> simp

@[simp] theorem withdrawPort_regime (f : Nat) (mine : Nat → Bool) (p : Nat) (s : State) :
    (withdrawPort f mine p s).regime = s.regime := by
  simp [withdrawPort]

@[simp] theorem withdraw_regime (f : Nat) (mine : Nat → Bool) (l : List Nat) (s : State) :
    (withdraw f mine l s).regime = s.regime := by
  fun_induction withdraw f mine l s <;> simp [*]

@[simp] theorem stopQueues_regime (rx : Bool) (l : List Nat) (s : State) : (stopQueues rx l s).regime = s.regime := by
  fun_induction stopQueues rx l s <;> simp [*]

@[simp] theorem failJobs_regime (f reason : Nat) (all : Bool) (l : List Nat) (s : State) :
    (failJobs f reason all l s).regime = s.regime := by
  fun_induction failJobs f reason all l s <;> simp_all

@[simp] theorem fnReset_regime (f : Nat) (v : Word) (s : State) : (fnReset f v s).regime = s.regime := by simp [fnReset]

@[simp] theorem freshQueues_regime (rx mode1 : Bool) (l : List Nat) (s : State) :
    (freshQueues rx mode1 l s).regime = s.regime := by
  fun_induction freshQueues rx mode1 l s <;> simp [*]

@[simp] theorem freshRings_regime (f : Nat) (mode1 : Bool) (l : List Nat) (s : State) :
    (freshRings f mode1 l s).regime = s.regime := by
  fun_induction freshRings f mode1 l s <;> simp [*]

@[simp] theorem fnCfgWrite_regime (f : Nat) (v : Word) (s : State) : (fnCfgWrite f v s).regime = s.regime := by simp [fnCfgWrite]
@[simp] theorem ctxEnd_regime (reason : Nat) (s : State) : (ctxEnd reason s).regime = s.regime := by simp [ctxEnd]

@[simp] theorem ctxRead_regime (s : State) : (ctxRead s).regime = s.regime := by
  unfold ctxRead
  split <;> simp

@[simp] theorem ctxWrite_regime (s : State) : (ctxWrite s).regime = s.regime := by
  unfold ctxWrite
  dsimp only
  repeat' split
  all_goals simp

@[simp] theorem ctxCmd_regime (v : Word) (s : State) : (ctxCmd v s).regime = s.regime := by
  unfold ctxCmd
  repeat' split
  all_goals simp

@[simp] theorem freezeQueues_regime (v : Bool) (s : State) : (freezeQueues v s).regime = s.regime := by simp [freezeQueues]
@[simp] theorem thawQueues_regime (s : State) : (thawQueues s).regime = s.regime := by simp [thawQueues]

@[simp] theorem endFetches_regime (l : List (Nat × Queue)) (s : State) : (endFetches l s).regime = s.regime := by
  fun_induction endFetches l s <;> simp [*]

@[simp] theorem dropPrefetch_regime (s0 : State) : (dropPrefetch s0).regime = s0.regime := by simp [dropPrefetch]

/-! ### FIXER, row by row -/

@[simp] theorem raiseAlarm_regime (k : Nat) (s : State) : (raiseAlarm k s).regime = s.regime := by simp [raiseAlarm]

@[simp] theorem agingDecision_regime (u : UnitId) (cause reading : Nat) (s : State) :
    (agingDecision u cause reading s).regime = s.regime := by
  simp [agingDecision]

@[simp] theorem sampleUnit_regime (x : AgingReading) (s : State) : (sampleUnit x s).regime = s.regime := by simp [sampleUnit]

@[simp] theorem sampleUnits_regime (l : List AgingReading) (s : State) : (sampleUnits l s).regime = s.regime := by
  fun_induction sampleUnits l s <;> simp [*]

@[simp] theorem dropFrameWord_regime (p n : Nat) (s : State) : (dropFrameWord p n s).regime = s.regime := by simp [dropFrameWord]

@[simp] theorem stompFlight_regime (p : Nat) (s : State) : (stompFlight p s).regime = s.regime := by
  unfold stompFlight
  split <;> simp

@[simp] theorem islandWord_regime (c : ErrContent) (s : State) : (islandWord c s).regime = s.regime := by
  unfold islandWord
  split <;> simp

@[simp] theorem pendL2_regime (u : UnitId) (s : State) : (pendL2 u s).regime = s.regime := by simp [pendL2]

@[simp] theorem execUncorrectableError_regime (u : UnitId) (c : ErrContent) (s : State) :
    answersRegime s (execUncorrectableError u c s) := by
  unfold execUncorrectableError
  repeat' split
  all_goals simp

@[simp] theorem beginTest_regime (d : Decision) (s : State) : (beginTest d s).regime = s.regime := by simp [beginTest]

@[simp] theorem beginDecision_regime (d : Decision) (s : State) : (beginDecision d s).regime = s.regime := by
  unfold beginDecision
  split <;> simp

@[simp] theorem execMigrationStart_regime (s : State) : answersRegime s (execMigrationStart s) := by
  unfold execMigrationStart
  repeat' split
  all_goals simp

@[simp] theorem beginCompare_regime (m : Migration) (s : State) : (beginCompare m s).regime = s.regime := by simp [beginCompare]

@[simp] theorem differAfter_regime (n : Nat) (m : Migration) (s : State) : (differAfter n m s).regime = s.regime := by
  simp [differAfter]

@[simp] theorem execShadowCompareStart_regime (differs : Option Nat) (s : State) :
    answersRegime s (execShadowCompareStart differs s) := by
  unfold execShadowCompareStart
  repeat' split
  all_goals simp

@[simp] theorem showSlice8_regime (h c : Nat) (s : State) : (showSlice8 h c s).regime = s.regime := by simp [showSlice8]

@[simp] theorem offerPorts_regime (u : UnitId) (s : State) : (offerPorts u s).regime = s.regime := by
  unfold offerPorts
  split <;> simp

@[simp] theorem moveToSpare_regime (m : Migration) (s : State) : (moveToSpare m s).regime = s.regime := by
  unfold moveToSpare
  dsimp only
  repeat' split
  all_goals simp

@[simp] theorem moveHome_regime (m : Migration) (s : State) : (moveHome m s).regime = s.regime := by
  unfold moveHome
  dsimp only
  repeat' split
  all_goals simp

@[simp] theorem switchOver_regime (m : Migration) (s : State) : (switchOver m s).regime = s.regime := by simp [switchOver]

@[simp] theorem execMigrationSwitchover_regime (frames : Nat) (s : State) : answersRegime s
    (execMigrationSwitchover frames s) := by
  unfold execMigrationSwitchover
  split <;> simp

@[simp] theorem clusterBack_regime (n : Nat) (s : State) : (clusterBack n s).regime = s.regime := by
  unfold clusterBack
  split <;> simp

@[simp] theorem passedUnit_regime (u : UnitId) (s : State) : (passedUnit u s).regime = s.regime := by
  unfold passedUnit
  repeat' split
  all_goals simp

@[simp] theorem decideFate_regime (d : Decision) (spare : Nat) (u : UnitId) (pass : Bool) (s : State) :
    (decideFate d spare u pass s).regime = s.regime := by
  simp [decideFate]

@[simp] theorem decideReinstate_regime (d : Decision) (pass : Bool) (s : State) :
    (decideReinstate d pass s).regime = s.regime := by
  simp [decideReinstate]

@[simp] theorem endMigOf_regime (u : UnitId) (s : State) : (endMigOf u s).regime = s.regime := by simp [endMigOf]

@[simp] theorem execRetiredUnitFate_regime (s : State) : answersRegime s (execRetiredUnitFate s) := by
  unfold execRetiredUnitFate
  split <;> simp

/-! ### Interrupt registers -/

@[simp] theorem claimRead_regime (t : Nat) (s : State) : (claimRead t s).2.regime = s.regime := by
  unfold claimRead
  split <;> simp

@[simp] theorem completeWrite_regime (t : Nat) (v : Word) (s : State) : (completeWrite t v s).regime = s.regime := by
  simp [completeWrite]

@[simp] theorem pendSetAll_regime (l : List Nat) (s : State) : (pendSetAll l s).regime = s.regime := by
  fun_induction pendSetAll l s <;> simp_all

@[simp] theorem pendClrAll_regime (l : List Nat) (s : State) : (pendClrAll l s).regime = s.regime := by
  fun_induction pendClrAll l s <;> simp [*]

@[simp] theorem pendSetWrite_regime (w : Nat) (v : Word) (s : State) : (pendSetWrite w v s).regime = s.regime := by
  simp [pendSetWrite]

@[simp] theorem pendClrWrite_regime (w : Nat) (v : Word) (s : State) : (pendClrWrite w v s).regime = s.regime := by
  simp [pendClrWrite]

@[simp] theorem maskSetWrite_regime (w : Nat) (v : Word) (s : State) : (maskSetWrite w v s).regime = s.regime := by
  simp [maskSetWrite]

@[simp] theorem maskClrWrite_regime (w : Nat) (v : Word) (s : State) : (maskClrWrite w v s).regime = s.regime := by
  simp [maskClrWrite]

@[simp] theorem routeCmd_regime (v : Word) (s : State) : (routeCmd v s).regime = s.regime := by
  unfold routeCmd
  repeat' split
  all_goals simp

@[simp] theorem eqCiWrite_regime (t : Nat) (v : Word) (s : State) : (eqCiWrite t v s).regime = s.regime := by
  unfold eqCiWrite
  dsimp only
  repeat' split
  all_goals simp

@[simp] theorem eqCfgWrite_regime (t : Nat) (v : Word) (s : State) : (eqCfgWrite t v s).regime = s.regime := by simp [eqCfgWrite]

@[simp] theorem eqAddrWrite_regime (p : CmdPort) (t a : Nat) (v : Word) (s : State) :
    (eqAddrWrite p t a v s).regime = s.regime := by
  simp [eqAddrWrite]

@[simp] theorem prioWrite_regime (t : Nat) (v : Word) (s : State) : (prioWrite t v s).regime = s.regime := by simp [prioWrite]

/-! ### LOUPE -/

@[simp] theorem execMemportResponse_regime (i : Nat) (ok : Bool) (tenths : Nat) (s : State) :
    answersRegime s (execMemportResponse i ok tenths s) := by
  unfold execMemportResponse
  split <;> simp

@[simp] theorem execMemportTimeout_regime (i : Nat) (s : State) : answersRegime s (execMemportTimeout i s) := by
  unfold execMemportTimeout
  split <;> simp

@[simp] theorem setListed_regime (l : List (Nat × Word)) (s : State) : (setListed l s).regime = s.regime := by
  fun_induction setListed l s <;> simp [*]

@[simp] theorem loupeSnap_regime (s : State) : (loupeSnap s).regime = s.regime := by simp [loupeSnap]
@[simp] theorem loupeCfg_regime (c : Nat) (v : Word) (s : State) : (loupeCfg c v s).regime = s.regime := by simp [loupeCfg]
@[simp] theorem loupeClr_regime (b w : Nat) (v : Word) (s : State) : (loupeClr b w v s).regime = s.regime := by simp [loupeClr]

@[simp] theorem bwPorts_regime (l : List Nat) (s : State) : (bwPorts l s).regime = s.regime := by
  fun_induction bwPorts l s <;> simp_all

@[simp] theorem archLayout_regime (s : State) : (archLayout s).regime = s.regime := by simp [archLayout]

@[simp] theorem execArchiveCapture_regime (s : State) : answersRegime s (execArchiveCapture s) := by
  unfold execArchiveCapture
  repeat' split
  all_goals simp

/-! ### SHUTTER, row by row -/

@[simp] theorem armChan_regime (c : Nat) (s : State) : (armChan c s).regime = s.regime := by
  unfold armChan
  dsimp only
  repeat' split
  all_goals simp

@[simp] theorem disarmChan_regime (c : Nat) (s : State) : (disarmChan c s).regime = s.regime := by
  unfold disarmChan
  split <;> simp

@[simp] theorem chCmd_regime (c : Nat) (v : Word) (s : State) : (chCmd c v s).regime = s.regime := by
  unfold chCmd
  split <;> simp

@[simp] theorem passEdge_regime (c e : Nat) (x : Chan) (s : State) : (passEdge c e x s).regime = s.regime := by simp [passEdge]

@[simp] theorem leadingEdge_regime (c e : Nat) (x : Chan) (s : State) : (leadingEdge c e x s).regime = s.regime := by
  simp [leadingEdge]

@[simp] theorem execShutterEdge_regime (c : Fin 8) (s : State) : answersRegime s (execShutterEdge c s) := by
  unfold execShutterEdge
  repeat' split
  all_goals simp

@[simp] theorem execShutterPulseEnd_regime (c : Fin 8) (s : State) : answersRegime s (execShutterPulseEnd c s) := by
  unfold execShutterPulseEnd
  dsimp only
  repeat' split
  all_goals simp

@[simp] theorem execShutterWake_regime (c : Fin 8) (s : State) : answersRegime s (execShutterWake c s) := by
  unfold execShutterWake
  split <;> simp

/-! ### Transmit, row by row -/

@[simp] theorem takeCell_regime (cl : Nat) (s : State) : (takeCell cl s).regime = s.regime := by simp [takeCell]

@[simp] theorem queueCell_regime (p : Nat) (side : Word) (d : List Byte) (f : TxFrm) (s : State) :
    (queueCell p side d f s).regime = s.regime := by
  simp [queueCell]

@[simp] theorem laterCell_regime (p : Nat) (side : Word) (d : List Byte) (s : State) :
    (laterCell p side d s).regime = s.regime := by
  unfold laterCell
  repeat' split
  all_goals simp

@[simp] theorem countWaits_regime (p : Nat) (l : List TxFrm) (s : State) : (countWaits p l s).2.regime = s.regime := by
  induction l generalizing s with
  | nil => rfl
  | cons f r ih => simp [countWaits, ih]

@[simp] theorem commitFrame_regime (p lane inStream : Nat) (x : TxFrm) (s : State) :
    (commitFrame p lane inStream x s).regime = s.regime := by
  unfold commitFrame
  dsimp only
  repeat' split
  all_goals simp

@[simp] theorem commitNext_regime (p lane inStream : Nat) (ok : TxFrm → Bool) (s : State) :
    (commitNext p lane inStream ok s).regime = s.regime := by
  unfold commitNext
  split <;> simp

@[simp] theorem creditLaid_regime (p n : Nat) (c : Committed) (s : State) : (creditLaid p n c s).regime = s.regime := by
  simp [creditLaid]

@[simp] theorem preemptFlight_regime (p laid : Nat) (c : Committed) (s : State) :
    (preemptFlight p laid c s).regime = s.regime := by
  simp [preemptFlight]

@[simp] theorem resumeOpen_regime (p : Nat) (c : Committed) (s : State) : (resumeOpen p c s).regime = s.regime := by
  simp [resumeOpen]

@[simp] theorem lineFree_regime (p lane inStream : Nat) (s : State) : (lineFree p lane inStream s).regime = s.regime := by
  unfold lineFree
  dsimp only
  repeat' split
  all_goals simp

@[simp] theorem lineTaken_regime (p lane inStream laid left : Nat) (c0 : Committed) (s0 : State) :
    (lineTaken p lane inStream laid left c0 s0).regime = s0.regime := by
  simp [lineTaken]

@[simp] theorem execTxFrameCommit_regime (p : PortNo) (block : TxBlock) (laid left : Nat) (s : State) :
    answersRegime s (execTxFrameCommit p block laid left s) := by
  unfold execTxFrameCommit
  dsimp only
  repeat' split
  all_goals simp

@[simp] theorem countSent_regime (p n : Nat) (da : List Byte) (padded : Bool) (s : State) :
    (countSent p n da padded s).regime = s.regime := by
  simp [countSent]

@[simp] theorem countTxOctets_regime (p n : Nat) (s : State) : (countTxOctets p n s).regime = s.regime := by simp [countTxOctets]

@[simp] theorem hostSent_regime (c : Committed) (status reason n : Nat) (s : State) :
    (hostSent c status reason n s).regime = s.regime := by
  unfold hostSent
  split <;> simp

@[simp] theorem releaseFlight_regime (p : Nat) (c : Committed) (s : State) : (releaseFlight p c s).regime = s.regime := by
  simp [releaseFlight]

@[simp] theorem countSec_regime (p n : Nat) (c : Committed) (s : State) : (countSec p n c s).regime = s.regime := by
  unfold countSec
  split <;> simp

@[simp] theorem endFlight_regime (p : Nat) (c : Committed) (s : State) : (endFlight p c s).regime = s.regime := by
  unfold endFlight
  split <;> simp

@[simp] theorem execTxFrameEnd_regime (p : PortNo) (s : State) : answersRegime s (execTxFrameEnd p s) := by
  unfold execTxFrameEnd
  split <;> simp

/-! ### Register reads -/

@[simp] theorem clearRead_regime (a : Nat) (s : State) : (clearRead a s).regime = s.regime := by
  unfold clearRead
  split <;> simp

@[simp] theorem peakRead_regime (a : Nat) (s : State) : (peakRead a s).regime = s.regime := by simp [peakRead]
@[simp] theorem takeSnap_regime (p : CmdPort) (a : Nat) (s : State) : (takeSnap p a s).regime = s.regime := by simp [takeSnap]

@[simp] theorem regRead_regime (p : CmdPort) (a : Nat) (s : State) : (regRead p a s).2.regime = s.regime := by
  unfold regRead
  dsimp only
  repeat' split
  all_goals simp

/-! ### CONTACT_SHEET -/

@[simp] theorem genSheet_regime (q : Req) (s : State) : (genSheet q s).regime = s.regime := by simp [genSheet]

/-! ### The federation agent -/

@[simp] theorem takeCommand_regime (q : Req) (s : State) : (takeCommand q s).regime = s.regime := by simp [takeCommand]

@[simp] theorem sendFed_regime (relay : Bool) (body : List Byte) (l : List Nat) (s : State) :
    (sendFed relay body l s).regime = s.regime := by
  fun_induction sendFed relay body l s <;> simp [*]

@[simp] theorem fedFlush_regime (s : State) : (fedFlush s).regime = s.regime := by simp [fedFlush]

@[simp] theorem relayFed_regime (p : Nat) (body : List Byte) (s : State) : (relayFed p body s).regime = s.regime := by
  simp [relayFed]

@[simp] theorem execHeartbeatSend_regime (s : State) : answersRegime s (execHeartbeatSend s) := by
  unfold execHeartbeatSend
  split <;> simp

@[simp] theorem ownHeard_regime (seq tag : Nat) (s : State) : (ownHeard seq tag s).regime = s.regime := by simp [ownHeard]
@[simp] theorem notice_regime (p m tag epoch : Nat) (s : State) : (notice p m tag epoch s).regime = s.regime := by simp [notice]
@[simp] theorem newStart_regime (m : Nat) (s : State) : (newStart m s).regime = s.regime := by simp [newStart]

@[simp] theorem acceptHb_regime (p m seq tag : Nat) (body : List Byte) (s : State) :
    (acceptHb p m seq tag body s).regime = s.regime := by
  unfold acceptHb
  dsimp only
  repeat' split
  all_goals simp

@[simp] theorem hearHb_regime (p : Nat) (body : List Byte) (s : State) : (hearHb p body s).regime = s.regime := by simp [hearHb]

@[simp] theorem execMemberAbsent_regime (m : Fin 1024) (s : State) : answersRegime s (execMemberAbsent m s) := by
  unfold execMemberAbsent
  repeat' split
  all_goals simp

@[simp] theorem execIdConflictClear_regime (s : State) : answersRegime s (execIdConflictClear s) := by
  unfold execIdConflictClear
  split <;> simp

@[simp] theorem frameDrop_regime (port : CmdPort) (s : State) : (frameDrop port s).regime = s.regime := by simp [frameDrop]

@[simp] theorem hearRelayed_regime (p : Nat) (body : List Byte) (s : State) : (hearRelayed p body s).regime = s.regime := by
  unfold hearRelayed
  dsimp only
  repeat' split
  all_goals simp

@[simp] theorem hearResponse_regime (p : Nat) (body : List Byte) (s : State) : (hearResponse p body s).regime = s.regime := by
  unfold hearResponse
  dsimp only
  repeat' split
  all_goals simp

@[simp] theorem overload_regime (s : State) : (overload s).regime = s.regime := by simp [overload]

@[simp] theorem execDigestRecompute_regime (s : State) : answersRegime s (execDigestRecompute s) := by
  unfold execDigestRecompute
  split <;> simp

@[simp] theorem memberRead_regime (v : Word) (s : State) : (memberRead v s).regime = s.regime := by
  unfold memberRead
  dsimp only
  repeat' split
  all_goals simp

/-! ### Lanes and ports, row by row -/

@[simp] theorem reconfSettle_regime (cl : Nat) (s : State) : (reconfSettle cl s).regime = s.regime := by
  unfold reconfSettle
  split <;> simp

@[simp] theorem execPortUp_regime (p : PortNo) (s : State) : answersRegime s (execPortUp p s) := by
  unfold execPortUp
  repeat' split
  all_goals simp

@[simp] theorem execReconfigRestart_regime (cl : ClusterNo) (s : State) : answersRegime s (execReconfigRestart cl s) := by
  unfold execReconfigRestart
  split <;> simp

@[simp] theorem highBer_regime (p : Nat) (s : State) : (highBer p s).regime = s.regime := by simp [highBer]
@[simp] theorem lockGone_regime (p : Nat) (s : State) : (lockGone p s).regime = s.regime := by simp [lockGone]

@[simp] theorem addHist_regime (p n : Nat) (l : List Nat) (s : State) : (addHist p n l s).regime = s.regime := by
  fun_induction addHist p n l s <;> simp [*]

@[simp] theorem addLaneErrs_regime (p : Nat) (l r : List Nat) (s : State) : (addLaneErrs p l r s).regime = s.regime := by
  fun_induction addLaneErrs p l r s <;> simp [*]

@[simp] theorem eventTimes_regime (page n k : Nat) (s : State) : (eventTimes page n k s).regime = s.regime := by
  fun_induction eventTimes page n k s <;> simp [*]

@[simp] theorem countFec_regime (p : Nat) (f : FecReport) (s : State) : (countFec p f s).regime = s.regime := by simp [countFec]

@[simp] theorem judgeDegrade_regime (p symbols : Nat) (s : State) : (judgeDegrade p symbols s).regime = s.regime := by
  simp [judgeDegrade]

@[simp] theorem execDegradeWindowEnd_regime (p : PortNo) (f : FecReport) (s : State) :
    answersRegime s (execDegradeWindowEnd p f s) := by
  unfold execDegradeWindowEnd
  split <;> simp

/-! ### Spreader and reorder, row by row -/

@[simp] theorem mapPipes_regime (f : State → Nat → Nat) (l : List Nat) (s : State) : (mapPipes f l s).regime = s.regime := by
  fun_induction mapPipes f l s <;> simp [*]

@[simp] theorem pipesDown_regime (q : Nat) (s : State) : (pipesDown q s).regime = s.regime := by simp [pipesDown]
@[simp] theorem pipesUp_regime (q : Nat) (s : State) : (pipesUp q s).regime = s.regime := by simp [pipesUp]
@[simp] theorem setQuarter_regime (q : Nat) (v : Bool) (s : State) : (setQuarter q v s).regime = s.regime := by simp [setQuarter]
@[simp] theorem quarterMove_regime (q : Nat) (s : State) : (quarterMove q s).regime = s.regime := by simp [quarterMove]
@[simp] theorem quarterBegin_regime (q : Nat) (s : State) : (quarterBegin q s).regime = s.regime := by simp [quarterBegin]
@[simp] theorem quarterEnd_regime (q : Nat) (s : State) : (quarterEnd q s).regime = s.regime := by simp [quarterEnd]
@[simp] theorem quarterEnds_regime (s : State) : (quarterEnds s).regime = s.regime := by simp [quarterEnds]

@[simp] theorem quarterSettle_regime (s : State) : (quarterSettle s).regime = s.regime := by
  unfold quarterSettle
  split <;> simp

@[simp] theorem quarterWrite_regime (v : Word) (s : State) : (quarterWrite v s).regime = s.regime := by simp [quarterWrite]

@[simp] theorem dealFrame_regime (c k p : Nat) (f : RxFrm) (rest : List RxFrm) (s : State) :
    (dealFrame c k p f rest s).regime = s.regime := by
  simp [dealFrame]

@[simp] theorem dealNext_regime (s : State) : (dealNext s).regime = s.regime := by
  unfold dealNext
  repeat' split
  all_goals simp

@[simp] theorem stallsMig_regime (p : Nat) (s : State) : (stallsMig p s).regime = s.regime := by
  unfold stallsMig
  split <;> simp

@[simp] theorem pipeTestGo_regime (v : Word) (s : State) : (pipeTestGo v s).regime = s.regime := by
  unfold pipeTestGo
  dsimp only
  repeat' split
  all_goals simp

@[simp] theorem rowRdEnd_regime (data : List Byte) (valid : Nat) (s : State) : (rowRdEnd data valid s).regime = s.regime := by
  simp [rowRdEnd]

@[simp] theorem rowRead_regime (v : Word) (s : State) : (rowRead v s).regime = s.regime := by simp [rowRead]
@[simp] theorem seedWrite_regime (v : Word) (s : State) : (seedWrite v s).regime = s.regime := by simp [seedWrite]

/-! ### Time, row by row -/

@[simp] theorem adjWrite_regime (p : CmdPort) (op : Nat) (s : State) : (adjWrite p op s).regime = s.regime := by simp [adjWrite]

@[simp] theorem slewDownTo_regime (b : Nat) (s : State) : (slewDownTo b s).regime = s.regime := by
  unfold slewDownTo
  split <;> simp

/-! ### Register writes -/

@[simp] theorem mailboxGo_regime (s : State) : (mailboxGo s).regime = s.regime := by simp [mailboxGo]
@[simp] theorem sheetRequest_regime (v : Word) (s : State) : (sheetRequest v s).regime = s.regime := by simp [sheetRequest]
@[simp] theorem wdogOff_regime (s : State) : (wdogOff s).regime = s.regime := by simp [wdogOff]
@[simp] theorem safetyCtrl_regime (v : Word) (s : State) : (safetyCtrl v s).regime = s.regime := by simp [safetyCtrl]

@[simp] theorem modeReq_regime (p : CmdPort) (v : Word) (s : State) : (modeReq p v s).regime = s.regime := by
  unfold modeReq
  split
  · rfl
  · extract_lets r
    split
    · simp
    · simp
    · simp

@[simp] theorem padHoldClr_regime (v : Word) (s : State) : (padHoldClr v s).regime = s.regime := by simp [padHoldClr]
@[simp] theorem retainAck_regime (v : Word) (s : State) : (retainAck v s).regime = s.regime := by simp [retainAck]
@[simp] theorem rxCfgWrite_regime (a : Nat) (v : Word) (s : State) : (rxCfgWrite a v s).regime = s.regime := by simp [rxCfgWrite]

@[simp] theorem txCfgWrite_regime (p a : Nat) (v : Word) (s : State) : (txCfgWrite p a v s).regime = s.regime := by
  simp [txCfgWrite]

@[simp] theorem txXoffWrite_regime (p a : Nat) (v : Word) (s : State) : (txXoffWrite p a v s).regime = s.regime := by
  simp [txXoffWrite]

@[simp] theorem macWrite_regime (p : CmdPort) (n w a : Nat) (v : Word) (s : State) :
    (macWrite p n w a v s).regime = s.regime := by
  simp [macWrite]

@[simp] theorem secWrite_regime (p : CmdPort) (n w a : Nat) (v : Word) (s : State) :
    (secWrite p n w a v s).regime = s.regime := by
  simp [secWrite]

@[simp] theorem timeWrite_regime (p : CmdPort) (w a : Nat) (v : Word) (s : State) : (timeWrite p w a v s).regime = s.regime := by
  simp [timeWrite]

@[simp] theorem shutterWrite_regime (p : CmdPort) (w a : Nat) (v : Word) (s : State) :
    (shutterWrite p w a v s).regime = s.regime := by
  simp [shutterWrite]

@[simp] theorem targetWrite_regime (p : CmdPort) (t w a : Nat) (v : Word) (s : State) :
    (targetWrite p t w a v s).regime = s.regime := by
  simp [targetWrite]

@[simp] theorem fnWrite_regime (f o : Nat) (v : Word) (s : State) : (fnWrite f o v s).regime = s.regime := by simp [fnWrite]

@[simp] theorem memWrite_regime (p : CmdPort) (w a : Nat) (v : Word) (s : State) : (memWrite p w a v s).regime = s.regime := by
  simp [memWrite]

@[simp] theorem fedWrite_regime (p : CmdPort) (w a : Nat) (v : Word) (s : State) : (fedWrite p w a v s).regime = s.regime := by
  simp [fedWrite]

@[simp] theorem cmdWrite_regime (p : CmdPort) (w a : Nat) (v : Word) (s : State) : (cmdWrite p w a v s).regime = s.regime := by
  simp [cmdWrite]

@[simp] theorem powerWrite_regime (p : CmdPort) (o : Nat) (v : Word) (s : State) : (powerWrite p o v s).regime = s.regime := by
  unfold powerWrite
  repeat' split
  all_goals simp

@[simp] theorem pageWrite_regime (p : CmdPort) (w a : Nat) (v : Word) (s : State) : (pageWrite p w a v s).regime = s.regime := by
  unfold pageWrite
  dsimp only
  repeat' split
  all_goals simp

@[simp] theorem regWrite_regime (p : CmdPort) (w : Nat) (v : Word) (s : State) : (regWrite p w v s).regime = s.regime := by
  unfold regWrite
  dsimp only
  repeat' split
  all_goals simp

@[simp] theorem serveAccess_regime (x : Access) (s : State) : (serveAccess x s).regime = s.regime := by
  unfold serveAccess
  split <;> simp

@[simp] theorem serveStalled_regime (s : State) : (serveStalled s).regime = s.regime := by simp [serveStalled]

/-! ### Commands as they execute -/

@[simp] theorem factoryRegs_regime (s : State) : (factoryRegs s).regime = s.regime := by simp [factoryRegs]

@[simp] theorem factoryMaps_regime (l : List Nat) (s : State) : (factoryMaps l s).regime = s.regime := by
  induction l generalizing s with
  | nil => rfl
  | cons n r ih =>
    have h := reconfStart_regime n 0xFF (List.replicate 8 factoryPort) true s
    unfold factoryMaps
    split
    all_goals
      rename_i u e
      rw [ih]
      rw [e] at h
      simpa using h

@[simp] theorem restoreEnd_regime (p : CmdPort) (s : State) : (restoreEnd p s).regime = s.regime := by simp [restoreEnd]

@[simp] theorem restoreErase_regime (p : CmdPort) (s : State) : (restoreErase p s).regime = s.regime := by
  obtain ⟨u, hu⟩ : ∃ u, u = setF (calA 0x080) 3 2 0 (overlayWritten (eraseOverlay (countOverlay s))) := ⟨_, rfl⟩
  have h : u.regime = s.regime := by simp [hu]
  unfold restoreErase
  rw [← hu, ← h]
  dsimp only
  repeat' split
  all_goals simp

@[simp] theorem restoreStep_regime (s : State) : (restoreStep s).regime = s.regime := by
  unfold restoreStep
  split <;> simp

@[simp] theorem handOff_regime (u : UnitId) (s : State) : (handOff u s).regime = s.regime := by simp [handOff]

@[simp] theorem leaveService_regime (s : State) (l : List TestJob) (x : State) : (leaveService s l x).regime = x.regime := by
  fun_induction leaveService s l x <;> simp [*]

@[simp] theorem startTest_regime (p : CmdPort) (l : List TestJob) (scan : Bool) (s : State) :
    (startTest p l scan s).regime = s.regime := by
  simp [startTest]

@[simp] theorem abortTest_regime (p : CmdPort) (s : State) : (abortTest p s).regime = s.regime := by simp [abortTest]

@[simp] theorem safeEnter_regime (q : Req) (s : State) : (safeEnter q s).regime = s.regime := by
  unfold safeEnter
  repeat' split
  all_goals simp

@[simp] theorem safeExit_regime (pl : BitVec 2) (s : State) : (safeExit pl s).regime = s.regime := by simp [safeExit]

@[simp] theorem readWord_regime (p : CmdPort) (a : Nat) (s : State) : (readWord p a s).2.regime = s.regime := by
  unfold readWord
  repeat' split
  all_goals simp

@[simp] theorem readWords_regime (p : CmdPort) (l : List Nat) (s : State) : (readWords p l s).2.regime = s.regime := by
  induction l generalizing s with
  | nil => rfl
  | cons a r ih => simp [readWords, ih]

@[simp] theorem writeWords_regime (p : CmdPort) (l : List Nat) (d : List Byte) (s : State) :
    (writeWords p l d s).2.regime = s.regime := by
  induction l generalizing d s with
  | nil => rfl
  | cons a r ih => simp [writeWords, ih]

@[simp] theorem forceRepair_regime (d : Decision) (s : State) : (forceRepair d s).regime = s.regime := by simp [forceRepair]

@[simp] theorem versionLoad_regime (p : CmdPort) (a : List Byte) (s : State) : (versionLoad p a s).regime = s.regime := by
  simp [versionLoad]

@[simp] theorem commitAt_regime (p : CmdPort) (v sec ns : Nat) (s : State) : (commitAt p v sec ns s).regime = s.regime := by
  simp [commitAt]

@[simp] theorem discardSlot_regime (p : CmdPort) (v : Nat) (s : State) : (discardSlot p v s).regime = s.regime := by
  simp [discardSlot]

@[simp] theorem versionCommit_regime (p : CmdPort) (a : List Byte) (s : State) : (versionCommit p a s).regime = s.regime := by
  unfold versionCommit
  dsimp only
  repeat' split
  all_goals simp

@[simp] theorem rejectCmd_regime (q : Req) (s : State) : (rejectCmd q s).regime = s.regime := by simp [rejectCmd]
@[simp] theorem runBasic_regime (q : Req) (s : State) : (runBasic q s).regime = s.regime := by simp [runBasic]

@[simp] theorem runCmd_regime (q : Req) (s : State) : (runCmd q s).regime = s.regime := by
  unfold runCmd
  repeat' split
  all_goals simp

@[simp] theorem markStarted_regime (q : Req) (s : State) : (markStarted q s).regime = s.regime := by simp [markStarted]

@[simp] theorem tryRun_regime (q : Req) (s : State) : (tryRun q s).regime = s.regime := by
  unfold tryRun
  split <;> simp

@[simp] theorem startPort_regime (p : CmdPort) (s : State) : (startPort p s).regime = s.regime := by
  unfold startPort
  dsimp only
  repeat' split
  all_goals simp

@[simp] theorem servePorts_regime (n : Nat) (s : State) : (servePorts n s).regime = s.regime := by
  fun_induction servePorts n s <;> simp_all

@[simp] theorem badSheet_regime (q : Req) (s : State) : (badSheet q s).regime = s.regime := by simp [badSheet]
@[simp] theorem serveSheet_regime (q : Req) (s : State) : (serveSheet q s).regime = s.regime := by simp [serveSheet]
@[simp] theorem serveSheets_regime (s : State) : (serveSheets s).regime = s.regime := by simp [serveSheets]
@[simp] theorem settle_regime (s : State) : (settle s).regime = s.regime := by simp [settle]
@[simp] theorem settle_clock (s : State) : (settle s).clock = s.clock := clock_of_regime (settle_regime s)

/-! ### Command rows -/

@[simp] theorem linkFrame_regime (s : State) : (linkFrame s).regime = s.regime := by simp [linkFrame]
@[simp] theorem linkError_regime (s : State) : (linkError s).regime = s.regime := by simp [linkError]
@[simp] theorem setCs_regime (low : Bool) (s : State) : (setCs low s).regime = s.regime := by simp [setCs]
@[simp] theorem writeH_regime (a : Nat) (v : Word) (s : State) : (writeH a v s).regime = s.regime := by simp [writeH]

@[simp] theorem writeArgs_regime (i : Nat) (l : List Word) (s : State) : (writeArgs i l s).regime = s.regime := by
  fun_induction writeArgs i l s <;> simp [*]

@[simp] theorem arriveH_regime (a : Arrival) (code : BitVec 16) (args : List Byte) (s : State) :
    (arriveH a code args s).regime = s.regime := by
  simp [arriveH]

@[simp] theorem arriveM_regime (a : Arrival) (code : BitVec 16) (args : List Byte) (s : State) :
    (arriveM a code args s).regime = s.regime := by
  simp [arriveM]

@[simp] theorem stillDrop_regime (p : Nat) (s : State) : (stillDrop p s).regime = s.regime := by simp [stillDrop]

@[simp] theorem arriveFrame_regime (a : Arrival) (code : BitVec 16) (args : List Byte) (s : State) :
    (arriveFrame a code args s).regime = s.regime := by
  simp [arriveFrame]

@[simp] theorem arriveRow_regime (a : Arrival) (code : BitVec 16) (args : List Byte) (s : State) :
    (arriveRow a code args s).regime = s.regime := by
  unfold arriveRow
  split <;> simp

@[simp] theorem execRegRead_regime (a : Arrival) (args : List Byte) (access : Option (BitVec 22 × Bool)) (s : State) :
    answersRegime s (execRegRead a args access s) := by
  unfold execRegRead
  split <;> simp

@[simp] theorem readRecords2_regime (l : Load) (img : Option (List Byte)) (s : State) :
    (readRecords2 l img s).regime = s.regime := by
  unfold readRecords2
  repeat' split
  all_goals simp

@[simp] theorem execVersionLoadComplete_regime (img : Option (List Byte)) (s : State) :
    answersRegime s (execVersionLoadComplete img s) := by
  unfold execVersionLoadComplete
  repeat' split
  all_goals simp

@[simp] theorem execTimedCommitDue_regime (s : State) : answersRegime s (execTimedCommitDue s) := by
  unfold execTimedCommitDue
  repeat' split
  all_goals simp

@[simp] theorem evtRow_regime (p : CmdPort) (page off : Nat) (v : Word) (eff : Nat → Word → State → State) (s : State)
    (h : ∀ g s, (eff g v s).regime = s.regime) : (evtRow p page off v eff s).regime = s.regime := by simp [evtRow, h]

/-! ### Reset and alarm inputs -/

@[simp] theorem sampleAll_regime (s : State) : (sampleAll s).regime = s.regime := by simp [sampleAll]
@[simp] theorem leaveHold_clock (s : State) : (leaveHold s).clock = s.clock := by
  unfold leaveHold
  dsimp only
  split <;> simp [clock_regime, regime_turn]

@[simp] theorem acceptAlarm_regime (s : State) : (acceptAlarm s).regime = s.regime := by simp [acceptAlarm]

@[simp] theorem execAlarmInAccepted_regime (s : State) : answersRegime s (execAlarmInAccepted s) := by
  unfold execAlarmInAccepted
  split <;> simp

/-! ### PROOF -/

@[simp] theorem onProof_regime (f : Proof → Proof) (s : State) : (onProof f s).regime = s.regime := by simp [onProof]
@[simp] theorem proofStep1_clock (s : State) : (proofStep1 s).clock = s.clock := by
  simp [proofStep1, clock_regime, regime_turn]
@[simp] theorem countRepaired_regime (s : State) : (countRepaired s).regime = s.regime := by simp [countRepaired]
@[simp] theorem countBad_regime (s : State) : (countBad s).regime = s.regime := by simp [countBad]
@[simp] theorem readMap_regime (a b : Bool) (s : State) : (readMap a b s).regime = s.regime := by simp [readMap]

@[simp] theorem proofStep2Cold_regime (r : ProofReport) (s : State) : (proofStep2Cold r s).regime = s.regime := by
  simp [proofStep2Cold]

@[simp] theorem proofStep2Warm_regime (r : ProofReport) (s : State) : (proofStep2Warm r s).regime = s.regime := by
  simp [proofStep2Warm]

@[simp] theorem putPipes_regime (m : Tab UnitMap) (l : List Nat) (s : State) : (putPipes m l s).regime = s.regime := by
  induction l generalizing s with
  | nil => rfl
  | cons p r ih =>
    rw [putPipes, ih]
    split <;> simp

@[simp] theorem applyMap_regime (s : State) : (applyMap s).regime = s.regime := by simp [applyMap]

@[simp] theorem proofJournal_regime (event : Nat) (u : UnitId) (spare : Nat) (s : State) :
    (proofJournal event u spare s).regime = s.regime := by
  simp [proofJournal]

@[simp] theorem proofSpare_regime (u : UnitId) (v : Nat) (s : State) : (proofSpare u v s).1.regime = s.regime := by
  unfold proofSpare
  repeat' split
  all_goals simp

@[simp] theorem proofFails_regime (u : UnitId) (s : State) : (proofFails u s).regime = s.regime := by
  unfold proofFails
  repeat' split
  all_goals simp

@[simp] theorem proofFailures_regime (l : List UnitId) (s : State) : (proofFailures l s).regime = s.regime := by
  fun_induction proofFailures l s <;> simp [*]

@[simp] theorem placeUnits_regime (l : List UnitId) (s : State) : (placeUnits l s).regime = s.regime := by
  induction l generalizing s with
  | nil => rfl
  | cons u r ih =>
    rw [placeUnits, ih]
    split <;> simp

@[simp] theorem placePipes_regime (l : List Nat) (s : State) : (placePipes l s).regime = s.regime := by
  induction l generalizing s with
  | nil => rfl
  | cons p r ih =>
    rw [placePipes, ih]
    split
    · split <;> simp
    · rfl

theorem loadBoot_getD_regime {sel miss tag recs : List Byte} {n : Nat} {s d : State} (h : d.regime = s.regime) :
    ((loadBoot sel miss tag recs n s).getD d).regime = s.regime := by
  cases e : loadBoot sel miss tag recs n s with
  | none => exact h
  | some t => exact loadBoot_regime e

@[simp] theorem bootRules_regime (s : State) : (bootRules s).regime = s.regime := by
  have factory (x : State) := loadBoot_getD_regime (sel := List.replicate 24 0) (miss := leBytes 1 4)
    (tag := List.replicate 8 0) (recs := []) (n := 0) (s := x) rfl
  unfold bootRules
  split
  · exact factory s
  · split
    · exact loadBoot_getD_regime ((onProof_regime _ _).trans (factory s))
    · exact (onProof_regime _ _).trans (factory s)

@[simp] theorem unmaskPages_regime (l : List Nat) (s : State) : (unmaskPages l s).regime = s.regime := by
  fun_induction unmaskPages l s <;> simp [*]

@[simp] theorem unmask3_regime (s : State) : (unmask3 s).regime = s.regime := by simp [unmask3]
@[simp] theorem haltProof_regime (reason : Nat) (s : State) : (haltProof reason s).regime = s.regime := by simp [haltProof]
@[simp] theorem acquire_regime (l : List Nat) (s : State) : (acquire l s).regime = s.regime := by simp [acquire]
@[simp] theorem chooseList_regime (s : State) : (chooseList s).regime = s.regime := by simp [chooseList]

@[simp] theorem repairL2_regime (mine : Nat → Bool) (rows : Nat) (s : State) : (repairL2 mine rows s).regime = s.regime := by
  simp [repairL2]

@[simp] theorem clearBefore_regime (l : List Nat) (s : State) : (clearBefore l s).regime = s.regime := by simp [clearBefore]
@[simp] theorem proofStep3_regime (r : ProofReport) (s : State) : (proofStep3 r s).regime = s.regime := by simp [proofStep3]

@[simp] theorem testFates_regime (l : List (UnitId × Nat)) (s : State) : (testFates l s).regime = s.regime := by
  fun_induction testFates l s <;> simp [*]

@[simp] theorem returnRest_regime (l : List TestJob) (s : State) : (returnRest l s).regime = s.regime := by
  fun_induction returnRest l s <;> simp [*]

@[simp] theorem clearTested_regime (s : State) : (clearTested s).regime = s.regime := by simp [clearTested]
@[simp] theorem restClusters_regime (s : State) : (restClusters s).regime = s.regime := by simp [restClusters]
@[simp] theorem returnTested_regime (s : State) : (returnTested s).regime = s.regime := by simp [returnTested]
@[simp] theorem writeMapOnce_regime (s : State) : (writeMapOnce s).regime = s.regime := by simp [writeMapOnce]
@[simp] theorem proofStep4_regime (r : ProofReport) (s : State) : (proofStep4 r s).regime = s.regime := by simp [proofStep4]
@[simp] theorem proofStep5_regime (r : ProofReport) (s : State) : (proofStep5 r s).regime = s.regime := by simp [proofStep5]
@[simp] theorem setLevel_regime (pl : BitVec 2) (s : State) : (setLevel pl s).regime = s.regime := by simp [setLevel]
@[simp] theorem changeLevel_regime (pl : BitVec 2) (s : State) : (changeLevel pl s).regime = s.regime := by simp [changeLevel]
@[simp] theorem fixCorrection_regime (s : State) : (fixCorrection s).regime = s.regime := by simp [fixCorrection]
@[simp] theorem unmask6_regime (s : State) : (unmask6 s).regime = s.regime := by simp [unmask6]
@[simp] theorem applyCal_regime (skip : List Nat) (s : State) : (applyCal skip s).regime = s.regime := by simp [applyCal]
@[simp] theorem proofFault_regime (s : State) : (proofFault s).regime = s.regime := by simp [proofFault]
@[simp] theorem proofStep6_clock (s : State) : (proofStep6 s).clock = s.clock := by
  simp [proofStep6, clock_regime, regime_turn]

@[simp] theorem endStep_clock (r : ProofReport) (s : State) : (endStep r s).clock = s.clock := by
  unfold endStep
  split
  · exact proofStep1_clock s
  · exact clock_of_regime (by simp)
  · exact clock_of_regime (by simp)
  · exact clock_of_regime (by simp)
  · exact clock_of_regime (by simp)
  · exact proofStep6_clock s

@[simp] theorem endDeferred_regime (r : ProofReport) (s : State) : (endDeferred r s).regime = s.regime := by
  unfold endDeferred
  split <;> simp

@[simp] theorem execProofStepDone_clock (r : ProofReport) (s : State) : answersClock s (execProofStepDone r s) := by
  have hd : (endDeferred r s).clock = s.clock := clock_of_regime (endDeferred_regime r s)
  unfold execProofStepDone
  split <;> simp [hd]

/-! ### SAFELIGHT and TEST -/

@[simp] theorem dropForced_regime (l : List Decision) (s : State) : (dropForced l s).regime = s.regime := by
  fun_induction dropForced l s <;> simp [*]

@[simp] theorem fixerToSafe_regime (s : State) : (fixerToSafe s).regime = s.regime := by
  unfold fixerToSafe
  split <;> simp

@[simp] theorem safeRotation_regime (s : State) : (safeRotation s).regime = s.regime := by simp [safeRotation]

@[simp] theorem fillPositions_regime (l : List Nat) (s : State) : (fillPositions l s).regime = s.regime := by
  induction l generalizing s with
  | nil => rfl
  | cons k r ih =>
    rw [fillPositions, ih]
    repeat' split
    all_goals simp

@[simp] theorem runRotation_regime (s : State) : (runRotation s).regime = s.regime := by
  unfold runRotation
  split <;> simp

@[simp] theorem powerDownClusters_regime (l : List Nat) (s : State) : (powerDownClusters l s).regime = s.regime := by
  fun_induction powerDownClusters l s <;> simp [*]

@[simp] theorem powerDownRest_regime (s : State) : (powerDownRest s).regime = s.regime := by simp [powerDownRest]

@[simp] theorem powerUpClusters_regime (l : List Nat) (s : State) : (powerUpClusters l s).regime = s.regime := by
  fun_induction powerUpClusters l s <;> simp [*]

@[simp] theorem powerUpQuarters_regime (s : State) : (powerUpQuarters s).regime = s.regime := by simp [powerUpQuarters]

@[simp] theorem dropStopped_regime (b : Bool) (l : List RxCell) (s : State) : (dropStopped b l s).2.regime = s.regime := by
  induction l generalizing b s with
  | nil => rfl
  | cons c r ih => simp [dropStopped, ih]

@[simp] theorem stopCells_regime (l : List Nat) (s : State) : (stopCells l s).regime = s.regime := by
  fun_induction stopCells l s
  all_goals dsimp only
  all_goals (repeat' split)
  all_goals simp_all

@[simp] theorem safeChanges_regime (s : State) : (safeChanges s).regime = s.regime := by simp [safeChanges]
@[simp] theorem stopPackets_regime (s : State) : (stopPackets s).regime = s.regime := by
  obtain ⟨u, hu⟩ : ∃ u : State, u = { s with ctl := { s.ctl with mode := .safelight } } := ⟨_, rfl⟩
  obtain ⟨x, hx⟩ : ∃ x, x = sweepAll (waitingPorts u) (stopCells (List.range 64) u) := ⟨_, rfl⟩
  have hxu : x.regime = u.regime := by simp [hx]
  obtain ⟨hpow, hpend, -, hsafe, hdriven⟩ := regime_eq.mp hxu
  have hs : stopPackets s = { x with ctl := { x.ctl with mode := s.ctl.mode } } := by
    rw [hx, hu]
    rfl
  rw [hs, regime_eq, hpow, hpend]
  exact ⟨by rw [hu], by rw [hu], rfl, hsafe.trans (by rw [hu]), hdriven.trans (by rw [hu])⟩

@[simp] theorem endEnters_regime (s : State) : (endEnters s).regime = s.regime := by simp [endEnters]
/-- SAFELIGHT in force: SAFE_ACTIVE rises, and the drive of the outputs stays (R46). -/
theorem safeInForce_regime (c m : Nat) (s : State) :
    (safeInForce c m s).regime = (s.tim.powered, s.pending, .safelight, true, s.ctl.pins.driven) := by
  obtain ⟨x, hx⟩ : ∃ x, x = changeLevel 3 (safeChanges (stopPackets s)) := ⟨_, rfl⟩
  have hxs : x.regime = s.regime := by simp [hx]
  obtain ⟨hpow, hpend, -, -, hdriven⟩ := regime_eq.mp hxs
  simp only [safeInForce, ← hx, endEnters_regime, hwEvent_regime, regime_mk, powerDownRest_regime]
  rw [← hpow, ← hpend, ← hdriven]
  rfl


@[simp] theorem safeInForce_clock (c m : Nat) (s : State) : (safeInForce c m s).clock = s.clock :=
  congrArg (fun x : Nat × List Instr × Mode × Bool × Bool => (x.1, x.2.1)) (safeInForce_regime c m s)

@[simp] theorem execSafelightInForce_clock (s : State) : answersClock s (execSafelightInForce s) := by
  unfold execSafelightInForce
  split <;> simp

@[simp] theorem directMaps_regime (l : List Nat) (s : State) : (directMaps l s).regime = s.regime := by
  fun_induction directMaps l s <;> simp_all

@[simp] theorem applyDeferred_regime (off : List Nat) (s : State) : (applyDeferred off s).regime = s.regime := by
  simp [applyDeferred]

@[simp] theorem queueRetired_regime (s : State) : (queueRetired s).regime = s.regime := by simp [queueRetired]

@[simp] theorem execSafelightSwitchToRun_clock (s : State) : answersClock s (execSafelightSwitchToRun s) := by
  unfold execSafelightSwitchToRun
  dsimp only
  repeat' split
  all_goals simp [clock_regime, regime_turn]

@[simp] theorem logNotRun_regime (l : List TestJob) (s : State) : (logNotRun l s).regime = s.regime := by
  fun_induction logNotRun l s <;> simp [*]

@[simp] theorem execTestInForce_clock (clearOk : Bool) (s : State) : answersClock s (execTestInForce clearOk s) := by
  unfold execTestInForce
  dsimp only
  repeat' split
  all_goals simp [clock_regime, regime_turn]

@[simp] theorem dropTraffic_regime (s : State) : (dropTraffic s).regime = s.regime := by simp [dropTraffic]
@[simp] theorem stopPorts_regime (s : State) : (stopPorts s).regime = s.regime := by simp [stopPorts]

@[simp] theorem execTestEnd_clock (s : State) : answersClock s (execTestEnd s) := by
  unfold execTestEnd
  dsimp only
  split <;> simp [clock_regime, regime_turn]

/-! ### Self test, row by row -/

@[simp] theorem notRun_regime (j : TestJob) (s : State) : (notRun j s).regime = s.regime := by simp [notRun]

@[simp] theorem execDarkslideTestStart_regime (clearOk : Bool) (s : State) : answersRegime s
    (execDarkslideTestStart clearOk s) := by
  unfold execDarkslideTestStart
  split <;> simp

@[simp] theorem stopTest_regime (j : TestJob) (r : TestReport) (s : State) : (stopTest j r s).regime = s.regime := by
  simp [stopTest]

@[simp] theorem execDarkslideUnitResult_regime (r : TestReport) (s : State) : answersRegime s (execDarkslideUnitResult r s) := by
  unfold execDarkslideUnitResult
  split <;> simp

@[simp] theorem askBackground_regime (u : UnitId) (s : State) : (askBackground u s).regime = s.regime := by simp [askBackground]

@[simp] theorem background_regime (n : Nat) (s : State) : (background n s).regime = s.regime := by
  unfold background
  repeat' split
  all_goals simp

@[simp] theorem execBgTestStart_regime (s : State) : answersRegime s (execBgTestStart s) := by
  unfold execBgTestStart
  repeat' split
  all_goals simp

/-! ### Federation, row by row -/

@[simp] theorem commandFrame_regime (c : ControlFrm) (s : State) : (commandFrame c s).regime = s.regime := by
  unfold commandFrame
  dsimp only
  repeat' split
  all_goals simp

@[simp] theorem handControl_regime (c : ControlFrm) (s : State) : (handControl c s).regime = s.regime := by
  unfold handControl
  split <;> simp

@[simp] theorem shadowEnds_regime (b : Bool) (s : State) : (shadowEnds b s).regime = s.regime := by
  unfold shadowEnds
  split <;> simp

@[simp] theorem lateRecord_regime (p : Nat) (s : State) : (lateRecord p s).regime = s.regime := by simp [lateRecord]

@[simp] theorem handOn_regime (o : Option ControlFrm) (s : State) : (handOn o s).regime = s.regime := by
  unfold handOn
  split <;> simp

@[simp] theorem execParseRecordDone_regime (p : PipeNo) (differs : Bool) (s : State) :
    answersRegime s (execParseRecordDone p differs s) := by
  unfold execParseRecordDone
  repeat' split
  all_goals simp

@[simp] theorem fedReceive_regime (hear : Nat → List Byte → State → State) (p : Nat) (body : List Byte) (late : Bool)
    (s : State) (h : (hear p body s).regime = s.regime) : (fedReceive hear p body late s).regime = s.regime := by
  simp [fedReceive, h]

/-! ### Retention -/

@[simp] theorem saveBanks_regime (s : State) : (saveBanks s).regime = s.regime := by simp [saveBanks]
@[simp] theorem loseRest_regime (s : State) : (loseRest s).regime = s.regime := by simp [loseRest]
@[simp] theorem pinChannels_regime (s : State) : (pinChannels s).regime = s.regime := by simp [pinChannels]

@[simp] theorem bankFails_regime (b : Nat) (s : State) : (bankFails b s).regime = s.regime := by
  unfold bankFails
  repeat' split
  all_goals simp

@[simp] theorem retainFault_regime (s : State) : (retainFault s).regime = s.regime := by simp [retainFault]
@[simp] theorem restoreBanks_regime (bad : BitVec 4) (s : State) : (restoreBanks bad s).regime = s.regime := by
  simp [restoreBanks]
@[simp] theorem clusterFails_regime (n : Nat) (s : State) : (clusterFails n s).regime = s.regime := by simp [clusterFails]

@[simp] theorem clustersFail_regime (l : List Nat) (s : State) : (clustersFail l s).regime = s.regime := by
  fun_induction clustersFail l s <;> simp [*]

/-! ### Power, row by row -/

@[simp] theorem execLevelChangeDone_regime (s : State) : answersRegime s (execLevelChangeDone s) := by
  unfold execLevelChangeDone
  split <;> simp

@[simp] theorem discardAll_regime (p : Nat) (l : List TxFrm) (s : State) : (discardAll p l s).2.regime = s.regime := by
  induction l generalizing s with
  | nil => rfl
  | cons f r ih =>
    unfold discardAll
    split <;> simp [ih]

@[simp] theorem emptyQueues_regime (l : List Nat) (s : State) : (emptyQueues l s).regime = s.regime := by
  fun_induction emptyQueues l s
  all_goals dsimp only
  all_goals (repeat' split)
  all_goals simp_all

@[simp] theorem dropPlans_regime (s : State) : (dropPlans s).regime = s.regime := by simp [dropPlans]

@[simp] theorem sleepOk_regime (r : PwrReq) (s : State) : (sleepOk r s).regime = s.regime := by
  unfold sleepOk
  split <;> simp

@[simp] theorem beginEntry_regime (r : PwrReq) (s : State) : (beginEntry r s).regime = s.regime := by simp [beginEntry]

@[simp] theorem execSleepQuiesced_regime (s : State) : answersRegime s (execSleepQuiesced s) := by
  unfold execSleepQuiesced
  split <;> simp

@[simp] theorem dropUps_regime (keep : Nat → Bool) (l : List Nat) (s : State) : (dropUps keep l s).regime = s.regime := by
  fun_induction dropUps keep l s <;> simp [*]

@[simp] theorem clearWakeSeen_regime (l : List Nat) (s : State) : (clearWakeSeen l s).regime = s.regime := by
  fun_induction clearWakeSeen l s <;> simp [*]

@[simp] theorem clustersOff_regime (l : List Nat) (s : State) : (clustersOff l s).regime = s.regime := by
  fun_induction clustersOff l s <;> simp [*]

@[simp] theorem sleepIslands_regime (st : Sleep) (s : State) : (sleepIslands st s).regime = s.regime := by
  unfold sleepIslands
  split <;> simp

@[simp] theorem darkEntry_regime (s : State) : (darkEntry s).regime = s.regime := by simp [darkEntry]

@[simp] theorem countEntry_regime (st : Sleep) (s : State) : (countEntry st s).regime = s.regime := by
  unfold countEntry
  split <;> simp

@[simp] theorem enterState_regime (st : Sleep) (s : State) : (enterState st s).regime = s.regime := by simp [enterState]
@[simp] theorem roundTrip_regime (s : State) : (roundTrip s).regime = s.regime := by simp [roundTrip]

@[simp] theorem execSleepStateReached_clock (s : State) : answersClock s (execSleepStateReached s) := by
  unfold execSleepStateReached
  dsimp only
  repeat' split
  all_goals simp [clock_regime, regime_turn]

@[simp] theorem wakeIslands_regime (s : State) : (wakeIslands s).regime = s.regime := by simp [wakeIslands]

@[simp] theorem deliverHeld_regime (l : List (Nat × WakeFrm)) (s : State) : (deliverHeld l s).regime = s.regime := by
  fun_induction deliverHeld l s <;> simp [*]

@[simp] theorem darkWake_regime (bad : BitVec 4) (s : State) : (darkWake bad s).regime = s.regime := by simp [darkWake]
@[simp] theorem resample_regime (s : State) : (resample s).regime = s.regime := by simp [resample]
@[simp] theorem serveWaiting_regime (s : State) : (serveWaiting s).regime = s.regime := by simp [serveWaiting]

@[simp] theorem wakeDone_clock (bad : BitVec 4) (fails : List Nat) (s : State) : (wakeDone bad fails s).clock = s.clock := by
  unfold wakeDone
  dsimp only
  split <;> simp [clock_regime, regime_turn]

/-! ### A cycle with no command -/

@[simp] theorem countLevels_regime (n : Nat) (s : State) : (countLevels n s).regime = s.regime := by
  refine regime_of_rest ?_
  simp only [countLevels]
  rw [latchBanks_rest irqEdge irqEdge_rest, lpAddAll_rest]


/-! ### A step moves POWERED_NS by the passing of time only -/

theorem powered_of_clock {s t : State} (h : t.clock = s.clock) : t.tim.powered = s.tim.powered := congrArg Prod.fst h

/-- The commands that can end in another mode or move SAFE_ACTIVE or the drive of the outputs. -/
def turnsRegime : Instr → Bool
  | .corePgRise | .corePgFall | .dieResetAssert | .dieResetRelease _ | .vddioLow | .vddioRise | .proofStepDone _
  | .safelightInForce | .safelightSwitchToRun | .testInForce _ | .testEnd | .sleepStateReached | .wakeComplete _ _ => true
  | _ => false

/-- Every other command answers the regime it found. -/
theorem exec_regime (c : Instr) (s : State) (h : turnsRegime c = false) : answersRegime s (exec c s) := by
  cases c with
  | corePgRise | corePgFall | dieResetAssert | dieResetRelease | vddioLow | vddioRise | proofStepDone | safelightInForce
  | safelightSwitchToRun | testInForce | testEnd | sleepStateReached | wakeComplete => cases h
  | _ =>
    simp [exec,
      execInstallRxSa, execInstallTxSa, execRemoveRxSa, execRemoveTxSa, execSaRead, execEncodingSaWrite,
      execPauseTimerExpiry, execMacTableWrite, execMacTableRead, execCalWriteOverlay, execNvRd, execCvJobStart,
      execCvJobAbort, execDbTx, execDbCq, execDbStableTx, execFunctionReset, execResetDone, execCtxRead, execCtxWrite,
      execAgingSample, execLockstepMiscompare, execJournalHourRollover, execJrnlRd, execClaim, execComplete, execPendSet,
      execPendClr, execMaskSet, execMaskClr, execRouteRead, execRouteWrite, execEqCiWrite, execEqCfgWrite,
      execMemStatusChange, execRegionValidate, execRegionInvalidate, execLoupeSnap, execLoupeCfgWrite, execLoupeClr,
      execBwWindowEnd, execShutterArm, execShutterDisarm, execTslogRdWrite, execTxCellAccept, execXoffRequestChange,
      execFcRefresh, execPauseWdogTrip, execVerifyTimer, execTimeBoundExceeded, execMemberRd, execLaneStatusChange,
      execReconfigGo, execLockLoss, execRemoteFault, execQuarterOff, execQuarterOn, execQuarterIdleTimeout, execSpreadDeal,
      execFlowkeyReadyChange, execPipeStall, execReorderRelease, execGapTimeout, execRxCreditGrant, execPipeTest,
      execClassRowRead, execHashSeedWrite, execAdjStep, execAdjSlew, execAdjReport, execAdjSetAtPps, execTickIncrCommit,
      execSlewDone, execLockBoundReached, execTimeDisjointCleared, execStepArmExpiry, execPpsEdge, execPpsTimeout,
      execRefTimeoutExpiry, execTimeRefLoss, execTimeRefReturn, execTimeAcqLoss, execTimeAcqRegained,
      execDistributionDelayMeasure, execPadHoldClr, execRetainAck, execSlkPoll, execSlkCsTimeout, execSlkWdogExpiry,
      execSafetyCtrlWrite, execContactSheet, execRegWrite, execSetLevel, execSleep, execSafelightEnter, execSafelightExit,
      execTestStart, execTestAbort, execTimeStepArm, execForceRepairMigrate, execForceRepairReturn, execForceRepairCondemn,
      execForceRepairReinstate, execRestoreFactory, execVersionLoad, execVersionCommitNow, execVersionCommitAtTime,
      execVersionDiscard, execSlotRetire, execRegisterWrite, execEvtSet, execEvtClr, execEvtMaskSet, execEvtMaskClr,
      execEvtCntSelWrite,       execAlarmInRise, execAlarmInFall, execHeartbeatReceive, execRelayedCommand, execRelayedResponse,
      execWakeEvent, execThermWarn]

/-- Every command but CORE_PG_RISE answers the clock it found. -/
theorem exec_clock (c : Instr) (s : State) (h : c ≠ .corePgRise) : answersClock s (exec c s) := by
  cases hc : turnsRegime c with
  | false => exact fun t ht => clock_of_regime (exec_regime c s hc t ht)
  | true =>
    cases c with
    | corePgRise => exact absurd rfl h
    | dieResetAssert | dieResetRelease | corePgFall | vddioLow | vddioRise | wakeComplete =>
      simp [exec, execDieResetAssert, execDieResetRelease, execCorePgFall, execVddioLow, execVddioRise, execWakeComplete]
    | testEnd => exact execTestEnd_clock s
    | proofStepDone r => exact execProofStepDone_clock r s
    | safelightInForce => exact execSafelightInForce_clock s
    | safelightSwitchToRun => exact execSafelightSwitchToRun_clock s
    | testInForce b => exact execTestInForce_clock b s
    | sleepStateReached => exact execSleepStateReached_clock s
    | _ => cases hc

theorem corePgRise_powered {s t : State} (h : exec .corePgRise s = .next t) :
    t.tim.powered = s.tim.powered ∨ t.tim.powered = 0 := by
  obtain rfl := Host.Outcome.next.inj h
  split
  · exact .inr (powered_of_clock (leaveHold_clock _))
  · exact .inl rfl

/-- The state in which a cycle of the time island has been counted. -/
def cycleCounted (s : State) : State := { s with tim := { s.tim with powered := (s.tim.powered + 1) % 2 ^ 64 } }

/-- The cycle is counted first; the rest of a tick moves time of day and its registers. -/
theorem timeTick_powered (s : State) :
    (timeTick s).tim.powered = (s.tim.powered + (if s.tim.on then 1 else 20)) % 2 ^ 64 := by
  unfold timeTick
  split
  · rw [← cycleCounted]
    exact powered_of_clock (s := cycleCounted s) (clock_of_regime (by simp))
  · rfl

theorem idle_powered (s : State) : (idle s).tim.powered = (s.tim.powered + (if s.tim.on then 1 else 20)) % 2 ^ 64 := by
  have h : (idle s).regime = (timeTick s).regime := by simp [idle]
  exact (powered_of_clock (clock_of_regime h)).trans (timeTick_powered s)

/-- Settles O40, command by command and for the cycle that passes on an empty queue. -/
theorem poweredNsCounts : Obligations.PoweredNsCounts := by
  intro s t h
  refine ⟨fun c r hp hc => ?_, fun r hp => ?_, fun hp => ?_⟩ <;> rw [step, hp] at h
  · exact powered_of_clock (s := s.popped) (exec_clock c s.popped hc t h)
  · exact corePgRise_powered (s := s.popped) h
  · obtain rfl := Host.Outcome.next.inj h
    exact idle_powered s

end Sys2Proof.Machine
end

section

namespace Sys2Proof.Machine

/-! ## TEST_START and TEST_ABORT over the whole state (O36) -/

/-! ### A command that its place takes, and how it ends there (R69-R72) -/

section
variable {q : Req} {s v w : State} {l : List CmdPort} {res : Byte} {d : List Byte} (hf : findsFree q s)
  (hl : permitted (getB s (adr pgCmd 0x0A0) 0) q.code = some l) (hp : l.contains q.port = true) (hc : q.code ≠ cSheet)

include hf hl hp hc

/-- A command that goes on, its port's place taken. -/
theorem taken_runs (hg : gateOf (placed q s) q = .go) (ha : argsOk q = true) (hv : runCmd q (running q s) = v)
    (hcmd : v.cmd = (running q s).cmd) (hb : v.fed.outbox = []) : settle (takeCommand q s) = v :=
  settle_takes hf hl hp hc hg ha hv (running_quiet hf.idle hcmd) hb

variable (hq : q.port = .S ∨ q.port = .M)

include hq

/-- A command that ends within its arrival. -/
theorem taken_ends (hg : gateOf (placed q s) q = .go) (ha : argsOk q = true)
    (hv : runCmd q (running q s) = finishReq q res d w) (hcmd : w.cmd = (running q s).cmd) (hb : w.fed.outbox = []) :
    settle (takeCommand q s) = finishReq q res d w := by
  refine settle_takes hf hl hp hc hg ha hv (ended_quiet hq hf.idle hf.wait hcmd res d) ?_
  rw [finishReq_frame hq]
  exact hb

omit hl hp hc in
/-- A command that ends before it has started leaves its port free. -/
theorem placed_ended_quiet (hcmd : w.cmd = (placed q s).cmd) : (finishReq q res d w).portsQuiet := by
  intro r
  by_cases hr : r = q.port
  · rw [hr, finishReq_port hq, portWork, portOf_congr hcmd, placed, portOf_setPort_same]
    simp only [hf.wait]
  · rw [finishReq_other hq _ _ _ hr, portOf_congr hcmd, placed_other hr]
    exact portsQuiet_of_idle hf.idle r

/-- A command that step 6 or step 7 of its checks turns away (R69). -/
theorem taken_refused (hv : tryRun q (placed q s) = finishReq q res d w) (hcmd : w.cmd = (placed q s).cmd)
    (hb : w.fed.outbox = []) : settle (takeCommand q s) = finishReq q res d w := by
  have hi := hf.idle
  rw [takeCommand_places hf.served hl hp hf.tag hc hf.exec hf.wait hf.flight]
  refine settle_tries (p := q.port) ?_ ?_ ?_ ?_ placed_exec hv (placed_ended_quiet hf hq hcmd) ?_
  · rw [placed_frame]
    exact hf.served
  · rw [placed, setPort_sheets]
    exact hi.1
  · rw [placed_frame]
    exact hi.2.2.2.2.2.2.1
  · intro r hr
    rw [placed_other hr]
    exact portsQuiet_of_idle hi r
  · rw [finishReq_frame hq]
    exact hb

end

theorem ends_of_refused {q : Req} {s w : State} {a : Arrival} (hq : q.port = .S ∨ q.port = .M) (hs : q.seq = a.seq)
    (hcmd : w.cmd = (placed q s).cmd) (res : Byte) (d : List Byte) :
    commandEnds (finishReq q res d w) q.port a q.code res (d.take 64) := by
  rw [commandEnds, finishReq_port hq, portOf_congr hcmd, placed, portOf_setPort_same, ← hs]
  exact ⟨findTag_storeResult res d _, rfl⟩

/-! ### The request of a row -/

/-- The request of a command row that names no code of its own. -/
def rowReq (p : CmdPort) (c : BitVec 16) (a : Arrival) (args : List Byte) : Req :=
  { port := p, code := c, seq := a.seq, args := args, ingress := a.ingress, source := a.source, relayed := none
    sheetReq := false }

/-- A fresh arrival on port S meets the state as it is (R68). -/
theorem arriveRow_onS {s : State} {a : Arrival} (hf : freshAt s .S a) (c : BitVec 16) {args : List Byte}
    (hlen : args.length ≤ 256) : arriveRow a c args s = settle (takeCommand (rowReq .S c a args) s) := by
  obtain ⟨hport, hwhole, hcode, -⟩ := hf
  have hdec : (a.whole && decide (args.length ≤ 256)) = true := by rw [hwhole, decide_eq_true hlen]; rfl
  rw [arriveRow, hport]
  simp only [hdec, if_true]
  rw [requestOf_code hcode]
  rfl

theorem findsFree_onS {s : State} {a : Arrival} (hf : freshAt s .S a) (c : BitVec 16) (args : List Byte) :
    findsFree (rowReq .S c a args) s := findsFree_of_fresh hf (arrivesFrom_refl s) rfl rfl

/-- The gate of Table 3.6 for a command that mode and pending requests let through. -/
theorem gateOf_accepted {q : Req} {s : State} (hc : q.code ≠ cRegRead ∧ q.code ≠ cRegWrite ∧ q.code ≠ cTestStart
    ∧ q.code ≠ cRestore) (hv : modeVerdict s.ctl.halted s.ctl.mode q.code = .accept) (he : s.pwr.entering = false) :
    gateOf (placed q s) q = .go := by
  obtain ⟨h1, h2, h3, h4⟩ := hc
  rw [gateOf, if_neg h1, if_neg h2, modeGate, placed_frame]
  simp [hv, he, h3, h4]

/-! ### TEST_START and TEST_ABORT (R60, R361, R362) -/

/-- The command ports have no part in the choice of spares (R60). -/
theorem sparesFor_cmd (s : State) (c : Cmd) (l : List TestJob) (u : List UnitId) :
    sparesFor { s with cmd := c } l u = sparesFor s l u := by
  have hs : ∀ d f, chooseSpare { s with cmd := c } d f = chooseSpare s d f := fun _ _ => rfl
  have hn : ∀ x, needsSpare { s with cmd := c } x = needsSpare s x := fun _ => rfl
  induction l generalizing u with
  | nil => rfl
  | cons j r ih => simp only [sparesFor, hs, hn, ih]

theorem testAllowed_cmd (s : State) (c : Cmd) (l : List TestJob) : testAllowed { s with cmd := c } l = testAllowed s l := by
  rw [testAllowed, sparesFor_cmd]
  rfl

/-- In RUN a TEST_START whose arguments are good goes on where R60 and R361 allow its list. -/
theorem gateOf_testStart {q : Req} {s : State} (hc : q.code = cTestStart) (hm : s.ctl.mode = .run)
    (he : s.pwr.entering = false) : gateOf (placed q s) q = match testArgs q.args with
      | some x => if testAllowed s x.1 then .go else .reject
      | none => .go := by
  have hv : modeVerdict s.ctl.halted .run cTestStart = .accept := rfl
  have h1 : cTestStart ≠ cRegRead := by decide
  have h2 : cTestStart ≠ cRegWrite := by decide
  rw [gateOf, hc, if_neg h1, if_neg h2, modeGate, placed_frame, hc]
  simp [hv, hm, he, testAllowed_cmd] <;> rfl

theorem runCmd_testStart {q : Req} {l : List TestJob} {b : Bool} (h : q.code = cTestStart)
    (ha : testArgs q.args = some (l, b)) (s : State) : runCmd q s = startTest q.port l b s := by
  rw [runCmd, if_pos h, ha]

theorem runCmd_testAbort {q : Req} (h : q.code = cTestAbort) (s : State) : runCmd q s = abortTest q.port s := by
  rw [runCmd, if_neg (by rw [h]; decide), if_pos h]

theorem argsOk_testStart {q : Req} (h : q.code = cTestStart) : argsOk q = (testArgs q.args).isSome := by
  simp [argsOk, h, cTestStart, cRegRead, cRegWrite, cSetLevel, cSleep, cSafeExit]

/-- A command without arguments of its own. -/
theorem argsOk_empty {q : Req} (h : q.code ∈ [cTestAbort, cStepArm, cSafeEnter]) (ha : q.args = []) : argsOk q = true := by
  simp only [List.mem_cons, List.not_mem_nil, or_false] at h
  rcases h with h | h | h <;> rw [argsOk, h, ha] <;> rfl

/-- A register below the pages of the clusters is none that a lost key shows in. -/
theorem showNoKeys_below {b : Nat} (hb : b < adr (pgCl 0 0) 0) (c : Nat) (s : State) :
    getReg (showNoKeys c s) b = getReg s b := by
  have ht : ∀ i, b ≠ txScA c i ∧ b ≠ txScA c i + 0x10 ∧ b ≠ txScA c i + 0x14 ∧ b ≠ rxScA c i := by
    intro i
    simp only [txScA, rxScA, adr, pgCl] at hb ⊢
    omega
  unfold showNoKeys
  refine (foldl_keeps (getReg · b) _ (fun x i => ?_) _ _).trans (foldl_keeps (getReg · b) _ (fun x i => ?_) _ _)
  · simp only
    split
    · rfl
    · exact getReg_setReg_other _ _ (ht i).2.2.2
  · simp only [setPair]
    rw [getReg_setReg_other _ _ (ht i).2.2.1, getReg_setReg_other _ _ (ht i).2.1]
    split
    · rfl
    · exact getReg_setReg_other _ _ (ht i).1

theorem retire_below {b : Nat} (hb : b < adr (pgCl 0 0) 0) (u : UnitId) (c : Nat) (s : State) :
    getReg (retire u c s) b = getReg s b := by
  have hk : ∀ n x, getReg (clusterDown n x) b = getReg x b := by
    intro n x
    show getReg (clearKeys n (powerCluster n false x)) b = getReg x b
    unfold clearKeys
    split
    · simp only
      split
      · exact showNoKeys_below hb _ _
      · rfl
    · rfl
  unfold retire
  simp only
  split
  · rfl
  · show getReg (if u.type = 1 then _ else _) b = _
    split
    · exact hk _ _
    · rfl

/-- Units that leave service keep registers below the clusters' pages, and what does not belong to units. -/
theorem leaveService_keeps {b : Nat} (hb : b < adr (pgCl 0 0) 0) (s : State) (l : List TestJob) (x : State) :
    getReg (leaveService s l x) b = getReg x b ∧ (leaveService s l x).stand = x.stand := by
  induction l generalizing x with
  | nil => exact ⟨rfl, rfl⟩
  | cons j r ih =>
    have hoff : getReg (handOff j.unit x) b = getReg x b ∧ (handOff j.unit x).stand = x.stand := by
      unfold handOff
      split <;> exact ⟨rfl, rfl⟩
    obtain ⟨h1, h2⟩ := ih (if 3 ≤ j.unit.type then x else if needsSpare s j.unit then handOff j.unit x
      else if inService s j.unit then retire j.unit 0 x else x)
    rw [leaveService, h1, h2]
    split
    · exact ⟨rfl, rfl⟩
    · split
      · exact hoff
      · split
        · exact ⟨retire_below hb _ _ _, retire_stand _ _ _⟩
        · exact ⟨rfl, rfl⟩

/-- TEST_START without SCAN holds the list, the port and the target (R361). -/
theorem startTest_holds {p : CmdPort} {l : List TestJob} {u v : State} (hv : v = startTest p l false u) :
    v.stand = u.stand ∧ v.dark.list = l ∧ v.dark.testPort = some p ∧ v.dark.results = [] ∧ v.ctl.target = some .test
      ∧ getReg v (darkA 0x084) = word (l.length * 256) := by
  obtain ⟨x, hx⟩ : ∃ x, x = setReg (darkA 0x084) (word (l.length * 256)) u := ⟨_, rfl⟩
  obtain ⟨hreg, hst⟩ := leaveService_keeps (b := darkA 0x084) (by decide) u l x
  have hval : getReg x (darkA 0x084) = word (l.length * 256) := by rw [hx, getReg_setReg_same]
  have hs : startTest p l false u = { leaveService u l x with
      dark := { (leaveService u l x).dark with list := l, scan := false, testPort := some p, results := [], ending := false }
      ctl := { (leaveService u l x).ctl with target := some .test } } := by
    rw [startTest, hx]
    simp
  rw [hv, hs]
  exact ⟨hst.trans (by rw [hx]; rfl), rfl, rfl, rfl, rfl, hreg.trans hval⟩

theorem regs_rest (a : Nat) (v : Word) (u : State) : (setReg a v u).rest = u.rest := rfl
theorem rejectByMode_rest (p : CmdPort) (c : Nat) (u : State) : (rejectByMode p c u).rest = u.rest := by
  unfold rejectByMode
  obtain ⟨x, hx⟩ : ∃ x, x = setReg (adr pgMode 0x094)
        (word (2 ^ 31 + portCode p * 2 ^ 24 + modeCode u.ctl.mode * 2 ^ 16 + c)) u := ⟨_, rfl⟩
  rw [← hx, hwEvent_rest, addF_rest]
  exact (congrArg State.rest hx).trans (regs_rest _ _ _)

section
variable {s : State} {a : Arrival} {args : List Byte} {l : List TestJob} (hf : freshAt s .S a)

include hf

theorem testStart_holds (hlen : args.length ≤ 256) (hm : s.ctl.mode = .run) (ha : testArgs args = some (l, false))
    (hok : testAllowed s l = true) :
    ∃ t, exec (.testStart a args) s = .next t ∧ commandRuns t .S a cTestStart ∧ t.dark.list = l
      ∧ t.dark.testPort = some .S ∧ t.dark.results = [] ∧ t.ctl.target = some .test ∧ t.ctl.mode = .run
      ∧ getReg t (darkA 0x084) = word (l.length * 256) := by
  obtain ⟨q, hq⟩ : ∃ q, q = rowReq .S cTestStart a args := ⟨_, rfl⟩
  have hqa : q.args = args := by rw [hq]; rfl
  have hqc : q.code = cTestStart := by rw [hq]; rfl
  have hqp : q.port = .S := by rw [hq]; rfl
  have hfree := findsFree_onS hf cTestStart args
  have hrow := arriveRow_onS hf cTestStart hlen
  rw [← hq] at hfree hrow
  obtain ⟨v, hv⟩ : ∃ v, v = startTest .S l false (running q s) := ⟨_, rfl⟩
  obtain ⟨hstand, hlist, hport, hres, htgt, hreg⟩ := startTest_holds hv
  have hgate := gateOf_testStart hqc hm hf.2.2.2.2.2.2.2.2.2.2.1
  rw [hqa, ha] at hgate
  simp only [hok, if_true] at hgate
  have hrun : runCmd q (running q s) = v := by
    rw [runCmd_testStart hqc (by rw [hqa]; exact ha), hv, hq]
    rfl
  simp only [State.stand, Prod.mk.injEq] at hstand
  obtain ⟨⟨hmode, -⟩, hcmd, -, hbox⟩ := hstand
  have hset := taken_runs (l := [.H, .S, .M]) hfree (by rw [hq]; rfl) (by rw [hqp]; decide) (by rw [hqc]; decide) hgate
    (by rw [argsOk_testStart hqc, hqa, ha]; rfl) hrun hcmd
    (hbox.trans (by rw [running_frame]; exact hfree.idle.2.2.2.2.2.2.2))
  have hruns := runs_of_running (q := q) (a := a) (by rw [hq]; rfl) hcmd
  rw [hq] at hruns
  exact ⟨v, by rw [← hset, ← hrow]; rfl, hruns, hlist, hport, hres, htgt,
    hmode.trans (by rw [running_frame]; exact hm), hreg⟩

theorem testStart_rejected {b : Bool} (hlen : args.length ≤ 256) (hm : s.ctl.mode = .run)
    (ha : testArgs args = some (l, b)) (hno : testAllowed s l = false) :
    ∃ t, exec (.testStart a args) s = .next t ∧ commandEnds t .S a cTestStart 0x01 [] ∧ t.dark.list = s.dark.list
      ∧ t.ctl.mode = .run ∧ t.dataPath = s.dataPath := by
  obtain ⟨q, hq⟩ : ∃ q, q = rowReq .S cTestStart a args := ⟨_, rfl⟩
  have hqa : q.args = args := by rw [hq]; rfl
  have hqc : q.code = cTestStart := by rw [hq]; rfl
  have hqp : q.port = .S := by rw [hq]; rfl
  have hfree := findsFree_onS hf cTestStart args
  have hrow := arriveRow_onS hf cTestStart hlen
  rw [← hq] at hfree hrow
  have hgate := gateOf_testStart hqc hm hf.2.2.2.2.2.2.2.2.2.2.1
  rw [hqa, ha] at hgate
  simp only [hno, if_false, Bool.false_eq_true] at hgate
  obtain ⟨w, hw⟩ : ∃ w, w = rejectByMode q.port q.code.toNat (placed q s) := ⟨_, rfl⟩
  have hrest : w.rest = (placed q s).rest := (congrArg State.rest hw).trans (rejectByMode_rest _ _ _)
  have htry : tryRun q (placed q s) = finishReq q rStateReject [] w := by
    rw [tryRun, hgate, hw]
    simp only [rejectCmd]
    rw [if_neg (by rw [hqc]; decide)]
  have hset := taken_refused (l := [.H, .S, .M]) hfree (by rw [hq]; rfl) (by rw [hqp]; decide) (by rw [hqc]; decide)
    (.inl hqp) htry (rest_cmd hrest) (by rw [rest_fed hrest, placed_frame]; exact hfree.idle.2.2.2.2.2.2.2)
  have hends := ends_of_refused (q := q) (a := a) (.inl hqp) (by rw [hq]; rfl) (rest_cmd hrest) rStateReject []
  rw [hqp, hqc] at hends
  refine ⟨finishReq q rStateReject [] w, by rw [← hset, ← hrow]; rfl, hends, ?_, ?_, ?_⟩
  · rw [finishReq_frame (.inl hqp)]
    refine (congrArg (fun x => x.dark.list) hrest : w.dark.list = (placed q s).dark.list).trans ?_
    rw [placed_frame]
  · rw [finishReq_frame (.inl hqp)]
    exact (rest_mode hrest).trans (by rw [placed_frame]; exact hm)
  · rw [finishReq_frame (.inl hqp)]
    exact (dataPath_of_rest hrest).trans (by rw [placed_frame]; rfl)

theorem testStart_badArgs (hlen : args.length ≤ 256) (hm : s.ctl.mode = .run) (ha : testArgs args = none) :
    ∃ t, exec (.testStart a args) s = .next t ∧ commandEnds t .S a cTestStart 0x04 [] ∧ t.dark = s.dark ∧ t.ctl = s.ctl
      ∧ t.dataPath = s.dataPath := by
  obtain ⟨q, hq⟩ : ∃ q, q = rowReq .S cTestStart a args := ⟨_, rfl⟩
  have hqa : q.args = args := by rw [hq]; rfl
  have hqc : q.code = cTestStart := by rw [hq]; rfl
  have hqp : q.port = .S := by rw [hq]; rfl
  have hfree := findsFree_onS hf cTestStart args
  have hrow := arriveRow_onS hf cTestStart hlen
  rw [← hq] at hfree hrow
  have hgate := gateOf_testStart hqc hm hf.2.2.2.2.2.2.2.2.2.2.1
  rw [hqa, ha] at hgate
  have htry : tryRun q (placed q s) = finishReq q rBadArgs [] (placed q s) := by
    rw [tryRun, hgate, argsOk_testStart hqc, hqa, ha]
    rfl
  have hset := taken_refused (l := [.H, .S, .M]) hfree (by rw [hq]; rfl) (by rw [hqp]; decide) (by rw [hqc]; decide)
    (.inl hqp) htry rfl (by rw [placed_frame]; exact hfree.idle.2.2.2.2.2.2.2)
  have hends := ends_of_refused (q := q) (s := s) (w := placed q s) (a := a) (.inl hqp) (by rw [hq]; rfl) rfl rBadArgs []
  rw [hqp, hqc] at hends
  refine ⟨finishReq q rBadArgs [] (placed q s), by rw [← hset, ← hrow]; rfl, hends, ?_, ?_, ?_⟩ <;>
    rw [finishReq_frame (.inl hqp), placed_frame]
  rfl

end


/-- Where no unit is under test and the list alone waits, ending TEST touches no unit (R362). -/
theorem abortTest_ends {p : CmdPort} {u : State} (hnow : u.dark.now = none)
    (hw : u.dark.wait.all (fun j => j.origin == 0) = true) :
    ∃ w, abortTest p u = finishCmd p rOk [] w ∧ w.cmd = u.cmd ∧ w.fed = u.fed ∧ w.dark.wait = [] ∧ w.dark.ending = true
      ∧ w.ctl.target = (if u.ctl.entry = none then some .proof else u.ctl.target) ∧ w.ctl.mode = u.ctl.mode
      ∧ w.ctl.pins.scanGate = false ∧ w.dataPath = u.dataPath := by
  have hcut : cutTest 2 u = u := by rw [cutTest, hnow]
  have hnone : u.dark.wait.filter (fun j => j.origin != 0) = [] := by
    rw [List.filter_eq_nil_iff]
    intro j hj
    have h := List.all_eq_true.mp hw j hj
    simpa using h
  have hdrop : dropWaiting u
      = { u with dark := { u.dark with wait := u.dark.wait.filter (fun j => j.origin == 0) } } := by
    rw [dropWaiting]
    simp only [hnone]
    rfl
  obtain ⟨x, hx⟩ : ∃ x, x = dropWaiting u := ⟨_, rfl⟩
  have hgate : (closeGate x).cmd = x.cmd ∧ (closeGate x).fed = x.fed ∧ (closeGate x).ctl.entry = x.ctl.entry
      ∧ (closeGate x).ctl.target = x.ctl.target ∧ (closeGate x).ctl.mode = x.ctl.mode
      ∧ (closeGate x).ctl.pins.scanGate = false ∧ (closeGate x).dataPath = x.dataPath := by
    unfold closeGate
    split
    · exact ⟨rfl, rfl, rfl, rfl, rfl, rfl, rfl⟩
    · rename_i h
      exact ⟨rfl, rfl, rfl, rfl, rfl, Bool.eq_false_iff.mpr h, rfl⟩
  obtain ⟨h1, h2, h3, h4, h5, h6, h7⟩ := hgate
  have hxu : x = { u with dark := x.dark } := by rw [hx, hdrop]
  refine ⟨endTest { closeGate x with dark := { (closeGate x).dark with wait := [] } }, by rw [abortTest, hcut, ← hx],
    h1.trans (by rw [hxu]), h2.trans (by rw [hxu]), rfl, rfl, ?_, ?_, h6, ?_⟩
  · show (match (closeGate x).ctl.entry with
      | some _ => (closeGate x).ctl.target
      | none => some .proof) = _
    rw [h3, h4, hxu]
    cases u.ctl.entry <;> rfl
  · exact h5.trans (by rw [hxu])
  · exact h7.trans ((congrArg State.dataPath hxu).trans rfl)

theorem testAbort_ends {s : State} {a : Arrival} (hf : freshAt s .S a) (hm : s.ctl.mode = .test) (hnow : s.dark.now = none)
    (hw : s.dark.wait.all (fun j => j.origin == 0) = true) :
    ∃ t, exec (.testAbort a []) s = .next t ∧ commandEnds t .S a cTestAbort 0x00 [] ∧ t.dark.wait = []
      ∧ t.dark.ending = true ∧ t.ctl.target = (if s.ctl.entry = none then some .proof else s.ctl.target)
      ∧ t.ctl.mode = .test ∧ t.ctl.pins.scanGate = false ∧ t.dataPath = s.dataPath := by
  obtain ⟨q, hq⟩ : ∃ q, q = rowReq .S cTestAbort a [] := ⟨_, rfl⟩
  have hqc : q.code = cTestAbort := by rw [hq]; rfl
  have hqp : q.port = .S := by rw [hq]; rfl
  have hfree := findsFree_onS hf cTestAbort []
  have hrow := arriveRow_onS (args := []) hf cTestAbort (by decide)
  rw [← hq] at hfree hrow
  obtain ⟨u, hu⟩ : ∃ u, u = running q s := ⟨_, rfl⟩
  have huf := hu.trans (running_frame q s)
  obtain ⟨w, hend, hcmd, hfed, hwait, hending, htgt, hmode, hgate, hpath⟩ := abortTest_ends (p := .S) (u := u)
    (by rw [huf]; exact hnow) (by rw [huf]; exact hw)
  have hrun : runCmd q (running q s) = finishReq q rOk [] w := by
    rw [runCmd_testAbort hqc, ← hu, hqp, hend]
    have h := finishCmd_running (hcmd.trans (by rw [hu])) rOk []
    rwa [hqp] at h
  have hset := taken_ends (l := [.H, .S, .M]) hfree (by rw [hq]; rfl) (by rw [hqp]; decide) (by rw [hqc]; decide) (.inl hqp)
    (gateOf_accepted (by rw [hqc]; decide) (by rw [hqc, hm]; rfl) hf.2.2.2.2.2.2.2.2.2.2.1)
    (argsOk_empty (by rw [hqc]; decide) (by rw [hq]; rfl)) hrun (hcmd.trans (by rw [hu]))
    (by rw [hfed, huf]; exact hfree.idle.2.2.2.2.2.2.2)
  have hends := ends_of_finished (q := q) (s := s) (u := w) (a := a) (.inl hqp) (by rw [hq]; rfl) (hcmd.trans (by rw [hu])) rOk []
  rw [hqp, hqc] at hends
  refine ⟨finishReq q rOk [] w, by rw [← hset, ← hrow]; rfl, hends, ?_, ?_, ?_, ?_, ?_, ?_⟩ <;>
    rw [finishReq_frame (.inl hqp)]
  · exact hwait
  · exact hending
  · exact htgt.trans (by rw [huf])
  · exact hmode.trans (by rw [huf]; exact hm)
  · exact hgate
  · exact hpath.trans (by rw [huf]; rfl)

/-- Settles O36: each command is taken on its arrival at port S, and what it is answered or starts follows its checks. -/
theorem testCommands : Obligations.TestCommands := by
  intro s a args hf hlen
  exact ⟨fun _ hm ha hok => testStart_holds hf hlen hm ha hok, fun _ _ hm ha hno => testStart_rejected hf hlen hm ha hno,
    fun hm ha => testStart_badArgs hf hlen hm ha, fun hm hnow hw => testAbort_ends hf hm hnow hw⟩

end Sys2Proof.Machine

end

section

namespace Sys2Proof.Machine

/-! ## The commands of SAFELIGHT over the safety link (O35) -/

/-! ### What a command meets that comes over the safety link (R74, R75) -/

/-- What a link frame records and drives: two registers of PG_SAFETY, the pins of the link and its watchdog. -/
structure metOnLink (s t : State) : Prop where
  ctl : t.ctl = { s.ctl with
    pins := { s.ctl.pins with csLow := false }
    wdogExpired := t.ctl.wdogExpired, wdogSince := t.ctl.wdogSince, faults := t.ctl.faults }
  tim : t.tim = s.tim
  prt : t.prt = s.prt
  fix : t.fix = s.fix
  pwr : t.pwr = s.pwr
  nv : t.nv = s.nv
  fed : t.fed = s.fed
  dark : t.dark = s.dark
  path : t.dataPath = s.dataPath
  regs : ∀ b, b < adr pgSafety 0 ∨ adr (pgSafety + 1) 0 ≤ b → getReg t b = getReg s b

/-- Out of STILL and not entering SLEEP no wake is noted (R66, R327). -/
theorem noteWake_awake {s : State} (hm : s.ctl.mode ≠ .still) (he : s.pwr.entering = false) (c l : Nat) :
    noteWake c l s = s := by
  simp [noteWake, hm, he]

theorem linkFrame_meets {s y : State} (hy : arrivesFrom s y)
    (hctl : y.ctl = { s.ctl with pins := { s.ctl.pins with csLow := false } }) (htim : y.tim = s.tim)
    (hprt : y.prt = s.prt) (hfix : y.fix = s.fix) (hwin : y.win = s.win) (hm : s.ctl.mode ≠ .still)
    (he : s.pwr.entering = false) (hf : s.pwr.flight = none) :
    arrivesFrom s (linkFrame y) ∧ metOnLink s (linkFrame y) := by
  have hyt := linkFrame_arrives (s := y) (by rw [hy.mode]; exact hm) (by rw [hy.pwr]; exact he) (by rw [hy.pwr]; exact hf)
  obtain ⟨u, hu⟩ : ∃ u, u = setPair (adr pgSafety 0x094) y.tim.powered (addF (adr pgSafety 0x088) 31 0 1 y) := ⟨_, rfl⟩
  obtain ⟨x, hx⟩ : ∃ x : State, x = { u with ctl := { u.ctl with
    wdogExpired := false, wdogSince := if wdogCounts u then some u.tim.powered else none
    faults := { u.ctl.faults with wdog := false } } } := ⟨_, rfl⟩
  have hxf : x.pwr.flight = none := by rw [hx, hu]; exact (congrArg Pwr.flight hy.pwr).trans hf
  have hxm : x.ctl.mode ≠ .still := by rw [hx, hu]; exact fun h => hm (hy.mode.symm.trans h)
  have hxe : x.pwr.entering = false := by rw [hx, hu]; exact (congrArg Pwr.entering hy.pwr).trans he
  have hl : linkFrame y = x := by
    have h : linkFrame y = noteWake 2 14 (cancelSleep x) := by rw [hx, hu]; rfl
    rw [h, cancelSleep_none hxf, noteWake_awake hxm hxe]
  have hxy : x.tim = y.tim ∧ x.prt = y.prt ∧ x.fix = y.fix ∧ x.ctl = { y.ctl with
      wdogExpired := x.ctl.wdogExpired, wdogSince := x.ctl.wdogSince, faults := x.ctl.faults } := by
    rw [hx, hu]
    exact ⟨rfl, rfl, rfl, rfl⟩
  obtain ⟨h1, h2, h4, h3⟩ := hxy
  have hreg : ∀ b, b < adr pgSafety 0 ∨ adr (pgSafety + 1) 0 ≤ b → getReg x b = getReg y b := by
    intro b hb
    have hne : b ≠ adr pgSafety 0x088 ∧ b ≠ adr pgSafety 0x094 ∧ b ≠ adr pgSafety 0x094 + 4 := by
      simp only [adr, pgSafety] at hb ⊢
      omega
    have hxu : getReg x b = getReg u b := by rw [hx]; rfl
    rw [hxu, hu, setPair, getReg_setReg_other _ _ hne.2.2, getReg_setReg_other _ _ hne.2.1, addF, setF,
      getReg_setReg_other _ _ hne.1]
  refine ⟨⟨fun p => (hyt.ports p).trans (hy.ports p), hyt.sheets.trans hy.sheets, hyt.mode.trans hy.mode,
      hyt.served.trans hy.served, hyt.path.trans hy.path, hyt.pwr.trans hy.pwr, hyt.nv.trans hy.nv,
      hyt.fed.trans hy.fed, hyt.dark.trans hy.dark⟩, ?_, ?_, ?_, ?_, hyt.pwr.trans hy.pwr,
      hyt.nv.trans hy.nv, hyt.fed.trans hy.fed, hyt.dark.trans hy.dark, hyt.path.trans hy.path, ?_⟩
  · rw [hl, h3, hctl]
  · rw [hl, h1, htim]
  · rw [hl, h2, hprt]
  · rw [hl, h4, hfix]
  · intro b hb
    rw [hl, hreg b hb]
    rw [getReg, getReg, hwin]

/-- A fresh arrival on port M (R68, R74). -/
theorem arriveRow_onM {s : State} {a : Arrival} (hf : freshAt s .M a) (hm : s.ctl.mode ≠ .still) (c : BitVec 16)
    {args : List Byte} (hlen : args.length ≤ 256) :
    ∃ t, arrivesFrom s t ∧ metOnLink s t ∧ arriveRow a c args s = settle (takeCommand (rowReq .M c a args) t) := by
  obtain ⟨hport, hwhole, hcode, -, -, -, -, -, -, hflight, he, hlink⟩ := hf
  have hdec : (a.whole && decide (args.length ≤ 256)) = true := by rw [hwhole, decide_eq_true hlen]; rfl
  obtain ⟨x, hx⟩ : ∃ x, x = emit (.slk (List.replicate (14 + args.length) (linkStatus (setCs false s)))) (setCs false s) :=
    ⟨_, rfl⟩
  obtain ⟨y, hy⟩ : ∃ y : State, y = { x with cmd := { x.cmd with slkLast := .tag a.seq } } := ⟨_, rfl⟩
  have hys : arrivesFrom s y := by
    rw [hy, hx]
    exact ⟨fun p => by cases p <;> rfl, rfl, rfl, rfl, rfl, rfl, rfl, rfl, rfl⟩
  have hyc : y.ctl = { s.ctl with pins := { s.ctl.pins with csLow := false } } ∧ y.tim = s.tim ∧ y.prt = s.prt
      ∧ y.fix = s.fix ∧ y.win = s.win := by
    rw [hy, hx]
    exact ⟨rfl, rfl, rfl, rfl, rfl⟩
  obtain ⟨h1, h2, h3, h4, h5⟩ := hyc
  obtain ⟨hfrom, hmet⟩ := linkFrame_meets hys h1 h2 h3 h4 h5 hm he hflight
  refine ⟨linkFrame y, hfrom, hmet, ?_⟩
  have hon : linkOn (setCs false s) = true := hlink rfl
  rw [arriveRow, hport]
  simp only [arriveM, hon, hdec, if_true]
  rw [requestOf_code hcode, hy, hx]
  rfl

theorem serving_congr {s t : State} (hp : t.prt = s.prt) (n : Nat) : serving t n = serving s n := by
  rw [serving, serving, hp]

theorem carries_congr {s t : State} (hp : t.prt = s.prt) (hx : t.fix = s.fix) (n : Nat) : carries t n = carries s n := by
  rw [carries, carries, serving_congr hp, unitState, unitState, unitMap, unitMap, hp, hx]

/-- What decides whether RUN's clusters meet a level (R59) is not on the safety link. -/
theorem exitFits_congr {s t : State} (hp : t.prt = s.prt) (hx : t.fix = s.fix) (hn : t.nv = s.nv) (hw : t.pwr = s.pwr)
    (hd : t.ctl.deferred = s.ctl.deferred) (hc : t.ctl.warm = s.ctl.warm)
    (hr : ∀ b, adr (pgCl 0 0) 0 ≤ b → getReg t b = getReg s b) (pl : Nat) : exitFits t pl = exitFits s pl := by
  have hs : ∀ n, serving t n = serving s n := serving_congr hp
  have hl : ∀ n, liveMap t n = liveMap s n := by
    intro n
    refine List.map_congr_left fun i _ => ?_
    rw [liveShape, liveShape, hr _ (by simp only [adr, pgCl]; omega)]
  have he : ∀ n, exitMap t n = exitMap s n := by
    intro n
    rw [exitMap, exitMap, hd, hc, hw, hs, hl, calInForce, calInForce, hn]
  have hc : ∀ n, carries t n = carries s n := fun n => carries_congr hp hx n
  simp only [exitFits, hs, he, hc]

section
variable {s t : State} (h : metOnLink s t)

include h

theorem metOnLink.mode : t.ctl.mode = s.ctl.mode := by rw [h.ctl]
theorem metOnLink.entry : t.ctl.entry = s.ctl.entry := by rw [h.ctl]
theorem metOnLink.exit : t.ctl.exit = s.ctl.exit := by rw [h.ctl]
theorem metOnLink.deferred : t.ctl.deferred = s.ctl.deferred := by rw [h.ctl]
theorem metOnLink.warm : t.ctl.warm = s.ctl.warm := by rw [h.ctl]

end

theorem metOnLink_running {s t : State} (h : metOnLink s t) (q : Req) : metOnLink s (running q t) := by
  obtain ⟨u, hu⟩ : ∃ u, u = running q t := ⟨_, rfl⟩
  have hf : u = { t with cmd := u.cmd } := by
    rw [hu]
    exact running_frame q t
  rw [← hu, hf]
  exact ⟨h.ctl, h.tim, h.prt, h.fix, h.pwr, h.nv, h.fed, h.dark, h.path, h.regs⟩

/-- What a fresh command of port M starts in, and what its run then is in the whole state (R66, R72). -/
theorem onM_starts {s : State} {a : Arrival} {c : BitVec 16} {args : List Byte} (hf : freshAt s .M a)
    (hc : c ∈ [cSafeEnter, cSafeExit, cStepArm]) (hv : modeVerdict s.ctl.halted s.ctl.mode c = .accept)
    (hm : s.ctl.mode ≠ .still) (hlen : args.length ≤ 256) (ha : argsOk (rowReq .M c a args) = true) :
    ∃ q u, q.port = .M ∧ q.code = c ∧ q.args = args ∧ metOnLink s u
      ∧ (∀ v, runCmd q u = v → v.cmd = u.cmd → v.fed = u.fed → arriveRow a c args s = v ∧ commandRuns v .M a c)
      ∧ (∀ res d w, runCmd q u = finishReq q res d w → w.cmd = u.cmd → w.fed = u.fed →
          arriveRow a c args s = finishReq q res d w ∧ commandEnds (finishReq q res d w) .M a c res (d.take 64))
      ∧ (∀ res d w, w.cmd = u.cmd → finishCmd .M res d w = finishReq q res d w) := by
  obtain ⟨t, hfrom, hmet, hrow⟩ := arriveRow_onM (c := c) hf hm hlen
  obtain ⟨q, hq⟩ : ∃ q, q = rowReq .M c a args := ⟨_, rfl⟩
  have hqp : q.port = .M := by rw [hq]; rfl
  have hqc : q.code = c := by rw [hq]; rfl
  have hqs : q.seq = a.seq := by rw [hq]; rfl
  have hfree := findsFree_of_fresh (q := q) hf hfrom hqp hqs
  rw [← hq] at hrow ha
  have hne : q.code ≠ cSheet ∧ q.code ≠ cRegRead ∧ q.code ≠ cRegWrite ∧ q.code ≠ cTestStart ∧ q.code ≠ cRestore
      ∧ ∃ l, permitted (getB t (adr pgCmd 0x0A0) 0) q.code = some l ∧ l.contains q.port = true := by
    rw [hqc, hqp]
    simp only [List.mem_cons, List.not_mem_nil, or_false] at hc
    rcases hc with rfl | rfl | rfl
    · exact ⟨by decide, by decide, by decide, by decide, by decide, _, rfl, rfl⟩
    · exact ⟨by decide, by decide, by decide, by decide, by decide, _, rfl, rfl⟩
    · exact ⟨by decide, by decide, by decide, by decide, by decide, _, rfl, rfl⟩
  obtain ⟨hsheet, hr1, hr2, hr3, hr4, l, hl, hp⟩ := hne
  have hgate : gateOf (placed q t) q = .go := gateOf_accepted ⟨hr1, hr2, hr3, hr4⟩
    (by rw [congrArg Ctl.halted hmet.ctl, congrArg Ctl.mode hmet.ctl, hqc]; exact hv)
    (by rw [hmet.pwr]; exact hf.2.2.2.2.2.2.2.2.2.2.1)
  have hbox := (congrArg Fed.outbox (metOnLink_running hmet q).fed).trans hf.2.2.2.2.1.2.2.2.2.2.2.2
  refine ⟨q, running q t, hqp, hqc, by rw [hq]; rfl, metOnLink_running hmet q, fun v hrun hcmd hfed => ?_,
    fun res d w hrun hcmd hfed => ?_, fun res d w hcmd => ?_⟩
  · have hruns := runs_of_running (a := a) hqs hcmd
    rw [hqp, hqc] at hruns
    exact ⟨hrow.trans (taken_runs hfree hl hp hsheet hgate ha hrun hcmd (by rw [hfed]; exact hbox)), hruns⟩
  · have hends := ends_of_finished (a := a) (.inr hqp) hqs hcmd res d
    rw [hqp, hqc] at hends
    exact ⟨hrow.trans (taken_ends hfree hl hp hsheet (.inr hqp) hgate ha hrun hcmd (by rw [hfed]; exact hbox)), hends⟩
  · rw [← finishCmd_running hcmd, hqp]

theorem runCmd_safeEnter {q : Req} (h : q.code = cSafeEnter) (u : State) : runCmd q u = safeEnter q u := by
  simp [runCmd, runBasic, h, cTestStart, cTestAbort, cStepArm, cForceRepair, cRestore, cLoad, cCommit, cRegRead, cRegWrite,
    cSetLevel, cSleep, cSafeEnter]

theorem runCmd_safeExit {q : Req} (h : q.code = cSafeExit) (u : State) :
    runCmd q u = safeExit (BitVec.ofNat 2 (byteAt q.args 0).toNat) u := by
  simp [runCmd, runBasic, h, cTestStart, cTestAbort, cStepArm, cForceRepair, cRestore, cLoad, cCommit, cRegRead, cRegWrite,
    cSetLevel, cSleep, cSafeEnter, cSafeExit]

theorem runCmd_stepArm {q : Req} (h : q.code = cStepArm) (u : State) :
    runCmd q u = finishReq q rOk []
      (if u.tim.stepOnce then { u with tim := { u.tim with stepArmed := true, armM := true } } else u) := by
  rw [runCmd, if_neg (by rw [h]; decide), if_neg (by rw [h]; decide), if_pos h]

theorem safeEnter_onM {q : Req} (h : q.port = .M) (u : State) :
    safeEnter q u = match u.ctl.mode with
      | .safelight => finishReq q rOk [] (safeTrigger 2 2 14 u)
      | _ => safeTrigger 2 2 14 u := by
  rw [safeEnter, wakeOf, h] <;> rfl

/-! ### SAFELIGHT_ENTER, SAFELIGHT_EXIT and TIME_STEP_ARM (R53, R59, R66, R230) -/

/-- In RUN, with no request pending and neither TEST nor RESTORE on its way, a SAFELIGHT trigger starts the entry at once. -/
theorem safeTrigger_run {u : State} (hm : u.ctl.mode = .run) (he : u.ctl.entry = none) (hh : u.ctl.halted = false)
    (hslot : u.pwr.slot = none) (hfl : u.pwr.flight = none) (hen : u.pwr.entering = false) (ht : u.ctl.target ≠ some .test)
    (hr : u.nv.restore = none) (cause code loc : Nat) :
    safeTrigger cause code loc u
      = { u with ctl := { u.ctl with entry := some { cause := cause, fromMode := 2 }, target := some .safelight } } := by
  have hd : deferRestore (abandonTest (cancelSleep (dropSlot u))) = u := by
    rw [dropSlot, hslot, cancelSleep_none hfl, abandonTest, if_neg ht, deferRestore, hr]
  obtain ⟨x, hx⟩ : ∃ x : State, x = { u with ctl := { u.ctl with entry := some { cause := cause, fromMode := 2 } } } :=
    ⟨_, rfl⟩
  have hxm : x.ctl.mode = .run := by rw [hx]; exact hm
  have hxe : x.pwr.entering = false := by rw [hx]; exact hen
  have hw : noteWake code loc x = x := noteWake_awake (by rw [hxm]; decide) hxe code loc
  have hn : ¬ (u.ctl.entry.isSome = true ∨ u.ctl.halted = true) := by simp [he, hh]
  rw [safeTrigger, hm]
  simp only [if_neg hn, hd]
  rw [show modeCode .run = 2 from rfl, ← hx, hw, hxe, if_neg (by decide), hx]

theorem argsOk_safeExit {q : Req} {v : Byte} (h : q.code = cSafeExit) (ha : q.args = [v]) (hv : v.toNat ≤ 3) :
    argsOk q = true := by
  have hb : byteAt [v] 0 = v := rfl
  simp [argsOk, h, ha, hb, hv, cRegRead, cRegWrite, cSetLevel, cSleep, cSafeExit]

theorem exitLevel_toNat {v : Byte} (hv : v.toNat ≤ 3) : (BitVec.ofNat 2 v.toNat).toNat = v.toNat := by
  rw [BitVec.toNat_ofNat]
  exact Nat.mod_eq_of_lt (by omega)

section
variable {s : State} {a : Arrival} (hf : freshAt s .M a)

include hf

theorem safelightEnter_run (hm : s.ctl.mode = .run) (he : s.ctl.entry = none) (hh : s.ctl.halted = false)
    (hslot : s.pwr.slot = none) (ht : s.ctl.target ≠ some .test) :
    ∃ t, exec (.safelightEnter a []) s = .next t ∧ commandRuns t .M a cSafeEnter
      ∧ t.ctl.entry = some { cause := 2, fromMode := 2 } ∧ t.ctl.target = some .safelight ∧ t.ctl.mode = .run
      ∧ t.ctl.pins.safeActive = s.ctl.pins.safeActive ∧ t.dataPath = s.dataPath := by
  obtain ⟨q, u, hqp, hqc, -, hmet, hruns, -, -⟩ := onM_starts (c := cSafeEnter) (args := []) hf (by decide)
    (by rw [hm, hh]; rfl) (by rw [hm]; decide) (by decide) rfl
  have hum : u.ctl.mode = .run := hmet.mode.trans hm
  have htrig := safeTrigger_run (u := u) hum (hmet.entry.trans he)
    ((congrArg Ctl.halted hmet.ctl).trans hh) (by rw [hmet.pwr]; exact hslot)
    (by rw [hmet.pwr]; exact hf.2.2.2.2.2.2.2.2.2.1) (by rw [hmet.pwr]; exact hf.2.2.2.2.2.2.2.2.2.2.1)
    (by rw [congrArg Ctl.target hmet.ctl]; exact ht) (by rw [hmet.nv]; exact hf.2.2.2.2.1.2.2.2.2.2.2.1) 2 2 14
  have hrun : runCmd q u = safeTrigger 2 2 14 u := by
    rw [runCmd_safeEnter hqc, safeEnter_onM hqp, hum]
  obtain ⟨hrow, hends⟩ := hruns _ (hrun.trans htrig) rfl rfl
  exact ⟨_, congrArg Host.Outcome.next hrow, hends, rfl, rfl, hum, congrArg (fun c => c.pins.safeActive) hmet.ctl, hmet.path⟩

theorem safelightEnter_safelight (hm : s.ctl.mode = .safelight) (he : s.ctl.exit = none) :
    ∃ t, exec (.safelightEnter a []) s = .next t ∧ commandEnds t .M a cSafeEnter 0x00 [] ∧ t.ctl.entry = s.ctl.entry
      ∧ t.ctl.mode = .safelight ∧ t.dataPath = s.dataPath := by
  obtain ⟨q, u, hqp, hqc, -, hmet, -, hends, -⟩ := onM_starts (c := cSafeEnter) (args := []) hf (by decide)
    (by rw [hm]; rfl) (by rw [hm]; decide) (by decide) rfl
  have hum : u.ctl.mode = .safelight := hmet.mode.trans hm
  have hue : u.ctl.exit = none := hmet.exit.trans he
  have hrun : runCmd q u = finishReq q rOk [] u := by
    rw [runCmd_safeEnter hqc, safeEnter_onM hqp, safeTrigger, hum]
    simp only [cancelExit, hue]
  obtain ⟨hrow, hend⟩ := hends _ _ _ hrun rfl rfl
  refine ⟨_, congrArg Host.Outcome.next hrow, hend, ?_, ?_, ?_⟩ <;> rw [finishReq_frame (.inr hqp)]
  · exact hmet.entry
  · exact hum
  · exact hmet.path

/-- What SAFELIGHT_EXIT starts in, its level the two low bits of its byte (R59). -/
theorem safelightExit_starts {v : Byte} (hm : s.ctl.mode = .safelight) (hv : v.toNat ≤ 3) :
    ∃ q u, q.port = .M ∧ metOnLink s u ∧ runCmd q u = safeExit (BitVec.ofNat 2 v.toNat) u
      ∧ (∀ x, runCmd q u = x → x.cmd = u.cmd → x.fed = u.fed →
          arriveRow a cSafeExit [v] s = x ∧ commandRuns x .M a cSafeExit)
      ∧ (∀ res d, runCmd q u = finishCmd .M res d u → ∃ t, arriveRow a cSafeExit [v] s = t
          ∧ commandEnds t .M a cSafeExit res (d.take 64) ∧ t.ctl = u.ctl ∧ t.dataPath = s.dataPath) := by
  obtain ⟨q, u, hqp, hqc, hqa, hmet, hruns, hends, hfin⟩ := onM_starts (c := cSafeExit) (args := [v]) hf (by decide)
    (by rw [hm]; rfl) (by rw [hm]; decide) (Nat.le_of_ble_eq_true rfl) (argsOk_safeExit rfl rfl hv)
  refine ⟨q, u, hqp, hmet, by rw [runCmd_safeExit hqc, hqa]; rfl, hruns, fun res d hrun => ?_⟩
  obtain ⟨hrow, hend⟩ := hends res d u (hrun.trans (hfin res d u rfl)) rfl rfl
  refine ⟨_, hrow, hend, ?_, ?_⟩ <;> rw [finishReq_frame (.inr hqp)]
  exact hmet.path

theorem safelightExit_alarm {v : Byte} (hm : s.ctl.mode = .safelight) (hv : v.toNat ≤ 3)
    (hal : s.ctl.pins.alarmLevel = true) :
    ∃ t, exec (.safelightExit a [v]) s = .next t ∧ commandEnds t .M a cSafeExit 0x08 [] ∧ t.ctl.exit = s.ctl.exit
      ∧ t.ctl.mode = .safelight ∧ t.dataPath = s.dataPath := by
  obtain ⟨q, u, hqp, hmet, hrun, -, hends⟩ := safelightExit_starts hf hm hv
  have hu : u.ctl.pins.alarmLevel = true := (congrArg (fun c => c.pins.alarmLevel) hmet.ctl).trans hal
  rw [safeExit, if_pos hu] at hrun
  obtain ⟨t, hrow, hend, hctl, hpath⟩ := hends _ _ hrun
  exact ⟨t, congrArg Host.Outcome.next hrow, hend, (congrArg Ctl.exit hctl).trans hmet.exit,
    (congrArg Ctl.mode hctl).trans (hmet.mode.trans hm), hpath⟩

omit hf in
/-- Whether an exit's level is met is decided over the link as in the state it met (R59). -/
theorem exitFits_met {u : State} (h : metOnLink s u) (pl : Nat) : exitFits u pl = exitFits s pl :=
  exitFits_congr h.prt h.fix h.nv h.pwr h.deferred h.warm
    (fun b hb => h.regs b (.inr (Nat.le_trans (by decide) hb))) pl

theorem safelightExit_unfit {v : Byte} (hm : s.ctl.mode = .safelight) (hv : v.toNat ≤ 3)
    (hal : s.ctl.pins.alarmLevel = false) (hfit : exitFits s v.toNat = false) :
    ∃ t, exec (.safelightExit a [v]) s = .next t ∧ commandEnds t .M a cSafeExit 0x0B [0x01] ∧ t.ctl.exit = s.ctl.exit
      ∧ t.ctl.mode = .safelight ∧ t.dataPath = s.dataPath := by
  obtain ⟨q, u, hqp, hmet, hrun, -, hends⟩ := safelightExit_starts hf hm hv
  have hu : u.ctl.pins.alarmLevel = false := (congrArg (fun c => c.pins.alarmLevel) hmet.ctl).trans hal
  have hno : exitFits u (BitVec.ofNat 2 v.toNat).toNat = false := by
    rw [exitLevel_toNat hv, exitFits_met hmet]
    exact hfit
  rw [safeExit, if_neg (by rw [hu]; decide), if_pos hno] at hrun
  obtain ⟨t, hrow, hend, hctl, hpath⟩ := hends _ _ hrun
  exact ⟨t, congrArg Host.Outcome.next hrow, hend, (congrArg Ctl.exit hctl).trans hmet.exit,
    (congrArg Ctl.mode hctl).trans (hmet.mode.trans hm), hpath⟩

theorem safelightExit_runs {v : Byte} (hm : s.ctl.mode = .safelight) (hv : v.toNat ≤ 3)
    (hal : s.ctl.pins.alarmLevel = false) (hfit : exitFits s v.toNat = true) :
    ∃ t, exec (.safelightExit a [v]) s = .next t ∧ commandRuns t .M a cSafeExit
      ∧ t.ctl.exit = some (BitVec.ofNat 2 v.toNat) ∧ t.ctl.target = some .run ∧ t.ctl.mode = .safelight
      ∧ t.dataPath = s.dataPath := by
  obtain ⟨q, u, hqp, hmet, hrun, hruns, -⟩ := safelightExit_starts hf hm hv
  have hu : u.ctl.pins.alarmLevel = false := (congrArg (fun c => c.pins.alarmLevel) hmet.ctl).trans hal
  have hyes : exitFits u (BitVec.ofNat 2 v.toNat).toNat = true := by
    rw [exitLevel_toNat hv, exitFits_met hmet]
    exact hfit
  rw [safeExit, if_neg (by rw [hu]; decide), if_neg (by rw [hyes]; decide)] at hrun
  obtain ⟨hrow, hgo⟩ := hruns _ hrun rfl rfl
  exact ⟨_, congrArg Host.Outcome.next hrow, hgo, rfl, rfl, hmet.mode.trans hm, hmet.path⟩

theorem timeStepArm_ends (hm : s.ctl.mode = .run) :
    ∃ t, exec (.timeStepArm a []) s = .next t ∧ commandEnds t .M a cStepArm 0x00 []
      ∧ t.tim = (if s.tim.stepOnce then { s.tim with stepArmed := true, armM := true } else s.tim)
      ∧ t.ctl.mode = .run ∧ t.dataPath = s.dataPath := by
  obtain ⟨q, u, hqp, hqc, -, hmet, -, hends, -⟩ := onM_starts (c := cStepArm) (args := []) hf (by decide)
    (by rw [hm]; rfl) (by rw [hm]; decide) (by decide) rfl
  obtain ⟨w, hw⟩ : ∃ w,
    w = if u.tim.stepOnce then { u with tim := { u.tim with stepArmed := true, armM := true } } else u :=
    ⟨_, rfl⟩
  have harm : w.tim = (if u.tim.stepOnce then { u.tim with stepArmed := true, armM := true } else u.tim) ∧ w.cmd = u.cmd
      ∧ w.fed = u.fed ∧ w.ctl = u.ctl ∧ w.dataPath = u.dataPath := by
    rw [hw]
    split <;> exact ⟨rfl, rfl, rfl, rfl, rfl⟩
  obtain ⟨htim, hcmd, hfed, hctl, hpath⟩ := harm
  obtain ⟨hrow, hend⟩ := hends _ _ w (by rw [hw]; exact runCmd_stepArm hqc u) hcmd hfed
  refine ⟨_, congrArg Host.Outcome.next hrow, hend, ?_, ?_, ?_⟩ <;> rw [finishReq_frame (.inr hqp)]
  · exact htim.trans (by rw [hmet.tim])
  · exact (congrArg Ctl.mode hctl).trans (hmet.mode.trans hm)
  · exact hpath.trans hmet.path

end

/-- Settles O35: each command is taken on its arrival over the link and run in what it met there. -/
theorem safelightCommands : Obligations.SafelightCommands := by
  intro s a v hf
  refine ⟨fun hm he hh hslot ht => safelightEnter_run hf hm he hh hslot ht, fun hm he => safelightEnter_safelight hf hm he,
    fun hm hv hal => safelightExit_alarm hf hm hv hal, fun hm hv hal hfit => safelightExit_unfit hf hm hv hal hfit,
    fun hm hv hal hfit => safelightExit_runs hf hm hv hal hfit, fun hm => timeStepArm_ends hf hm⟩

end Sys2Proof.Machine

end

section

namespace Sys2Proof.Machine

/-! ## SAFELIGHT in force and its end (O11) -/

theorem regime_parts {t : State} {n : Nat} {l : List Instr} {m : Mode} {a d : Bool} (h : t.regime = (n, l, m, a, d)) :
    t.tim.powered = n ∧ t.pending = l ∧ t.ctl.mode = m ∧ t.ctl.pins.safeActive = a ∧ t.ctl.pins.driven = d := by
  simpa only [State.regime, Prod.mk.injEq] using h

/-- The switch of an exit to RUN (R59), its answer aside. -/
def switchedToRun (pl : BitVec 2) (s : State) : State :=
  let off := (List.range 64).filter (fun n => !clusterOn s n)
  let x := runRotation (changeLevel pl (applyDeferred off (powerUpQuarters
    (powerUpClusters ((List.range 66).filter (runsNow s)) s))))
  thawQueues (freezeQueues false { x with
    ctl := { x.ctl with mode := .run, exit := none, target := none, pins := { x.ctl.pins with safeActive := false } }
    fed := { x.fed with origin := false } })

theorem execSafelightSwitchToRun_of_exit {s : State} {pl : BitVec 2} (hm : s.ctl.mode = .safelight)
    (he : s.ctl.exit = some pl) (hd : s.ctl.deferred = 0) (hn : s.dark.now = none) :
    execSafelightSwitchToRun s
      = .next (settle (finishCmd .M rOk [] (quarterSettle (queueRetired (hwEvent pgMode 0 (switchedToRun pl s)))))) := by
  have hno : ¬ (s.ctl.deferred ≠ 0 ∨ s.dark.now.isSome = true) := by simp [hd, hn]
  rw [execSafelightSwitchToRun, hm, he]
  simp only [if_neg hno]
  rfl

/-- The switch leaves what drives the outputs and lowers SAFE_ACTIVE. -/
theorem switchedToRun_regime (pl : BitVec 2) (s : State) :
    (switchedToRun pl s).regime = (s.tim.powered, s.pending, .run, false, s.ctl.pins.driven) := by
  obtain ⟨x, hx⟩ : ∃ x, x = runRotation (changeLevel pl (applyDeferred ((List.range 64).filter (fun n => !clusterOn s n))
    (powerUpQuarters (powerUpClusters ((List.range 66).filter (runsNow s)) s)))) := ⟨_, rfl⟩
  have hxs : x.regime = s.regime := by simp [hx]
  obtain ⟨hpow, hpend, -, -, hdriven⟩ := regime_eq.mp hxs
  simp only [switchedToRun, ← hx, thawQueues_regime, freezeQueues_regime]
  rw [← hpow, ← hpend, ← hdriven]
  rfl

/-- Settles O11: the regime each row ends in, which the commands served after it keep. -/
theorem safelightBounds : Obligations.SafelightBounds := by
  refine ⟨fun s he hr => ?_, fun s hm he hd hn => ?_⟩
  · obtain ⟨e, he⟩ := Option.isSome_iff_exists.mp he
    have hex : exec .safelightInForce s = .next (settle (safeInForce e.cause e.fromMode s)) := by
      show execSafelightInForce s = _
      rw [execSafelightInForce, he]
      simp only [hr, if_true]
    obtain ⟨-, hpend, hmode, hsafe, hdriven⟩ := regime_parts
      ((settle_regime _).trans (safeInForce_regime e.cause e.fromMode s))
    exact ⟨_, hex, hmode, hsafe, hdriven, hpend⟩
  · obtain ⟨pl, he⟩ := Option.isSome_iff_exists.mp he
    have hreg : (settle (finishCmd .M rOk [] (quarterSettle (queueRetired (hwEvent pgMode 0 (switchedToRun pl s)))))).regime
        = (s.tim.powered, s.pending, .run, false, s.ctl.pins.driven) := by
      rw [← switchedToRun_regime pl s]
      simp
    obtain ⟨-, hpend, hmode, hsafe, hdriven⟩ := regime_parts hreg
    exact ⟨_, execSafelightSwitchToRun_of_exit hm he hd hn, hmode, hsafe, hdriven, hpend⟩

end Sys2Proof.Machine

end

section

namespace Sys2Proof.Machine

/-! ## A request filed under another port's number (O12)

The row TEST_IN_FORCE answers the TEST_START that the port of DARKSLIDE executes, and R70 has each port hold its own requests.
The statement asks nothing of the port that a request names: in a state where it names another one, the answer frees that
port, whose waiting TEST_ABORT then starts and ends TEST within the row. -/

/-- A request of port H. -/
def requestOfH (c : BitVec 16) : Req :=
  { port := .H, code := c, seq := 1, args := [], ingress := 0, source := 0, relayed := none, sheetReq := false }

/-- In RUN before TEST, one unit to test: port S executes a TEST_START that names port H, where a TEST_ABORT waits behind a
command that is executing. -/
def misfiledStart : State :=
  { State.reset with
    ctl := { Ctl.start with mode := .run, target := some .test }
    cmd := { State.reset.cmd with
      h := { State.reset.cmd.h with
        exec := some { req := requestOfH cTestStart, started := true }, wait := some (requestOfH cTestAbort) }
      s := { State.reset.cmd.s with exec := some { req := requestOfH cTestStart, started := true } } }
    dark := { State.reset.dark with
      list := [{ unit := { type := 3, unit := 1, slice := 0xFF }, tests := 1, origin := 0 }], testPort := some .S } }

/-- Has an answered state TEST on its way to its end? -/
def answersEnding : Out → Bool
  | .next t => t.dark.ending
  | _ => false

/-- The row runs the waiting TEST_ABORT. -/
theorem testInForce_misfiled : answersEnding (exec (.testInForce true) misfiledStart) = true := by decide

/-- Port S, whose command DARKSLIDE answers, has none waiting. -/
theorem misfiledStart_free (p : CmdPort) (h : misfiledStart.dark.testPort = some p) : (portOf misfiledStart p).wait = none := by
  obtain rfl := Option.some.inj (show some CmdPort.S = some p from h)
  rfl

/-- Refutes O12: TEST_IN_FORCE leaves DARKSLIDE's `ending` as it was only where a port's request names that port. In
`misfiledStart` port S executes a request that names port H, so the row's answer lets the TEST_ABORT waiting at H run. -/
theorem not_testModeRows : ¬ Obligations.TestModeRows := by
  intro h
  obtain ⟨hforce, -⟩ := h misfiledStart
  obtain ⟨t, hex, -, -, -, hkeeps⟩ := hforce true rfl rfl (by decide)
  obtain ⟨-, -, -, hending, -⟩ := hkeeps rfl (by decide) misfiledStart_free rfl (by decide)
  have hends : t.dark.ending = true := by
    have hrun := testInForce_misfiled
    rwa [hex] at hrun
  rw [hends] at hending
  exact absurd hending (by decide)

end Sys2Proof.Machine

end

section
namespace Sys2Proof.Machine

/-! ### What a whole command meets at port S (R69-R71) -/

theorem mem_out_emit (e : Emit) (s : State) : e ∈ (emit e s).out := List.mem_append_right _ (List.mem_singleton_self e)

/-- A count and the event of its page: the count goes up by one, the event is latched, and nothing else moves but what an edge
moves (R36, R37). -/
theorem counted_event {page c hi : Nat} (n : Nat) (s : State) (h24 : eventFree (adr page 0x24)) (hc : clearOf page c)
    (hhi : hi < 32) :
    (hwEvent page n (addF c hi 0 1 s)).rest = s.rest
      ∧ getF (hwEvent page n (addF c hi 0 1 s)) c hi 0 = satAdd (2 ^ (hi + 1) - 1) (getF s c hi 0) 1
      ∧ getReg (hwEvent page n (addF c hi 0 1 s)) (adr page 0x24) = putBit (getReg s (adr page 0x24)) n true
      ∧ ∀ b, clearOf page b → b ≠ c → getReg (hwEvent page n (addF c hi 0 1 s)) b = getReg s b := by
  refine ⟨hwEvent_rest page n _, ?_, ?_, fun b hb hbc => ?_⟩
  · rw [getF_congr (hwEvent_clear hc n _), getF_addF_same _ _ _ hhi, Nat.sub_zero]
  · rw [hwEvent_latch page n _ h24, getReg_addF_other _ _ _ _ hc.2.1.symm]
  · rw [hwEvent_clear hb, getReg_addF_other _ _ _ _ hbc]

section
variable {q : Req} {s : State} {l : List CmdPort}

/-- On port S a result is driven as a response, and nothing else happens (R68). -/
theorem deliver_onS (hq : q.port = .S) (r : Resp) (record : Option (List Byte)) (s : State) :
    deliver q r record s = emit (.response .S 0 0 (respBytes r)) s := by
  simp only [deliver, hq]

/-- On port S a refusal is a response without data (R69). -/
theorem refuse_onS (hq : q.port = .S) (code : Byte) (dup : Bool) (s : State) :
    refuse q code dup s = emit (.response .S 0 0 (respBytes
      { code := q.code, seq := q.seq, result := code, dup := dup, data := [] })) s := by
  have hM : q.port ≠ .M := by rw [hq]; decide
  rw [refuse, if_neg hM, deliver_onS hq]

/-- Step 3 of Table 4.4: a port that may not issue the command counts it and refuses it. -/
theorem submit_notPermitted (hs : portsServed s = true) (hl : permitted (getB s (adr pgCmd 0x0A0) 0) q.code = some l)
    (hp : q.port ∉ l) : submit q s = refuse q rNotPermitted false
      (hwEvent pgCmd 2 (addF (adr pgCmd (0x0A4 + 4 * portCode q.port)) 15 0 1 s)) := by
  rw [submit, if_pos hs]
  simp only [hl, List.contains_iff_mem, if_neg hp]

/-- Step 4: a tag that the port knows. -/
theorem submit_known {t : TagEntry} (hs : portsServed s = true)
    (hl : permitted (getB s (adr pgCmd 0x0A0) 0) q.code = some l) (hp : q.port ∈ l)
    (ht : findTag q.seq (portOf s q.port).tags = some t) : submit q s = answerDup q t s := by
  rw [submit, if_pos hs]
  simp only [hl, List.contains_iff_mem, if_pos hp, ht]

/-- Step 5: a tag that the port does not know. -/
theorem submit_new (hs : portsServed s = true) (hl : permitted (getB s (adr pgCmd 0x0A0) 0) q.code = some l) (hp : q.port ∈ l)
    (ht : findTag q.seq (portOf s q.port).tags = none) : submit q s = place q s := by
  rw [submit, if_pos hs]
  simp only [hl, List.contains_iff_mem, if_pos hp, ht]

/-- A duplicate of a completed command is counted, noted on its tag and answered with the stored result (R70). -/
theorem answerDup_again {t : TagEntry} {res : Byte} {d : List Byte} (hc : q.code ≠ cSheet) (ht : t.code = q.code)
    (hd : t.done = some (res, d)) (s : State) :
    answerDup q t s = deliver q { code := q.code, seq := q.seq, result := res, dup := true, data := d } none
      (addF (adr pgCmd (0x0B8 + 4 * portCode q.port)) 15 0 1
        (setPort q.port { portOf s q.port with tags := markDup q.seq (portOf s q.port).tags } s)) := by
  have hsheet : ¬ (q.code = cSheet ∧ res = rOk) := fun h => hc h.1
  simp only [answerDup, ht, hd, if_true, if_neg hsheet, decide_true, Option.isSome_some, Bool.and_self]

/-- With both places of port S taken a command is refused as BUSY (R71). -/
theorem place_busy {r : Running} {w : Req} (hq : q.port = .S) (hc : q.code ≠ cSheet) (hx : s.cmd.s.exec = some r)
    (hw : s.cmd.s.wait = some w) : place q s = refuse q rBusy false s := by
  have hM : q.port ≠ .M := by rw [hq]; decide
  have hport : portOf s q.port = s.cmd.s := by rw [hq]; rfl
  rw [place, if_neg hc]
  simp only [hport, hx, hw, if_neg hM]

theorem submit_onS_notPermitted (hq : q.port = .S) (hs : portsServed s = true)
    (hl : permitted (getB s (adr pgCmd 0x0A0) 0) q.code = some l) (hp : CmdPort.S ∉ l) :
    (submit q s).cmd = s.cmd ∧ (submit q s).ctl.mode = s.ctl.mode
      ∧ getF (submit q s) (adr pgCmd 0x0A8) 15 0 = satAdd 65535 (getF s (adr pgCmd 0x0A8) 15 0) 1
      ∧ Emit.response .S 0 0 (respBytes { code := q.code, seq := q.seq, result := 0x02, dup := false, data := [] })
        ∈ (submit q s).out := by
  have hcount : adr pgCmd (0x0A4 + 4 * portCode q.port) = adr pgCmd 0x0A8 := by rw [hq]; rfl
  obtain ⟨hrest, hadd, -, -⟩ := counted_event (page := pgCmd) (c := adr pgCmd 0x0A8) (hi := 15) 2 s (by decide) (by decide)
    (by decide)
  rw [submit_notPermitted hs hl (by rw [hq]; exact hp), refuse_onS hq, hcount]
  exact ⟨rest_cmd hrest, rest_mode hrest, hadd, mem_out_emit _ _⟩

theorem submit_onS_duplicate {t : TagEntry} {res : Byte} {d : List Byte} (hq : q.port = .S) (hs : portsServed s = true)
    (hl : permitted (getB s (adr pgCmd 0x0A0) 0) q.code = some l) (hp : CmdPort.S ∈ l) (hc : q.code ≠ cSheet)
    (hf : findTag q.seq s.cmd.s.tags = some t) (ht : t.code = q.code) (hd : t.done = some (res, d)) :
    (submit q s).cmd.s.exec = s.cmd.s.exec ∧ (submit q s).cmd.s.wait = s.cmd.s.wait
      ∧ (submit q s).cmd.s.sheet = s.cmd.s.sheet ∧ (submit q s).ctl = s.ctl ∧ (submit q s).dataPath = s.dataPath
      ∧ Emit.response .S 0 0 (respBytes { code := q.code, seq := q.seq, result := res, dup := true, data := d })
        ∈ (submit q s).out := by
  rw [submit_known hs hl (by rw [hq]; exact hp) (by rw [hq]; exact hf), answerDup_again hc ht hd, deliver_onS hq, hq]
  exact ⟨rfl, rfl, rfl, rfl, rfl, mem_out_emit _ _⟩

theorem submit_onS_busy {r : Running} {w : Req} (hq : q.port = .S) (hs : portsServed s = true)
    (hl : permitted (getB s (adr pgCmd 0x0A0) 0) q.code = some l) (hp : CmdPort.S ∈ l) (hc : q.code ≠ cSheet)
    (hf : findTag q.seq s.cmd.s.tags = none) (hx : s.cmd.s.exec = some r) (hw : s.cmd.s.wait = some w) :
    submit q s = emit (.response .S 0 0 (respBytes
      { code := q.code, seq := q.seq, result := 0x05, dup := false, data := [] })) s :=
  (submit_new hs hl (by rw [hq]; exact hp) (by rw [hq]; exact hf)).trans
    ((place_busy hq hc hx hw).trans (refuse_onS hq rBusy false s))

end

/-- Settles O32: steps 3 to 5 of Table 4.4 on port S, one lemma for each outcome. -/
theorem commandChecks : Obligations.CommandChecks := fun _ _ hq hs =>
  ⟨fun _ hl hp => submit_onS_notPermitted hq hs hl hp,
    fun _ _ _ _ hl hp hc hf ht hd => submit_onS_duplicate hq hs hl hp hc hf ht hd,
    fun _ _ _ hl hp hc hf hx hw => submit_onS_busy hq hs hl hp hc hf hx hw⟩

end Sys2Proof.Machine
end

section
namespace Sys2Proof.Machine

/-! ### The watchdog of the safety link (R76) -/

/-- A stored register is a register write, or none where the address has no register (R35). -/
theorem storeRw_cases (a : Nat) (v : Word) (s : State) : storeRw a v s = s ∨ ∃ w, storeRw a v s = setReg a w s := by
  unfold storeRw
  split
  · exact .inr ⟨_, rfl⟩
  · exact .inl rfl

/-- What a store leaves alone: everything but its register. -/
theorem storeRw_frame (a : Nat) (v : Word) (s : State) :
    (storeRw a v s).ctl = s.ctl ∧ (storeRw a v s).rest = s.rest ∧ ∀ b, b ≠ a → getReg (storeRw a v s) b = getReg s b := by
  obtain h | ⟨w, h⟩ := storeRw_cases a v s
  · rw [h]
    exact ⟨rfl, rfl, fun _ _ => rfl⟩
  · rw [h]
    exact ⟨rfl, rfl, fun _ hb => getReg_setReg_other w s hb⟩

section
variable {v : Word} {s : State}

/-- WDOG_EN set from 0: the count starts. -/
theorem safetyCtrl_starts (hv : bit v 1 = true) (ho : getB s (adr pgSafety 0x010) 1 = false) :
    (safetyCtrl v s).ctl = { s.ctl with wdogSince := some s.tim.powered } := by
  obtain ⟨hctl, hrest, -⟩ := storeRw_frame (adr pgSafety 0x010) v s
  simp only [safetyCtrl, hv, ho, if_true, if_false, Bool.false_eq_true, hctl, rest_tim hrest]

/-- WDOG_EN that stays 1: nothing happens to the count. -/
theorem safetyCtrl_stays (hv : bit v 1 = true) (ho : getB s (adr pgSafety 0x010) 1 = true) : (safetyCtrl v s).ctl = s.ctl := by
  simp only [safetyCtrl, hv, ho, if_true]
  exact (storeRw_frame _ v s).1

/-- WDOG_EN cleared: the count stops, and WDOG_EXPIRED and its FAULT_N cause end. -/
theorem safetyCtrl_stops (hv : bit v 1 = false) : (safetyCtrl v s).ctl =
    { s.ctl with wdogSince := none, wdogExpired := false, faults := { s.ctl.faults with wdog := false } } := by
  simp only [safetyCtrl, hv, Bool.false_eq_true, if_false, wdogOff, (storeRw_frame (adr pgSafety 0x010) v s).1]

theorem safetyCtrl_mode (v : Word) (s : State) : (safetyCtrl v s).ctl.mode = s.ctl.mode := by
  cases hv : bit v 1
  · rw [safetyCtrl_stops hv]
  · cases ho : getB s (adr pgSafety 0x010) 1
    · rw [safetyCtrl_starts hv ho]
    · rw [safetyCtrl_stays hv ho]

/-- But for the mode sequencer a write of CTRL moves nothing beside its register. -/
theorem safetyCtrl_stores (v : Word) (s : State) :
    ∃ c, safetyCtrl v s = { storeRw (adr pgSafety 0x010) v s with ctl := c } := by
  simp only [safetyCtrl]
  split
  · split
    · exact ⟨_, rfl⟩
    · exact ⟨_, rfl⟩
  · exact ⟨_, rfl⟩

theorem safetyCtrl_frame (v : Word) (s : State) :
    (portsIdle s → portsIdle (safetyCtrl v s))
      ∧ ∀ b, b ≠ adr pgSafety 0x010 → getReg (safetyCtrl v s) b = getReg s b := by
  obtain ⟨-, hrest, hreg⟩ := storeRw_frame (adr pgSafety 0x010) v s
  obtain ⟨c, h⟩ := safetyCtrl_stores v s
  rw [h]
  exact ⟨fun hi => show portsIdle (storeRw (adr pgSafety 0x010) v s) from portsIdle_of_rest hrest hi, hreg⟩

theorem safetyCtrlWrite_row {p : CmdPort} (hp : plainWrite s p (adr pgSafety 0x010)) (hi : portsIdle s) :
    ∃ t, exec (.safetyCtrlWrite p true v) s = .next t
      ∧ (bit v 1 = true → getB s (adr pgSafety 0x010) 1 = false → t.ctl.wdogSince = some s.tim.powered)
      ∧ (bit v 1 = true → getB s (adr pgSafety 0x010) 1 = true → t.ctl = s.ctl)
      ∧ (bit v 1 = false → t.ctl.wdogSince = none ∧ t.ctl.wdogExpired = false ∧ t.ctl.faults.wdog = false)
      ∧ t.ctl.mode = s.ctl.mode ∧ ∀ b, b ≠ adr pgSafety 0x010 → getReg t b = getReg s b := by
  obtain ⟨hidle, hreg⟩ := safetyCtrl_frame v s
  have hrow : settle (gatedWrite p (adr pgSafety 0x010) true v (safetyCtrl v) s) = safetyCtrl v s := by
    rw [gatedWrite_plain v (safetyCtrl v) hp, settle_portsIdle _ (hidle hi)]
  refine ⟨_, congrArg Host.Outcome.next hrow, fun hv ho => ?_, safetyCtrl_stays, fun hv => ?_, safetyCtrl_mode v s, hreg⟩
  · rw [safetyCtrl_starts hv ho]
  · rw [safetyCtrl_stops hv]
    exact ⟨rfl, rfl, rfl⟩

theorem slkWdogExpiry_row (hw : wdogCounts s = true) (hr : s.ctl.wdogSince.isSome = true) :
    ∃ t, exec .slkWdogExpiry s = .next t ∧ t.ctl.wdogExpired = true ∧ t.ctl.faults.wdog = true ∧ t.ctl.wdogSince = none
      ∧ t.ctl.mode = s.ctl.mode ∧ getReg t (adr pgSafety 0x24) = putBit (getReg s (adr pgSafety 0x24)) 1 true
      ∧ getF t (adr pgSafety 0x090) 15 0 = satAdd 65535 (getF s (adr pgSafety 0x090) 15 0) 1
      ∧ ∀ b, eventFree b → b ∉ [adr pgSafety 0x24, adr pgSafety 0x40, adr pgSafety 0x090] → getReg t b = getReg s b := by
  have hrun : (wdogCounts s && s.ctl.wdogSince.isSome) = true := by rw [hw, hr]; rfl
  obtain ⟨hrest, hadd, hlatch, hreg⟩ := counted_event (page := pgSafety) (c := adr pgSafety 0x090) (hi := 15) 1
    { s with ctl := { s.ctl with wdogSince := none, wdogExpired := true, faults := { s.ctl.faults with wdog := true } } }
    (by decide) (by decide) (by decide)
  have hmode := rest_mode hrest
  refine ⟨_, congrArg Host.Outcome.next (if_pos hrun), congrArg (fun x => x.ctl.wdogExpired) hrest,
    congrArg (fun x => x.ctl.faults.wdog) hrest, congrArg (fun x => x.ctl.wdogSince) hrest, hmode, hlatch, hadd,
    fun b hb hn => ?_⟩
  simp only [List.mem_cons, List.not_mem_nil, or_false, not_or] at hn
  exact hreg b ⟨hb, hn.1, hn.2.1⟩ hn.2.2

end

/-! ### Transactions of the safety link (R74, R75) -/

theorem wdogCounts_congr {s t : State} (hr : getReg t (adr pgSafety 0x010) = getReg s (adr pgSafety 0x010)) (hc : t.ctl = s.ctl) :
    wdogCounts t = wdogCounts s := by rw [wdogCounts, wdogCounts, getB_congr hr, hc]

/-- With no power request to cancel, a valid frame ends WDOG_EXPIRED and its FAULT_N cause, starts the count anew where the
watchdog counts, and moves nothing else but what `State.rest` leaves out (R75, R76). -/
theorem linkFrame_rest {s : State} (hf : s.pwr.flight = none) :
    (linkFrame s).rest = State.rest { s with ctl := { s.ctl with
      wdogExpired := false, wdogSince := if wdogCounts s then some s.tim.powered else none
      faults := { s.ctl.faults with wdog := false } } } := by
  obtain ⟨u, hu⟩ : ∃ u, u = setPair (adr pgSafety 0x094) s.tim.powered (addF (adr pgSafety 0x088) 31 0 1 s) := ⟨_, rfl⟩
  have hcounts : wdogCounts u = wdogCounts s := by
    refine wdogCounts_congr ?_ (by rw [hu]; rfl)
    rw [hu, setPair, getReg_setReg_other _ _ (by decide), getReg_setReg_other _ _ (by decide),
      getReg_addF_other _ _ _ _ (by decide)]
  have hflight : u.pwr.flight = none := by rw [hu]; exact hf
  simp only [linkFrame]
  rw [← hu, hcounts, noteWake_rest, cancelSleep_none]
  · rw [hu]
    rfl
  · exact hflight

theorem slkPoll_whole {s : State} {seq : BitVec 16} (hon : linkOn (setCs false s) = true) (hf : s.pwr.flight = none)
    (hi : portsIdle s) :
    ∃ t, exec (.slkPoll seq true) s = .next t ∧ t.ctl.wdogExpired = false ∧ t.ctl.faults.wdog = false
      ∧ t.ctl.mode = s.ctl.mode ∧ t.cmd = { s.cmd with slkLast := .tag seq } := by
  obtain ⟨y, hy⟩ : ∃ y : State, y = emit (.slk (pollOctets (setCs false s) seq))
      { setCs false s with cmd := { s.cmd with slkLast := .tag seq } } := ⟨_, rfl⟩
  have hrest := linkFrame_rest (s := y) (by rw [hy]; exact hf)
  have hidle : portsIdle (linkFrame y) := portsIdle_of_rest hrest (by rw [hy]; exact hi)
  have hrow : exec (.slkPoll seq true) s = .next (linkFrame y) := by
    refine congrArg Host.Outcome.next ((if_pos hon).trans ((if_pos rfl).trans ?_))
    rw [← settle_portsIdle _ hidle, hy]
    rfl
  refine ⟨_, hrow, congrArg (fun x => x.ctl.wdogExpired) hrest, congrArg (fun x => x.ctl.faults.wdog) hrest,
    (rest_mode hrest).trans ?_, (rest_cmd hrest).trans ?_⟩
  · rw [hy]
    rfl
  · rw [hy]
    rfl

/-- A transaction that fails is counted, latches event 0 and shows ERROR; the ports stay as they are (R75). -/
theorem linkError_moves (s : State) :
    (linkError s).cmd = { s.cmd with slkLast := .bad } ∧ (linkError s).ctl.pins = s.ctl.pins
      ∧ getF (linkError s) (adr pgSafety 0x08C) 31 0 = satAdd (2 ^ 32 - 1) (getF s (adr pgSafety 0x08C) 31 0) 1
      ∧ getReg (linkError s) (adr pgSafety 0x24) = putBit (getReg s (adr pgSafety 0x24)) 0 true := by
  obtain ⟨hrest, hadd, hlatch, -⟩ := counted_event (page := pgSafety) (c := adr pgSafety 0x08C) (hi := 31) 0
    { s with cmd := { s.cmd with slkLast := .bad } } (by decide) (by decide) (by decide)
  have hpins := rest_pins hrest
  exact ⟨rest_cmd hrest, hpins, hadd, hlatch⟩

/-- A failing transaction while SLK_CS_N is low (`cs`) or high. -/
theorem linkError_setCs (cs : Bool) (s : State) :
    (linkError (setCs cs s)).cmd = { s.cmd with slkLast := .bad } ∧ (linkError (setCs cs s)).ctl.pins.csLow = cs
      ∧ getF (linkError (setCs cs s)) (adr pgSafety 0x08C) 31 0 = satAdd (2 ^ 32 - 1) (getF s (adr pgSafety 0x08C) 31 0) 1
      ∧ getReg (linkError (setCs cs s)) (adr pgSafety 0x24) = putBit (getReg s (adr pgSafety 0x24)) 0 true := by
  obtain ⟨hcmd, hpins, hadd, hlatch⟩ := linkError_moves (setCs cs s)
  exact ⟨hcmd, congrArg Pins.csLow hpins, hadd, hlatch⟩

/-- Settles O18: the rows of the watchdog, then those of the transactions. -/
theorem safetyLink : Obligations.SafetyLink := by
  refine ⟨fun s p v seq => ⟨safetyCtrlWrite_row, slkWdogExpiry_row, slkPoll_whole⟩,
    fun s seq => ⟨fun hon => ?_, fun hon => ?_, fun hoff => ?_⟩⟩
  · exact ⟨_, congrArg Host.Outcome.next (if_pos hon), linkError_setCs false s⟩
  · exact ⟨_, congrArg Host.Outcome.next (if_pos hon), linkError_setCs true s⟩
  · exact congrArg Host.Outcome.next (if_neg (by rw [hoff]; decide))

end Sys2Proof.Machine
end

section
namespace Sys2Proof.Machine

/-! ### ALARM_IN (R53, R77) -/

theorem alarmInRise_row {s : State} (hlow : s.ctl.pins.alarmIn = false) (hw : alarmWatched s = true) :
    exec .alarmInRise s = .next { s with ctl := { s.ctl with pins := { s.ctl.pins with
      alarmIn := true, alarmRise := some (s.tim.powered, minUs s) } } } := by
  refine congrArg Host.Outcome.next ((if_neg (by rw [hlow]; decide)).trans ?_)
  rw [if_pos hw]

/-- Outside sleep, and with no sleep being entered, an event moves neither the mode sequencer nor the power controller. -/
theorem hwEvent_awake {s : State} (hm : s.ctl.mode ≠ .still) (he : s.pwr.entering = false) (page n : Nat) :
    (hwEvent page n s).ctl = s.ctl ∧ (hwEvent page n s).pwr = s.pwr :=
  watch_split (hwEvent_watch page n s hm) he

/-- An accepted level in RUN, with no request, entry or TEST under way and nothing waiting: event 2 of PG_SAFETY, and then the
entry into SAFELIGHT (R53, R77). -/
theorem acceptAlarm_run {s : State} (hm : s.ctl.mode = .run) (he : s.ctl.entry = none) (hh : s.ctl.halted = false)
    (hfl : s.pwr.flight = none) (hslot : s.pwr.slot = none) (hen : s.pwr.entering = false)
    (ht : s.ctl.target ≠ some .test) (hi : portsIdle s) :
    ∃ u, u.rest = State.rest { s with ctl := { s.ctl with pins := { s.ctl.pins with alarmLevel := true, alarmRise := none } } }
      ∧ getReg u (adr pgSafety 0x24) = putBit (getReg s (adr pgSafety 0x24)) 2 true
      ∧ acceptAlarm s = { u with ctl := { u.ctl with
          entry := some { cause := 1, fromMode := 2 }, target := some .safelight } } := by
  obtain ⟨x, hx⟩ : ∃ x : State, x = { s with ctl := { s.ctl with
    pins := { s.ctl.pins with alarmLevel := true, alarmRise := none } } } := ⟨_, rfl⟩
  have hxm : x.ctl.mode = .run := by rw [hx]; exact hm
  have hxe : x.pwr = s.pwr := by rw [hx]
  have hstill : x.ctl.mode ≠ .still := by rw [hxm]; decide
  have hentering : x.pwr.entering = false := by rw [hxe]; exact hen
  obtain ⟨u, hu⟩ : ∃ u, u = hwEvent pgSafety 2 x := ⟨_, rfl⟩
  obtain ⟨hctl, hpwr⟩ := hwEvent_awake hstill hentering pgSafety 2
  rw [← hu] at hctl hpwr
  have hrest : u.rest = x.rest := by rw [hu, hwEvent_rest]
  have hidle : portsIdle u := portsIdle_of_rest hrest (by rw [hx]; exact hi)
  have hentry : u.ctl.entry = none := by rw [hctl, hx]; exact he
  have hhalted : u.ctl.halted = false := by rw [hctl, hx]; exact hh
  have htarget : u.ctl.target ≠ some .test := by rw [hctl, hx]; exact ht
  have htrig := safeTrigger_run (by rw [hctl, hxm]) hentry hhalted (by rw [hpwr, hxe, hslot]) (by rw [hpwr, hxe, hfl])
    (by rw [hpwr, hentering]) htarget hidle.2.2.2.2.2.2.1 1 1 11
  refine ⟨u, by rw [hrest, hx], ?_, ?_⟩
  · rw [hu, hwEvent_latch _ _ _ (by decide), hx]
    rfl
  · rw [acceptAlarm, ← hx, noteWake_awake hstill hentering, ← hu]
    simp only
    rw [if_neg (by rw [hh]; decide), htrig]
    exact settle_portsIdle _ hidle

theorem alarmInAccepted_run {s : State} (hr : s.ctl.pins.alarmRise.isSome = true) (hm : s.ctl.mode = .run)
    (he : s.ctl.entry = none) (hh : s.ctl.halted = false) (hfl : s.pwr.flight = none) (hslot : s.pwr.slot = none)
    (hen : s.pwr.entering = false) (ht : s.ctl.target ≠ some .test) (hi : portsIdle s) :
    ∃ t, exec .alarmInAccepted s = .next t ∧ t.ctl.pins.alarmLevel = true ∧ t.ctl.pins.alarmRise = none
      ∧ t.ctl.entry = some { cause := 1, fromMode := 2 } ∧ t.ctl.target = some .safelight ∧ t.ctl.mode = .run
      ∧ t.ctl.pins.safeActive = s.ctl.pins.safeActive ∧ (getReg t (adr pgSafety 0x24)).getLsbD 2 = true
      ∧ t.dataPath = s.dataPath ∧ t.tim = s.tim := by
  obtain ⟨r, hrise⟩ := Option.isSome_iff_exists.mp hr
  obtain ⟨u, hrest, hlatch, haccept⟩ := acceptAlarm_run hm he hh hfl hslot hen ht hi
  have hrow : execAlarmInAccepted s = .next (acceptAlarm s) := by rw [execAlarmInAccepted, hrise]
  have hlatched : (getReg u (adr pgSafety 0x24)).getLsbD 2 = true := by
    rw [hlatch, getLsbD_putBit]
    rfl
  have hmode : u.ctl.mode = .run := (rest_mode hrest).trans hm
  have hpins : u.ctl.pins = { s.ctl.pins with alarmLevel := true, alarmRise := none } := rest_pins hrest
  have hsafe : u.ctl.pins.safeActive = s.ctl.pins.safeActive := by rw [hpins]
  have hpath := dataPath_of_rest hrest
  have htim := rest_tim hrest
  exact ⟨_, hrow.trans (congrArg Host.Outcome.next haccept), congrArg Pins.alarmLevel hpins, congrArg Pins.alarmRise hpins,
    rfl, rfl, hmode, hsafe, hlatched, hpath, htim⟩

theorem alarmInAccepted_none {s : State} (hr : s.ctl.pins.alarmRise = none) : exec .alarmInAccepted s = .next s := by
  show execAlarmInAccepted s = _
  rw [execAlarmInAccepted, hr]

/-- Settles O10: the pin rows, then ALARM_IN_ACCEPTED with and without a rise on record. -/
theorem alarmInput : Obligations.AlarmInput :=
  ⟨fun _ => ⟨fun hlow hw => ⟨_, alarmInRise_row hlow hw, rfl, rfl, rfl⟩, _, rfl, rfl, rfl, rfl, rfl⟩,
    fun _ => ⟨alarmInAccepted_run, alarmInAccepted_none⟩⟩

end Sys2Proof.Machine
end

section
namespace Sys2Proof.Machine

/-! ### Reading a table after its entries are chosen, and its listed entries -/

theorem tabGet_keep {α : Type} (d : Nat → α) (p : Nat → Bool) (t : Tab α) (k : Nat) :
    tabGet d (tabKeep p t) k = if p k then tabGet d t k else d k := by
  induction t with
  | nil => simp [tabKeep, tabGet]
  | cons x r ih =>
    obtain ⟨a, v⟩ := x
    by_cases ha : a = k
    · subst ha
      by_cases hp : p a <;> simp [tabKeep, tabGet, hp, ih]
    · by_cases hp : p a <;> simp [tabKeep, tabGet, hp, ih, ha]

theorem tabGet_absent {α : Type} {d : Nat → α} {t : Tab α} {k : Nat} (h : ∀ x ∈ t, x.1 ≠ k) : tabGet d t k = d k := by
  induction t with
  | nil => rfl
  | cons x r ih =>
    rw [tabGet, if_neg (h x List.mem_cons_self)]
    exact ih fun y hy => h y (List.mem_cons_of_mem _ hy)

/-- In a table of rising keys a listed entry is the one that is read. -/
theorem tabGet_listed {α : Type} (d : Nat → α) {t : Tab α} {k : Nat} {v : α} (hs : t.Pairwise (fun x y => x.1 < y.1))
    (h : (k, v) ∈ t) : tabGet d t k = v := by
  induction t with
  | nil => cases h
  | cons x r ih =>
    obtain ⟨hx, hr⟩ := List.pairwise_cons.mp hs
    rw [tabGet]
    rcases List.mem_cons.mp h with rfl | h
    · exact if_pos rfl
    · rw [if_neg (Nat.ne_of_lt (hx _ h)), ih hr h]

/-- In canonical form a key is listed exactly where it does not read its default. -/
theorem tabWf_absent {α : Type} [DecidableEq α] {d : Nat → α} {t : Tab α} {k : Nat} (hw : tabWf d t) (h : tabGet d t k = d k) :
    ∀ x ∈ t, x.1 ≠ k := by
  rintro ⟨a, v⟩ hx rfl
  exact hw.2 _ hx ((tabGet_listed d hw.1 hx).symm.trans h)

theorem tabGet_mem {α : Type} {d : Nat → α} {t : Tab α} {k : Nat} (h : tabGet d t k ≠ d k) : (k, tabGet d t k) ∈ t := by
  induction t with
  | nil => exact absurd rfl h
  | cons x r ih =>
    obtain ⟨a, v⟩ := x
    by_cases ha : a = k
    · subst ha
      simp [tabGet]
    · rw [tabGet, if_neg ha] at h ⊢
      exact List.mem_cons_of_mem _ (ih h)

/-! ### Operations that move stored registers and nothing else -/

/-- `t` is `s` but for the stored registers. -/
def regsMove (s t : State) : Prop := t = { s with win := { s.win with regs := t.win.regs } }

theorem regsMove_refl (s : State) : regsMove s s := rfl
theorem regsMove_setReg (a : Nat) (w : Word) (s : State) : regsMove s (setReg a w s) := rfl
theorem regsMove_setPair (a v : Nat) (s : State) : regsMove s (setPair a v s) := rfl

theorem regsMove_trans {s t u : State} (h : regsMove s t) (k : regsMove t u) : regsMove s u := by
  rw [regsMove] at *
  rw [k, h]

theorem regsMove_ite {c : Prop} [Decidable c] {s t u : State} (ht : regsMove s t) (hu : regsMove s u) :
    regsMove s (if c then t else u) := by
  split
  · exact ht
  · exact hu

theorem getReg_setPair_other {a b : Nat} (v : Nat) (s : State) (h : b ≠ a) (h4 : b ≠ a + 4) :
    getReg (setPair a v s) b = getReg s b := by
  rw [setPair, getReg_setReg_other _ _ h4, getReg_setReg_other _ _ h]

/-! ### SNAP: every listed live counter into its captured register (R102, R160) -/

/-- One live counter is captured: both words of a 64-bit one, else its low word. -/
def captureOne (a v : Nat) (s : State) : State := if liveMax a = 2 ^ 64 - 1 then setPair a v s else setReg a (word v) s

theorem captureLive_cons (p : Nat → Bool) (x : Nat × Nat) (r : Tab Nat) (s : State) :
    captureLive p (x :: r) s = captureLive p r (if p x.1 then captureOne x.1 x.2 s else s) := rfl

theorem regsMove_captureLive (p : Nat → Bool) (l : Tab Nat) (s : State) : regsMove s (captureLive p l s) := by
  induction l generalizing s with
  | nil => exact regsMove_refl s
  | cons x r ih =>
    refine regsMove_trans ?_ (ih _)
    exact regsMove_ite (regsMove_ite (regsMove_setPair _ _ s) (regsMove_setReg _ _ s)) (regsMove_refl s)

/-- The words that capturing the counter at `a` stores. -/
abbrev capturedAt (a b : Nat) : Prop := b = a ∨ (liveMax a = 2 ^ 64 - 1 ∧ b = a + 4)

theorem getReg_captureOne_other {a b : Nat} (v : Nat) (s : State) (h : ¬ capturedAt a b) :
    getReg (captureOne a v s) b = getReg s b := by
  rw [capturedAt, not_or, not_and] at h
  rw [captureOne]
  split
  · next hm => exact getReg_setPair_other v s h.1 (h.2 hm)
  · exact getReg_setReg_other _ s h.1

theorem getReg_captureLive_other {p : Nat → Bool} {l : Tab Nat} {b : Nat} (s : State)
    (h : ∀ x ∈ l, p x.1 = true → ¬ capturedAt x.1 b) : getReg (captureLive p l s) b = getReg s b := by
  induction l generalizing s with
  | nil => rfl
  | cons x r ih =>
    rw [captureLive_cons, ih _ fun y hy => h y (List.mem_cons_of_mem _ hy)]
    split
    · next hp => exact getReg_captureOne_other x.2 s (h x List.mem_cons_self hp)
    · rfl

/-- A listed counter is captured, whatever stood before, where no later entry reaches the word. -/
theorem captureLive_listed {p : Nat → Bool} {l : Tab Nat} {a v : Nat} (s : State) (hs : l.Pairwise (fun x y => x.1 < y.1))
    (hm : (a, v) ∈ l) (hp : p a = true) :
    ∃ u, ∀ b, a ≤ b → (∀ x ∈ l, a < x.1 → ¬ capturedAt x.1 b) → getReg (captureLive p l s) b = getReg (captureOne a v u) b := by
  induction l generalizing s with
  | nil => cases hm
  | cons x r ih =>
    obtain ⟨hx, hr⟩ := List.pairwise_cons.mp hs
    rw [captureLive_cons]
    rcases List.mem_cons.mp hm with rfl | hm
    · refine ⟨s, fun b _ hb => ?_⟩
      rw [if_pos hp]
      exact getReg_captureLive_other _ fun y hy _ => hb y (List.mem_cons_of_mem _ hy) (hx y hy)
    · obtain ⟨u, hu⟩ := ih (if p x.1 then captureOne x.1 x.2 s else s) hr hm
      exact ⟨u, fun b hab hb => hu b hab fun y hy => hb y (List.mem_cons_of_mem _ hy)⟩

theorem getReg_dropRegs (q : Nat → Bool) (s : State) (b : Nat) :
    getReg { s with win := { s.win with regs := tabKeep q s.win.regs } } b = if q b then getReg s b else regReset b :=
  tabGet_keep regReset q s.win.regs b

theorem regsMove_snapPage (g : Nat) (s : State) : regsMove s (snapPage g s) :=
  regsMove_trans (show regsMove s { s with win := { s.win with regs := tabKeep (fun a => !pageCounter g a) s.win.regs } } from rfl)
    (regsMove_captureLive _ _ _)

theorem snapPage_other {g b : Nat} (s : State) (h : pageCounter g b = false) (h4 : pageCounter g (b - 4) = false) :
    getReg (snapPage g s) b = getReg s b := by
  rw [snapPage, getReg_captureLive_other, getReg_dropRegs, if_pos (by rw [h]; rfl)]
  rintro x - hp (rfl | ⟨-, rfl⟩)
  · rw [h] at hp; cases hp
  · rw [Nat.add_sub_cancel] at h4
    rw [h4] at hp; cases hp

/-- A counter that has counted nothing reads its reset value. -/
theorem snapPage_zero {g a : Nat} {s : State} (hw : tabWf (fun _ => 0) s.win.live) (hc : pageCounter g a = true)
    (h4 : liveMax (a - 4) = 2 ^ 32 - 1) (hz : getLive s a = 0) : getReg (snapPage g s) a = regReset a := by
  rw [snapPage, getReg_captureLive_other, getReg_dropRegs, if_neg (by rw [hc]; decide)]
  rintro x hx - (e | ⟨hm, e⟩)
  · exact tabWf_absent hw hz x hx e.symm
  · rw [e, Nat.add_sub_cancel, hm] at h4
    exact absurd h4 (by decide)

theorem snapPage_counted {g a : Nat} {s : State} (hw : tabWf (fun _ => 0) s.win.live) (hc : pageCounter g a = true)
    (hz : getLive s a ≠ 0) : ∃ u, ∀ b, a ≤ b → (∀ x ∈ s.win.live, a < x.1 → ¬ capturedAt x.1 b) →
      getReg (snapPage g s) b = getReg (captureOne a (getLive s a) u) b :=
  captureLive_listed _ hw.1 (tabGet_mem (d := fun _ => 0) hz) hc

theorem snapPage_low {g a : Nat} {s : State} (hw : tabWf (fun _ => 0) s.win.live) (hc : pageCounter g a = true)
    (hm : liveMax a = 2 ^ 32 - 1) (hz : getLive s a ≠ 0) : getReg (snapPage g s) a = word (getLive s a) := by
  obtain ⟨u, hu⟩ := snapPage_counted hw hc hz
  rw [hu a (Nat.le_refl a) fun x _ hx hcap => by omega, captureOne, if_neg (by rw [hm]; decide), getReg_setReg_same]

theorem snapPage_pair {g a : Nat} {s : State} (hw : tabWf (fun _ => 0) s.win.live) (hc : pageCounter g a = true)
    (hm : liveMax a = 2 ^ 64 - 1) (hz : getLive s a ≠ 0) (h4 : getLive s (a + 4) = 0) :
    getPair (snapPage g s) a = getLive s a % 2 ^ 64 := by
  obtain ⟨u, hu⟩ := snapPage_counted hw hc hz
  have hlo := hu a (Nat.le_refl a) fun x _ hx hcap => by omega
  have hhi := hu (a + 4) (by omega) fun x hx _ hcap => by
    have := tabWf_absent hw h4 x hx
    omega
  rw [getPair_congr hlo hhi, captureOne, if_pos hm, getPair_setPair]

/-! ### CNT_CLR (R102, R160) -/

theorem getLive_clearLive (q : Nat → Bool) (s : State) (a : Nat) : getLive (clearLive q s) a = if q a then 0 else getLive s a := by
  rw [show getLive (clearLive q s) a = tabGet (fun _ => 0) (tabKeep (fun a => !q a) s.win.live) a from rfl, tabGet_keep]
  cases q a <;> rfl

theorem getReg_clearLive (q : Nat → Bool) (s : State) (a : Nat) :
    getReg (clearLive q s) a = if q a then regReset a else getReg s a := by
  rw [show getReg (clearLive q s) a = tabGet regReset (tabKeep (fun a => !q a) s.win.regs) a from rfl, tabGet_keep]
  cases q a <;> rfl

/-- SNAP and CNT_CLR of a page reach the same page's counters, behind a stand-in too (R101). -/
theorem aliasPage_snap_clear {page : Fin 1024} {o : Nat} (s : State) (ho : snapOff (pageInfo page).kind = some o) :
    pageOf (aliasOf s (adr page (o + 4))) = pageOf (aliasOf s (adr page o)) := by
  have hlt : 0x010 ≤ o ∧ o < 0x0FC := by
    revert ho
    cases (pageInfo page).kind <;> simp only [snapOff, Option.some.injEq, reduceCtorEq, false_imp_iff] <;> omega
  have hp := pageOf_adr (page := page) (off := o) (by omega)
  have hp4 := pageOf_adr (page := page) (off := o + 4) (by omega)
  have h1 : 0x010 ≤ o + 4 := by omega
  have h2 : ¬ 0x100 ≤ o := by omega
  have h3 : ¬ 0x100 ≤ o + 4 := by omega
  have hq := fun k => pageOf_adr (page := k) (off := o) (by omega)
  have hq4 := fun k => pageOf_adr (page := k) (off := o + 4) (by omega)
  simp only [aliasOf, hp, hp4, offOf_adr (show o < 4096 by omega), offOf_adr (show o + 4 < 4096 by omega), hlt.1, h1, h2, h3, if_true,
    false_and, if_false]
  cases (pageInfo page).kind <;> simp only [hp, hp4, hq, hq4]

end Sys2Proof.Machine
end

section
namespace Sys2Proof.Machine

/-! ### LOUPE's banks: values and captured values (R396) -/

/-- A register behind the header of a LOUPE bank resets to 0 (Table 23.6). -/
theorem regReset_bank {a : Nat} (hk : (pageInfo (pageOf a)).kind = .loupeBank) (ho : 0x080 ≤ offOf a) : regReset a = 0 := by
  have hrow : ∀ r ∈ rowsLoupeBank, r.reset = 0 := by decide
  have hfind : ∀ (l : List RegRow) (r : RegRow) (o : Nat), findRow l o = some r → r ∈ l := by
    intro l r o
    induction l with
    | nil => exact fun h => nomatch h
    | cons x t ih =>
      rw [findRow]
      split
      · exact fun h => Option.some.inj h ▸ List.mem_cons_self
      · exact fun h => List.mem_cons_of_mem _ (ih h)
  have hr : rowAt a = findRow rowsLoupeBank (offOf a) := by
    simp only [rowAt, hk, if_neg (Nat.not_lt.mpr ho)]
    rfl
  rw [regReset, hr]
  cases h : findRow rowsLoupeBank (offOf a) with
  | none => rfl
  | some r =>
    simp only [hk, specialReset]
    exact hrow r (hfind _ _ _ h)

theorem pageInfo_bank {b : Nat} (hb : b < 8) : (pageInfo (pgBank b)).kind = .loupeBank := by
  have h : ∀ b : Fin 8, (pageInfo (pgBank b)).kind = .loupeBank := by decide
  exact h ⟨b, hb⟩

theorem isBankWord_iff {lo hi a : Nat} :
    isBankWord lo hi a = true ↔ (0x0A1 ≤ pageOf a ∧ pageOf a < 0x0A9) ∧ lo ≤ offOf a ∧ offOf a < hi := by
  simp only [isBankWord, Bool.and_eq_true, decide_eq_true_eq, and_assoc]

theorem regReset_bankWord {lo hi a : Nat} (hlo : 0x080 ≤ lo) (h : isBankWord lo hi a = true) : regReset a = 0 := by
  obtain ⟨⟨h1, h2⟩, h3, -⟩ := isBankWord_iff.mp h
  refine regReset_bank ?_ (Nat.le_trans hlo h3)
  rw [show pageOf a = pgBank (pageOf a - 0x0A1) by simp only [pgBank]; omega]
  exact pageInfo_bank (by omega)

/-- The captured words lie 0x400 above the values they copy. -/
theorem isBankWord_shift {a : Nat} (h : isBankWord 0x400 0x800 a = true) : isBankWord 0x800 0xC00 (a + 0x400) = true := by
  rw [isBankWord_iff] at *
  simp only [pageOf, offOf] at *
  omega

theorem lpVal_words {c : Nat} (hc : c < 1024) :
    isBankWord 0x400 0x800 (lpVal c) = true ∧ isBankWord 0x400 0x800 (lpVal c + 4) = true := by
  simp only [isBankWord_iff, lpVal, adr, pgBank, pageOf, offOf]
  omega

theorem lpCap_eq (c : Nat) : lpCap c = lpVal c + 0x400 := by simp only [lpCap, lpVal, adr]; omega

theorem lpVal_inj {c d : Nat} (h : lpVal c = lpVal d) : c = d := by simp only [lpVal, adr, pgBank] at h; omega

theorem lpVal_ne_high (c d : Nat) : lpVal c ≠ lpVal d + 4 := by simp only [lpVal, adr, pgBank]; omega

theorem getPair_setPair_val (c d v : Nat) (s : State) :
    getPair (setPair (lpVal d) v s) (lpVal c) = if c = d then v % 2 ^ 64 else getPair s (lpVal c) := by
  split
  · next h => rw [h, getPair_setPair]
  · next h =>
    have h1 : lpVal c ≠ lpVal d := fun e => h (lpVal_inj e)
    have h2 := lpVal_ne_high c d
    have h3 := lpVal_ne_high d c
    exact getPair_congr (getReg_setPair_other v s h1 h2) (getReg_setPair_other v s (Ne.symm h3) (by omega))

/-! ### LOUPE_SNAP (R396) -/

theorem mem_capWords {l : Tab Word} {x : Nat × Word} :
    x ∈ capWords l ↔ ∃ a, (a, x.2) ∈ l ∧ isBankWord 0x400 0x800 a = true ∧ x.1 = a + 0x400 := by
  induction l with
  | nil => simp [capWords]
  | cons y r ih =>
    obtain ⟨b, w⟩ := y
    obtain ⟨k, v⟩ := x
    rw [capWords]
    constructor
    · intro h
      split at h
      · next hb =>
        rcases List.mem_cons.mp h with h | h
        · cases h
          exact ⟨b, List.mem_cons_self, hb, rfl⟩
        · obtain ⟨a, ha, hw⟩ := ih.mp h
          exact ⟨a, List.mem_cons_of_mem _ ha, hw⟩
      · obtain ⟨a, ha, hw⟩ := ih.mp h
        exact ⟨a, List.mem_cons_of_mem _ ha, hw⟩
    · rintro ⟨a, ha, hb, hk⟩
      rcases List.mem_cons.mp ha with ha | ha
      · cases ha
        rw [if_pos hb]
        exact List.mem_cons.mpr (.inl (by rw [show k = b + 0x400 from hk]))
      · split
        · exact List.mem_cons_of_mem _ (ih.mpr ⟨a, ha, hb, hk⟩)
        · exact ih.mpr ⟨a, ha, hb, hk⟩

theorem capWords_sorted {l : Tab Word} (h : l.Pairwise (fun x y => x.1 < y.1)) :
    (capWords l).Pairwise (fun x y => x.1 < y.1) := by
  induction l with
  | nil => exact List.Pairwise.nil
  | cons y r ih =>
    obtain ⟨b, w⟩ := y
    obtain ⟨hy, hr⟩ := List.pairwise_cons.mp h
    rw [capWords]
    split
    · refine List.pairwise_cons.mpr ⟨fun x hx => ?_, ih hr⟩
      obtain ⟨a, ha, -, hk⟩ := mem_capWords.mp hx
      have hlt : b < a := hy _ ha
      show b + 0x400 < x.1
      omega
    · exact ih hr

theorem getReg_setListed_other {l : List (Nat × Word)} {b : Nat} (s : State) (h : ∀ x ∈ l, x.1 ≠ b) :
    getReg (setListed l s) b = getReg s b := by
  induction l generalizing s with
  | nil => rfl
  | cons x r ih =>
    rw [setListed, ih _ fun y hy => h y (List.mem_cons_of_mem _ hy), getReg_setReg_other _ _ (h x List.mem_cons_self).symm]

theorem getReg_setListed_mem {l : List (Nat × Word)} {b : Nat} {w : Word} (s : State) (hs : l.Pairwise (fun x y => x.1 < y.1))
    (h : (b, w) ∈ l) : getReg (setListed l s) b = w := by
  induction l generalizing s with
  | nil => cases h
  | cons x r ih =>
    obtain ⟨hx, hr⟩ := List.pairwise_cons.mp hs
    rw [setListed]
    rcases List.mem_cons.mp h with rfl | h
    · rw [getReg_setListed_other _ fun y hy => (Nat.ne_of_lt (hx y hy)).symm, getReg_setReg_same]
    · exact ih _ hr h

theorem regsMove_setListed (l : List (Nat × Word)) (s : State) : regsMove s (setListed l s) := by
  induction l generalizing s with
  | nil => exact regsMove_refl s
  | cons x r ih => exact regsMove_trans (regsMove_setReg _ _ s) (ih _)

theorem regsMove_loupeSnap (s : State) : regsMove s (loupeSnap s) :=
  regsMove_trans (show regsMove s { s with win := { s.win with regs := tabKeep (fun a => !isBankWord 0x800 0xC00 a) s.win.regs } } from
    rfl) (regsMove_setListed _ _)

/-- The captured word of a value word is its copy. -/
theorem loupeSnap_copies {s : State} {a : Nat} (hw : tabWf regReset s.win.regs) (ha : isBankWord 0x400 0x800 a = true) :
    getReg (loupeSnap s) (a + 0x400) = getReg s a := by
  have hcap := isBankWord_shift ha
  by_cases hz : getReg s a = regReset a
  · rw [loupeSnap, getReg_setListed_other, getReg_dropRegs, if_neg (by rw [hcap]; decide), hz,
      regReset_bankWord (by decide) ha, regReset_bankWord (by decide) hcap]
    intro x hx
    obtain ⟨b, hb, -, hk⟩ := mem_capWords.mp hx
    have : b ≠ a := tabWf_absent hw hz _ hb
    omega
  · exact getReg_setListed_mem _ (capWords_sorted hw.1) (mem_capWords.mpr ⟨a, tabGet_mem hz, ha, rfl⟩)

theorem loupeSnap_other {s : State} {b : Nat} (hb : isBankWord 0x800 0xC00 b = false) : getReg (loupeSnap s) b = getReg s b := by
  rw [loupeSnap, getReg_setListed_other, getReg_dropRegs, if_pos (by rw [hb]; rfl)]
  rintro x hx rfl
  obtain ⟨a, -, ha, hk⟩ := mem_capWords.mp hx
  rw [hk, isBankWord_shift ha] at hb
  cases hb

theorem loupeSnap_pairs {s : State} (hw : tabWf regReset s.win.regs) {c : Nat} (hc : c < 1024) :
    getPair (loupeSnap s) (lpCap c) = getPair s (lpVal c) := by
  obtain ⟨h1, h2⟩ := lpVal_words hc
  rw [getPair, getPair, lpCap_eq, loupeSnap_copies hw h1, show lpVal c + 0x400 + 4 = lpVal c + 4 + 0x400 from rfl,
    loupeSnap_copies hw h2]

/-! ### LOUPE_CFG_WRITE and LOUPE_CLR (R397) -/

theorem regsMove_storeRw (a : Nat) (v : Word) (s : State) : regsMove s (storeRw a v s) := by
  obtain h | ⟨w, h⟩ := storeRw_cases a v s
  · rw [h]; exact regsMove_refl s
  · rw [h]; exact regsMove_setReg a w s

theorem getReg_storeRw_same {a : Nat} {r : RegRow} (v : Word) (s : State) (hr : rowAt a = some r) :
    getReg (storeRw a v s) a = (getReg s a &&& ~~~r.rw) ||| (v &&& r.rw) := by
  simp only [storeRw, hr, getReg_setReg_same]

theorem lpCfg_ne_val (c d : Nat) : lpCfg c ≠ lpVal d ∧ lpCfg c ≠ lpVal d + 4 := by
  simp only [lpCfg, lpVal, adr, pgBank]
  omega

/-- A write of CFG_c stores its writable bits, and clears VAL_c exactly where the register then reads otherwise. -/
theorem loupeCfg_stores (c : Nat) (v : Word) (s : State) :
    getReg (loupeCfg c v s) (lpCfg c) = getReg (storeRw (lpCfg c) v s) (lpCfg c)
      ∧ (getReg (loupeCfg c v s) (lpCfg c) ≠ getReg s (lpCfg c) → getPair (loupeCfg c v s) (lpVal c) = 0)
      ∧ (getReg (loupeCfg c v s) (lpCfg c) = getReg s (lpCfg c) → ∀ x, getReg (loupeCfg c v s) x = getReg s x)
      ∧ (∀ x, x ∉ [lpCfg c, lpVal c, lpVal c + 4] → getReg (loupeCfg c v s) x = getReg s x)
      ∧ regsMove s (loupeCfg c v s) := by
  obtain ⟨-, -, hother⟩ := storeRw_frame (lpCfg c) v s
  have hmove := regsMove_storeRw (lpCfg c) v s
  obtain ⟨hne, hne4⟩ := lpCfg_ne_val c c
  have hcfg := getReg_setPair_other 0 (storeRw (lpCfg c) v s) hne hne4
  by_cases he : getReg (storeRw (lpCfg c) v s) (lpCfg c) = getReg s (lpCfg c)
  · rw [show loupeCfg c v s = storeRw (lpCfg c) v s from if_pos he]
    refine ⟨rfl, fun h => absurd he h, fun _ x => ?_, fun x hx => hother x fun e => hx (e ▸ List.mem_cons_self), hmove⟩
    by_cases hx : x = lpCfg c
    · rw [hx, he]
    · exact hother x hx
  · rw [show loupeCfg c v s = setPair (lpVal c) 0 (storeRw (lpCfg c) v s) from if_neg he]
    refine ⟨hcfg, fun _ => getPair_setPair _ _ _, fun h => absurd (hcfg.symm.trans h) he, fun x hx => ?_,
      regsMove_trans hmove (regsMove_setPair _ _ _)⟩
    simp only [List.mem_cons, List.not_mem_nil, or_false, not_or] at hx
    rw [getReg_setPair_other 0 _ hx.2.1 hx.2.2, hother x hx.1]

/-- The counters from `base` on that bits of `v` name, cleared one after the other. -/
def clearVals (base : Nat) (v : Word) (l : List Nat) (s : State) : State :=
  l.foldl (fun x i => if bit v i then setPair (lpVal (base + i)) 0 x else x) s

theorem clearVals_cons (base : Nat) (v : Word) (i : Nat) (r : List Nat) (s : State) :
    clearVals base v (i :: r) s = clearVals base v r (if bit v i then setPair (lpVal (base + i)) 0 s else s) := rfl

theorem getPair_clearVals (base : Nat) (v : Word) (l : List Nat) (s : State) (c : Nat) :
    getPair (clearVals base v l s) (lpVal c) = if ∃ i ∈ l, bit v i = true ∧ c = base + i then 0 else getPair s (lpVal c) := by
  induction l generalizing s with
  | nil => simp [clearVals]
  | cons i r ih =>
    rw [clearVals_cons, ih]
    by_cases hr : ∃ j ∈ r, bit v j = true ∧ c = base + j
    · obtain ⟨j, hj, hb⟩ := hr
      rw [if_pos ⟨j, hj, hb⟩, if_pos ⟨j, List.mem_cons_of_mem _ hj, hb⟩]
    · rw [if_neg hr]
      by_cases hi : bit v i = true ∧ c = base + i
      · rw [if_pos hi.1, getPair_setPair_val, if_pos hi.2, if_pos ⟨i, List.mem_cons_self, hi⟩]
        rfl
      · have hnone : ¬ ∃ j ∈ i :: r, bit v j = true ∧ c = base + j := by
          rintro ⟨j, hj, hb⟩
          rcases List.mem_cons.mp hj with rfl | hj
          · exact hi hb
          · exact hr ⟨j, hj, hb⟩
        rw [if_neg hnone]
        by_cases hb : bit v i = true
        · rw [if_pos hb, getPair_setPair_val, if_neg fun e => hi ⟨hb, e⟩]
        · rw [if_neg hb]

theorem clearVals_other {base : Nat} {v : Word} {l : List Nat} {b : Nat} (s : State)
    (h : ∀ i ∈ l, b ≠ lpVal (base + i) ∧ b ≠ lpVal (base + i) + 4) : getReg (clearVals base v l s) b = getReg s b := by
  induction l generalizing s with
  | nil => rfl
  | cons i r ih =>
    rw [clearVals_cons, ih _ fun j hj => h j (List.mem_cons_of_mem _ hj)]
    split
    · obtain ⟨h1, h2⟩ := h i List.mem_cons_self
      exact getReg_setPair_other 0 s h1 h2
    · rfl

theorem regsMove_clearVals (base : Nat) (v : Word) (l : List Nat) (s : State) : regsMove s (clearVals base v l s) := by
  induction l generalizing s with
  | nil => exact regsMove_refl s
  | cons i r ih => exact regsMove_trans (regsMove_ite (regsMove_setPair _ _ s) (regsMove_refl s)) (ih _)

theorem loupeClr_eq (b w : Nat) (v : Word) (s : State) : loupeClr b w v s = clearVals (128 * b + 32 * w) v (List.range 32) s := rfl

/-- Bit i of CLR_w of bank b names counter 128 b + 32 w + i (Table 23.6). -/
theorem clr_names {b w c : Nat} {v : Word} : (∃ i ∈ List.range 32, bit v i = true ∧ c = 128 * b + 32 * w + i)
    ↔ c / 32 = 4 * b + w ∧ bit v (c % 32) = true := by
  constructor
  · rintro ⟨i, hi, hb, rfl⟩
    have hi := List.mem_range.mp hi
    exact ⟨by omega, by rwa [show (128 * b + 32 * w + i) % 32 = i by omega]⟩
  · rintro ⟨hq, hb⟩
    exact ⟨c % 32, List.mem_range.mpr (Nat.mod_lt _ (by decide)), hb, by omega⟩

theorem regsMove_loupeClr (b w : Nat) (v : Word) (s : State) : regsMove s (loupeClr b w v s) := by
  rw [loupeClr_eq]
  exact regsMove_clearVals _ _ _ s

theorem getPair_loupeClr (b w : Nat) (v : Word) (s : State) (c : Nat) : getPair (loupeClr b w v s) (lpVal c)
    = if c / 32 = 4 * b + w ∧ bit v (c % 32) = true then 0 else getPair s (lpVal c) := by
  rw [loupeClr_eq, getPair_clearVals]
  simp only [clr_names]

theorem loupeClr_other {b w : Nat} (hb : b < 8) (hw : w < 4) (v : Word) (s : State) {x : Nat}
    (hx : isBankWord 0x400 0x800 x = false) : getReg (loupeClr b w v s) x = getReg s x := by
  rw [loupeClr_eq]
  refine clearVals_other s fun i hi => ?_
  have hi := List.mem_range.mp hi
  obtain ⟨h1, h2⟩ := lpVal_words (c := 128 * b + 32 * w + i) (by omega)
  constructor
  · rintro rfl
    rw [h1] at hx; cases hx
  · rintro rfl
    rw [h2] at hx; cases hx

/-! ### BW_WINDOW_END (R398) -/

/-- BW_p. -/
def bwA (p : Nat) : Nat := adr pgLoupe (0x800 + 4 * p)

/-- The word of BW_p at a window's end: the utilisation of the port, transmit above receive. -/
def bwWord (s : State) (p : Nat) : Word :=
  let speed := match portShape s p with | some x => speedGb x.speed | none => 0
  word (utilisation (tabGet (fun _ => 0) s.loupe.txSum p) s.loupe.window speed * 2 ^ 16
    + utilisation (tabGet (fun _ => 0) s.loupe.rxSum p) s.loupe.window speed)

theorem bwPorts_cons (p : Nat) (r : List Nat) (s : State) : bwPorts (p :: r) s = bwPorts r (setReg (bwA p) (bwWord s p) s) := rfl

theorem portShape_congr {s t : State} {p : Nat}
    (h : getReg t (portLiveA (p / 8) (p % 8)) = getReg s (portLiveA (p / 8) (p % 8))) : portShape t p = portShape s p := by
  rw [portShape, liveShape_congr h, portShape]

theorem bwWord_setBw {p : Nat} (hp : p < 512) (w : Word) (s : State) (q : Nat) : bwWord (setReg (bwA p) w s) q = bwWord s q := by
  have hs : portShape (setReg (bwA p) w s) q = portShape s q :=
    portShape_congr (getReg_setReg_other w s (by simp only [portLiveA, bwA, adr, pgCl, pgLoupe]; omega))
  simp only [bwWord, hs, setReg_loupe]

theorem getReg_bwPorts_other {l : List Nat} {b : Nat} (s : State) (h : ∀ p ∈ l, b ≠ bwA p) :
    getReg (bwPorts l s) b = getReg s b := by
  induction l generalizing s with
  | nil => rfl
  | cons p r ih =>
    rw [bwPorts_cons, ih _ fun q hq => h q (List.mem_cons_of_mem _ hq), getReg_setReg_other _ _ (h p List.mem_cons_self)]

theorem getReg_bwPorts {l : List Nat} (hl : ∀ p ∈ l, p < 512) (s : State) {p : Nat} (hp : p ∈ l) :
    getReg (bwPorts l s) (bwA p) = bwWord s p := by
  induction l generalizing s with
  | nil => cases hp
  | cons q r ih =>
    have hr : ∀ x ∈ r, x < 512 := fun x hx => hl x (List.mem_cons_of_mem _ hx)
    rw [bwPorts_cons]
    by_cases hpr : p ∈ r
    · rw [ih hr _ hpr, bwWord_setBw (hl q List.mem_cons_self)]
    · obtain rfl : p = q := (List.mem_cons.mp hp).resolve_right hpr
      rw [getReg_bwPorts_other, getReg_setReg_same]
      intro x hx e
      have : p = x := by simp only [bwA, adr] at e; omega
      exact hpr (this ▸ hx)

theorem regsMove_bwPorts (l : List Nat) (s : State) : regsMove s (bwPorts l s) := by
  induction l generalizing s with
  | nil => exact regsMove_refl s
  | cons p r ih => exact regsMove_trans (regsMove_setReg _ _ s) (ih _)

theorem bwPorts_other {b : Nat} (s : State) (hb : pageOf b ≠ pgLoupe ∨ offOf b < 0x800) :
    getReg (bwPorts (List.range 512) s) b = getReg s b := by
  refine getReg_bwPorts_other s fun p hp e => ?_
  have hp := List.mem_range.mp hp
  rw [e, bwA, pageOf_adr (by omega), offOf_adr (by omega)] at hb
  omega

theorem windowUs_congr {s t : State} (h : getReg t (adr pgLoupe 0x084) = getReg s (adr pgLoupe 0x084)) :
    windowUs t = windowUs s := by rw [windowUs, getF_congr h, windowUs]

/-- A window ends with the words `u` of its ports stored: the sums start again. -/
def windowEnded (u : State) : State :=
  { u with loupe := { u.loupe with rxSum := [], txSum := [], window := windowUs u } }

theorem exec_bwWindowEnd (s : State) : exec .bwWindowEnd s = .next (windowEnded (bwPorts (List.range 512) s)) := rfl

theorem windowEnded_win (u : State) : (windowEnded u).win = u.win := rfl

theorem getReg_windowEnded (u : State) (b : Nat) : getReg (windowEnded u) b = getReg u b := by
  rw [getReg, windowEnded_win, getReg]

theorem windowEnded_moves {s u : State} (hmove : regsMove s u) (hcfg : getReg u (adr pgLoupe 0x084) = getReg s (adr pgLoupe 0x084)) :
    (windowEnded u).loupe = { s.loupe with rxSum := [], txSum := [], window := windowUs s }
      ∧ windowEnded u = { s with win := { s.win with regs := (windowEnded u).win.regs }, loupe := (windowEnded u).loupe } := by
  rw [← windowUs_congr hcfg, windowEnded]
  rw [regsMove] at hmove
  generalize windowUs u = n
  rw [hmove]
  exact ⟨rfl, rfl⟩

/-! ### ARCHIVE_CAPTURE (R399) -/

/-- Issuing requests moves the memory port and what it drives; the indices stay (R400). -/
theorem memPump_moves (f : Nat) (s : State) :
    memPump f s = { s with mem := (memPump f s).mem, out := (memPump f s).out } ∧ (memPump f s).mem.next = s.mem.next := by
  induction f generalizing s with
  | zero => exact ⟨rfl, rfl⟩
  | succ f ih =>
    rw [memPump]
    split
    · exact ⟨rfl, rfl⟩
    · split
      · exact ⟨rfl, rfl⟩
      · obtain ⟨h1, h2⟩ := ih { s with mem := { s.mem with queue := ‹_› } }
        exact ⟨h1.trans rfl, h2⟩
      · next q qs r _ =>
        obtain ⟨h1, h2⟩ := ih (emit (lineWrite q.addr q.data) { s with mem := { s.mem with
          queue := if qs = [] then r else qs :: r, outstanding := s.mem.outstanding ++ [q] } })
        exact ⟨h1.trans rfl, h2⟩

theorem recordDrop_archive_rest (s : State) : (recordDrop 0 s).rest = s.rest := hwEvent_rest pgLoupe 1 _

/-- What issuing an archive record leaves alone, whether it is taken or dropped. -/
theorem issueArchive_keeps (mk : Nat → List Byte) (s : State) : (issueRecord 0 mk s).loupe = s.loupe
    ∧ (issueRecord 0 mk s).ctl.mode = s.ctl.mode ∧ (issueRecord 0 mk s).dataPath = s.dataPath := by
  have hdrop : ∀ t : State, t.rest = s.rest → t.loupe = s.loupe ∧ t.ctl.mode = s.ctl.mode ∧ t.dataPath = s.dataPath := fun t h =>
    ⟨congrArg (fun x => x.loupe) h, rest_mode h, dataPath_of_rest h⟩
  simp only [issueRecord]
  split
  · exact hdrop _ (recordDrop_archive_rest s)
  · split
    · exact hdrop _ ((hwEvent_rest pgMem 3 _).trans (recordDrop_archive_rest s))
    · rw [memGo, (memPump_moves _ _).1]
      exact ⟨rfl, rfl, rfl⟩

/-- A record for which ring, queue and region have room takes the next index (R247, R400). -/
theorem issueRecord_index {u : Nat} (mk : Nat → List Byte) {s : State} (hv : regionValid s u = true)
    (hc : s.mem.closing.contains u = false) (hq : s.mem.queue.length < 256)
    (hr : (nextIndex s u + 1 + 2 ^ 32 - (getReg s (rdA u)).toNat) % 2 ^ 32 ≤ ringSize s u) :
    nextIndex (issueRecord u mk s) u = (nextIndex s u + 1) % 2 ^ 64 := by
  simp only [issueRecord]
  rw [if_neg, if_neg (by omega), nextIndex, memGo, (memPump_moves _ _).2]
  · exact (tabGet_set (fun _ => 0) s.mem.next u u _).trans (if_pos rfl)
  · rw [hv, hc]
    simp only [Bool.true_eq_false, Bool.false_eq_true, false_or]
    omega

theorem archLayout_moves (s : State) : archLayout s = { s with loupe := (archLayout s).loupe }
    ∧ (archLayout s).loupe.recLen = archLen s := by
  rw [archLayout]
  split
  · exact ⟨rfl, ‹_›⟩
  · exact ⟨rfl, rfl⟩

/-- A capture in RUN or TEST, the archive enabled and its region valid. -/
def captured (s : State) : State :=
  let s2 := issueRecord 0 (archRecord (archLayout s)) (archLayout s)
  { s2 with loupe := { s2.loupe with missed := false } }

theorem exec_archiveCapture_serves {s : State} (he : getB s (adr pgLoupe 0x088) 31 = true) (hv : regionValid s 0 = true)
    (hm : s.ctl.mode = .run ∨ s.ctl.mode = .test) : exec .archiveCapture s = .next (captured s) := by
  show execArchiveCapture s = _
  rw [execArchiveCapture, if_neg (by simp [he, hv])]
  rcases hm with hm | hm <;> rw [hm] <;> rfl

theorem captured_moves {s : State} (hv : regionValid s 0 = true) :
    (captured s).loupe.missed = false ∧ (captured s).loupe.recLen = archLen s ∧ (captured s).ctl.mode = s.ctl.mode
      ∧ (captured s).dataPath = s.dataPath
      ∧ (s.mem.closing.contains 0 = false → s.mem.queue.length < 256 →
          (nextIndex s 0 + 1 + 2 ^ 32 - (getReg s (rdA 0)).toNat) % 2 ^ 32 ≤ regionSize s 0 / archLen s →
        nextIndex (captured s) 0 = (nextIndex s 0 + 1) % 2 ^ 64) := by
  obtain ⟨hl, hrec⟩ := archLayout_moves s
  simp only [captured]
  generalize archLayout s = u at hl hrec
  have hreg : ∀ a, getReg u a = getReg s a := fun a => by rw [hl]; rfl
  have hmem : u.mem = s.mem := congrArg (fun x => x.mem) hl
  have hmode : u.ctl.mode = s.ctl.mode := congrArg (fun x => x.ctl.mode) hl
  have hpath : u.dataPath = s.dataPath := (congrArg State.dataPath hl).trans rfl
  have hidx : nextIndex u 0 = nextIndex s 0 := by rw [nextIndex, hmem, nextIndex]
  have hsize : ringSize u 0 = regionSize s 0 / archLen s := by
    rw [ringSize, recordLen, if_pos rfl, hrec, regionSize, getPair_congr (hreg _) (hreg _), regionSize]
  obtain ⟨hk, hm, hd⟩ := issueArchive_keeps (archRecord u) u
  have hnext := issueRecord_index (archRecord u) ((regionValid_congr (hreg _) 0).trans hv)
  rw [hmem, hidx, hreg, hsize] at hnext
  generalize issueRecord 0 (archRecord u) u = w at hk hm hd hnext
  exact ⟨trivial, (congrArg Loupe.recLen hk).trans hrec, hm.trans hmode, hd.trans hpath, hnext⟩

end Sys2Proof.Machine
end

section
namespace Sys2Proof.Machine

/-! ### SNAP, CNT_CLR, LOUPE's counters, windows and archive (O49) -/

section
variable {s : State} {p : CmdPort} {page : Fin 1024} {o g : Nat} (ho : snapOff (pageInfo page).kind = some o)
include ho

theorem counterSnap_row (h : plainWrite s p (adr page o)) (hg : g = pageOf (aliasOf s (adr page o))) :
    exec (.counterSnap p page) s = .next (snapPage g s) := by
  show execCounterSnap p page s = _
  simp only [execCounterSnap, ho]
  rw [gatedWrite_plain 1 _ h, hg]
  rfl

theorem counterClear_row (v : Word) (h : plainWrite s p (adr page (o + 4))) (hg : g = pageOf (aliasOf s (adr page (o + 4)))) :
    exec (.counterClear p page v) s = .next (clearLive (clearNamed g v) s) := by
  show execCounterClear p page v s = _
  simp only [execCounterClear, ho]
  rw [gatedWrite_plain v _ h, hg, aliasPage_snap_clear s ho]
  rfl

end

theorem loupeSnap_row {s : State} {p : CmdPort} {v : Word} (h : plainWrite s p (adr pgLoupe 0x080)) :
    exec (.loupeSnap p v) s = .next (if bit v 0 then loupeSnap s else s) :=
  congrArg Host.Outcome.next (gatedWrite_plain v (fun x => if bit v 0 then loupeSnap x else x) h)

theorem loupeCfgWrite_row {s : State} {p : CmdPort} {b : Fin 8} {c : Fin 128} {v : Word}
    (h : plainWrite s p (lpCfg (128 * b.val + c.val))) :
    exec (.loupeCfgWrite p b c v) s = .next (loupeCfg (128 * b.val + c.val) v s) :=
  congrArg Host.Outcome.next (gatedWrite_plain v (loupeCfg (128 * b.val + c.val) v) h)

theorem loupeClr_row {s : State} {p : CmdPort} {b : Fin 8} {w : Fin 4} {v : Word}
    (h : plainWrite s p (adr (pgBank b) (0x0C0 + 4 * w.val))) : exec (.loupeClr p b w v) s = .next (loupeClr b.val w.val v s) :=
  congrArg Host.Outcome.next (gatedWrite_plain v (loupeClr b.val w.val v) h)

theorem bwWindowEnd_row (s : State) : ∃ t, exec .bwWindowEnd s = .next t
    ∧ (∀ p < 512, getReg t (bwA p) = bwWord s p)
    ∧ (∀ b, (pageOf b ≠ pgLoupe ∨ offOf b < 0x800) → getReg t b = getReg s b)
    ∧ t.loupe = { s.loupe with rxSum := [], txSum := [], window := windowUs s }
    ∧ t = { s with win := { s.win with regs := t.win.regs }, loupe := t.loupe } := by
  have hbw := fun p (hp : p < 512) => getReg_bwPorts (fun _ => List.mem_range.mp) s (List.mem_range.mpr hp)
  have hreg := fun b => bwPorts_other (b := b) s
  have hend := windowEnded_moves (regsMove_bwPorts (List.range 512) s) (hreg _ (.inr (by decide)))
  have hexec := exec_bwWindowEnd s
  generalize bwPorts (List.range 512) s = u at hbw hreg hend hexec
  exact ⟨windowEnded u, hexec, fun p hp => (getReg_windowEnded u _).trans (hbw p hp),
    fun b hb => (getReg_windowEnded u b).trans (hreg b hb), hend⟩

theorem archiveCapture_idle {s : State} (h : getB s (adr pgLoupe 0x088) 31 = false ∨ regionValid s 0 = false) :
    exec .archiveCapture s = .next s := by
  show execArchiveCapture s = _
  rw [execArchiveCapture, if_pos h]

theorem archiveCapture_misses {s : State} (he : getB s (adr pgLoupe 0x088) 31 = true) (hv : regionValid s 0 = true)
    (hm : s.ctl.mode = .safelight ∨ s.ctl.mode = .still) :
    exec .archiveCapture s = .next { s with loupe := { s.loupe with missed := true } } := by
  show execArchiveCapture s = _
  rw [execArchiveCapture, if_neg (by simp [he, hv])]
  rcases hm with hm | hm <;> rw [hm]

/-- Settles O49, row by row: SNAP and CNT_CLR of a page, LOUPE's SNAP, CFG_c and CLR_w, a bandwidth window's end, the archive. -/
theorem counterRows : Obligations.CounterRows := by
  refine ⟨fun s p page v o g ho => ⟨fun h hg hw => ?_, fun h hg => ?_⟩, fun s p v h hw => ⟨fun hv => ?_, fun hv => ?_⟩,
    fun s p b c v h => ?_, fun s p b w v h => ?_, fun s => ?_, fun s => ⟨archiveCapture_idle, archiveCapture_misses,
      fun he hv hm => ⟨_, exec_archiveCapture_serves he hv hm, captured_moves hv⟩⟩⟩
  · refine ⟨_, counterSnap_row ho h hg, fun a hc hm h4 => ?_, fun a hc hm _ hz h4 => snapPage_pair hw hc hm hz h4,
      fun b => snapPage_other s, regsMove_snapPage g s⟩
    split
    · next hz => exact snapPage_zero hw hc h4 hz
    · next hz => exact snapPage_low hw hc hm hz
  · exact ⟨_, counterClear_row ho v h hg, getLive_clearLive _ s, getReg_clearLive _ s, rfl⟩
  · have hrow := loupeSnap_row (v := v) h
    rw [if_pos hv] at hrow
    exact ⟨_, hrow, fun c => loupeSnap_pairs hw, fun b => loupeSnap_other, regsMove_loupeSnap s⟩
  · have hrow := loupeSnap_row (v := v) h
    rwa [if_neg (by rw [hv]; decide)] at hrow
  · obtain ⟨hcfg, hval, hsame, hother, hmove⟩ := loupeCfg_stores (128 * b.val + c.val) v s
    exact ⟨_, loupeCfgWrite_row h, hval, hsame, fun r hr => hcfg.trans (getReg_storeRw_same v s hr), hother, hmove⟩
  · exact ⟨_, loupeClr_row h, fun c _ => getPair_loupeClr _ _ v s c, fun x => loupeClr_other b.isLt w.isLt v s,
      regsMove_loupeClr _ _ v s⟩
  · obtain ⟨t, hexec, hbw, hmove⟩ := bwWindowEnd_row s
    refine ⟨t, hexec, fun p hp n hn => ?_, hmove⟩
    rw [hn]
    exact hbw p hp

end Sys2Proof.Machine
end

section
namespace Sys2Proof.Machine

/-! ### RECONFIG_STATUS is out of reach of a sweep (R89)

`txKeeps` follows the registers below PG_DMA. The home cluster of a stand-in is a plain number in the model, so its
RECONFIG_STATUS may lie on any page above LOUPE; it is its offset that no completion, event or count of a sweep writes. -/

/-- A register at RECONFIG_STATUS's offset of a page above LOUPE. -/
abbrev statusReg (b : Nat) : Prop := 0xA9000 ≤ b ∧ offOf b = 0x0A4

theorem statusReg_recStA (n : Nat) : statusReg (recStA n) :=
  ⟨by simp only [recStA, adr, pgCl]; omega, offOf_adr (by decide)⟩

/-- The controller stays within its 12 bits, and no register of `statusReg` moves. -/
def statusKeeps (s t : State) : Prop := s.irqWide → t.irqWide ∧ ∀ b, statusReg b → getReg t b = getReg s b

theorem statusKeeps_refl (s : State) : statusKeeps s s := fun h => ⟨h, fun _ _ => rfl⟩

theorem statusKeeps_trans {s t u : State} (h : statusKeeps s t) (k : statusKeeps t u) : statusKeeps s u := fun hs =>
  ⟨(k (h hs).1).1, fun b hb => ((k (h hs).1).2 b hb).trans ((h hs).2 b hb)⟩

theorem statusKeeps_ite {c : Prop} [Decidable c] {s t u : State} (ht : c → statusKeeps s t) (hu : ¬ c → statusKeeps s u) :
    statusKeeps s (if c then t else u) := by
  split
  · exact ht ‹_›
  · exact hu ‹_›

theorem statusKeeps_of_wide {s t : State} (h : wideKeeps s t) : statusKeeps s t := fun hs =>
  ⟨(h hs).1, fun b hb => (h hs).2 b (.inl hb.1)⟩

/-- Neither registers nor the interrupt controller move. -/
theorem statusKeeps_of_eq {s t : State} (hr : t.win.regs = s.win.regs) (hi : t.irq = s.irq) : statusKeeps s t :=
  statusKeeps_of_wide (wideKeeps_of_eq hr (congrArg (·.pending) hi) (congrArg (·.service) hi))

theorem statusKeeps_setReg {a : Nat} (w : Word) (s : State) (ha : a < 0xA9000 ∨ offOf a ≠ 0x0A4) :
    statusKeeps s (setReg a w s) := fun h =>
  ⟨h, fun _ hb => getReg_setReg_other w s fun e => ha.elim (fun h1 => absurd (e ▸ hb.1) (by omega)) (fun h2 => h2 (e ▸ hb.2))⟩

theorem statusKeeps_hwEvent (page n : Nat) (s : State) : statusKeeps s (hwEvent page n s) := fun h => by
  obtain ⟨hw, hr⟩ := hwEvent_wide page n s h
  have ho : ∀ b, statusReg b → ∀ o, o < 4096 → o ≠ 0x0A4 → b ≠ adr page o := fun b hb o h1 h2 e =>
    h2 (by rw [← offOf_adr (page := page) h1, ← e]; exact hb.2)
  exact ⟨hw, fun b hb => hr b (.inl hb.1) (ho b hb _ (by decide) (by decide)) (ho b hb _ (by decide) (by decide))⟩

theorem statusKeeps_ringEdge (x : Ring) (s : State) : statusKeeps s (ringEdge x s) :=
  statusKeeps_ite (fun _ => statusKeeps_refl s) (fun _ => statusKeeps_of_wide (irqEdge_wide (bits_lt _ 19 8) s))
theorem statusKeeps_loupe (u i g n : Nat) (s : State) : statusKeeps s (loupe u i g n s) :=
  statusKeeps_of_wide (loupe_wide u i g n s)
theorem statusKeeps_addLive (a n : Nat) (s : State) : statusKeeps s (addLive a n s) := statusKeeps_of_eq rfl rfl
theorem statusKeeps_emit (e : Emit) (s : State) : statusKeeps s (emit e s) := statusKeeps_of_eq rfl rfl
theorem statusKeeps_dma (s : State) (d : Dma) : statusKeeps s { s with dma := d } := statusKeeps_of_eq rfl rfl
theorem statusKeeps_tx (s : State) (x : Tx) : statusKeeps s { s with tx := x } := statusKeeps_of_eq rfl rfl

theorem statusKeeps_setQ (rx : Bool) (q : Nat) (x : Queue) (s : State) : statusKeeps s (setQ rx q x s) :=
  statusKeeps_ite (fun _ => statusKeeps_dma s _) (fun _ => statusKeeps_dma s _)

/-- The one count of a function that a sweep moves: descriptors fetched again. -/
theorem statusKeeps_fnCount (f : Nat) (s : State) : statusKeeps s (fnCount f 3 s) :=
  statusKeeps_setReg _ s (.inr (by rw [offOf_adr (by decide)]; decide))

/-! #### Fetching and completing of host transmit -/

theorem statusKeeps_queueError (rx : Bool) (q reason idx : Nat) (s : State) : statusKeeps s (queueError rx q reason idx s) := by
  refine statusKeeps_ite (fun _ => statusKeeps_refl s) (fun _ => ?_)
  refine statusKeeps_trans ?_ (statusKeeps_hwEvent _ 0 _)
  exact statusKeeps_trans (statusKeeps_setQ rx q _ s) (statusKeeps_hwEvent _ 0 _)

theorem statusKeeps_sendReads (ch : Nat) (l : List (Nat × Nat)) (s : State) : statusKeeps s (sendReads ch l s) := by
  induction l generalizing s with
  | nil => exact statusKeeps_dma s _
  | cons x r ih =>
    exact statusKeeps_ite (fun _ => statusKeeps_dma s _)
      (fun _ => statusKeeps_trans (statusKeeps_trans (statusKeeps_dma s _) (statusKeeps_emit _ _)) (ih _))

theorem statusKeeps_issueFetch (rx : Bool) (q i : Nat) (single : Bool) (s : State) : statusKeeps s (issueFetch rx q i single s) :=
  statusKeeps_trans (statusKeeps_setQ rx q _ s) (statusKeeps_sendReads _ _ _)

theorem statusKeeps_prefetchFrom (rx : Bool) (q f i : Nat) (s : State) : statusKeeps s (prefetchFrom rx q f i s) := by
  induction f generalizing i s with
  | zero => exact statusKeeps_refl s
  | succ f ih =>
    have hf := fun single => statusKeeps_issueFetch rx q i single s
    refine statusKeeps_ite (fun _ => statusKeeps_refl s) (fun _ => ?_)
    refine statusKeeps_ite (fun _ => ih _ s) (fun _ => ?_)
    refine statusKeeps_ite (fun _ => statusKeeps_trans (hf true) (statusKeeps_trans (statusKeeps_fnCount _ _) (ih _ _)))
      (fun _ => ?_)
    refine statusKeeps_ite (fun _ => ih _ s) (fun _ => ?_)
    exact statusKeeps_ite (fun _ => statusKeeps_refl s) (fun _ => statusKeeps_trans (hf false) (ih _ _))

theorem statusKeeps_prefetch (rx : Bool) (q : Nat) (s : State) : statusKeeps s (prefetch rx q s) :=
  statusKeeps_ite (fun _ => statusKeeps_prefetchFrom rx q 48 _ s) (fun _ => statusKeeps_refl s)

theorem statusKeeps_prefetchAll (rx : Bool) (l : List Nat) (s : State) : statusKeeps s (prefetchAll rx l s) := by
  induction l generalizing s with
  | nil => exact statusKeeps_refl s
  | cons q r ih => exact statusKeeps_trans (statusKeeps_prefetch rx q s) (ih _)

theorem statusKeeps_readBufs (ch : Nat) (l : List (Nat × Nat)) (s : State) : statusKeeps s (readBufs ch l s) := by
  induction l generalizing s with
  | nil => exact statusKeeps_refl s
  | cons x r ih => exact statusKeeps_trans (statusKeeps_sendReads ch _ s) (ih _)

theorem statusKeeps_takeTx (q f : Nat) (s : State) : statusKeeps s (takeTx q f s) := by
  induction f generalizing s with
  | zero => exact statusKeeps_refl s
  | succ f ih =>
    have hq := fun x => statusKeeps_setQ false q x s
    refine statusKeeps_ite (fun _ => statusKeeps_refl s) (fun _ => ?_)
    split
    · exact statusKeeps_refl s
    · refine statusKeeps_ite (fun _ => statusKeeps_refl s) (fun _ => ?_)
      split
      · exact statusKeeps_queueError false q _ _ s
      · exact statusKeeps_ite (fun _ => statusKeeps_trans (statusKeeps_trans (hq _) (statusKeeps_readBufs _ _ _)) (ih _))
          (fun _ => statusKeeps_trans (hq _) (ih _))

theorem statusKeeps_runQueue (q : Nat) (s : State) : statusKeeps s (runQueue false q s) := by
  have h2 : statusKeeps s (prefetch false q (takeTx q 64 (prefetch false q s))) :=
    statusKeeps_trans (statusKeeps_trans (statusKeeps_prefetch false q s) (statusKeeps_takeTx q 64 _))
      (statusKeeps_prefetch false q _)
  exact statusKeeps_ite
    (fun _ => statusKeeps_trans h2 (statusKeeps_trans (statusKeeps_prefetchAll false _ _) (statusKeeps_prefetchAll true _ _)))
    (fun _ => h2)

theorem statusKeeps_pushCompletion (c : Nat) (r : List Byte) (s : State) : statusKeeps s (pushCompletion c r s) := by
  have h1 : ∀ y e e', statusKeeps s (emit e (emit e' (setR c y s))) := fun y e e' =>
    statusKeeps_trans (statusKeeps_trans (statusKeeps_dma s _) (statusKeeps_emit e' _)) (statusKeeps_emit e _)
  exact statusKeeps_ite (fun _ => statusKeeps_trans (h1 _ _ _) (statusKeeps_ringEdge _ _)) (fun _ => h1 _ _ _)

theorem statusKeeps_flushHeld (q f : Nat) (s : State) : statusKeeps s (flushHeld q f s) := by
  induction f generalizing s with
  | zero => exact statusKeeps_refl s
  | succ f ih =>
    simp only [flushHeld]
    split
    · exact statusKeeps_refl s
    · refine statusKeeps_ite (fun _ => statusKeeps_trans ?_ (ih _)) (fun _ => statusKeeps_refl s)
      refine statusKeeps_trans ?_ (statusKeeps_loupe _ _ _ _ _)
      exact statusKeeps_trans (statusKeeps_setQ false q _ s) (statusKeeps_pushCompletion _ _ _)

theorem statusKeeps_flushFrames (q f : Nat) (s : State) : statusKeeps s (flushFrames q f s) := by
  induction f generalizing s with
  | zero => exact statusKeeps_refl s
  | succ f ih =>
    have hh := fun u => statusKeeps_flushHeld q 65 u
    simp only [flushFrames]
    split
    · exact statusKeeps_ite (fun _ => statusKeeps_trans (statusKeeps_trans (statusKeeps_setQ false q _ s) (hh _)) (ih _))
        (fun _ => hh s)
    · exact hh s

theorem statusKeeps_hostDone (src : TxSrc) (reason : Nat) (s : State) : statusKeeps s (hostDone src reason s) := by
  cases src with
  | switch => exact statusKeeps_refl s
  | host q first =>
    refine statusKeeps_trans ?_ (statusKeeps_runQueue q _)
    exact statusKeeps_trans (statusKeeps_setQ false q _ s) (statusKeeps_flushFrames q 65 _)
  | own relay => exact statusKeeps_ite (fun _ => statusKeeps_setReg _ s (.inl (by decide))) (fun _ => statusKeeps_refl s)

/-! #### The sweep of one port and of a list -/

theorem statusKeeps_discardFrm (p reason : Nat) (f : TxFrm) (s : State) : statusKeeps s (discardFrm p reason f s).2 := by
  refine statusKeeps_trans ?_ (statusKeeps_hostDone f.src reason _)
  exact statusKeeps_ite (fun _ => statusKeeps_refl s) (fun _ => statusKeeps_trans (statusKeeps_tx s _) (statusKeeps_emit _ _))

theorem statusKeeps_discardHeads (p : Nat) (kept l : List TxFrm) (s : State) : statusKeeps s (discardHeads p kept l s).2 := by
  induction l generalizing kept s with
  | nil => exact statusKeeps_refl s
  | cons f r ih =>
    unfold discardHeads
    split
    · exact ih _ s
    · split
      · exact ih _ s
      · refine statusKeeps_trans (statusKeeps_trans ?_ (statusKeeps_discardFrm p _ f _)) (ih _ _)
        exact statusKeeps_ite (fun _ => statusKeeps_addLive _ 1 s)
          (fun _ => statusKeeps_trans (statusKeeps_addLive _ 1 s) (statusKeeps_loupe 2 p 2 1 _))

theorem statusKeeps_sweep (p : Nat) (s : State) : statusKeeps s (sweep p s) := by
  unfold sweep
  split
  · exact statusKeeps_refl s
  · exact statusKeeps_trans (statusKeeps_discardHeads p [] _ s) (statusKeeps_tx _ _)

theorem statusKeeps_sweepAll (l : List Nat) (s : State) : statusKeeps s (sweepAll l s) := by
  induction l generalizing s with
  | nil => exact statusKeeps_refl s
  | cons p r ih => exact statusKeeps_trans (statusKeeps_sweep p s) (ih _)

theorem txKeeps_sweepAll (l : List Nat) (s : State) : txKeeps s (sweepAll l s) := by
  induction l generalizing s with
  | nil => exact txKeeps_refl s
  | cons p r ih => exact txKeeps_trans (txKeeps_sweep p s) (ih _)

theorem sweepAll_empty {l : List Nat} {s : State} (h : ∀ q ∈ l, txQueue s q = []) : sweepAll l s = s := by
  induction l with
  | nil => rfl
  | cons q r ih =>
    rw [sweepAll, sweep_empty (h q List.mem_cons_self)]
    exact ih fun k hk => h k (List.mem_cons_of_mem _ hk)

end Sys2Proof.Machine
end

section
namespace Sys2Proof.Machine

/-! ### A write of RECONFIG (R89, R90) -/

/-- A list of ports joins a set. -/
theorem mem_foldl_setInsert (l a : List Nat) (q : Nat) : q ∈ l.foldl setInsert a ↔ q ∈ l ∨ q ∈ a := by
  induction l generalizing a with
  | nil => simp
  | cons x r ih =>
    rw [List.foldl_cons, ih, setInsert_iff, List.mem_cons]
    tauto

/-- The words of a reconfiguration wait, and the ports of `l` take no frame. -/
def reconfWait (n m : Nat) (w : List Word) (l : List Nat) (s : State) : State :=
  setReg (recStA n) (recStatus 0 0 1) { s with prt := { s.prt with
    reconf := tabPut s.prt.reconf n { mask := m, restarted := false, words := w, factory := false, since := s.tim.powered }
    stopped := l.foldl setInsert s.prt.stopped } }

theorem reconfGo_ignored {n : Nat} {v : Word} {s : State} (h : bit v 31 = false) : reconfGo n v s = s := by
  rw [reconfGo, if_pos h]

theorem reconfGo_lost {n : Nat} {v : Word} {s : State} (h : bit v 31 = true) (hst : getF s (recStA n) 1 0 = 1) :
    reconfGo n v s = setB (recStA n) 2 true s := by
  rw [reconfGo, if_neg (by simp [h]), if_pos hst]

theorem reconfGo_checked {n : Nat} {v : Word} {s : State} (h : bit v 31 = true) (hst : getF s (recStA n) 1 0 ≠ 1) :
    reconfGo n v s = (reconfStart n (bits v 7 0)
      ((List.range 8).map (fun i => getReg s (adr (pgCl n 1) (0x080 + 4 * i)))) false s).1 := by
  rw [reconfGo, if_neg (by simp [h]), if_neg hst]

theorem reconfStart_refused {n m r l : Nat} {w : List Word} {s : State} (h : reconfRefusal s n m w false = some (r, l)) :
    (reconfStart n m w false s).1 = hwEvent (pgCl n 1) 1 (setReg (recStA n) (recStatus l r 3) s) := by
  simp only [reconfStart, h]

theorem reconfStart_waits {n m : Nat} {w : List Word} {s : State} (h : reconfRefusal s n m w false = none) :
    (reconfStart n m w false s).1 = sweepAll (maskPorts s n m) (reconfWait n m w (maskPorts s n m) s) := by
  simp only [reconfStart, h]
  rfl

/-- A refusal records reason and lane and latches event 1; of the other registers, PORT_LIVE's included, none moves but the
event's (R90). -/
theorem reconfRefused_row (n r l : Nat) (s : State) (h : s.irqSane) (t : State)
    (ht : t = hwEvent (pgCl n 1) 1 (setReg (recStA n) (recStatus l r 3) s)) :
    getReg t (recStA n) = recStatus l r 3 ∧ (getReg t (adr (pgCl n 1) 0x24)).getLsbD 1 = true ∧ t.rest = s.rest
      ∧ ∀ i, i < 8 → getReg t (adr (pgCl n 1) (0x0E0 + 4 * i)) = getReg s (adr (pgCl n 1) (0x0E0 + 4 * i)) := by
  have hp : 0x0A9 ≤ pgCl n 1 := by simp only [pgCl]; omega
  have hsane : (setReg (recStA n) (recStatus l r 3) s).irqSane := h
  have hreg : ∀ o, o < 4096 → o ≠ 0x24 → o ≠ 0x40 →
      getReg t (adr (pgCl n 1) o) = getReg (setReg (recStA n) (recStatus l r 3) s) (adr (pgCl n 1) o) := fun o ho h1 h2 => by
    rw [ht]
    exact (hwEvent_high _ 1 _ hsane).2 _ (by simp only [adr]; omega) (by simp only [adr]; omega) (by simp only [adr]; omega)
  refine ⟨?_, ?_, ?_, fun i hi => ?_⟩
  · exact (hreg 0x0A4 (by decide) (by decide) (by decide)).trans (getReg_setReg_same _ _ s)
  · rw [ht, hwEvent_high_latch _ 1 _ hsane hp]
    rw [getLsbD_putBit]
    simp
  · rw [ht, hwEvent_rest]
    rfl
  · rw [hreg _ (by omega) (by omega) (by omega)]
    exact getReg_setReg_other _ s (by simp only [recStA, adr]; omega)

/-- An accepted GO: the words wait, the ports that meet the mask take no frame, their waiting frames are dropped, and with none
waiting nothing else moves (R89). -/
theorem reconfWait_row (n m : Nat) (w : List Word) (l : List Nat) (s : State) (h : s.irqSane) (t : State)
    (ht : t = sweepAll l (reconfWait n m w l s)) :
    getReg t (recStA n) = recStatus 0 0 1
      ∧ tabFind t.prt.reconf n
        = some { mask := m, restarted := false, words := w, factory := false, since := s.tim.powered }
      ∧ (∀ q ∈ l, q ∈ t.prt.stopped) ∧ (∀ q ∈ s.prt.stopped, q ∈ t.prt.stopped) ∧ t.ctl.mode = s.ctl.mode
      ∧ ((∀ q ∈ l, txQueue s q = []) → (∀ b, b ≠ recStA n → getReg t b = getReg s b)
        ∧ t = { s with win := { s.win with regs := t.win.regs },
                       prt := { s.prt with reconf := t.prt.reconf, stopped := t.prt.stopped } }) := by
  have hk := txKeeps_sweepAll l (reconfWait n m w l s)
  have hs := (statusKeeps_sweepAll l (reconfWait n m w l s) (irqWide_of_sane h)).2 _ (statusReg_recStA n)
  rw [← ht] at hk hs
  have hprt : t.prt = (reconfWait n m w l s).prt := behindTx_prt hk.behind
  refine ⟨hs.trans (getReg_setReg_same _ _ _), ?_, fun q hq => ?_, fun q hq => ?_, (behindTx_mode hk.behind).trans rfl, fun he => ?_⟩
  · rw [hprt]
    exact tabFind_put_same _ _ _
  · rw [hprt]
    exact (mem_foldl_setInsert _ _ _).2 (.inl hq)
  · rw [hprt]
    exact (mem_foldl_setInsert _ _ _).2 (.inr hq)
  · have ht' : t = reconfWait n m w l s := ht.trans (sweepAll_empty he)
    rw [ht']
    exact ⟨fun b hb => getReg_setReg_other _ _ hb, rfl⟩

end Sys2Proof.Machine
end

section
namespace Sys2Proof.Machine

/-! ### The masked ports of a cluster go down (R93)

`portFell` speaks of one port of the 64 home clusters. A restart brings down a list of ports that share one register of UP bits,
on the page of a spare cluster too, so it needs the bits of the others. -/

theorem maskPorts_home {s : State} {cl mask q : Nat} (h : q ∈ maskPorts s cl mask) : q / 8 = cl := by
  obtain ⟨i, hi, rfl⟩ := List.mem_map.1 h
  have := List.mem_range.1 (List.mem_of_mem_filter hi)
  omega

/-- The ports `l` of cluster `cl` are down, and what else of its PCS page is neither UP bit nor event register is kept. -/
structure clusterFell (cl : Nat) (l : List Nat) (s t : State) : Prop where
  wide : t.irqWide
  down : ∀ q, q / 8 = cl → q ∈ l ∨ portUp s q = false → portUp t q = false
  regs : ∀ o, o < 4096 → o ≠ 0x24 → o ≠ 0x40 → o ≠ 0x0B0 → getReg t (adr (pgCl cl 1) o) = getReg s (adr (pgCl cl 1) o)
  rx : t.rx = s.rx
  dp : t.dp = s.dp

theorem clusterFell_trans {cl : Nat} {l k : List Nat} {s t u : State} (h : clusterFell cl l s t) (g : clusterFell cl k t u) :
    clusterFell cl (l ++ k) s u where
  wide := g.wide
  down q hq hd := by
    refine g.down q hq ?_
    rcases hd with hm | hu
    · exact (List.mem_append.1 hm).elim (fun hl => .inr (h.down q hq (.inl hl))) .inl
    · exact .inr (h.down q hq (.inr hu))
  regs o h1 h2 h3 h4 := (g.regs o h1 h2 h3 h4).trans (h.regs o h1 h2 h3 h4)
  rx := g.rx.trans h.rx
  dp := g.dp.trans h.dp

/-- No port falls where no register of the cluster's PCS page moves. -/
theorem clusterFell_nil {cl : Nat} {s t : State} (hw : t.irqWide)
    (hr : ∀ o, o < 4096 → getReg t (adr (pgCl cl 1) o) = getReg s (adr (pgCl cl 1) o)) (hrx : t.rx = s.rx) (hdp : t.dp = s.dp) :
    clusterFell cl [] s t where
  wide := hw
  down q hq hd := by
    have hu : portUp s q = false := hd.resolve_left List.not_mem_nil
    rw [portUp, pcsA, hq] at hu ⊢
    exact (getB_congr (hr _ (by decide)) _).trans hu
  regs o ho _ _ _ := hr o ho
  rx := hrx
  dp := hdp

theorem markFell_fell (cl p : Nat) {s : State} (h : s.irqWide) : clusterFell cl [] s (markFell p s) := by
  rw [markFell_frame]
  exact clusterFell_nil h (fun _ _ => rfl) rfl rfl

theorem portDown_fell {cl p : Nat} {s : State} (hp : p / 8 = cl) (h : s.irqWide) : clusterFell cl [p] s (portDown p s) := by
  subst hp
  rw [portDown]
  split
  next hup =>
    have hrest : (hwEvent (pgCl (p / 8) 1) 6 (setB (pcsA p 0x0B0) (p % 8) false s)).rest = s.rest := by
      rw [hwEvent_rest, setB_rest]
    obtain ⟨hw, hr⟩ := hwEvent_wide (pgCl (p / 8) 1) 6 (setB (pcsA p 0x0B0) (p % 8) false s) h
    have hreg : ∀ o, o < 4096 → o ≠ 0x24 → o ≠ 0x40 →
        getReg (hwEvent (pgCl (p / 8) 1) 6 (setB (pcsA p 0x0B0) (p % 8) false s)) (adr (pgCl (p / 8) 1) o)
          = getReg (setB (pcsA p 0x0B0) (p % 8) false s) (adr (pgCl (p / 8) 1) o) := fun o ho h1 h2 =>
      hr _ (by simp only [wideReg, adr, pgCl]; omega) (by simp only [adr]; omega) (by simp only [adr]; omega)
    refine ⟨hw, fun q hq hd => ?_, fun o ho h1 h2 h3 => ?_, congrArg (fun x => x.rx) hrest, rest_dp hrest⟩
    · have ha : pcsA q 0x0B0 = pcsA p 0x0B0 := by rw [pcsA, hq, pcsA]
      rw [portUp, ha, getB_congr (a := pcsA p 0x0B0) (hreg 0x0B0 (by decide) (by decide) (by decide))]
      by_cases hb : q % 8 = p % 8
      · rw [hb]
        exact getB_setB_same _ _ _ _ (by omega)
      · have hu : portUp s q = false := hd.resolve_left fun e => hb (by rw [List.mem_singleton.1 e])
        rw [getB_setB_bit _ _ hb, ← hu, portUp, ha]
    · exact (hreg o ho h1 h2).trans (getReg_setB_other _ _ _ (by simp only [pcsA, adr]; omega))
  next hup =>
    refine ⟨h, fun q hq hd => ?_, fun _ _ _ _ _ => rfl, rfl, rfl⟩
    rcases hd with hm | hu
    · rw [List.mem_singleton.1 hm]
      exact Bool.not_eq_true _ ▸ hup
    · exact hu

theorem sweep_fell {cl : Nat} (p : Nat) {s : State} (hcl : cl < 66) (h : s.irqWide) : clusterFell cl [] s (sweep p s) := by
  have hk := txKeeps_sweep p s
  obtain ⟨hw, hr⟩ := hk.wide h
  refine clusterFell_nil hw (fun o ho => ?_) (behindTx_rx hk.behind) (behindTx_dp hk.behind)
  have hb := clusterReg_adr cl (k := 1) hcl (by decide) ho
  exact hr _ (wideReg_of_cluster hb) hb.2

theorem downPort_clusterFell {cl p : Nat} {s : State} (hcl : cl < 66) (hp : p / 8 = cl) (h : s.irqWide)
    (hm : tabFind s.rx.merge p = none) (ho : tabFind s.dp.opened p = none) : clusterFell cl [p] s (downPort p s) := by
  rw [downPort_plain hm ho]
  have h1 := markFell_fell cl p h
  have h2 := clusterFell_trans h1 (portDown_fell hp h1.wide)
  exact clusterFell_trans h2 (sweep_fell p hcl h2.wide)

theorem downAll_clusterFell {cl : Nat} (l : List Nat) (s : State) (hcl : cl < 66) (h : s.irqWide)
    (hl : ∀ q ∈ l, q / 8 = cl ∧ tabFind s.rx.merge q = none ∧ tabFind s.dp.opened q = none) :
    clusterFell cl l s (downAll l s) := by
  induction l generalizing s with
  | nil => exact clusterFell_nil h (fun _ _ => rfl) rfl rfl
  | cons p r ih =>
    obtain ⟨hp, hm, ho⟩ := hl p List.mem_cons_self
    have h1 := downPort_clusterFell hcl hp h hm ho
    refine clusterFell_trans h1 (ih (downPort p s) h1.wide fun q hq => ?_)
    rw [h1.rx, h1.dp]
    exact hl q (List.mem_cons_of_mem _ hq)

end Sys2Proof.Machine
end

section
namespace Sys2Proof.Machine

/-! ### The lanes restart with their new words (R89) -/

theorem mem_slotPorts {cl mask q : Nat} (h : q ∈ slotPorts cl mask) : q / 8 = cl := by
  obtain ⟨i, hi, rfl⟩ := List.mem_map.1 h
  have := List.mem_range.1 (List.mem_of_mem_filter hi)
  omega

theorem portLiveA_inj {cl i j : Nat} (h : portLiveA cl i = portLiveA cl j) : i = j := by
  simp only [portLiveA, adr] at h
  omega

theorem liveWords_frame (cl : Nat) (r : Reconf) (l : List Nat) (s : State) :
    liveWords cl r l s = { s with win := { s.win with regs := (liveWords cl r l s).win.regs } } := by
  induction l generalizing s with
  | nil => rfl
  | cons i t ih =>
    rw [liveWords, ih]
    rfl

theorem getReg_liveWords_other {cl b : Nat} (r : Reconf) (l : List Nat) (s : State) (h : ∀ i ∈ l, b ≠ portLiveA cl i) :
    getReg (liveWords cl r l s) b = getReg s b := by
  induction l generalizing s with
  | nil => rfl
  | cons i t ih =>
    rw [liveWords, ih _ fun j hj => h j (List.mem_cons_of_mem _ hj)]
    exact getReg_setReg_other _ s (h i List.mem_cons_self)

theorem getReg_liveWords_live (cl : Nat) (r : Reconf) (l : List Nat) (s : State) (i : Nat) :
    getReg (liveWords cl r l s) (portLiveA cl i) = if i ∈ l then r.words.getD i 0 else getReg s (portLiveA cl i) := by
  induction l generalizing s with
  | nil => rfl
  | cons j t ih =>
    rw [liveWords, ih]
    by_cases hj : i = j
    · subst hj
      rw [if_pos List.mem_cons_self]
      split
      · rfl
      · exact getReg_setReg_same _ _ s
    · have hw : getReg (setReg (portLiveA cl j) (r.words.getD j 0) s) (portLiveA cl i) = getReg s (portLiveA cl i) :=
        getReg_setReg_other _ s fun e => hj (portLiveA_inj e)
      simp only [List.mem_cons, hj, false_or, ← portLiveA.eq_1, hw]

theorem restartLanes_frame (l : List Nat) (s : State) :
    restartLanes l s = { s with win := { s.win with regs := (restartLanes l s).win.regs } } := by
  induction l generalizing s with
  | nil => rfl
  | cons i t ih =>
    rw [restartLanes, ih]
    rfl

theorem getReg_restartLanes_live {cl i : Nat} (hi : i < 8) (l : List Nat) (s : State) :
    getReg (restartLanes l s) (portLiveA cl i) = getReg s (portLiveA cl i) := by
  induction l generalizing s with
  | nil => rfl
  | cons m t ih =>
    rw [restartLanes, ih, getReg_setB_other _ _ _ (by simp only [portLiveA, pcsA, adr, pgCl]; omega)]
    exact getReg_setF_other _ _ _ _ (portLiveA_ne_laneStA m hi)

/-- DEGRADE lies beside UP in one register; its clearing leaves UP. -/
theorem portUp_restartLanes (l : List Nat) (s : State) (q : Nat) : portUp (restartLanes l s) q = portUp s q := by
  induction l generalizing s with
  | nil => rfl
  | cons m t ih =>
    have hF : getB (setF (laneStA m) 8 6 0 s) (pcsA q 0x0B0) (q % 8) = getB s (pcsA q 0x0B0) (q % 8) :=
      getB_congr (getReg_setF_other _ _ _ _ (by simp only [pcsA, laneStA, adr, pgCl]; omega)) _
    rw [restartLanes, ih, portUp, portUp, ← hF]
    by_cases hc : pcsA q 0x0B0 = pcsA m 0x0B0
    · rw [hc]
      exact getB_setB_bit _ _ (by omega)
    · exact getB_setB_other _ _ _ _ hc

end Sys2Proof.Machine
end

section
namespace Sys2Proof.Machine

/-! ### What the restart clears outside the PCS page (R113, R116, R212, R240) -/

/-- No register of the PCS page of `cl` moves, nor live counts, controller, data path or port state. -/
structure pcsKeeps (cl : Nat) (s t : State) : Prop where
  regs : ∀ o, o < 4096 → getReg t (adr (pgCl cl 1) o) = getReg s (adr (pgCl cl 1) o)
  live : t.win.live = s.win.live
  irq : t.irq = s.irq
  dp : t.dp = s.dp
  prt : t.prt = s.prt

theorem pcsKeeps_refl (cl : Nat) (s : State) : pcsKeeps cl s s := ⟨fun _ _ => rfl, rfl, rfl, rfl, rfl⟩

theorem pcsKeeps_trans {cl : Nat} {s t u : State} (h : pcsKeeps cl s t) (k : pcsKeeps cl t u) : pcsKeeps cl s u :=
  ⟨fun o ho => (k.regs o ho).trans (h.regs o ho), k.live.trans h.live, k.irq.trans h.irq, k.dp.trans h.dp, k.prt.trans h.prt⟩

theorem pcsKeeps_ite {cl : Nat} {c : Prop} [Decidable c] {s t u : State} (ht : pcsKeeps cl s t) (hu : pcsKeeps cl s u) :
    pcsKeeps cl s (if c then t else u) := by
  split
  · exact ht
  · exact hu

theorem pcsKeeps_setReg {cl a : Nat} (w : Word) (s : State) (h : ∀ o, o < 4096 → adr (pgCl cl 1) o ≠ a) :
    pcsKeeps cl s (setReg a w s) := ⟨fun o ho => getReg_setReg_other w s (h o ho), rfl, rfl, rfl, rfl⟩

theorem pcsKeeps_rx (cl : Nat) (s : State) (x : Rx) : pcsKeeps cl s { s with rx := x } := ⟨fun _ _ => rfl, rfl, rfl, rfl, rfl⟩
theorem pcsKeeps_emit (cl : Nat) (e : Emit) (s : State) : pcsKeeps cl s (emit e s) := ⟨fun _ _ => rfl, rfl, rfl, rfl, rfl⟩

theorem pcsKeeps_untrip (cl p i : Nat) (s : State) : pcsKeeps cl s (untrip p i s) := by
  have hw : ∀ w, pcsKeeps cl s (setReg (txStA p) w s) := fun w =>
    pcsKeeps_setReg w s fun o ho => by simp only [txStA, macA, adr, pgCl]; omega
  exact pcsKeeps_ite (pcsKeeps_ite (pcsKeeps_refl cl s) (hw _)) (pcsKeeps_ite (hw _) (pcsKeeps_refl cl s))

theorem pcsKeeps_endPauses (cl : Nat) (l : List Nat) (s : State) : pcsKeeps cl s (endPauses l s) := by
  induction l generalizing s with
  | nil => exact pcsKeeps_refl cl s
  | cons k r ih =>
    refine pcsKeeps_trans ?_ (ih _)
    simp only [setPause, if_pos]
    refine pcsKeeps_trans ?_ (pcsKeeps_untrip cl _ _ _)
    exact pcsKeeps_ite (pcsKeeps_rx cl s _) (pcsKeeps_trans (pcsKeeps_rx cl s _) (pcsKeeps_emit cl _ _))

/-- The registers of an SC lie on the SEC page. -/
theorem pcsKeeps_keyRemove (cl : Nat) (tx : Bool) {sc : Nat} (an : Nat) (s : State) (h : sc < 64) :
    pcsKeeps cl s (keyRemove cl tx sc an s) := by
  have hsec : ∀ a w u, adr (pgCl cl 2) 0 ≤ a → a < adr (pgCl cl 2) 4096 → pcsKeeps cl u (setReg a w u) := fun a w u h1 h2 =>
    pcsKeeps_setReg w u fun o ho => by simp only [adr, pgCl] at h1 h2 ⊢; omega
  have htx : ∀ n b u, pcsKeeps cl u (setB (txScA cl sc) n b u) := fun n b u =>
    hsec _ _ u (by simp only [txScA, adr]; omega) (by simp only [txScA, adr]; omega)
  have hrx : ∀ n b u, pcsKeeps cl u (setB (rxScA cl sc) n b u) := fun n b u =>
    hsec _ _ u (by simp only [rxScA, adr]; omega) (by simp only [rxScA, adr]; omega)
  have hpn : ∀ u, pcsKeeps cl u (showPn cl sc u) := fun u => by
    simp only [showPn, setPair]
    exact pcsKeeps_trans (hsec (txScA cl sc + 0x10) _ u (by simp only [txScA, adr]; omega) (by simp only [txScA, adr]; omega))
      (hsec (txScA cl sc + 0x10 + 4) _ _ (by simp only [txScA, adr]; omega) (by simp only [txScA, adr]; omega))
  have he : pcsKeeps cl s (saErase (serving s cl) tx sc an s) := ⟨fun _ _ => rfl, rfl, rfl, rfl, rfl⟩
  cases tx with
  | false => exact pcsKeeps_trans he (hrx _ _ _)
  | true =>
    simp only [keyRemove, if_true]
    refine pcsKeeps_trans ?_ (hpn _)
    exact pcsKeeps_trans (pcsKeeps_trans he (htx _ _ _)) (htx _ _ _)

theorem pcsKeeps_dropSlotSas (cl mask : Nat) (tx : Bool) (l : List Nat) (s : State) (h : ∀ n ∈ l, n < 64) :
    pcsKeeps cl s (dropSlotSas cl mask tx l s) := by
  induction l generalizing s with
  | nil => exact pcsKeeps_refl cl s
  | cons n r ih =>
    have hk := fun an u => pcsKeeps_keyRemove cl tx an u (h n List.mem_cons_self)
    refine pcsKeeps_trans (pcsKeeps_ite ?_ (pcsKeeps_refl cl s)) (ih _ fun m hm => h m (List.mem_cons_of_mem _ hm))
    exact pcsKeeps_trans (pcsKeeps_trans (pcsKeeps_trans (hk 3 s) (hk 2 _)) (hk 1 _)) (hk 0 _)

theorem pcsKeeps_dropMaskSas (cl mask : Nat) (s : State) : pcsKeeps cl s (dropMaskSas cl mask s) :=
  pcsKeeps_trans
    (pcsKeeps_dropSlotSas cl mask true _ s fun _ hn => Nat.lt_trans (List.mem_range.1 hn) (by decide))
    (pcsKeeps_dropSlotSas cl mask false _ _ fun _ hn => List.mem_range.1 hn)

theorem pcsKeeps_setTs {cl : Nat} (o : Overlay) (l : List Nat) (s : State) (h : ∀ p ∈ l, p / 8 = cl) :
    pcsKeeps cl s (setTs o l s) := by
  induction l generalizing s with
  | nil => exact pcsKeeps_refl cl s
  | cons p r ih =>
    have hp := h p List.mem_cons_self
    refine pcsKeeps_trans ?_ (ih _ fun m hm => h m (List.mem_cons_of_mem _ hm))
    split
    · exact pcsKeeps_setReg _ s fun x hx => by simp only [tsA, adr, pgCl, pgShutter]; omega
    · exact pcsKeeps_refl cl s

end Sys2Proof.Machine
end

section
namespace Sys2Proof.Machine

/-! ### RECONFIG_RESTART (R89) -/

/-- The masked lanes take their words and restart. -/
def lanesRestarted (cl : Nat) (r : Reconf) (s : State) : State :=
  restartLanes (slotPorts cl r.mask) (liveWords cl r ((List.range 8).filter (fun i => r.mask.testBit i)) s)

/-- What the masked slots held is cleared: counters, tables, pauses, port state, SAs. -/
def slotsCleared (cl : Nat) (r : Reconf) (s : State) : State :=
  let slots := slotPorts cl r.mask
  let s3 := clearLive (fun a => slots.any (fun p => slotCounters p a)) s
  let s4 := clearPauses (fun p => slots.contains p) (clearTables cl r.mask s3)
  dropMaskSas cl r.mask { s4 with
    rx := { s4.rx with merge := tabKeep (fun p => !slots.contains p) s4.rx.merge }
    prt := { s4.prt with
      stopped := s4.prt.stopped.filter (fun p => decide (p / 8 ≠ cl))
      fell := tabKeep (fun p => !slots.contains p) s4.prt.fell
      remote := s4.prt.remote.filter (fun p => !slots.contains p)
      reconf := tabPut s4.prt.reconf cl { r with restarted := true } } }

/-- The masked slots have their timestamp offsets, and the reconfiguration ends where no port starts in them. -/
def reconfEnd (cl : Nat) (r : Reconf) (s : State) : State :=
  let s6 := setTs (calInForce s) (slotPorts cl r.mask) s
  if (maskEnabled s6 cl r.mask).isEmpty then reconfDone cl s6 else s6

theorem reconfRestart_eq (cl : Nat) (r : Reconf) (s : State) : reconfRestart cl r s
    = reconfEnd cl r (slotsCleared cl r (lanesRestarted cl r (downAll (maskPorts s cl r.mask) s))) := rfl

theorem lanesRestarted_frame (cl : Nat) (r : Reconf) (s : State) :
    lanesRestarted cl r s = { s with win := { s.win with regs := (lanesRestarted cl r s).win.regs } } := by
  rw [lanesRestarted, restartLanes_frame, liveWords_frame]

theorem lanesRestarted_live {cl i : Nat} (hi : i < 8) (r : Reconf) (s : State) :
    getReg (lanesRestarted cl r s) (portLiveA cl i) = if r.mask.testBit i then r.words.getD i 0 else getReg s (portLiveA cl i) := by
  rw [lanesRestarted, getReg_restartLanes_live hi, getReg_liveWords_live]
  simp [hi]

theorem lanesRestarted_up (cl : Nat) (r : Reconf) (s : State) (q : Nat) : portUp (lanesRestarted cl r s) q = portUp s q := by
  rw [lanesRestarted, portUp_restartLanes]
  refine getB_congr (getReg_liveWords_other r _ s fun i hi => ?_) _
  have := List.mem_range.1 (List.mem_of_mem_filter hi)
  simp only [pcsA, portLiveA, adr, pgCl]
  omega

theorem inBlock_outside {base len a : Nat} (h : a < base ∨ base + len ≤ a) : inBlock base len a = false := by
  simp only [inBlock, ← Bool.decide_and, decide_eq_false_iff_not]
  omega

/-- UP bits and PORT_LIVE lie below the counters of the PCS page. -/
theorem slotCounters_pcs {p cl o : Nat} (h : o < 0x100) : slotCounters p (adr (pgCl cl 1) o) = false := by
  rw [slotCounters, inBlock_outside, inBlock_outside, inBlock_outside, inBlock_outside]
  · rfl
  all_goals simp only [pcsCnt, rxCnt, txCnt, secCnt, pcsA, statA, secA, adr, pgCl]
  all_goals rcases lt_trichotomy cl (p / 8) with hc | hc | hc
  all_goals omega

theorem slotsCleared_row (cl : Nat) (r : Reconf) (s t : State) (ht : t = slotsCleared cl r s) :
    (∀ o, o < 0x100 → getReg t (adr (pgCl cl 1) o) = getReg s (adr (pgCl cl 1) o))
      ∧ (∀ i a, i < 8 → r.mask.testBit i = true → slotCounters (8 * cl + i) a = true → getLive t a = 0)
      ∧ t.irq = s.irq ∧ t.dp = s.dp ∧ (∀ q ∈ t.prt.stopped, q / 8 ≠ cl) := by
  have hp : ∀ u, pcsKeeps cl u (clearPauses (fun p => (slotPorts cl r.mask).contains p) (clearTables cl r.mask u)) := fun u =>
    pcsKeeps_trans (pcsKeeps_rx cl u _) (pcsKeeps_endPauses cl _ _)
  have h4 := hp (clearLive (fun a => (slotPorts cl r.mask).any (fun p => slotCounters p a)) s)
  rw [slotsCleared] at ht
  generalize clearPauses _ (clearTables cl r.mask _) = u at ht h4
  have h5 := ht ▸ pcsKeeps_dropMaskSas cl r.mask _
  refine ⟨fun o ho => ?_, fun i a hi hb hc => ?_, h5.irq.trans h4.irq, h5.dp.trans h4.dp, fun q hq => ?_⟩
  · refine (h5.regs o (by omega)).trans ((h4.regs o (by omega)).trans ?_)
    rw [getReg_clearLive, if_neg (by simp [slotCounters_pcs ho])]
  · rw [getLive, h5.live]
    show tabGet (fun _ => 0) u.win.live a = 0
    rw [h4.live]
    refine (getLive_clearLive _ s a).trans (if_pos ?_)
    exact List.any_eq_true.2 ⟨8 * cl + i, List.mem_map.2 ⟨i, List.mem_filter.2 ⟨List.mem_range.2 hi, hb⟩, rfl⟩, hc⟩
  · rw [h5.prt] at hq
    exact of_decide_eq_true (List.mem_filter.1 hq).2

/-- An ended reconfiguration leaves PCS registers other than its status and its event's, and no port is stopped by it. -/
theorem reconfDone_row (cl : Nat) (s t : State) (h : s.irqWide) (ht : t = reconfDone cl s) :
    (∀ o, 0x0B0 ≤ o → o < 0x100 → getReg t (adr (pgCl cl 1) o) = getReg s (adr (pgCl cl 1) o))
      ∧ (∀ a, getLive t a = getLive s a) ∧ t.dp = s.dp ∧ t.prt.stopped = s.prt.stopped := by
  have hrest : t.rest = { s with prt := { s.prt with reconf := tabErase s.prt.reconf cl } }.rest := by
    rw [ht, reconfDone, hwEvent_rest]
    rfl
  refine ⟨fun o h1 h2 => ?_, fun a => (getLive_of_rest hrest a).trans rfl, (rest_dp hrest).trans rfl,
    congrArg (fun x => x.prt.stopped) hrest⟩
  rw [ht, reconfDone]
  refine ((hwEvent_wide _ 0 _ ?_).2 _ (.inl ?_) ?_ ?_).trans (getReg_setReg_other _ _ ?_)
  · exact h
  all_goals simp only [recStA, adr, pgCl]; omega

theorem reconfEnd_row (cl : Nat) (r : Reconf) (s t : State) (h : s.irqWide) (ht : t = reconfEnd cl r s) :
    (∀ o, 0x0B0 ≤ o → o < 0x100 → getReg t (adr (pgCl cl 1) o) = getReg s (adr (pgCl cl 1) o))
      ∧ (∀ a, getLive t a = getLive s a) ∧ t.dp = s.dp ∧ t.prt.stopped = s.prt.stopped := by
  have hk : pcsKeeps cl s (setTs (calInForce s) (slotPorts cl r.mask) s) := pcsKeeps_setTs _ _ s fun p hp => mem_slotPorts hp
  rw [reconfEnd] at ht
  generalize setTs (calInForce s) (slotPorts cl r.mask) s = u at ht hk
  have hregs : ∀ o, 0x0B0 ≤ o → o < 0x100 → getReg u (adr (pgCl cl 1) o) = getReg s (adr (pgCl cl 1) o) := fun o _ ho =>
    hk.regs o (by omega)
  have hlive : ∀ a, getLive u a = getLive s a := fun a => by rw [getLive, hk.live, getLive]
  have hstop : u.prt.stopped = s.prt.stopped := by rw [hk.prt]
  by_cases hc : (maskEnabled u cl r.mask).isEmpty = true
  · have hw : u.irqWide := by rw [State.irqWide, hk.irq]; exact h
    obtain ⟨h1, h2, h3, h4⟩ := reconfDone_row cl u t hw (ht.trans (if_pos hc))
    exact ⟨fun o ho1 ho2 => (h1 o ho1 ho2).trans (hregs o ho1 ho2), fun a => (h2 a).trans (hlive a), h3.trans hk.dp, h4.trans hstop⟩
  · have he : t = u := ht.trans (if_neg hc)
    rw [he]
    exact ⟨hregs, hlive, hk.dp, hstop⟩

/-- The restart of a cluster none of whose masked ports has a frame open in reassembly or release. -/
theorem reconfRestart_row {cl : Nat} (hcl : cl < 66) (r : Reconf) (s t : State) (h : s.irqWide)
    (hq : ∀ q ∈ maskPorts s cl r.mask, tabFind s.rx.merge q = none ∧ tabFind s.dp.opened q = none)
    (ht : t = reconfRestart cl r s) :
    (∀ i, i < 8 → getReg t (portLiveA cl i) = if r.mask.testBit i then r.words.getD i 0 else getReg s (portLiveA cl i))
      ∧ (∀ q ∈ maskPorts s cl r.mask, portUp t q = false) ∧ (∀ q ∈ t.prt.stopped, q / 8 ≠ cl)
      ∧ (∀ i a, i < 8 → r.mask.testBit i = true → slotCounters (8 * cl + i) a = true → getLive t a = 0)
      ∧ t.ctl.mode = s.ctl.mode ∧ t.dp = s.dp := by
  have hmode : t.ctl.mode = s.ctl.mode := by
    rw [ht]
    exact congrArg (fun x => x.2.2.1) (reconfRestart_regime cl r s)
  rw [reconfRestart_eq] at ht
  have h1 := downAll_clusterFell (maskPorts s cl r.mask) s hcl h fun q hm => ⟨maskPorts_home hm, hq q hm⟩
  generalize downAll (maskPorts s cl r.mask) s = s1 at ht h1
  have h2 := lanesRestarted_frame cl r s1
  have h2live := fun i hi => lanesRestarted_live (cl := cl) (i := i) hi r s1
  have h2up := lanesRestarted_up cl r s1
  generalize lanesRestarted cl r s1 = s2 at ht h2 h2live h2up
  obtain ⟨h3r, h3l, h3i, h3d, h3s⟩ := slotsCleared_row cl r s2 _ rfl
  generalize slotsCleared cl r s2 = s3 at ht h3r h3l h3i h3d h3s
  have hw3 : s3.irqWide := by
    rw [State.irqWide, h3i, h2]
    exact h1.wide
  obtain ⟨h4r, h4l, h4d, h4s⟩ := reconfEnd_row cl r s3 t hw3 ht
  refine ⟨fun i hi => ?_, fun q hm => ?_, fun q hm => h3s q (h4s ▸ hm),
    fun i a hi hb hc => (h4l a).trans (h3l i a hi hb hc), hmode, ?_⟩
  · rw [portLiveA, h4r _ (by omega) (by omega), h3r _ (by omega)]
    refine (h2live i hi).trans ?_
    rw [portLiveA, h1.regs _ (by omega) (by omega) (by omega) (by omega)]
  · have hu : portUp t q = portUp s2 q := by
      rw [portUp, pcsA, maskPorts_home hm, getB_congr ((h4r _ (by decide) (by decide)).trans (h3r _ (by decide))), portUp, pcsA,
        maskPorts_home hm]
    rw [hu, h2up]
    exact h1.down q (maskPorts_home hm) (.inl hm)
  · rw [h4d, h3d, h2]
    exact h1.dp

/-- Settles O48, row by row: a write of RECONFIG by its checks, the restart of a cluster whose lines are quiet, and the restart
that waits. -/
theorem reconfigRows : Obligations.ReconfigRows := by
  intro s p cl v n m hsane hn hm
  subst hn hm
  refine ⟨fun w hw hplain => ?_, fun r hr hstart hbusy hq => ?_, fun hwait => ?_⟩
  · have hexec : exec (.reconfigGo p cl v) s = .next (reconfGo (home s cl) v s) :=
      congrArg Host.Outcome.next (gatedWrite_plain v _ hplain)
    rw [hexec]
    refine ⟨fun hv => ?_, fun hv hst => ?_, fun r l hv hst href => ?_, fun hv hst href => ?_⟩
    · rw [reconfGo_ignored hv]
    · rw [reconfGo_lost hv hst]
    · rw [reconfGo_checked hv hst, ← hw, reconfStart_refused href]
      exact ⟨_, rfl, reconfRefused_row _ _ _ s hsane _ rfl⟩
    · rw [reconfGo_checked hv hst, ← hw, reconfStart_waits href]
      exact ⟨_, rfl, reconfWait_row _ _ _ _ s hsane _ rfl⟩
  · refine ⟨reconfRestart cl r s, ?_, reconfRestart_row cl.isLt r s _ (irqWide_of_sane hsane) hq rfl⟩
    show execReconfigRestart cl s = _
    simp [execReconfigRestart, hr, hstart, hbusy]
  · show execReconfigRestart cl s = _
    rcases hwait with hnone | ⟨r, hr, hb⟩
    · simp only [execReconfigRestart, hnone]
    · simp only [execReconfigRestart, hr, if_pos hb]

end Sys2Proof.Machine
end

section
namespace Sys2Proof.Machine

/-! ### What the domains of a wake leave alone

The steps of a wake restore registers, count and latch, sample lanes and power islands up. None of them moves the mode, the
level, the command ports or the request unit, and none but a change of a parse quarter powers an island down. -/

/-- The mode, the level, the command ports with what waits at them, and the request unit. -/
abbrev Seat : Type := (Mode × BitVec 2) × (Cmd × Option CmdPort × List (List Byte)) × Option PwrReq × Option PwrReq × Bool

/-- What of a state the steps of a wake leave alone. -/
def State.seat (s : State) : Seat :=
  ((s.ctl.mode, s.ctl.pl), (s.cmd, s.nv.restore, s.fed.outbox), s.pwr.flight, s.pwr.slot, s.pwr.entering)

/-- The seat with the sleep state and the islands that are powered down. -/
def State.ground (s : State) : Seat × Sleep × List Nat :=
  (s.seat, s.ctl.sleep, s.pwr.off)

@[simp] theorem ground_mk (s : State) (c : Ctl) (p : Pwr) (n : Nv) (f : Fed)
    (win irq tim prt rx dp cls tx sec shut dma mem loupe fix dark out free pending)
    (hm : c.mode = s.ctl.mode) (hl : c.pl = s.ctl.pl) (hs : c.sleep = s.ctl.sleep) (hf : p.flight = s.pwr.flight)
    (hq : p.slot = s.pwr.slot) (he : p.entering = s.pwr.entering) (ho : p.off = s.pwr.off) (hn : n.restore = s.nv.restore)
    (hx : f.outbox = s.fed.outbox) :
    State.ground ⟨c, win, s.cmd, irq, p, tim, prt, rx, dp, cls, tx, sec, shut, dma, mem, loupe, fix, dark, n, f, out, free,
      pending⟩ = s.ground := by simp only [State.ground, State.seat, hm, hl, hs, hf, hq, he, ho, hn, hx]

@[simp] theorem ground_ite (c : Prop) [Decidable c] (a b : State) :
    (if c then a else b).ground = if c then a.ground else b.ground := apply_ite _ c a b

@[simp] theorem ground_foldl {β : Type} (f : State → β → State) (h : ∀ s b, (f s b).ground = s.ground) (l : List β)
    (s : State) : (l.foldl f s).ground = s.ground := foldl_keeps State.ground f h l s

theorem ground_of_rest {s t : State} (h : t.rest = s.rest) : t.ground = s.ground :=
  show t.rest.ground = s.rest.ground by rw [h]

theorem ground_of_data {s t : State} (h : dataKeeps s t) : t.ground = s.ground :=
  show t.control.ground = s.control.ground by rw [h.control]

theorem seat_of_ground {s t : State} (h : t.ground = s.ground) : t.seat = s.seat := congrArg Prod.fst h

/-- Outside sleep and sleep entry, what keeps the stand and the watch keeps the ground. -/
theorem ground_of_ctl {s t : State} (h : ctlKeeps s t) (hs : s.calm) (he : s.pwr.entering = false) : t.ground = s.ground := by
  obtain ⟨hc, hp⟩ := watch_split (h.watch hs) he
  have hplaces : t.stand.2 = s.stand.2 := congrArg Prod.snd h.stand
  simp only [State.stand, Prod.mk.injEq] at hplaces
  obtain ⟨hcmd, hres, hout⟩ := hplaces
  simp only [State.ground, State.seat, hc, hp, hcmd, hres, hout]

section
variable (s : State)

@[simp] theorem setReg_ground (a : Nat) (w : Word) : (setReg a w s).ground = s.ground := ground_of_rest (rest_setReg a w s)
@[simp] theorem setF_ground (a hi lo v : Nat) : (setF a hi lo v s).ground = s.ground := ground_of_rest (setF_rest a hi lo v s)
@[simp] theorem setB_ground (a n : Nat) (b : Bool) : (setB a n b s).ground = s.ground := ground_of_rest (setB_rest a n b s)
@[simp] theorem addF_ground (a hi lo n : Nat) : (addF a hi lo n s).ground = s.ground := ground_of_rest (addF_rest a hi lo n s)
@[simp] theorem setPair_ground (a v : Nat) : (setPair a v s).ground = s.ground := ground_of_rest (setPair_rest a v s)
@[simp] theorem addLive_ground (a n : Nat) : (addLive a n s).ground = s.ground := by simp [addLive, setLive]
@[simp] theorem clearLive_ground (p : Nat → Bool) : (clearLive p s).ground = s.ground := by simp [clearLive]
@[simp] theorem emit_ground (e : Emit) : (emit e s).ground = s.ground := ground_of_rest (emit_rest e s)
@[simp] theorem setWords_ground (a : Nat) (l : List Word) : (setWords a l s).ground = s.ground :=
  ground_of_rest (setWords_rest a l s)
@[simp] theorem hwEvent_ground (page n : Nat) : (hwEvent page n s).ground = s.ground := ground_of_rest (hwEvent_rest page n s)
@[simp] theorem irqSettle_ground : (irqSettle s).ground = s.ground := ground_of_rest (irqSettle_rest s)

end

/-! ### The time island -/

@[simp] theorem recordDrop_ground (u : Nat) (s : State) : (recordDrop u s).ground = s.ground := by
  unfold recordDrop
  split <;> simp

@[simp] theorem memPump_ground (n : Nat) (s : State) : (memPump n s).ground = s.ground := by
  fun_induction memPump n s <;> simp [*]

@[simp] theorem issueRecord_ground (u : Nat) (mk : Nat → List Byte) (s : State) : (issueRecord u mk s).ground = s.ground := by
  simp [issueRecord, memGo]

@[simp] theorem fjWrite_ground (event member detail : Nat) (s : State) : (fjWrite event member detail s).ground = s.ground := by
  simp [fjWrite]

@[simp] theorem fjEach_ground (event : Nat) (value : List Byte → Nat) (l : List Nat) (s : State) :
    (fjEach event value l s).ground = s.ground := by
  fun_induction fjEach event value l s <;> simp_all

@[simp] theorem disagree_ground (onset evt : Nat) (value : List Byte → Nat) (old new : List Nat) (s : State) :
    (disagree onset evt value old new s).ground = s.ground := by
  simp [disagree]

@[simp] theorem fedCompare_ground (s : State) : (fedCompare s).ground = s.ground := by simp [fedCompare]
@[simp] theorem fedWithdraw_ground (s : State) : (fedWithdraw s).ground = s.ground := by simp [fedWithdraw]
@[simp] theorem fedSource_ground (s : State) : (fedSource s).ground = s.ground := by simp [fedSource]
@[simp] theorem fedWatch_ground (s : State) : (fedWatch s).ground = s.ground := by simp [fedWatch]

@[simp] theorem jumpChan_ground (t0 t1 c : Nat) (s : State) : (jumpChan t0 t1 c s).ground = s.ground := by
  unfold jumpChan
  repeat' split
  all_goals simp [skipEdges, setChan, chState]

@[simp] theorem setValidity_ground (v : Nat) (s : State) : (setValidity v s).ground = s.ground := by
  simp [setValidity, enterLocked]

@[simp] theorem setDisjoint_ground (d : Bool) (s : State) : (setDisjoint d s).ground = s.ground := by simp [setDisjoint]

@[simp] theorem timeEval_ground (s : State) : (timeEval s).ground = s.ground := by simp [timeEval]

@[simp] theorem refFall_ground (s : State) : (refFall s).ground = s.ground := by simp [refFall]

@[simp] theorem pllReturn_ground (s : State) : (pllReturn s).ground = s.ground := by simp [pllReturn]

@[simp] theorem shutterJump_ground (t0 t1 : Nat) (s : State) : (shutterJump t0 t1 s).ground = s.ground := by simp [shutterJump]

@[simp] theorem timeIslandOn_ground (s : State) : (timeIslandOn s).ground = s.ground := by simp [timeIslandOn]

/-! ### Banks and clusters -/

@[simp] theorem setSelected_ground (sel : Nat → Bool) (l : Tab Word) (s : State) : (setSelected sel l s).ground = s.ground := by
  fun_induction setSelected sel l s <;> simp [*]

@[simp] theorem setMap_ground (cl : Nat) (m : List Word) (s : State) : (setMap cl m s).ground = s.ground := by simp [setMap]

@[simp] theorem setMaps_ground (o : Overlay) (l : List Nat) (s : State) : (setMaps o l s).ground = s.ground := by
  fun_induction setMaps o l s <;> simp [*]

@[simp] theorem setTs_ground (o : Overlay) (l : List Nat) (s : State) : (setTs o l s).ground = s.ground := by
  induction l generalizing s with
  | nil => rfl
  | cons p r ih =>
    rw [setTs, ih]
    split <;> rfl

@[simp] theorem loadCal_ground (o : Overlay) (cls : List Nat) (rest live : Bool) (s : State) :
    (loadCal o cls rest live s).ground = s.ground := by
  simp [loadCal]

@[simp] theorem loseRest_ground (s : State) : (loseRest s).ground = s.ground := by simp [loseRest]

@[simp] theorem bankFails_ground (b : Nat) (s : State) : (bankFails b s).ground = s.ground := by
  unfold bankFails
  repeat' split
  all_goals simp [pinChannels]

@[simp] theorem retainFault_ground (s : State) : (retainFault s).ground = s.ground := by simp [retainFault]

@[simp] theorem restoreBanks_ground (bad : BitVec 4) (s : State) : (restoreBanks bad s).ground = s.ground := by
  simp [restoreBanks]

@[simp] theorem showSlice8_ground (h c : Nat) (s : State) : (showSlice8 h c s).ground = s.ground := by simp [showSlice8]

@[simp] theorem clusterFails_ground (n : Nat) (s : State) : (clusterFails n s).ground = s.ground := by simp [clusterFails]

@[simp] theorem clustersFail_ground (l : List Nat) (s : State) : (clustersFail l s).ground = s.ground := by
  fun_induction clustersFail l s <;> simp [*]

@[simp] theorem clusterKeysOn_ground (c : Nat) (s : State) : (clusterKeysOn c s).ground = s.ground := by
  unfold clusterKeysOn
  dsimp only
  repeat' split
  all_goals simp

@[simp] theorem sampleLanes_ground (l : List Nat) (s : State) : (sampleLanes l s).ground = s.ground :=
  ground_of_data (dataKeeps_sampleLanes l s)

theorem resample_ground (s : State) : (resample s).ground = s.ground := by
  unfold resample
  exact sampleLanes_ground _ s

@[simp] theorem roundTrip_ground (s : State) : (roundTrip s).ground = s.ground := by simp [roundTrip]

theorem dataKeeps_deliverHeld (l : List (Nat × WakeFrm)) (s : State) : dataKeeps s (deliverHeld l s) := by
  induction l generalizing s with
  | nil => exact dataKeeps_refl s
  | cons x r ih => exact dataKeeps_trans (dataKeeps_enterSecY _ _ _ _ _ _ _ _ s) (ih _)

@[simp] theorem setPipe_ground (p v : Nat) (s : State) : (setPipe p v s).ground = s.ground := by simp [setPipe]

@[simp] theorem mapPipes_ground (f : State → Nat → Nat) (l : List Nat) (s : State) : (mapPipes f l s).ground = s.ground := by
  fun_induction mapPipes f l s <;> simp [*]

end Sys2Proof.Machine
end

section
namespace Sys2Proof.Machine

/-! ### Islands of a wake -/

/-- `t` has the seat and the sleep state of `s`, and of the islands above the parse quarters those that `s` powers. -/
structure staysUp (s t : State) : Prop where
  seat : t.seat = s.seat
  sleep : t.ctl.sleep = s.ctl.sleep
  on : ∀ i, 70 ≤ i → i ∉ s.pwr.off → i ∉ t.pwr.off

theorem staysUp_trans {s t u : State} (h : staysUp s t) (k : staysUp t u) : staysUp s u :=
  ⟨k.seat.trans h.seat, k.sleep.trans h.sleep, fun i hi ho => k.on i hi (h.on i hi ho)⟩

theorem staysUp_of_ground {s t : State} (h : t.ground = s.ground) : staysUp s t := by
  have hrest : (t.ctl.sleep, t.pwr.off) = (s.ctl.sleep, s.pwr.off) := congrArg Prod.snd h
  obtain ⟨hsleep, hoff⟩ := Prod.mk.inj hrest
  exact ⟨seat_of_ground h, hsleep, fun i _ ho => hoff ▸ ho⟩

/-! #### Clusters and parse quarters -/

theorem staysUp_refl (s : State) : staysUp s s := ⟨rfl, rfl, fun _ _ h => h⟩

theorem staysUp_ite {c : Prop} [Decidable c] {s t u : State} (ht : staysUp s t) (hu : staysUp s u) :
    staysUp s (if c then t else u) := by
  split
  · exact ht
  · exact hu

theorem staysUp_clusterUp (n : Nat) (s : State) : staysUp s (clusterUp n s) := by
  unfold clusterUp
  refine staysUp_ite (staysUp_refl s) (staysUp_trans (t := powerCluster n true s) ⟨rfl, rfl, fun i _ ho hm => ?_⟩
    (staysUp_of_ground (clusterKeysOn_ground n _)))
  exact ho (mem_setErase _ _ _ hm)

theorem staysUp_powerUpClusters (l : List Nat) (s : State) : staysUp s (powerUpClusters l s) := by
  induction l generalizing s with
  | nil => exact staysUp_refl s
  | cons n r ih =>
    refine staysUp_trans (staysUp_ite (staysUp_refl s) ?_) (ih _)
    exact staysUp_trans (staysUp_clusterUp n s) (staysUp_of_ground (sampleLanes_ground _ _))

theorem staysUp_setQuarter {q : Nat} (hq : q < 4) (v : Bool) (s : State) : staysUp s (setQuarter q v s) := by
  refine ⟨rfl, rfl, fun i hi ho hm => ?_⟩
  cases v with
  | false =>
    rcases mem_setInsert _ _ _ hm with rfl | hold
    · omega
    · exact ho hold
  | true => exact ho (mem_setErase _ _ _ hm)

theorem staysUp_pipesUp (q : Nat) (s : State) : staysUp s (rotationChanged (pipesUp q s)) :=
  staysUp_of_ground ((hwEvent_ground _ _ _).trans (mapPipes_ground _ _ s))

theorem staysUp_quarterMove (q : Nat) (s : State) : staysUp s (quarterMove q s) := staysUp_of_ground (by simp [quarterMove])

theorem staysUp_quarterBegin {q : Nat} (hq : q < 4) (s : State) : staysUp s (quarterBegin q s) := by
  unfold quarterBegin
  refine staysUp_ite (staysUp_refl s) (staysUp_ite (staysUp_ite ?_ ?_) (staysUp_ite ?_ ?_))
  · exact staysUp_trans (staysUp_of_ground ((hwEvent_ground _ _ _).trans (mapPipes_ground _ _ s))) (staysUp_quarterMove q _)
  · exact staysUp_ite (staysUp_quarterMove q s) (staysUp_refl s)
  · exact staysUp_trans (staysUp_setQuarter hq true s) (staysUp_pipesUp q _)
  · exact staysUp_ite (staysUp_pipesUp q s) (staysUp_refl s)

theorem staysUp_quarterEnd {q : Nat} (hq : q < 4) (s : State) : staysUp s (quarterEnd q s) := by
  unfold quarterEnd
  exact staysUp_ite (staysUp_trans (staysUp_of_ground (by simp)) (staysUp_setQuarter hq false _)) (staysUp_refl s)

theorem staysUp_quarterEnds (s : State) : staysUp s (quarterEnds s) :=
  staysUp_trans (staysUp_trans (staysUp_quarterEnd (by decide) s) (staysUp_quarterEnd (by decide) _))
    (staysUp_quarterEnd (by decide) _)

theorem staysUp_quarterSettle (s : State) : staysUp s (quarterSettle s) := by
  unfold quarterSettle
  split
  · refine staysUp_trans (staysUp_quarterEnds s) (staysUp_ite ?_ (staysUp_refl _))
    exact staysUp_trans (staysUp_trans (staysUp_trans (staysUp_quarterBegin (by decide) _) (staysUp_quarterBegin (by decide) _))
      (staysUp_quarterBegin (by decide) _)) (staysUp_quarterEnds _)
  · exact staysUp_refl s

/-! #### The domains restored, and what then enters -/

theorem seat_off (s : State) (l : List Nat) : State.seat { s with pwr := { s.pwr with off := l } } = s.seat := rfl

theorem seat_sleep (s : State) (x : Sleep) : State.seat { s with ctl := { s.ctl with sleep := x } } = s.seat := rfl

theorem darkWake_seat (bad : BitVec 4) (s : State) : (darkWake bad s).seat = s.seat :=
  calc (darkWake bad s).seat
    _ = (restoreBanks bad { s with ctl := { s.ctl with sleep := .none } }).seat :=
        (seat_of_ground (timeIslandOn_ground _)).trans (seat_off _ _)
    _ = s.seat := (seat_of_ground (restoreBanks_ground bad _)).trans (seat_sleep s .none)

/-- RUN powers the spreader, host, management and time islands (Table 17.1). -/
theorem wakeIslands_on (s : State) : ∀ i ∈ [70, 71, 72, 73], i ∉ (wakeIslands s).pwr.off := by
  intro i hi hm
  have hnot := (List.mem_filter.mp hm).2
  rw [List.contains_iff_mem.mpr (List.mem_append_left _ hi)] at hnot
  cases hnot

/-- Seated in RUN at the level of `s`, its command ports as they were, with no request in flight or waiting. -/
def seatedRun (s t : State) : Prop := t.seat = ((.run, s.ctl.pl), s.stand.2, none, none, false)

theorem seatedRun_row {s t : State} (h : seatedRun s t) (hs : portsIdle s) : t.ctl.mode = .run ∧ t.ctl.pl = s.ctl.pl
    ∧ t.cmd = s.cmd ∧ portsIdle t ∧ t.pwr.flight = none ∧ t.pwr.slot = none ∧ t.pwr.entering = false := by
  simp only [seatedRun, State.seat, Prod.mk.injEq] at h
  obtain ⟨⟨hmode, hlevel⟩, hplaces, hflight, hslot, hent⟩ := h
  exact ⟨hmode, hlevel, congrArg Prod.fst hplaces, portsIdle_of_places hplaces hs, hflight, hslot, hent⟩

/-- With no stalled access and nothing waiting on port W, the wake serves nothing (R29, R72). -/
theorem serveWaiting_none {s : State} (hw : portWork s.cmd.w = false) (hst : s.cmd.stalled = []) : serveWaiting s = s := by
  have hs : { s with cmd := { s.cmd with stalled := [] } } = s := by rw [← hst]
  have hstart : startPort .W s = s := startPort_quiet hw
  rw [serveWaiting, hstart, serveStalled, hst]
  exact hs

/-- Seated in RUN, the interrupts, the queues and the quarters that the wake lets go on keep what is powered, and nothing waits. -/
theorem wakeTail_staysUp {s u : State} (h : seatedRun s u) (hs : portsIdle s) (hst : s.cmd.stalled = []) :
    staysUp u (startSlot (quarterSettle (thawQueues (serveWaiting (irqSettle u))))) := by
  have hi := irqSettle_ground u
  obtain ⟨hmode, -, hcmd, hidle, -, -, hent⟩ := seatedRun_row (t := irqSettle u) ((seat_of_ground hi).trans h) hs
  have hwait : portWork (irqSettle u).cmd.w = false := hidle.2.2.2.2.2.1
  rw [serveWaiting_none hwait (hcmd ▸ hst)]
  have hthaw := ground_of_ctl (ctlKeeps_thawQueues (irqSettle u)) (by rw [State.calm, hmode]; decide) hent
  have hup := staysUp_trans (staysUp_of_ground (hthaw.trans hi)) (staysUp_quarterSettle (thawQueues (irqSettle u)))
  obtain ⟨-, -, -, -, hflight, hslot, -⟩ := seatedRun_row (t := quarterSettle (thawQueues (irqSettle u))) (hup.seat.trans h) hs
  rwa [startSlot_empty hflight hslot]

/-- A wake with nothing stalled, held or waiting ends in RUN with the four islands up and no command to serve (R328, R332). -/
theorem wakeDone_row (bad : BitVec 4) (fails : List Nat) {s t : State} (hs : portsIdle s) (hst : s.cmd.stalled = [])
    (hslot : s.pwr.slot = none) (hflight : s.pwr.flight = none) (hent : s.pwr.entering = false) (ht : t = wakeDone bad fails s) :
    t.ctl.mode = .run ∧ t.ctl.sleep = .none ∧ t.ctl.pl = s.ctl.pl ∧ (∀ i ∈ [70, 71, 72, 73], i ∉ t.pwr.off) ∧ portsIdle t := by
  unfold wakeDone at ht
  simp only at ht
  generalize (List.range 66).filter (fun n => runsNow s n && !islandOn s n) = down at ht
  generalize hs1 : ({ s with
    ctl := { s.ctl with mode := .run, target := if s.ctl.entry.isSome then some .safelight else none }
    pwr := { s.pwr with wake := none } } : State) = s1 at ht
  have h1 : seatedRun s s1 := by
    rw [← hs1, seatedRun, State.seat, hslot, hflight, hent]
    rfl
  have h2 : seatedRun s (if s.ctl.sleep = .dark then darkWake bad s1 else s1) := by
    split
    · exact (darkWake_seat bad s1).trans h1
    · exact h1
  generalize (if s.ctl.sleep = .dark then darkWake bad s1 else s1) = s2 at ht h2
  have h3 := staysUp_of_ground (clustersFail_ground (down.filter (fun n => fails.contains n)) (wakeIslands s2))
  have hseat3 : seatedRun s _ := h3.seat.trans h2
  generalize clustersFail (down.filter (fun n => fails.contains n)) (wakeIslands s2) = s3 at ht h3 hseat3
  have h4 := staysUp_trans (staysUp_powerUpClusters down { s3 with ctl := { s3.ctl with sleep := .none } })
    (staysUp_of_ground (resample_ground _))
  generalize resample (powerUpClusters down { s3 with ctl := { s3.ctl with sleep := .none } }) = s4 at ht h4
  have h5 : (deliverHeld s4.rx.wakeHeld { s4 with rx := { s4.rx with wakeHeld := [] } }).ground = s4.ground :=
    (ground_of_data (dataKeeps_deliverHeld _ _)).trans (by simp)
  generalize deliverHeld s4.rx.wakeHeld { s4 with rx := { s4.rx with wakeHeld := [] } } = s5 at ht h5
  have h6 : staysUp { s3 with ctl := { s3.ctl with sleep := .none } } (roundTrip (hwEvent pgMode 0 (hwEvent pgPower 2 s5))) :=
    staysUp_trans h4 (staysUp_of_ground (by simp [h5]))
  have h7 := staysUp_trans h6 (wakeTail_staysUp (h6.seat.trans hseat3) hs hst)
  rw [← ht] at h7
  obtain ⟨hmode, hlevel, -, hidle, -⟩ := seatedRun_row (t := t) (h7.seat.trans hseat3) hs
  refine ⟨hmode, h7.sleep, hlevel, fun i hi => ?_, hidle⟩
  have h70 : 70 ≤ i := by
    simp only [List.mem_cons, List.not_mem_nil, or_false] at hi
    omega
  exact h7.on i h70 (h3.on i h70 (wakeIslands_on s2 i hi))

/-! ### The rows of a wake -/

/-- In STILL with no wake on record a source is put on record, with the time, and the mode sequencer heads for RUN (R327). -/
theorem noteWake_records {s : State} (hm : s.ctl.mode = .still) (hw : s.pwr.wake = none) (code loc : Nat) :
    noteWake code loc s = setPair (adr pgPower 0x098) s.tim.powered (setF (adr pgPower 0x094) 15 0 (code + 256 * loc)
      { s with pwr := { s.pwr with wake := some (code, loc) }, ctl := { s.ctl with target := some .run } }) := by
  simp [noteWake, wakeStands, hw, hm]

theorem wakeEvent_row {s : State} (code : BitVec 4) (loc : BitVec 8) (hm : s.ctl.mode = .still) (hw : s.pwr.wake = none)
    (hfit : wakeFits s code.toNat loc.toNat = true) (t : State) (ht : t = noteWake code.toNat loc.toNat s) :
    exec (.wakeEvent code loc) s = .next t ∧ t.pwr.wake = some (code.toNat, loc.toNat)
      ∧ t.ctl = { s.ctl with target := some .run } ∧ getF t (adr pgPower 0x094) 15 0 = code.toNat + 256 * loc.toNat
      ∧ getPair t (adr pgPower 0x098) = s.tim.powered % 2 ^ 64 ∧ t.rest = s.rest
      ∧ ∀ b, b ∉ [adr pgPower 0x094, adr pgPower 0x098, adr pgPower 0x09C] → getReg t b = getReg s b := by
  have hexec : exec (.wakeEvent code loc) s = .next t := by
    show execWakeEvent code loc s = _
    simp only [execWakeEvent, hm, hfit, ht, true_or, true_and, if_true]
  have hrest : t.rest = s.rest := by rw [ht, noteWake_rest]
  rw [noteWake_records hm hw] at ht
  subst ht
  refine ⟨hexec, rfl, rfl, ?_, getPair_setPair _ _ _, hrest, fun b hb => ?_⟩
  · rw [getF, getReg_setPair_other _ _ (by decide) (by decide), ← getF, getF_setF_same _ _ _ (by decide)]
    have hcode := code.isLt
    have hloc := loc.isLt
    omega
  · simp only [List.mem_cons, List.not_mem_nil, or_false, not_or] at hb
    obtain ⟨hsrc, hlo, hhi⟩ := hb
    rw [getReg_setPair_other _ _ hlo hhi, getReg_setF_other _ _ _ _ hsrc]
    rfl

/-- Settles O43: the source is put on record, and the wake that finds nothing stalled or waiting ends in RUN. -/
theorem wakeUp : Obligations.WakeUp := by
  intro s code loc bad l hm
  refine ⟨fun hw hfit => ⟨_, wakeEvent_row code loc hm hw hfit _ rfl⟩, fun hw hst _ hslot hflight hent hs => ?_⟩
  obtain ⟨t, ht⟩ : ∃ t, t = wakeDone bad (l.map (fun n => n.val)) s := ⟨_, rfl⟩
  obtain ⟨hmode, hsleep, hlevel, hon, hidle⟩ := wakeDone_row bad _ hs hst hslot hflight hent ht
  have hclock : t.clock = s.clock := by rw [ht, wakeDone_clock]
  refine ⟨t, ?_, hmode, hsleep, hlevel, hon, powered_of_clock hclock, congrArg Prod.snd hclock⟩
  show execWakeComplete bad l s = _
  rw [execWakeComplete, if_pos ⟨hm, hw⟩, ← ht, settle_portsIdle _ hidle]

end Sys2Proof.Machine
end

section
namespace Sys2Proof.Machine

/-! ## FIXER, row by row (O59) -/

/-! ### What FIXER's rows act on

Events and the journal come between every two effects of a row. They are dealt with once: none of them moves the works of the
repair, and none moves the registers in which a row leaves its result. -/

/-- What the rows of FIXER decide on and change beside registers: the migration, the queue, the map, the units that await a fate
or a test, faults for want of a spare, the ring with the frames dealt to it, the clusters that stand in. -/
structure Works where
  mig : Option Migration
  queue : List Decision
  map : Tab UnitMap
  tested : List (UnitId × Bool)
  l2Pending : List Nat
  spares : Bool
  wait : List TestJob
  ring : List (Option Nat)
  dealt : List Dealt
  standIn : Tab Nat

def State.works (s : State) : Works :=
  ⟨s.fix.mig, s.fix.queue, s.fix.map, s.fix.tested, s.fix.l2Pending, s.ctl.faults.spares, s.dark.wait, s.dp.ring, s.dp.dealt,
    s.prt.standIn⟩

theorem works_of_rest {s t : State} (h : t.rest = s.rest) : t.works = s.works :=
  show t.rest.works = s.rest.works by rw [h]

/-- EVT_LATCH of PG_FIXER. -/
abbrev fixLatch : Nat := adr pgFixer 0x24

/-- The registers in which a row of FIXER leaves its result: CTRL, the compare counts and LAST_REPAIR of PG_FIXER, and
PIPE_STATE. -/
def repairReg (b : Nat) : Prop :=
  b ∈ [adr pgFixer 0x010, adr pgFixer 0x088, adr pgFixer 0x08C, adr pgFixer 0x090, adr pgFixer 0x094, adr pgFixer 0x098]
    ∨ ∃ p, b = pipeSt p

theorem repairReg_pipe (p : Nat) : repairReg (pipeSt p) := .inr ⟨p, rfl⟩

theorem repairReg_free_or_high {b : Nat} (h : repairReg b) : eventFree b ∨ 0xA9000 ≤ b := by
  rcases h with h | ⟨p, rfl⟩
  · left
    revert b
    decide
  · right
    simp only [pipeSt, adr, pgPipe]
    omega

theorem repairReg_place {b : Nat} (h : repairReg b) :
    b < 0x7000 ∧ b ≠ fixLatch ∧ b ≠ adr pgFixer 0x40 ∧ b ≠ jrnlA ∨ b % 4096 = 0x080 := by
  rcases h with h | ⟨p, rfl⟩
  · left
    revert b
    decide
  · right
    simp only [pipeSt, adr, pgPipe]
    omega

theorem repairReg_not_header {b : Nat} (h : repairReg b) (page : Nat) : b ≠ adr page 0x24 ∧ b ≠ adr page 0x40 := by
  have key : b % 4096 ≠ 0x24 ∧ b % 4096 ≠ 0x40 := by
    rcases h with h | ⟨p, rfl⟩
    · revert b
      decide
    · simp only [pipeSt, adr, pgPipe]
      omega
  simp only [adr]
  omega

/-- `t` comes from `s` by what leaves FIXER's works and the sources of the interrupt controller alone. -/
structure worksKeeps (s t : State) : Prop where
  works : t.works = s.works
  sane : s.irqSane → t.irqSane

theorem worksKeeps_refl (s : State) : worksKeeps s s := ⟨rfl, id⟩

theorem worksKeeps_trans {s t u : State} (h : worksKeeps s t) (k : worksKeeps t u) : worksKeeps s u :=
  ⟨k.works.trans h.works, fun hs => k.sane (h.sane hs)⟩

theorem worksKeeps_ite {c : Prop} [Decidable c] {s t u : State} (ht : c → worksKeeps s t) (hu : ¬ c → worksKeeps s u) :
    worksKeeps s (if c then t else u) := by
  split
  · exact ht ‹_›
  · exact hu ‹_›

theorem worksKeeps_foldl {α : Type} {f : State → α → State} (h : ∀ s a, worksKeeps s (f s a)) (l : List α) (s : State) :
    worksKeeps s (l.foldl f s) := by
  induction l generalizing s with
  | nil => exact worksKeeps_refl s
  | cons a r ih => exact worksKeeps_trans (h s a) (ih _)

theorem worksKeeps_setReg (a : Nat) (w : Word) (s : State) : worksKeeps s (setReg a w s) := ⟨rfl, id⟩

theorem worksKeeps_setPair (a v : Nat) (s : State) : worksKeeps s (setPair a v s) :=
  worksKeeps_trans (worksKeeps_setReg a _ s) (worksKeeps_setReg _ _ _)

/-- `t` comes from `s` by bookkeeping: beside the works, the results in `repairReg` stand, and no event of FIXER is cleared. -/
structure booked (s t : State) : Prop extends worksKeeps s t where
  latch : ∀ n, (getReg s fixLatch).getLsbD n = true → (getReg t fixLatch).getLsbD n = true
  regs : s.irqSane → ∀ b, repairReg b → getReg t b = getReg s b

theorem booked_refl (s : State) : booked s s := ⟨worksKeeps_refl s, fun _ => id, fun _ _ _ => rfl⟩

theorem booked_trans {s t u : State} (h : booked s t) (k : booked t u) : booked s u :=
  ⟨worksKeeps_trans h.toworksKeeps k.toworksKeeps, fun n hn => k.latch n (h.latch n hn),
    fun hs b hb => (k.regs (h.sane hs) b hb).trans (h.regs hs b hb)⟩

theorem booked_ite {c : Prop} [Decidable c] {s t u : State} (ht : c → booked s t) (hu : ¬ c → booked s u) :
    booked s (if c then t else u) := by
  split
  · exact ht ‹_›
  · exact hu ‹_›

/-- What moves neither the works, nor a register, nor the interrupt controller. -/
theorem booked_of_eq {s t : State} (hw : t.works = s.works) (hr : t.win.regs = s.win.regs) (hi : t.irq = s.irq)
    (hd : t.dark.edges = s.dark.edges) : booked s t := by
  have hreg : ∀ b, getReg t b = getReg s b := fun b => by rw [getReg, hr, getReg]
  exact ⟨⟨hw, fun h => by rwa [State.irqSane, hi, hd]⟩, fun n h => by rwa [hreg], fun _ b _ => hreg b⟩

theorem booked_setReg {a : Nat} (w : Word) (s : State) (hl : a ≠ fixLatch) (ha : ¬ repairReg a) : booked s (setReg a w s) :=
  ⟨⟨rfl, id⟩, fun n h => by rwa [getReg_setReg_other _ _ hl.symm],
    fun _ b hb => getReg_setReg_other _ _ fun e => ha (e ▸ hb)⟩

/-- A register past PG_FIXER that is no PIPE_STATE. -/
theorem booked_setReg_past {a : Nat} (w : Word) (s : State) (h : 0x7000 ≤ a) (ha : a % 4096 ≠ 0x080) :
    booked s (setReg a w s) := by
  refine booked_setReg w s ?_ fun hr => ?_
  · simp only [fixLatch, adr, pgFixer]
    omega
  · rcases repairReg_place hr with ⟨hlt, -⟩ | hp
    · omega
    · exact ha hp

/-- An event is bookkeeping (R37). -/
theorem booked_hwEvent (page n : Nat) (s : State) : booked s (hwEvent page n s) where
  works := works_of_rest (hwEvent_rest page n s)
  sane h := (hwEvent_high page n s h).1
  latch k hk := by
    by_cases hp : page = pgFixer
    · subst hp
      rw [hwEvent_latch _ _ _ (by decide), getLsbD_putBit]
      split
      · rfl
      · exact hk
    · rw [pgFixer] at hp
      have h24 : fixLatch ≠ adr page 0x24 := by
        simp only [fixLatch, adr, pgFixer]
        omega
      have h40 : fixLatch ≠ adr page 0x40 := by
        simp only [fixLatch, adr, pgFixer]
        omega
      rwa [hwEvent_free (by decide) _ _ _ h24 h40]
  regs hs b hb := by
    obtain ⟨h24, h40⟩ := repairReg_not_header hb page
    rcases repairReg_free_or_high hb with h | h
    · exact hwEvent_free h page n s h24 h40
    · exact (hwEvent_high page n s hs).2 b h h24 h40

/-- An event of FIXER shows in its latch (R37). -/
theorem fixEvent_latched {n : Nat} (hn : n < 32) (s : State) : (getReg (hwEvent pgFixer n s) fixLatch).getLsbD n = true := by
  rw [hwEvent_latch _ _ _ (by decide), getLsbD_putBit, if_pos ⟨rfl, hn⟩]

/-! ### The journal -/

theorem storeMap_works (s : State) : (storeMap s).works = s.works := by
  have h : ∀ m l r w, State.works { s with
      fix := { s.fix with stored := m, storedL2 := l, storedRows := r }, nv := { s.nv with wear := w } } = s.works :=
    fun _ _ _ _ => rfl
  exact h _ _ _ _

theorem booked_setJrnl (w : Word) (s : State) : booked s (setReg jrnlA w s) :=
  booked_setReg w s (by decide) fun h => by
    rcases repairReg_place h with ⟨-, -, -, hj⟩ | hp
    · exact hj rfl
    · exact absurd hp (by decide)

theorem booked_nvWrite (a : Nat) (d : List Byte) (s : State) : booked s (nvWrite a d s) := booked_of_eq rfl rfl rfl rfl

/-- An entry in the store is bookkeeping, and so is the repair map that is stored with it (R339, R349). -/
theorem booked_writeEntry (e : HeldEntry) (s : State) : booked s (writeEntry e s) := by
  have hcount : ∀ (x : State) (f : Fix), State.works { x with fix := f } = x.works →
      booked x (addF jrnlA 6 0 1 { x with fix := f }) :=
    fun x f h => booked_trans (booked_of_eq h rfl rfl rfl) (booked_setJrnl _ _)
  have hentry := fun d => booked_trans (booked_nvWrite (jrnlAddr false (s.fix.jseq % 2048)) d s)
    (booked_nvWrite (jrnlAddr true (s.fix.jseq % 2048)) d _)
  unfold writeEntry
  refine booked_ite (fun _ => ?_) fun _ => booked_trans (hentry _) (hcount _ _ rfl)
  exact booked_trans (booked_trans (hentry _) (hcount _ _ rfl)) (booked_of_eq (storeMap_works _) rfl rfl rfl)

theorem booked_flushEntries (l : List HeldEntry) (s : State) : booked s (flushEntries l s) := by
  induction l generalizing s with
  | nil => exact booked_of_eq rfl rfl rfl rfl
  | cons e r ih =>
    unfold flushEntries
    exact booked_ite (fun _ => booked_trans (booked_writeEntry e s) (ih _)) fun _ => booked_of_eq rfl rfl rfl rfl

theorem booked_flushJournal (s : State) : booked s (flushJournal s) := by
  have hreport : ∀ e, booked s (writeEntry e { s with fix := { s.fix with dropReport := 0 } }) := fun e =>
    booked_trans (t := { s with fix := { s.fix with dropReport := 0 } }) (booked_of_eq rfl rfl rfl rfl) (booked_writeEntry e _)
  unfold flushJournal
  refine booked_ite (fun _ => booked_refl s) fun _ => booked_trans ?_ (booked_flushEntries _ _)
  exact booked_ite (fun _ => booked_refl s) fun _ => hreport _

theorem booked_journalHour (s : State) : booked s (journalHour s) := by
  have hhour : booked s { s with fix := { s.fix with hour := s.tim.powered / hourNs } } := booked_of_eq rfl rfl rfl rfl
  unfold journalHour
  exact booked_ite (fun _ => booked_refl s) fun _ =>
    booked_trans (booked_trans hhour (booked_setJrnl _ _)) (booked_flushJournal _)

/-- An entry written, held or dropped is bookkeeping (R349, R350). -/
theorem booked_journalEntry (e : HeldEntry) (s : State) : booked s (journalEntry e s) := by
  have hlate : ∀ x : State, booked (journalHour s) x → booked s (hwEvent pgFixer 6 x) := fun x h =>
    booked_trans (booked_trans (booked_journalHour s) h) (booked_hwEvent _ _ _)
  unfold journalEntry
  refine booked_ite (fun _ => booked_trans (booked_journalHour s) (booked_writeEntry _ _)) fun _ =>
    booked_ite (fun _ => hlate _ (booked_of_eq rfl rfl rfl rfl)) fun _ => hlate _ ?_
  exact booked_trans (booked_of_eq (t := { journalHour s with
    fix := { (journalHour s).fix with dropReport := (journalHour s).fix.dropReport + 1 } }) rfl rfl rfl rfl) (booked_setJrnl _ _)

theorem booked_journal (ev : Nat) (d : Decision) (u : UnitId) (n k : Nat) (s : State) : booked s (journal ev d u n k s) :=
  booked_journalEntry _ s

theorem booked_journalOther (d : Decision) (u : UnitId) (n k : Nat) (s : State) : booked s (journalOther d u n k s) := by
  unfold journalOther
  exact booked_trans (t := nextFree s) (booked_of_eq rfl rfl rfl rfl) (booked_journalEntry _ _)

/-- LAST_REPAIR and its time, and what stands beside them (Table 19.7). -/
theorem lastRepair_shown (o : Nat) (d : Decision) (k : Nat) (s : State) :
    worksKeeps s (lastRepair o d k s) ∧ getReg (lastRepair o d k s) (adr pgFixer 0x090) = word (o * 2 ^ 29 + activityBits d k)
      ∧ getPair (lastRepair o d k s) (adr pgFixer 0x094) = s.tim.powered % 2 ^ 64
      ∧ ∀ b, b ≠ adr pgFixer 0x090 → b ≠ adr pgFixer 0x094 → b ≠ adr pgFixer 0x098 →
        getReg (lastRepair o d k s) b = getReg s b := by
  refine ⟨worksKeeps_trans (worksKeeps_setReg _ _ s) (worksKeeps_setPair _ _ _), ?_, ?_, fun b h0 h4 h8 => ?_⟩
  · rw [lastRepair, getReg_setPair_other _ _ (by decide) (by decide), getReg_setReg_same]
  · rw [lastRepair, getPair_setPair]
  · rw [lastRepair, getReg_setPair_other _ _ h4 h8, getReg_setReg_other _ _ h0]

theorem pipeState_of_reg {s t : State} {p : Nat} (h : getReg t (pipeSt p) = getReg s (pipeSt p)) : pipeState t p = pipeState s p :=
  getF_congr h 2 0

theorem pipeState_of_booked {s t : State} (h : booked s t) (hs : s.irqSane) (p : Nat) : pipeState t p = pipeState s p :=
  pipeState_of_reg (h.regs hs _ (repairReg_pipe p))

/-- How a switchover and a condemnation end: the event, LAST_REPAIR with its time, the entry of the journal (R343, R347, R349). -/
theorem repair_recorded {ev n o k det : Nat} {d e : Decision} {u : UnitId} {s t : State} (hs : s.irqSane) (hn : n < 32)
    (ht : t = journal ev d u k det (lastRepair o e k (hwEvent pgFixer n s))) :
    worksKeeps s t ∧ (getReg t fixLatch).getLsbD n = true
      ∧ getReg t (adr pgFixer 0x090) = word (o * 2 ^ 29 + activityBits e k)
      ∧ getPair t (adr pgFixer 0x094) = s.tim.powered % 2 ^ 64 ∧ ∀ p, pipeState t p = pipeState s p := by
  obtain ⟨hkeep, hword, htime, hothers⟩ := lastRepair_shown o e k (hwEvent pgFixer n s)
  have hevent := booked_hwEvent pgFixer n s
  have hx := hkeep.sane (hevent.sane hs)
  have hbook := booked_journal ev d u k det (lastRepair o e k (hwEvent pgFixer n s))
  rw [← ht] at hbook
  refine ⟨worksKeeps_trans (worksKeeps_trans hevent.toworksKeeps hkeep) hbook.toworksKeeps, ?_, ?_, ?_, fun p => ?_⟩
  · refine hbook.latch n ?_
    rw [hothers _ (by decide) (by decide) (by decide)]
    exact fixEvent_latched hn s
  · rw [hbook.regs hx _ (.inl (by decide)), hword]
  · rw [getPair, hbook.regs hx _ (.inl (by decide)), hbook.regs hx _ (.inl (by decide)), ← getPair, htime,
      rest_tim (hwEvent_rest pgFixer n s)]
  · rw [pipeState_of_booked hbook hx]
    refine (pipeState_of_reg (hothers _ ?_ ?_ ?_)).trans (pipeState_of_booked hevent hs p)
    all_goals
      simp only [pipeSt, adr, pgPipe, pgFixer]
      omega

end Sys2Proof.Machine
end

section
namespace Sys2Proof.Machine

/-! ### Units of the map, pipes and clusters -/

theorem unitMap_putMap (u v : UnitId) (m : UnitMap) (s : State) :
    unitMap (putMap u m s) v = if unitKey v = unitKey u then m else unitMap s v := tabGet_set shippedMap _ _ _ _

theorem unitMap_of_works {s t : State} (h : t.works = s.works) (u : UnitId) : unitMap t u = unitMap s u := by
  have hmap : t.fix.map = s.fix.map := congrArg Works.map h
  rw [unitMap, hmap, unitMap]

theorem unitState_of_works {s t : State} (h : t.works = s.works) (u : UnitId) : unitState t u = unitState s u := by
  rw [unitState, unitMap_of_works h, unitState]

theorem unitState_setUnit (u : UnitId) (v : Nat) (s : State) : unitState (setUnit u v s) u = v := by
  rw [unitState, setUnit, unitMap_putMap, if_pos rfl]

theorem unitMap_setUnit_other {u v : UnitId} (x : Nat) (s : State) (h : unitKey v ≠ unitKey u) :
    unitMap (setUnit u x s) v = unitMap s v := by rw [setUnit, unitMap_putMap, if_neg h]

theorem standsFor_setStands (u : UnitId) (f : Option Nat) (s : State) : (unitMap (setStands u f s) u).standsFor = f := by
  rw [setStands, unitMap_putMap, if_pos rfl]

/-- For whom a unit stands in leaves the states of units alone. -/
theorem unitState_setStands (u v : UnitId) (f : Option Nat) (s : State) : unitState (setStands u f s) v = unitState s v := by
  rw [unitState, setStands, unitMap_putMap]
  split
  · next h => rw [unitState, unitMap, unitMap, h]
  · rfl

theorem unitState_setUnit_other {u v : UnitId} (x : Nat) (s : State) (h : unitKey v ≠ unitKey u) :
    unitState (setUnit u x s) v = unitState s v := by rw [unitState, unitMap_setUnit_other x s h, unitState]

/-- The count of a retirement leaves states and substitutions alone. -/
theorem countRetired_keeps (u v : UnitId) (c : Nat) (s : State) :
    unitState (countRetired u c s) v = unitState s v
      ∧ (unitMap (countRetired u c s) v).standsFor = (unitMap s v).standsFor := by
  rw [unitState, countRetired, unitMap_putMap]
  split
  · next h =>
    rw [unitState, unitMap, unitMap, h]
    exact ⟨rfl, rfl⟩
  · exact ⟨rfl, rfl⟩

theorem posOf_of_ring {s t : State} (h : t.dp.ring = s.dp.ring) (p : Nat) : posOf t p = posOf s p := by
  simp only [posOf, ringAt, h]

/-- A pipe's position is one of the ring. -/
theorem posOf_lt {s : State} {p k : Nat} (h : posOf s p = some k) : k < s.dp.ring.length := by
  have hp := List.find?_some h
  by_contra hk
  rw [ringAt, List.getD_eq_default _ _ (Nat.le_of_not_lt hk)] at hp
  cases hp

theorem worksKeeps_setPipe (p v : Nat) (s : State) : worksKeeps s (setPipe p v s) := by
  unfold setPipe
  exact worksKeeps_ite (fun _ => worksKeeps_refl s) fun _ =>
    worksKeeps_trans (worksKeeps_setReg _ _ s) (booked_hwEvent _ _ _).toworksKeeps

theorem pipeSt_inj {p q : Nat} (h : pipeSt p = pipeSt q) : p = q := by
  simp only [pipeSt, adr, pgPipe] at h
  omega

/-- PIPE_STATE after a change of one pipe's. -/
theorem pipeState_setPipe {s : State} (hs : s.irqSane) (p q : Nat) {v : Nat} (hv : v < 8) :
    pipeState (setPipe p v s) q = if q = p then v else pipeState s q := by
  unfold setPipe
  split
  · next h =>
    split
    · next hq => rw [hq, h]
    · rfl
  · rw [pipeState_of_booked (booked_hwEvent _ _ _) (show (setF (pipeSt p) 2 0 v s).irqSane from hs)]
    split
    · next hq =>
      rw [hq, pipeState, getF_setF_same _ _ _ (by decide)]
      exact Nat.mod_eq_of_lt hv
    · next hq => exact getF_setF_other _ _ fun e => hq (pipeSt_inj e)

/-- A pipe joins the ring (R149, R150). -/
theorem worksKeeps_joinAt (k x : Nat) (s : State) :
    ∃ b, worksKeeps { s with dp := { s.dp with ring := s.dp.ring.set k (some x), before := b } } (joinAt k x s) := by
  have hnote : ∃ b, noteUsed x s = { s with dp := { s.dp with before := b } } := by
    unfold noteUsed
    split
    · exact ⟨_, rfl⟩
    · exact ⟨s.dp.before, rfl⟩
  obtain ⟨b, hb⟩ := hnote
  refine ⟨b, ?_⟩
  rw [joinAt, hb]
  exact worksKeeps_setPipe _ _ _

theorem replacePipe_joined {s : State} {p k x : Nat} (v : Nat) (h : posOf s p = some k) :
    replacePipe p v (some x) s = rotationChanged (setPipe p v (joinAt k x s)) := by simp only [replacePipe, h]

/-- A pipe that leaves the rotation moves the ring at most, and none other of the works (R149). -/
theorem worksKeeps_replacePipe (p v : Nat) (sub : Option Nat) (s : State) :
    ∃ d : Dp, worksKeeps { s with dp := d } (replacePipe p v sub s) ∧ d.dealt = s.dp.dealt := by
  have hleave : ∀ x y : State, worksKeeps x y → worksKeeps x (rotationChanged (setPipe p v y)) := fun x y h =>
    worksKeeps_trans h (worksKeeps_trans (worksKeeps_setPipe p v y) (booked_hwEvent _ _ _).toworksKeeps)
  match hk : posOf s p, sub with
  | some k, some x =>
    obtain ⟨b, hb⟩ := worksKeeps_joinAt k x s
    rw [replacePipe_joined v hk]
    exact ⟨_, hleave _ _ hb, rfl⟩
  | none, _ | some _, none =>
    refine ⟨s.dp, ?_, rfl⟩
    simp only [replacePipe, hk]
    exact hleave _ _ (worksKeeps_refl s)

/-- A pipe with a position gives it to its substitute (R149, R343). -/
theorem replacePipe_switched {s : State} {p x k : Nat} (hs : s.irqSane) (hk : posOf s p = some k) (hx : x ≠ p) :
    ringAt (replacePipe p 3 (some x) s) k = some x ∧ pipeState (replacePipe p 3 (some x) s) x = 1
      ∧ pipeState (replacePipe p 3 (some x) s) p = 3 := by
  obtain ⟨b, hjoin⟩ := worksKeeps_joinAt k x s
  have hjs := hjoin.sane hs
  have hleft := worksKeeps_setPipe p 3 (joinAt k x s)
  have hturn := booked_hwEvent pgSpread 1 (setPipe p 3 (joinAt k x s))
  have hstate : ∀ q, pipeState (replacePipe p 3 (some x) s) q = if q = p then 3 else pipeState (joinAt k x s) q := fun q => by
    rw [replacePipe_joined 3 hk]
    exact (pipeState_of_booked hturn (hleft.sane hjs) q).trans (pipeState_setPipe hjs p q (by decide))
  have hring : (replacePipe p 3 (some x) s).dp.ring = s.dp.ring.set k (some x) := by
    rw [replacePipe_joined 3 hk]
    exact congrArg Works.ring ((hturn.works.trans hleft.works).trans hjoin.works)
  refine ⟨?_, ?_, ?_⟩
  · rw [ringAt, hring, List.getD_eq_getElem _ _ (by rw [List.length_set]; exact posOf_lt hk), List.getElem_set_self]
  · rw [hstate, if_neg hx, joinAt, pipeState_setPipe _ _ _ (by decide), if_pos rfl]
    unfold noteUsed
    split <;> exact hs
  · rw [hstate, if_pos rfl]

/-! ### The supply of clusters, and pages that show a substitution -/

theorem worksKeeps_showNoKeys (c : Nat) (s : State) : worksKeeps s (showNoKeys c s) := by
  unfold showNoKeys
  refine worksKeeps_trans (worksKeeps_foldl (fun x i => ?_) _ s) (worksKeeps_foldl (fun x i => ?_) _ _)
  · exact worksKeeps_trans (worksKeeps_ite (fun _ => worksKeeps_refl x) fun _ => worksKeeps_setReg _ _ x) (worksKeeps_setPair _ _ _)
  · exact worksKeeps_ite (fun _ => worksKeeps_refl x) fun _ => worksKeeps_setReg _ _ x

theorem worksKeeps_clearKeys (c : Nat) (s : State) : worksKeeps s (clearKeys c s) := by
  have hsec : ∀ x, worksKeeps s { s with sec := x } := fun _ => ⟨rfl, id⟩
  unfold clearKeys
  refine worksKeeps_ite (fun _ => ?_) fun _ => worksKeeps_refl s
  split
  · exact worksKeeps_trans (hsec _) (worksKeeps_showNoKeys _ _)
  · exact hsec _

/-- A cluster's supply, its time word and its keys are no works of FIXER's (R213, R234). -/
theorem worksKeeps_clusterDown (n : Nat) (s : State) : worksKeeps s (clusterDown n s) := by
  have hlost : ∀ (x : State) (y : Sec), worksKeeps x { x with sec := y } := fun _ _ => ⟨rfl, id⟩
  have hpower : worksKeeps s (powerCluster n false s) := ⟨rfl, id⟩
  exact worksKeeps_trans (worksKeeps_trans hpower (worksKeeps_clearKeys n _)) (hlost _ _)

theorem booked_copyKeys (a b : Nat) (s : State) : booked s (copyKeys a b s) := booked_of_eq rfl rfl rfl rfl

theorem booked_clusterKeysOn (c : Nat) (s : State) : booked s (clusterKeysOn c s) := by
  have hsec : ∀ x, booked s { s with sec := x } := fun _ => booked_of_eq rfl rfl rfl rfl
  have hlost : ∀ (h : Nat) (w : Word) (x : State), booked x (setReg (adr (pgCl h 2) 0x0E0) w x) := fun h w x =>
    booked_setReg_past w x (by simp only [adr, pgCl]; omega) (by simp only [adr, pgCl]; omega)
  unfold clusterKeysOn
  refine booked_ite (fun _ => ?_) fun _ => booked_refl s
  dsimp only
  split
  · exact booked_trans (booked_trans (hsec _) (hlost _ _ _)) (booked_hwEvent _ _ _)
  · exact hsec _

theorem booked_clusterUp (n : Nat) (s : State) : booked s (clusterUp n s) := by
  have hpower : booked s (powerCluster n true s) := booked_of_eq rfl rfl rfl rfl
  unfold clusterUp
  exact booked_ite (fun _ => booked_refl s) fun _ => booked_trans hpower (booked_clusterKeysOn n _)

theorem worksKeeps_showSlice8 (h c : Nat) (s : State) : worksKeeps s (showSlice8 h c s) := by
  unfold showSlice8
  exact worksKeeps_trans (worksKeeps_foldl (fun x _ => worksKeeps_setReg _ _ x) _ s) (worksKeeps_setReg _ _ _)

theorem worksKeeps_holdPorts (v : Bool) (l : List Nat) (s : State) : worksKeeps s (holdPorts v l s) := by
  induction l generalizing s with
  | nil => exact worksKeeps_refl s
  | cons p r ih => exact worksKeeps_trans (worksKeeps_setReg _ _ s) (ih _)

theorem worksKeeps_offerPorts (u : UnitId) (s : State) : worksKeeps s (offerPorts u s) := by
  have hback : ∀ x, worksKeeps s { s with fix := { s.fix with degraded := x } } := fun _ => ⟨rfl, id⟩
  unfold offerPorts
  split
  · exact worksKeeps_refl s
  · exact worksKeeps_ite (fun _ => hback _) fun _ => worksKeeps_trans (hback _) (worksKeeps_holdPorts _ _ _)

/-- The shadow of a migration shows in registers of the cluster or of PG_SPREAD (R343). -/
theorem shadowFlag_booked (m : Migration) (v : Bool) (s : State) :
    booked s (shadowFlag m v s) ∧ ∃ w, shadowFlag m v s = { s with win := w } := by
  have hsub : ∀ (n : Nat) (w : Word) (x : State), booked x (setReg (substA s n) w x) := fun n w x =>
    booked_setReg_past w x (by simp only [substA, adr, pgCl]; omega) (by simp only [substA, adr, pgCl]; omega)
  have hpipe : ∀ w : Word, booked s (setReg (adr pgSpread 0x098) w s) := fun w =>
    booked_setReg_past w s (by decide) (by decide)
  match h : m.dec.unit.type with
  | 0 =>
    simp only [shadowFlag, h]
    cases v
    · exact ⟨hsub _ _ _, _, rfl⟩
    · exact ⟨booked_trans (hsub _ _ _) (hsub _ _ _), _, rfl⟩
  | 1 =>
    simp only [shadowFlag, h]
    exact ⟨hsub _ _ _, _, rfl⟩
  | n + 2 =>
    simp only [shadowFlag, h]
    exact ⟨hpipe _, _, rfl⟩

/-- What retires a unit but a pipe: its cluster's supply, then its mark (R347). -/
theorem retire_marks (u : UnitId) (c : Nat) (s : State) :
    ∃ x, worksKeeps s x ∧ retire u c s = if u.type = 2 then x else setStands u none (setUnit u 6 x) := by
  have hcause : ∀ t, worksKeeps s { s with fix := { s.fix with causes := t } } := fun _ => ⟨rfl, id⟩
  by_cases h2 : u.type = 2
  · exact ⟨_, hcause _, by rw [retire, if_pos h2, if_pos h2]⟩
  · refine ⟨_, ?_, by rw [retire, if_neg h2, if_neg h2]⟩
    exact worksKeeps_ite (fun _ => worksKeeps_trans (hcause _) (worksKeeps_clusterDown _ _)) fun _ => hcause _

end Sys2Proof.Machine
end

section
namespace Sys2Proof.Machine

/-! ### Monitors (R341) -/

theorem repairing_of_mode {s t : State} (h : t.ctl.mode = s.ctl.mode) : repairing t = repairing s := by
  rw [repairing, h, repairing]

/-- Whether a unit is in service follows from the stand-ins, the map, SUBST and PIPE_STATE. -/
theorem inService_congr {s t : State} (hstand : t.prt.standIn = s.prt.standIn) (hmap : t.fix.map = s.fix.map)
    (hreg : ∀ b, 0xA9000 ≤ b → b % 4096 ≠ 0x24 → b % 4096 ≠ 0x40 → getReg t b = getReg s b) (u : UnitId) :
    inService t u = inService s u := by
  have hhome : ∀ n, home t n = home s n := fun n => by rw [home, hstand, home]
  have hserving : ∀ n, serving t n = serving s n := fun n => by rw [serving, hstand, serving]
  have hstate : ∀ v, unitState t v = unitState s v := fun v => by rw [unitState, unitMap, hmap, unitState, unitMap]
  have hsubst : ∀ n, getReg t (substA t n) = getReg s (substA s n) := fun n => by
    rw [substA, hhome, ← substA]
    refine hreg _ ?_ ?_ ?_ <;> simp only [substA, adr, pgCl] <;> omega
  have hcarries : ∀ n, carries t n = carries s n := fun n => by rw [carries, hstand, hserving, hstate, carries]
  have hslice : ∀ n, slice8Active t n = slice8Active s n := fun n => by rw [slice8Active, getB, hsubst, slice8Active, getB]
  have hpart : ∀ n, getF t (substA t n) 2 0 = getF s (substA s n) 2 0 := fun n => by rw [getF, hsubst, getF]
  have hpipe : ∀ p, pipeState t p = pipeState s p := fun p => by
    refine pipeState_of_reg (hreg _ ?_ ?_ ?_) <;> simp only [pipeSt, adr, pgPipe] <;> omega
  simp only [inService, hcarries, hslice, hstate, hpart, hpipe]

theorem inService_hwEvent {s : State} (hs : s.irqSane) (page n : Nat) (u : UnitId) :
    inService (hwEvent page n s) u = inService s u := by
  have hrest := hwEvent_rest page n s
  refine inService_congr (congrArg (fun x => x.prt.standIn) hrest) (congrArg (fun x => x.fix.map) hrest) (fun b hb h24 h40 => ?_) u
  refine (hwEvent_high page n s hs).2 b hb ?_ ?_ <;> simp only [adr] <;> omega

theorem queueDecision_new {d : Decision} {s : State} (hq : queuedUnit s d.unit = false) (hl : s.fix.queue.length < 16) :
    queueDecision d s = { s with fix := { s.fix with queue := s.fix.queue ++ [d] } } := by
  simp only [queueDecision, hq, hl, if_true, Bool.false_eq_true, if_false]

/-- A unit's readings stored, with the seconds in a row at the migrate limits (Table 19.2). -/
def storeReading (x : AgingReading) (s : State) : State :=
  let k := unitKey x.unit
  let c := getReg s (adr pgFixer 0x0A0)
  { s with fix := { s.fix with
    slow := tabSet (fun _ => 0) s.fix.slow k x.slow
    ecc := tabSet (fun _ => 0) s.fix.ecc k x.ecc
    roRun := runCount s.fix.roRun k (decide (bits c 15 8 ≤ x.slow))
    eccRun := runCount s.fix.eccRun k (decide (bits c 31 24 ≤ x.ecc)) } }

/-- The events of a reading: ECC corrections of a pipe, and the alarm of a unit at a warn limit (R141, R341). -/
def readingEvents (x : AgingReading) (c : Word) (s : State) : State :=
  let s1 := if x.unit.type = 2 ∧ 0 < x.ecc then hwEvent (pgPipe x.unit.unit) 2 s else s
  if bits c 7 0 ≤ x.slow ∨ bits c 23 16 ≤ x.ecc then raiseAlarm (unitKey x.unit) s1 else s1

/-- The decision that a run of readings leads to (Table 19.2). -/
def judgeRuns (x : AgingReading) (w : Word) (s : State) : State :=
  if decisionSecs (bits w 15 8) ≤ tabGet (fun _ => 0) s.fix.roRun (unitKey x.unit) then agingDecision x.unit 1 x.slow s
  else if decisionSecs (bits w 7 0) ≤ tabGet (fun _ => 0) s.fix.eccRun (unitKey x.unit) then agingDecision x.unit 2 x.ecc s
  else s

theorem sampleUnit_eq (x : AgingReading) (s : State) : sampleUnit x s = judgeRuns x (getReg s (adr pgFixer 0x0A4))
    (readingEvents x (getReg s (adr pgFixer 0x0A0)) (storeReading x s)) := rfl

theorem hwEvent_fix (page n : Nat) (s : State) : (hwEvent page n s).fix = s.fix := congrArg (fun x => x.fix) (hwEvent_rest page n s)

/-- What events of a reading leave: the alarms may have grown, and the rest stands. -/
structure alarmKeeps (s t : State) : Prop where
  rest : t.rest = State.rest { s with fix := t.fix }
  fix : t.fix = { s.fix with alarms := t.fix.alarms }
  sane : t.irqSane
  service : ∀ u, inService t u = inService s u
  ctrl : getReg t (adr pgFixer 0x010) = getReg s (adr pgFixer 0x010)

theorem alarmKeeps_hwEvent {s : State} (hs : s.irqSane) (page n : Nat) : alarmKeeps s (hwEvent page n s) where
  rest := by rw [hwEvent_rest, hwEvent_fix]
  fix := by rw [hwEvent_fix]
  sane := (booked_hwEvent page n s).sane hs
  service := inService_hwEvent hs page n
  ctrl := (booked_hwEvent page n s).regs hs _ (.inl (by decide))

theorem alarmKeeps_trans {s t u : State} (h : alarmKeeps s t) (k : alarmKeeps t u) : alarmKeeps s u where
  rest := k.rest.trans (congrArg (fun x : State => { x with fix := u.fix }) h.rest)
  fix := k.fix.trans (congrArg (fun x : Fix => { x with alarms := u.fix.alarms }) h.fix)
  sane := k.sane
  service v := (k.service v).trans (h.service v)
  ctrl := k.ctrl.trans h.ctrl

theorem alarmKeeps_refl {s : State} (hs : s.irqSane) : alarmKeeps s s := ⟨rfl, rfl, hs, fun _ => rfl, rfl⟩

/-- AGING_ALARM stands after a reading at a warn limit (R341). -/
theorem raiseAlarm_raises {s : State} (hs : s.irqSane) (k : Nat) :
    alarmKeeps s (raiseAlarm k s) ∧ (raiseAlarm k s).fix.alarms.contains k = true := by
  unfold raiseAlarm
  split
  · next h => exact ⟨alarmKeeps_refl hs, h⟩
  · have hset : alarmKeeps s { s with fix := { s.fix with alarms := setInsert s.fix.alarms k } } :=
      ⟨rfl, rfl, hs, inService_congr rfl rfl fun _ _ _ _ => rfl, rfl⟩
    have hevent := alarmKeeps_hwEvent (s := { s with fix := { s.fix with alarms := setInsert s.fix.alarms k } }) hs pgFixer 1
    refine ⟨alarmKeeps_trans hset hevent, ?_⟩
    rw [hwEvent_fix]
    exact List.contains_iff_mem.mpr (mem_setInsert_self _ _)

theorem readingEvents_raise {s : State} (hs : s.irqSane) (x : AgingReading) (c : Word) :
    alarmKeeps s (readingEvents x c s)
      ∧ (bits c 7 0 ≤ x.slow ∨ bits c 23 16 ≤ x.ecc → (readingEvents x c s).fix.alarms.contains (unitKey x.unit) = true) := by
  have hpipe : alarmKeeps s (if x.unit.type = 2 ∧ 0 < x.ecc then hwEvent (pgPipe x.unit.unit) 2 s else s) := by
    split
    · exact alarmKeeps_hwEvent hs _ _
    · exact alarmKeeps_refl hs
  obtain ⟨hraise, hin⟩ := raiseAlarm_raises hpipe.sane (unitKey x.unit)
  unfold readingEvents
  dsimp only
  split
  · exact ⟨alarmKeeps_trans hpipe hraise, fun _ => hin⟩
  · next h => exact ⟨hpipe, fun hw => absurd hw h⟩

/-- A decision moves the queue alone. -/
theorem agingDecision_queue (u : UnitId) (cause reading : Nat) (s : State) :
    ∃ q, agingDecision u cause reading s = { s with fix := { s.fix with queue := q } } := by
  unfold agingDecision
  split
  · exact ⟨_, rfl⟩
  · exact ⟨s.fix.queue, rfl⟩

theorem judgeRuns_queue (x : AgingReading) (w : Word) (s : State) :
    ∃ q, judgeRuns x w s = { s with fix := { s.fix with queue := q } } := by
  unfold judgeRuns
  split
  · exact agingDecision_queue _ _ _ _
  · split
    · exact agingDecision_queue _ _ _ _
    · exact ⟨s.fix.queue, rfl⟩

/-- A planned decision for a unit in service that has none (Table 19.2). -/
theorem agingDecision_queues {u : UnitId} {s : State} (cause reading : Nat) (hc : getB s (adr pgFixer 0x010) 1 = true)
    (hserv : inService s u = true) (hmig : inMigration s u = false) (hq : queuedUnit s u = false) (hl : s.fix.queue.length < 16) :
    agingDecision u cause reading s = { s with fix := { s.fix with
      queue := s.fix.queue ++ [{ newDecision u 0 cause with detail := reading }] } } := by
  unfold agingDecision
  rw [hc, hserv, hmig, if_pos (by decide)]
  exact queueDecision_new hq hl

theorem runCount_same (t : Tab Nat) (k : Nat) (b : Bool) :
    tabGet (fun _ => 0) (runCount t k b) k = if b then min (tabGet (fun _ => 0) t k + 1) 60 else 0 := by
  rw [runCount, tabGet_set, if_pos rfl]

theorem exec_agingSample_sampled {s : State} {x : AgingReading} (hr : repairing s = true) (hs : sampled s x.unit = true)
    (l : List AgingReading) : exec (.agingSample (x :: l)) s = exec (.agingSample l) (sampleUnit x s) := by
  have hmode : repairing (sampleUnit x s) = true := by
    rw [repairing_of_mode (regime_eq.mp (sampleUnit_regime x s)).2.2.1, hr]
  show execAgingSample _ _ = execAgingSample _ _
  rw [execAgingSample, execAgingSample, hr, hmode, sampleUnits, hs]
  rfl

theorem exec_agingSample_skipped {s : State} {x : AgingReading} (hr : repairing s = true) (hs : sampled s x.unit = false)
    (l : List AgingReading) : exec (.agingSample (x :: l)) s = exec (.agingSample l) s := by
  show execAgingSample _ _ = execAgingSample _ _
  rw [execAgingSample, execAgingSample, hr, sampleUnits, hs]
  rfl

/-- What one sampled unit's readings store, count, alarm and decide (R341, Table 19.2). -/
theorem sampleUnit_row {s t : State} {x : AgingReading} {k ro ec : Nat} {c : Word} (hs : s.irqSane) (hk : k = unitKey x.unit)
    (hc : c = getReg s (adr pgFixer 0x0A0))
    (hro : ro = if bits c 15 8 ≤ x.slow then min (tabGet (fun _ => 0) s.fix.roRun k + 1) 60 else 0)
    (hec : ec = if bits c 31 24 ≤ x.ecc then min (tabGet (fun _ => 0) s.fix.eccRun k + 1) 60 else 0) (ht : t = sampleUnit x s) :
    tabGet (fun _ => 0) t.fix.slow k = x.slow ∧ tabGet (fun _ => 0) t.fix.ecc k = x.ecc
      ∧ tabGet (fun _ => 0) t.fix.roRun k = ro ∧ tabGet (fun _ => 0) t.fix.eccRun k = ec
      ∧ (bits c 7 0 ≤ x.slow ∨ bits c 23 16 ≤ x.ecc → t.fix.alarms.contains k = true)
      ∧ (ro < decisionSecs (getF s (adr pgFixer 0x0A4) 15 8) → ec < decisionSecs (getF s (adr pgFixer 0x0A4) 7 0) →
        t.fix.queue = s.fix.queue)
      ∧ (decisionSecs (getF s (adr pgFixer 0x0A4) 15 8) ≤ ro → getB s (adr pgFixer 0x010) 1 = true →
          inService s x.unit = true → inMigration s x.unit = false → queuedUnit s x.unit = false → s.fix.queue.length < 16 →
        t.fix.queue = s.fix.queue ++ [{ newDecision x.unit 0 1 with detail := x.slow }])
      ∧ t.fix.mig = s.fix.mig ∧ t.rest = State.rest { s with fix := t.fix } := by
  obtain ⟨hkeep, halarm⟩ := readingEvents_raise (s := storeReading x s) hs x c
  rw [sampleUnit_eq, ← hc] at ht
  obtain ⟨u, hu⟩ : ∃ u, u = readingEvents x c (storeReading x s) := ⟨_, rfl⟩
  rw [← hu] at ht hkeep halarm
  obtain ⟨q, hq⟩ := judgeRuns_queue x (getReg s (adr pgFixer 0x0A4)) u
  have hfix : u.fix = { (storeReading x s).fix with alarms := u.fix.alarms } := hkeep.fix
  have hrun : tabGet (fun _ => 0) u.fix.roRun (unitKey x.unit) = ro := by
    rw [hfix, hro, hc, hk]
    exact (runCount_same _ _ _).trans (by simp only [decide_eq_true_eq])
  have hecc : tabGet (fun _ => 0) u.fix.eccRun (unitKey x.unit) = ec := by
    rw [hfix, hec, hc, hk]
    exact (runCount_same _ _ _).trans (by simp only [decide_eq_true_eq])
  have hqueue : u.fix.queue = s.fix.queue := by rw [hfix]; rfl
  have hmig : u.fix.mig = s.fix.mig := by rw [hfix]; rfl
  have htfix : t.fix = { u.fix with queue := t.fix.queue } := by rw [ht, hq]
  refine ⟨?_, ?_, ?_, ?_, fun hw => ?_, fun h1 h2 => ?_, fun h1 hctrl hserv hm hnq hl => ?_, ?_, ?_⟩
  · rw [htfix, hfix, hk]
    exact (tabGet_set _ _ _ _ _).trans (if_pos rfl)
  · rw [htfix, hfix, hk]
    exact (tabGet_set _ _ _ _ _).trans (if_pos rfl)
  · rw [htfix, hk, hrun]
  · rw [htfix, hk, hecc]
  · rw [htfix, hk]
    exact halarm hw
  · rw [ht, judgeRuns, hrun, hecc, ← getF, ← getF, if_neg (Nat.not_le_of_lt h1), if_neg (Nat.not_le_of_lt h2), hqueue]
  · rw [ht, judgeRuns, hrun, ← getF, if_pos h1, agingDecision_queues 1 x.slow, hqueue]
    · rw [getB_congr hkeep.ctrl]
      exact hctrl
    · rw [hkeep.service]
      exact (inService_congr rfl rfl (fun _ _ _ _ => rfl) _).trans hserv
    · rw [inMigration, hmig, ← inMigration, hm]
    · rw [queuedUnit, hqueue, ← queuedUnit, hnq]
    · rw [hqueue]
      exact hl
  · rw [htfix, hmig]
  · rw [ht, hq]
    exact congrArg (fun y : State => { y with fix := { u.fix with queue := q } }) hkeep.rest

end Sys2Proof.Machine
end

section
namespace Sys2Proof.Machine

/-! ### Hard faults (R341, R345, R346) -/

theorem hardFault_free {s : State} (u : UnitId) (cause : Nat) (hm : s.fix.mig = none) :
    hardFault u cause s = if inService s u then queueDecision (newDecision u 1 cause) s else s := by
  unfold hardFault
  rw [hm]

theorem hardFault_queues {u : UnitId} {s : State} (cause : Nat) (hm : s.fix.mig = none) (hserv : inService s u = true)
    (hq : queuedUnit s u = false) (hl : s.fix.queue.length < 16) : hardFault u cause s
      = { s with fix := { s.fix with queue := s.fix.queue ++ [newDecision u 1 cause] } } := by
  rw [hardFault_free u cause hm, if_pos hserv]
  exact queueDecision_new (d := newDecision u 1 cause) hq hl

theorem hardFault_idle {u : UnitId} {s : State} (cause : Nat) (hm : s.fix.mig = none) (hserv : inService s u = false) :
    hardFault u cause s = s := by rw [hardFault_free u cause hm, hserv, if_neg Bool.false_ne_true]

/-- A hard fault of the unit that migrates makes its migration urgent (Table 19.6). -/
theorem hardFault_urgent {u : UnitId} {s : State} {m : Migration} (cause : Nat) (hm : s.fix.mig = some m) (hu : m.dec.unit = u)
    (hstep : m.step ≤ 2) (hop : m.dec.op ≠ 2) : (hardFault u cause s).fix.mig
      = some { m with dec := { m.dec with kind := 1, cause := cause }, step := if m.step = 2 then 3 else 1 } := by
  simp only [hardFault, hm, if_pos (And.intro hu (And.intro hstep hop))]
  rfl

/-- A miscompare counted (R341). -/
def countMiscompare (u : UnitId) (s : State) : State :=
  { s with fix := { s.fix with
    lockstep := tabSet (fun _ => 0) s.fix.lockstep (unitKey u) (tabGet (fun _ => 0) s.fix.lockstep (unitKey u) + 1) } }

theorem exec_lockstepMiscompare {s : State} {u : UnitId} (hr : repairing s = true) (hu : u.type = 0 ∨ u.type = 2) :
    exec (.lockstepMiscompare u) s = .next (hardFault u 3 (countMiscompare u s)) := by
  have hcond : (repairing s && (u.type == 0 || u.type == 2)) = true := by
    rcases hu with h | h <;> simp [hr, h]
  show execLockstepMiscompare u s = _
  rw [execLockstepMiscompare, if_pos hcond]
  rfl

theorem lockstepMiscompare_row {s : State} {u : UnitId} (hr : repairing s = true) (hu : u.type = 0 ∨ u.type = 2) :
    ∃ t, exec (.lockstepMiscompare u) s = .next t
      ∧ (s.fix.mig = none → inService s u = true → queuedUnit s u = false → s.fix.queue.length < 16 →
        t.fix.queue = s.fix.queue ++ [newDecision u 1 3] ∧ t = { s with fix := t.fix }
          ∧ tabGet (fun _ => 0) t.fix.lockstep (unitKey u) = tabGet (fun _ => 0) s.fix.lockstep (unitKey u) + 1)
      ∧ (s.fix.mig = none → inService s u = false → t.fix.queue = s.fix.queue ∧ t = { s with fix := t.fix })
      ∧ (∀ m, s.fix.mig = some m → m.dec.unit = u → m.step ≤ 2 → m.dec.op ≠ 2 →
        t.fix.mig = some { m with dec := { m.dec with kind := 1, cause := 3 }, step := if m.step = 2 then 3 else 1 }) := by
  have hserv : inService (countMiscompare u s) u = inService s u := inService_congr rfl rfl (fun _ _ _ _ => rfl) u
  have hcount : tabGet (fun _ => 0) (countMiscompare u s).fix.lockstep (unitKey u)
      = tabGet (fun _ => 0) s.fix.lockstep (unitKey u) + 1 := by
    unfold countMiscompare
    dsimp only
    rw [tabGet_set, if_pos rfl]
  refine ⟨_, exec_lockstepMiscompare hr hu, fun hm hs hq hl => ?_, fun hm hs => ?_, fun m hm => hardFault_urgent 3 hm⟩
  · rw [hardFault_queues (s := countMiscompare u s) 3 hm (hserv.trans hs) hq hl]
    exact ⟨rfl, rfl, hcount⟩
  · rw [hardFault_idle (s := countMiscompare u s) 3 hm (hserv.trans hs)]
    exact ⟨rfl, rfl⟩

/-- The FCS of a frame in transmit changes nothing of FIXER's. -/
theorem stompFlight_parts (p : Nat) (s : State) : ∃ x, stompFlight p s = { s with tx := x } := by
  unfold stompFlight
  split
  · exact ⟨_, rfl⟩
  · exact ⟨s.tx, rfl⟩

theorem exec_uncorrectable_unit {s : State} {u : UnitId} {c : ErrContent} (hr : repairing s = true) (hu : u.type < 3) :
    ∃ x, exec (.uncorrectableError u c) s = .next (hardFault u 4 { hwEvent pgFixer 7 s with tx := x }) := by
  show ∃ x, execUncorrectableError u c s = .next (hardFault u 4 { hwEvent pgFixer 7 s with tx := x })
  simp only [execUncorrectableError, hr, hu, if_true]
  split
  · obtain ⟨x, hx⟩ := stompFlight_parts _ (hwEvent pgFixer 7 s)
    exact ⟨x, by rw [hx]⟩
  · exact ⟨(hwEvent pgFixer 7 s).tx, rfl⟩

theorem exec_uncorrectable_island {s : State} {u : UnitId} {c : ErrContent} (hr : repairing s = true) (hu : 3 ≤ u.type) :
    exec (.uncorrectableError u c) s = .next (pendL2 u (islandWord c (hwEvent pgFixer 7 s))) := by
  show execUncorrectableError u c s = _
  rw [execUncorrectableError, if_pos hr]
  dsimp only
  rw [if_neg (Nat.not_lt_of_le hu)]

/-- The dropped word of a frame: the drain counts of PG_VERSION move, and the frame is no longer dealt (R346). -/
theorem dropFrameWord_moves (p n : Nat) (s : State) :
    State.rest { dropFrameWord p n s with dp := s.dp } = s.rest
      ∧ (dropFrameWord p n s).dp.dealt = s.dp.dealt.filter (fun d => !(d.frm.port == p && d.seq == n))
      ∧ getReg (dropFrameWord p n s) fixLatch = getReg s fixLatch := by
  have hdrain : ∀ (x : State) (k : Nat), getReg (drainDown k x) fixLatch = getReg x fixLatch := fun x k =>
    getReg_setF_other _ _ _ _ (by simp only [fixLatch, drainA, adr, pgFixer, pgVersion]; omega)
  have hrest : ∀ l : List Dealt, (l.foldl (fun x d => drainDown (d.tag.toNat / 2 ^ 30) x) s).rest = s.rest :=
    foldl_keeps State.rest _ (fun _ _ => setF_rest _ _ _ _ _) (s := s)
  have hlatch : ∀ l : List Dealt, getReg (l.foldl (fun x d => drainDown (d.tag.toNat / 2 ^ 30) x) s) fixLatch = getReg s fixLatch :=
    fun l => foldl_keeps (fun x => getReg x fixLatch) _ (fun _ _ => hdrain _ _) l s
  obtain ⟨l, hl⟩ : ∃ l : List Dealt, l = s.dp.dealt.filter (fun d => d.frm.port == p && d.seq == n) := ⟨_, rfl⟩
  unfold dropFrameWord
  rw [← hl]
  dsimp only
  generalize hx : l.foldl (fun x d => drainDown (d.tag.toNat / 2 ^ 30) x) s = x
  have hxr : x.rest = s.rest := hx ▸ hrest l
  have hxl : getReg x fixLatch = getReg s fixLatch := hx ▸ hlatch l
  refine ⟨congrArg (fun y : State => { y with dp := s.dp }) hxr, ?_, hxl⟩
  rw [show x.dp = s.dp from congrArg (fun y => y.dp) hxr]

/-- What an island's word held is none of FIXER's (R346). -/
theorem islandWord_fix (c : ErrContent) (s : State) : (islandWord c s).fix = s.fix := by
  cases c with
  | frame p n =>
    have h := congrArg (fun x => x.fix) (dropFrameWord_moves p n.toNat s).1
    exact h
  | txFrame p =>
    obtain ⟨x, hx⟩ := stompFlight_parts p s
    rw [islandWord, hx]
  | replica => rfl
  | register a => rfl
  | context rx q => exact behindTx_fix (txKeeps_queueError rx q 6 (getQ s rx q).ci s).behind
  | unused => rfl

/-- A fault without spares is recorded as pending, with its entry in the journal (R346). -/
theorem pendL2_row (u : UnitId) (s : State) : (pendL2 u s).fix.l2Pending = s.fix.l2Pending ++ [u.unit]
    ∧ (pendL2 u s).ctl.faults.spares = true ∧ (pendL2 u s).fix.queue = s.fix.queue ∧ (pendL2 u s).dp.dealt = s.dp.dealt
    ∧ ∀ n, (getReg s fixLatch).getLsbD n = true → (getReg (pendL2 u s) fixLatch).getLsbD n = true := by
  have hbook := booked_journal 7 (newDecision u 1 4) { u with type := 3, slice := 0xFF } 0xFF 0 { s with
    fix := { s.fix with l2Pending := s.fix.l2Pending ++ [u.unit] }
    ctl := { s.ctl with faults := { s.ctl.faults with spares := true } } }
  exact ⟨congrArg Works.l2Pending hbook.works, congrArg Works.spares hbook.works, congrArg Works.queue hbook.works,
    congrArg Works.dealt hbook.works, hbook.latch⟩

theorem uncorrectableError_row {s : State} (hs : s.irqSane) {u : UnitId} {c : ErrContent} (hr : repairing s = true) :
    ∃ t, exec (.uncorrectableError u c) s = .next t
      ∧ (u.type < 3 → s.fix.mig = none → inService s u = true → queuedUnit s u = false → s.fix.queue.length < 16 →
        t.fix.queue = s.fix.queue ++ [newDecision u 1 4] ∧ (getReg t (adr pgFixer 0x24)).getLsbD 7 = true)
      ∧ (3 ≤ u.type → t.fix.l2Pending = s.fix.l2Pending ++ [u.unit] ∧ t.ctl.faults.spares = true ∧ t.fix.queue = s.fix.queue
        ∧ (∀ p n, c = .frame p n → (getReg t (adr pgFixer 0x24)).getLsbD 7 = true
          ∧ t.dp.dealt = s.dp.dealt.filter (fun d => !(d.frm.port == p.val && d.seq == n.toNat)))) := by
  have hfix := hwEvent_fix pgFixer 7 s
  have hdp : (hwEvent pgFixer 7 s).dp = s.dp := congrArg (fun x => x.dp) (hwEvent_rest pgFixer 7 s)
  rcases Nat.lt_or_ge u.type 3 with hu | hu
  · obtain ⟨x, hx⟩ := exec_uncorrectable_unit (c := c) hr hu
    refine ⟨_, hx, fun _ hm hserv hq hl => ?_, fun h => absurd hu (Nat.not_lt_of_le h)⟩
    have hserv' : inService { hwEvent pgFixer 7 s with tx := x } u = true :=
      (inService_congr (s := hwEvent pgFixer 7 s) rfl rfl (fun _ _ _ _ => rfl) u).trans ((inService_hwEvent hs _ _ u).trans hserv)
    rw [hardFault_queues (s := { hwEvent pgFixer 7 s with tx := x }) 4 (by rw [hfix, hm]) hserv'
      (by rw [queuedUnit, hfix, ← queuedUnit, hq]) (by rw [hfix]; exact hl)]
    exact ⟨by rw [hfix], fixEvent_latched (by decide) s⟩
  · refine ⟨_, exec_uncorrectable_island hr hu, fun h => absurd h (Nat.not_lt_of_le hu), fun _ => ?_⟩
    obtain ⟨hpend, hspares, hqueue, hdealt, hlatch⟩ := pendL2_row u (islandWord c (hwEvent pgFixer 7 s))
    have hword := (islandWord_fix c (hwEvent pgFixer 7 s)).trans hfix
    refine ⟨by rw [hpend, hword], hspares, by rw [hqueue, hword], fun p n hc => ?_⟩
    subst hc
    obtain ⟨-, hgone, hreg⟩ := dropFrameWord_moves p n.toNat (hwEvent pgFixer 7 s)
    refine ⟨hlatch 7 ?_, ?_⟩
    · rw [islandWord, hreg]
      exact fixEvent_latched (by decide) s
    · rw [hdealt, islandWord, hgone, hdp]

end Sys2Proof.Machine
end

section
namespace Sys2Proof.Machine

/-! ### MIGRATION_START (R342, R343) -/

/-- The spare of a migration is marked in the map; a pipe's is not (R343). -/
def markSpare (u : UnitId) (x : Nat) (s : State) : State :=
  match u.type with
  | 0 => setUnit (slice8 u.unit) 2 s
  | 1 => setUnit (clusterId x) 2 s
  | _ => s

theorem markSpare_parts (u : UnitId) (x : Nat) (s : State) :
    ∃ m, markSpare u x s = { s with fix := { s.fix with map := m } } := by
  unfold markSpare
  split
  · exact ⟨_, rfl⟩
  · exact ⟨_, rfl⟩
  · exact ⟨s.fix.map, rfl⟩

theorem markSpare_slice {u : UnitId} (h : u.type = 0) (x : Nat) (s : State) : unitState (markSpare u x s) (slice8 u.unit) = 2 := by
  simp only [markSpare, h]
  exact unitState_setUnit _ _ _

theorem markSpare_cluster {u : UnitId} (h : u.type = 1) (x : Nat) (s : State) : unitState (markSpare u x s) (clusterId x) = 2 := by
  simp only [markSpare, h]
  exact unitState_setUnit _ _ _

theorem booked_lastSpare (u : UnitId) (s : State) : booked s (lastSpare u s) := by
  unfold lastSpare
  exact booked_ite (fun _ => booked_hwEvent _ _ _) fun _ => booked_refl s

/-- After its mark the spare is powered, given the keys and shown, which is bookkeeping (R213, R214, R343). -/
theorem booked_takeSpare (d : Decision) (u : UnitId) (x : Nat) (l : List Nat) (s : State) :
    booked (markSpare u x { s with fix := { s.fix with
      mig := some { dec := { d with unit := u }, spare := x, step := 1, failed := l } } }) (takeSpare d u x l s) := by
  have hflag : ∀ (m : Migration) (y z : State), booked y z →
      booked y (lastSpare u (if u.type < 2 then shadowFlag m true z else z)) := fun m y z h =>
    booked_trans (booked_trans h (booked_ite (fun _ => (shadowFlag_booked m true z).1) fun _ => booked_refl z)) (booked_lastSpare u _)
  unfold takeSpare markSpare
  refine hflag _ _ _ ?_
  generalize u.type = k
  match k with
  | 0 => exact booked_refl _
  | 1 => exact booked_trans (booked_clusterUp _ _) (booked_copyKeys _ _ _)
  | _ + 2 => exact booked_refl _

theorem chooseSpare_queue (s : State) (q : List Decision) (d : Decision) (l : List Nat) :
    chooseSpare { s with fix := { s.fix with queue := q } } d l = chooseSpare s d l := rfl

theorem beginMig_takes {d : Decision} {v : UnitId} {x : Nat} {s : State} (h : chooseSpare s d [] = .use v x) :
    beginMig d [] s = takeSpare d v x [] (setReg (adr pgFixer 0x08C) 0 (setReg (adr pgFixer 0x088) 0 s)) := by
  unfold beginMig
  rw [h]

theorem beginMig_without {d : Decision} {s : State} (hk : d.kind = 0) (h : chooseSpare s d [] = .none) :
    beginMig d [] s = noSpare (endMig s) := by
  unfold beginMig
  rw [h]
  simp only [withoutSpare, hk]

/-- A spare taken: the migration at step 1, its counts at zero, the spare a shadow (R343). -/
theorem beginMig_taken {d : Decision} {v : UnitId} {x : Nat} {s : State} (hs : s.irqSane) (h : chooseSpare s d [] = .use v x) :
    (beginMig d [] s).fix.mig = some { dec := { d with unit := v }, spare := x, step := 1, failed := [] }
      ∧ (beginMig d [] s).fix.queue = s.fix.queue ∧ getReg (beginMig d [] s) (adr pgFixer 0x088) = 0
      ∧ getReg (beginMig d [] s) (adr pgFixer 0x08C) = 0 ∧ (v.type = 0 → unitState (beginMig d [] s) (slice8 v.unit) = 2)
      ∧ (v.type = 1 → unitState (beginMig d [] s) (clusterId x) = 2) := by
  rw [beginMig_takes h]
  obtain ⟨y, hy⟩ : ∃ y, y = setReg (adr pgFixer 0x08C) 0 (setReg (adr pgFixer 0x088) 0 s) := ⟨_, rfl⟩
  have h88 : getReg y (adr pgFixer 0x088) = 0 := by rw [hy, getReg_setReg_other _ _ (by decide), getReg_setReg_same]
  have h8C : getReg y (adr pgFixer 0x08C) = 0 := by rw [hy, getReg_setReg_same]
  have hysane : y.irqSane := by rw [hy]; exact hs
  have hqueue : y.fix.queue = s.fix.queue := by rw [hy]; rfl
  rw [← hy]
  have hbook := booked_takeSpare d v x [] y
  obtain ⟨m, hm⟩ := markSpare_parts v x { y with fix := { y.fix with
    mig := some { dec := { d with unit := v }, spare := x, step := 1, failed := [] } } }
  refine ⟨(congrArg Works.mig hbook.works).trans ?_, (congrArg Works.queue hbook.works).trans ?_, ?_, ?_, fun hv => ?_, fun hv => ?_⟩
  · rw [hm]; rfl
  · rw [hm]; exact hqueue
  · rw [hbook.regs (by rw [hm]; exact hysane) _ (.inl (by decide)), hm]; exact h88
  · rw [hbook.regs (by rw [hm]; exact hysane) _ (.inl (by decide)), hm]; exact h8C
  · rw [unitState_of_works hbook.works, markSpare_slice hv]
  · rw [unitState_of_works hbook.works, markSpare_cluster hv]

/-- No spare for a planned decision: the fault, event 4, and no migration (R348). -/
theorem noSpare_row (s : State) : (noSpare (endMig s)).fix.mig = none ∧ (noSpare (endMig s)).fix.queue = s.fix.queue
    ∧ (noSpare (endMig s)).ctl.faults.spares = true ∧ (getReg (noSpare (endMig s)) fixLatch).getLsbD 4 = true := by
  have hbook := booked_hwEvent pgFixer 4
    { endMig s with ctl := { (endMig s).ctl with faults := { (endMig s).ctl.faults with spares := true } } }
  exact ⟨congrArg Works.mig hbook.works, congrArg Works.queue hbook.works, congrArg Works.spares hbook.works,
    fixEvent_latched (by decide) _⟩

theorem exec_migrationStart_takes {s s' : State} {d : Decision} (hr : repairing s = true) (hm : s.fix.mig = none)
    (hd : firstDecision s s.fix.queue = some d)
    (hs' : s' = { s with fix := { s.fix with queue := s.fix.queue.filter (fun x => !(x.unit == d.unit)) } })
    (hrec : reclaim d s' = s') : exec .migrationStart s = .next (beginDecision d s') := by
  show execMigrationStart s = _
  have hcond : (repairing s && s.fix.mig.isNone) = true := by rw [hr, hm]; rfl
  rw [execMigrationStart, if_pos hcond, hd]
  exact congrArg (fun x => Host.Outcome.next (beginDecision d x)) ((congrArg (reclaim d) hs'.symm).trans hrec)

theorem exec_migrationStart_waits {s : State} (h : s.fix.mig ≠ none ∨ firstDecision s s.fix.queue = none) :
    exec .migrationStart s = .next s := by
  show execMigrationStart s = _
  rw [execMigrationStart]
  split
  · next hc =>
    rcases h with h | h
    · obtain ⟨-, hm⟩ := Bool.and_eq_true_iff.mp hc
      exact absurd (Option.isNone_iff_eq_none.mp hm) h
    · rw [h]
  · rfl

/-- A decision that is neither a return, a condemnation nor a reinstatement (R342). -/
theorem beginDecision_repair {d : Decision} {s : State} (h2 : d.op ≠ 2) (h3 : d.op ≠ 3) (h4 : d.op ≠ 4) :
    (d.testOnly = true → beginDecision d s = beginTest d s)
      ∧ (d.testOnly = false → inService s d.unit = true → beginDecision d s = beginMig d [] s) := by
  unfold beginDecision
  dsimp only
  split
  · contradiction
  · contradiction
  · contradiction
  · refine ⟨fun ht => if_pos ht, fun ht hu => ?_⟩
    rw [ht, hu, if_neg Bool.false_ne_true, if_pos (by rfl)]

theorem migrationStart_row {s s' : State} {d : Decision} (hs : s.irqSane) (hr : repairing s = true) (hm : s.fix.mig = none)
    (hd : firstDecision s s.fix.queue = some d)
    (hs' : s' = { s with fix := { s.fix with queue := s.fix.queue.filter (fun x => !(x.unit == d.unit)) } })
    (hrec : reclaim d s' = s') (h2 : d.op ≠ 2) (h3 : d.op ≠ 3) (h4 : d.op ≠ 4) :
    ∃ t, exec .migrationStart s = .next t ∧ t.ctl.mode = s.ctl.mode
      ∧ (∀ v x, d.testOnly = false → inService s d.unit = true → chooseSpare s d [] = .use v x →
        t.fix.mig = some { dec := { d with unit := v }, spare := x, step := 1, failed := [] } ∧ t.fix.queue = s'.fix.queue
          ∧ getReg t (adr pgFixer 0x088) = 0 ∧ getReg t (adr pgFixer 0x08C) = 0
          ∧ (v.type = 0 → unitState t (slice8 v.unit) = 2) ∧ (v.type = 1 → unitState t (clusterId x) = 2))
      ∧ (d.testOnly = true → t.fix.mig = some { dec := d, spare := 0xFF, step := 4, failed := [] } ∧ t.fix.queue = s'.fix.queue
        ∧ t.dark.wait = s.dark.wait ++ [{ unit := d.unit, tests := 3, origin := 2 }])
      ∧ (d.testOnly = false → d.kind = 0 → inService s d.unit = true → chooseSpare s d [] = .none →
        t.fix.mig = none ∧ t.fix.queue = s'.fix.queue ∧ t.ctl.faults.spares = true
          ∧ (getReg t (adr pgFixer 0x24)).getLsbD 4 = true) := by
  have hexec := exec_migrationStart_takes hr hm hd hs' hrec
  have hregime : (beginDecision d s').regime = s.regime := by
    rw [beginDecision_regime, hs']
    rfl
  have hsane : s'.irqSane := by rw [hs']; exact hs
  have hserv : inService s' d.unit = inService s d.unit := by
    rw [hs']
    exact inService_congr rfl rfl (fun _ _ _ _ => rfl) _
  have hchoose : chooseSpare s' d [] = chooseSpare s d [] := by rw [hs', chooseSpare_queue]
  obtain ⟨htest, hrepair⟩ := beginDecision_repair (s := s') h2 h3 h4
  refine ⟨_, hexec, (regime_eq.mp hregime).2.2.1, fun v x ht hu hc => ?_, fun ht => ?_, fun ht hk hu hc => ?_⟩
  · rw [hrepair ht (hserv.trans hu)]
    exact beginMig_taken hsane (hchoose.trans hc)
  · rw [htest ht]
    refine ⟨rfl, rfl, ?_⟩
    rw [hs']
    rfl
  · rw [hrepair ht (hserv.trans hu), beginMig_without hk (hchoose.trans hc)]
    exact noSpare_row s'

end Sys2Proof.Machine
end

section
namespace Sys2Proof.Machine

/-! ### SHADOW_COMPARE_START (R343, R344) -/

theorem exec_shadowCompareStart_idle {s : State} (hm : s.fix.mig = none) (n : Option Nat) :
    exec (.shadowCompareStart n) s = .next s := by
  show execShadowCompareStart n s = _
  rw [execShadowCompareStart, hm]

theorem exec_shadowCompareStart_barred {s : State} {m : Migration} (hm : s.fix.mig = some m)
    (h : compares m.dec = false ∨ awaitsReconf s m.dec.unit = true) (n : Option Nat) :
    exec (.shadowCompareStart n) s = .next s := by
  show execShadowCompareStart n s = _
  simp only [execShadowCompareStart, hm]
  rcases h with h | h <;> simp [h]

theorem exec_shadowCompareStart_begins {s : State} {m : Migration} (hm : s.fix.mig = some m) (hr : repairing s = true)
    (hc : compares m.dec = true) (hw : awaitsReconf s m.dec.unit = false) (hstep : m.step = 1) :
    exec (.shadowCompareStart none) s = .next (beginCompare m s)
      ∧ ∀ n, exec (.shadowCompareStart (some n)) s = .next (differAfter n m (beginCompare m s)) := by
  have hexec : ∀ n, execShadowCompareStart n s = .next (match n with
      | none => beginCompare m s
      | some n => differAfter n m (beginCompare m s)) := fun n => by
    simp only [execShadowCompareStart, hm, hc, hr, hw, hstep]
    rfl
  exact ⟨hexec none, fun n => hexec (some n)⟩

/-- Comparison begins at step 2; what else it moves are registers and live counts (R151, R343). -/
theorem beginCompare_parts (m : Migration) (s : State) : booked (setStep 2 m s) (beginCompare m s)
    ∧ ∃ w, beginCompare m s = { s with win := w, fix := { s.fix with mig := some { m with step := 2 } } } := by
  obtain ⟨hbook, w, hw⟩ := shadowFlag_booked m true (setStep 2 m s)
  have hlive : ∀ x : State, booked x (setLive (adr pgSpread 0x09C) 0 (setLive (adr pgSpread 0x0A0) 0 x)) := fun _ =>
    booked_of_eq rfl rfl rfl rfl
  unfold beginCompare
  dsimp only
  split
  · refine ⟨booked_trans hbook (hlive _),
      (setLive (adr pgSpread 0x09C) 0 (setLive (adr pgSpread 0x0A0) 0 { s with win := w })).win, ?_⟩
    rw [hw]
    rfl
  · exact ⟨hbook, w, hw⟩

/-- A shadow that differs ends, and its spare is to be tested (R343, R344). -/
theorem miscompare_tests {m : Migration} (hop : m.dec.op ≠ 2) (s : State) :
    ∃ z, booked s z ∧ miscompare m s = askTest (spareUnit m.dec.unit m.spare) (setStep 6 m z) := by
  refine ⟨_, ?_, by rw [miscompare, if_neg hop]⟩
  exact booked_trans (booked_journal _ _ _ _ _ s) (shadowFlag_booked m false _).1

/-- A difference: it is counted, event 2 is latched, and the shadow ends with the test of the spare (R343, R344). -/
theorem differAfter_row {m : Migration} {s : State} (hs : s.irqSane) (n : Nat) (hop : m.dec.op ≠ 2) :
    (differAfter n m s).fix.mig = some { m with step := 6 }
      ∧ (differAfter n m s).dark.wait = s.dark.wait ++ [{ unit := spareUnit m.dec.unit m.spare, tests := 3, origin := 2 }]
      ∧ (getReg (differAfter n m s) fixLatch).getLsbD 2 = true
      ∧ getF (differAfter n m s) (adr pgFixer 0x08C) 31 0 = satAdd (2 ^ 32 - 1) (getF s (adr pgFixer 0x08C) 31 0) 1 := by
  obtain ⟨x, hx⟩ : ∃ x, x = addF (adr pgFixer 0x08C) 31 0 1 (addF (adr pgFixer 0x088) 31 0 n s) := ⟨_, rfl⟩
  have hxs : worksKeeps s x := by
    rw [hx]
    exact worksKeeps_trans (worksKeeps_setReg _ _ s) (worksKeeps_setReg _ _ _)
  have hcount : getF x (adr pgFixer 0x08C) 31 0 = satAdd (2 ^ 32 - 1) (getF s (adr pgFixer 0x08C) 31 0) 1 := by
    rw [hx, getF_addF_same _ _ _ (by decide), getF_congr (getReg_addF_other _ _ _ _ (by decide))]
  have hevent := booked_hwEvent pgFixer 2 x
  have hlive : ∀ y : State, booked y (addLive (adr pgSpread 0x0A0) 1 (addLive (adr pgSpread 0x09C) n y)) := fun _ =>
    booked_of_eq rfl rfl rfl rfl
  obtain ⟨y, hy⟩ : ∃ y, y = if m.dec.unit.type = 2 then
      hwEvent pgSpread 3 (addLive (adr pgSpread 0x0A0) 1 (addLive (adr pgSpread 0x09C) n (hwEvent pgFixer 2 x)))
    else hwEvent pgFixer 2 x := ⟨_, rfl⟩
  have hshown : booked (hwEvent pgFixer 2 x) y := by
    rw [hy]
    exact booked_ite (fun _ => booked_trans (hlive _) (booked_hwEvent _ _ _)) fun _ => booked_refl _
  obtain ⟨z, hz, hend⟩ := miscompare_tests hop y
  have he : differAfter n m s = askTest (spareUnit m.dec.unit m.spare) (setStep 6 m z) := by
    rw [differAfter, ← hx, ← hy, hend]
  have hafter := booked_trans hshown hz
  have hsane := hevent.sane (hxs.sane hs)
  have hwait : z.dark.wait = s.dark.wait :=
    congrArg Works.wait ((hafter.works.trans hevent.works).trans hxs.works)
  rw [he]
  refine ⟨rfl, ?_, hafter.latch 2 (fixEvent_latched (by decide) x), ?_⟩
  · rw [askTest]
    exact congrArg (· ++ _) hwait
  · rw [← hcount]
    exact getF_congr ((hafter.regs hsane _ (.inl (by decide))).trans (hevent.regs (hxs.sane hs) _ (.inl (by decide)))) 31 0

theorem shadowCompareStart_row {s : State} {m : Migration} (hs : s.irqSane) (hm : s.fix.mig = some m) (hr : repairing s = true)
    (hc : compares m.dec = true) (hw : awaitsReconf s m.dec.unit = false) (hstep : m.step = 1) :
    (∃ t, exec (.shadowCompareStart none) s = .next t ∧ t.fix = { s.fix with mig := some { m with step := 2 } }
        ∧ t.ctl = s.ctl ∧ t.prt = s.prt ∧ t.dp = s.dp)
      ∧ (∀ n, m.dec.op ≠ 2 → ∃ t x, exec (.shadowCompareStart (some n)) s = .next t ∧ t.fix.mig = some x ∧ x.step = 6
        ∧ x.dec = m.dec ∧ x.spare = m.spare
        ∧ t.dark.wait = s.dark.wait ++ [{ unit := spareUnit m.dec.unit m.spare, tests := 3, origin := 2 }]
        ∧ (getReg t (adr pgFixer 0x24)).getLsbD 2 = true
        ∧ getF t (adr pgFixer 0x08C) 31 0 = satAdd (2 ^ 32 - 1) (getF s (adr pgFixer 0x08C) 31 0) 1) := by
  obtain ⟨hbegin, hdiffer⟩ := exec_shadowCompareStart_begins hm hr hc hw hstep
  obtain ⟨hbook, w, hparts⟩ := beginCompare_parts m s
  refine ⟨⟨_, hbegin, ?_⟩, fun n hop => ?_⟩
  · rw [hparts]
    exact ⟨rfl, rfl, rfl, rfl⟩
  · obtain ⟨hmig, hwait, hlatch, hcount⟩ := differAfter_row (s := beginCompare m s) (hbook.sane hs) n hop
    refine ⟨_, _, hdiffer n, hmig, rfl, rfl, rfl, ?_, hlatch, ?_⟩
    · rw [hwait, hparts]
    · rw [hcount, getF_congr (hbook.regs hs _ (.inl (by decide)))]
      rfl

/-! ### MIGRATION_SWITCHOVER (R343) -/

theorem exec_migrationSwitchover_idle {s : State} (hm : s.fix.mig = none) (n : Nat) :
    exec (.migrationSwitchover n) s = .next s := by
  show execMigrationSwitchover n s = _
  rw [execMigrationSwitchover, hm]

theorem exec_migrationSwitchover_barred {s : State} {m : Migration} (hm : s.fix.mig = some m) (h : maySwitch s m = false)
    (n : Nat) : exec (.migrationSwitchover n) s = .next s := by
  show execMigrationSwitchover n s = _
  simp only [execMigrationSwitchover, hm, h, Bool.false_eq_true, if_false]

/-- A slice's traffic on slice 8 (R343, R347). -/
theorem moveToSpare_slice {m : Migration} (h : m.dec.unit.type = 0) (s : State) :
    ∃ x, worksKeeps s x ∧ worksKeeps (setStands (slice8 m.dec.unit.unit) (some m.dec.unit.slice)
      (setUnit (slice8 m.dec.unit.unit) 0 (setStands m.dec.unit none (setUnit m.dec.unit 6 x)))) (moveToSpare m s) := by
  obtain ⟨x, hx, hretire⟩ := retire_marks m.dec.unit m.dec.cause s
  refine ⟨x, hx, ?_⟩
  rw [if_neg (by rw [h]; decide)] at hretire
  simp only [moveToSpare, h]
  rw [hretire]
  exact worksKeeps_trans (worksKeeps_showSlice8 _ _ _) (booked_hwEvent _ _ _).toworksKeeps

/-- A cluster's traffic on a spare cluster, which stands in for the home cluster (R98, R343). -/
theorem moveToSpare_cluster {m : Migration} (h : m.dec.unit.type = 1) (s : State) :
    ∃ x, worksKeeps { s with prt := { s.prt with
        standIn := tabPut (tabErase s.prt.standIn m.dec.unit.unit) m.spare (home s m.dec.unit.unit) } } x
      ∧ worksKeeps (setStands (clusterId m.spare) (some (home s m.dec.unit.unit)) (setUnit (clusterId m.spare) 0
        (setStands m.dec.unit none (setUnit m.dec.unit 6 x)))) (moveToSpare m s) := by
  have hkeys := (booked_copyKeys (serving s (home s m.dec.unit.unit)) m.spare { s with prt := { s.prt with
    standIn := tabPut (tabErase s.prt.standIn m.dec.unit.unit) m.spare (home s m.dec.unit.unit) } }).toworksKeeps
  obtain ⟨x, hx, hretire⟩ := retire_marks m.dec.unit m.dec.cause (copyKeys (serving s (home s m.dec.unit.unit)) m.spare { s with
    prt := { s.prt with standIn := tabPut (tabErase s.prt.standIn m.dec.unit.unit) m.spare (home s m.dec.unit.unit) } })
  refine ⟨x, worksKeeps_trans hkeys hx, ?_⟩
  rw [if_neg (by rw [h]; decide)] at hretire
  have hmove : moveToSpare m s = hwEvent (pgCl (home s m.dec.unit.unit) 1) 7 (showSlice8 (home s m.dec.unit.unit) m.spare
      (setStands (clusterId m.spare) (some (home s m.dec.unit.unit)) (setUnit (clusterId m.spare) 0
        (setStands m.dec.unit none (setUnit m.dec.unit 6 x))))) := by
    rw [← hretire]
    simp only [moveToSpare, h]
    rfl
  rw [hmove]
  exact worksKeeps_trans (worksKeeps_showSlice8 _ _ _) (booked_hwEvent _ _ _).toworksKeeps

/-- A pipe's position on its spare, outside a hard fault (R149, R343). -/
theorem moveToSpare_pipe {m : Migration} (h : 2 ≤ m.dec.unit.type) (hk : m.dec.kind ≠ 1) (s : State) :
    moveToSpare m s = replacePipe m.dec.unit.unit 3 (some m.spare) (retire m.dec.unit m.dec.cause s) := by
  obtain ⟨n, hn⟩ : ∃ n, m.dec.unit.type = n + 2 := ⟨_, (Nat.sub_add_cancel h).symm⟩
  simp only [moveToSpare, hn, if_neg hk]

theorem wait_of_keeps {s t : State} (h : worksKeeps s t) : t.dark.wait = s.dark.wait := congrArg Works.wait h.works

/-- A unit's mark in the map, with whom it stands in for. -/
theorem marked_waits (u : UnitId) (f : Option Nat) (v : Nat) (s : State) :
    (setStands u f (setUnit u v s)).dark.wait = s.dark.wait ∧ (s.irqSane → (setStands u f (setUnit u v s)).irqSane) :=
  ⟨rfl, id⟩

theorem retire_waits (u : UnitId) (c : Nat) (s : State) :
    (retire u c s).dark.wait = s.dark.wait ∧ (s.irqSane → (retire u c s).irqSane) := by
  obtain ⟨x, hx, he⟩ := retire_marks u c s
  rw [he]
  split
  · exact ⟨wait_of_keeps hx, hx.sane⟩
  · obtain ⟨hwait, hsane⟩ := marked_waits u none 6 x
    exact ⟨hwait.trans (wait_of_keeps hx), fun hs => hsane (hx.sane hs)⟩

/-- Moving the traffic asks for no test, and keeps the controller's sources. -/
theorem moveToSpare_waits {m : Migration} (hk : m.dec.kind ≠ 1) (s : State) :
    (moveToSpare m s).dark.wait = s.dark.wait ∧ (s.irqSane → (moveToSpare m s).irqSane) := by
  have hmarked : ∀ {u v : UnitId} {f : Option Nat} {x : State}, x.dark.wait = s.dark.wait → (s.irqSane → x.irqSane) →
      worksKeeps (setStands v f (setUnit v 0 (setStands u none (setUnit u 6 x)))) (moveToSpare m s) →
      (moveToSpare m s).dark.wait = s.dark.wait ∧ (s.irqSane → (moveToSpare m s).irqSane) := fun {u v f x} hw hx hmove => by
    obtain ⟨hwait, hsane⟩ := marked_waits u none 6 x
    obtain ⟨hwait', hsane'⟩ := marked_waits v f 0 (setStands u none (setUnit u 6 x))
    exact ⟨(wait_of_keeps hmove).trans (hwait'.trans (hwait.trans hw)), fun hs => hmove.sane (hsane' (hsane (hx hs)))⟩
  rcases Nat.lt_or_ge m.dec.unit.type 2 with h | h
  · obtain h0 | h1 : m.dec.unit.type = 0 ∨ m.dec.unit.type = 1 := by omega
    · obtain ⟨x, hx, hmove⟩ := moveToSpare_slice h0 s
      exact hmarked (wait_of_keeps hx) hx.sane hmove
    · obtain ⟨x, hx, hmove⟩ := moveToSpare_cluster h1 s
      have hwait := wait_of_keeps hx
      exact hmarked hwait hx.sane hmove
  · obtain ⟨hwait, hsane⟩ := retire_waits m.dec.unit m.dec.cause s
    obtain ⟨d, hd, -⟩ := worksKeeps_replacePipe m.dec.unit.unit 3 (some m.spare) (retire m.dec.unit m.dec.cause s)
    rw [moveToSpare_pipe h hk]
    exact ⟨(wait_of_keeps hd).trans hwait, fun hs => hd.sane (hsane hs)⟩

end Sys2Proof.Machine
end

section
namespace Sys2Proof.Machine

/-- The map after a slice's traffic has moved to slice 8 (R343, R347). -/
theorem moveToSpare_slice_map {m : Migration} (h : m.dec.unit.type = 0) (h8 : m.dec.unit.slice < 8) (s : State) :
    unitState (moveToSpare m s) m.dec.unit = 6 ∧ unitState (moveToSpare m s) (slice8 m.dec.unit.unit) = 0
      ∧ (unitMap (moveToSpare m s) (slice8 m.dec.unit.unit)).standsFor = some m.dec.unit.slice := by
  obtain ⟨x, -, hmove⟩ := moveToSpare_slice h s
  have hkey : unitKey m.dec.unit ≠ unitKey (slice8 m.dec.unit.unit) := by
    simp only [unitKey, slice8, sliceId, h]
    omega
  rw [unitState_of_works hmove.works, unitState_of_works hmove.works, unitMap_of_works hmove.works]
  refine ⟨?_, ?_, standsFor_setStands _ _ _⟩
  · rw [unitState_setStands, unitState_setUnit_other _ _ hkey, unitState_setStands, unitState_setUnit]
  · rw [unitState_setStands, unitState_setUnit]

/-- The map and the stand-in after a cluster's traffic has moved to a spare cluster (R98, R343). -/
theorem moveToSpare_cluster_map {m : Migration} {s : State} {h : Nat} (hu : m.dec.unit = clusterId h) (hx : h ≠ m.spare)
    (hh : home s h = h) : unitState (moveToSpare m s) m.dec.unit = 6 ∧ unitState (moveToSpare m s) (clusterId m.spare) = 0
      ∧ tabFind (moveToSpare m s).prt.standIn m.spare = some h := by
  obtain ⟨x, hkeep, hmove⟩ := moveToSpare_cluster (m := m) (by rw [hu]; rfl) s
  have hkey : unitKey m.dec.unit ≠ unitKey (clusterId m.spare) := by
    simp only [hu, unitKey, clusterId]
    omega
  have hstand : (moveToSpare m s).prt.standIn = x.prt.standIn := congrArg Works.standIn hmove.works
  rw [unitState_of_works hmove.works, unitState_of_works hmove.works]
  refine ⟨?_, ?_, ?_⟩
  · rw [unitState_setStands, unitState_setUnit_other _ _ hkey, unitState_setStands, unitState_setUnit]
  · rw [unitState_setStands, unitState_setUnit]
  · have hput : x.prt.standIn = tabPut (tabErase s.prt.standIn m.dec.unit.unit) m.spare (home s m.dec.unit.unit) :=
      congrArg Works.standIn hkeep.works
    rw [hstand, hput, tabFind_put_same, show m.dec.unit.unit = h by rw [hu]; rfl, hh]

/-- The ring and the pipes after a pipe's position has moved to its spare (R149, R343). -/
theorem moveToSpare_pipe_ring {m : Migration} {s : State} {k : Nat} (hs : s.irqSane) (h : m.dec.unit.type = 2)
    (hk : m.dec.kind ≠ 1) (hx : m.spare ≠ m.dec.unit.unit) (hp : posOf s m.dec.unit.unit = some k) :
    ringAt (moveToSpare m s) k = some m.spare ∧ pipeState (moveToSpare m s) m.spare = 1
      ∧ pipeState (moveToSpare m s) m.dec.unit.unit = 3 := by
  obtain ⟨x, hkeep, hretire⟩ := retire_marks m.dec.unit m.dec.cause s
  rw [if_pos h] at hretire
  rw [moveToSpare_pipe (Nat.le_of_eq h.symm) hk, hretire]
  exact replacePipe_switched (hkeep.sane hs) ((posOf_of_ring (congrArg Works.ring hkeep.works) _).trans hp) hx

/-- The end of a switchover whose command is not FORCE_REPAIR's: the retired unit is to be tested (R347). -/
theorem afterRetired_tests {m : Migration} {u : UnitId} {s : State} (h3 : m.dec.op ≠ 3) (h5 : m.dec.op ≠ 5)
    (hf : m.dec.forced = false) (hm : s.ctl.mode ≠ .safelight) : afterRetired m u s = askTest u (setStep 4 m s) := by
  have hend : endForced m.dec rOk 0 s = s := by rw [endForced, hf, if_neg Bool.false_ne_true]
  unfold afterRetired
  rw [if_neg h3, if_neg h5, hend]
  split
  · next h => exact absurd h hm
  · rfl

/-- The switchover itself: the traffic moves, it is recorded, and the retired unit is to be tested (R343, R347). -/
theorem switchOver_row {m : Migration} {s : State} (hs : s.irqSane) (hmode : s.ctl.mode ≠ .safelight) (h2 : m.dec.op ≠ 2)
    (h3 : m.dec.op ≠ 3) (h5 : m.dec.op ≠ 5) (hk : m.dec.kind ≠ 1) (hf : m.dec.forced = false) :
    ∃ b c r, worksKeeps s b ∧ c = moveToSpare m b ∧ c.irqSane ∧ c.dark.wait = s.dark.wait
      ∧ worksKeeps c r ∧ switchOver m s = askTest m.dec.unit (setStep 4 m r) ∧ (getReg r fixLatch).getLsbD 0 = true
      ∧ getReg r (adr pgFixer 0x090) = word (2 ^ 29 + activityBits m.dec m.spare)
      ∧ getPair r (adr pgFixer 0x094) = s.tim.powered % 2 ^ 64 ∧ ∀ p, pipeState r p = pipeState c p := by
  obtain ⟨b, hb⟩ : ∃ b, b = offerPorts m.dec.unit (shadowFlag m false s) := ⟨_, rfl⟩
  obtain ⟨c, hc⟩ : ∃ c, c = moveToSpare m b := ⟨_, rfl⟩
  obtain ⟨r, hr⟩ : ∃ r, r = journal 1 m.dec m.dec.unit m.spare m.dec.detail (lastRepair 1 m.dec m.spare (hwEvent pgFixer 0 c)) :=
    ⟨_, rfl⟩
  have hkeep : worksKeeps s b := by
    rw [hb]
    exact worksKeeps_trans (shadowFlag_booked m false s).1.toworksKeeps (worksKeeps_offerPorts _ _)
  have hbreg : b.regime = s.regime := by rw [hb, offerPorts_regime, shadowFlag_regime]
  have hcreg : c.regime = b.regime := by rw [hc, moveToSpare_regime]
  have hrreg : r.regime = s.regime := by rw [hr, journal_regime, lastRepair_regime, hwEvent_regime, hcreg, hbreg]
  obtain ⟨hwait, hsane⟩ := moveToSpare_waits hk b
  rw [← hc] at hwait hsane
  have hcs := hsane (hkeep.sane hs)
  obtain ⟨hrec, hlatch, hword, htime, hpipes⟩ := repair_recorded hcs (by decide) hr
  refine ⟨b, c, r, hkeep, hc, hcs, hwait.trans (wait_of_keeps hkeep), hrec, ?_, hlatch, ?_, ?_, hpipes⟩
  · rw [switchOver, if_neg h2, ← hb, ← hc]
    dsimp only
    rw [← hr]
    exact afterRetired_tests h3 h5 hf (by rw [(regime_eq.mp hrreg).2.2.1]; exact hmode)
  · rw [hword, Nat.one_mul]
  · rw [htime, (regime_eq.mp hcreg).1, (regime_eq.mp hbreg).1]

theorem exec_migrationSwitchover_switches {s : State} {m : Migration} (hm : s.fix.mig = some m) (h : maySwitch s m = true)
    (n : Nat) : ∃ x, exec (.migrationSwitchover n) s = .next (switchOver m x) ∧ worksKeeps s x ∧ x.regime = s.regime := by
  refine ⟨if m.step = 2 ∧ m.dec.unit.type < 2 then addF (adr pgFixer 0x088) 31 0 n s else s, ?_, ?_, ?_⟩
  · show execMigrationSwitchover n s = _
    simp only [execMigrationSwitchover, hm, h, if_true]
  · exact worksKeeps_ite (fun _ => worksKeeps_setReg _ _ s) fun _ => worksKeeps_refl s
  · rw [regime_ite, addF_regime, ite_self]

theorem migrationSwitchover_row {s : State} {m : Migration} (hs : s.irqSane) (hm : s.fix.mig = some m) (n : Nat)
    (h : maySwitch s m = true) (hmode : s.ctl.mode ≠ .safelight) (h2 : m.dec.op ≠ 2) (h3 : m.dec.op ≠ 3) (h5 : m.dec.op ≠ 5)
    (hk : m.dec.kind ≠ 1) (hf : m.dec.forced = false) :
    ∃ t, exec (.migrationSwitchover n) s = .next t ∧ t.fix.mig = some { m with step := 4 }
      ∧ t.dark.wait = s.dark.wait ++ [{ unit := m.dec.unit, tests := 3, origin := 2 }]
      ∧ getReg t (adr pgFixer 0x090) = word (2 ^ 29 + activityBits m.dec m.spare)
      ∧ getPair t (adr pgFixer 0x094) = s.tim.powered % 2 ^ 64 ∧ (getReg t (adr pgFixer 0x24)).getLsbD 0 = true
      ∧ (∀ k, m.dec.unit.type = 2 → m.spare ≠ m.dec.unit.unit → posOf s m.dec.unit.unit = some k →
        ringAt t k = some m.spare ∧ pipeState t m.spare = 1 ∧ pipeState t m.dec.unit.unit = 3)
      ∧ (m.dec.unit.type = 0 → m.dec.unit.slice < 8 → unitState t m.dec.unit = 6
        ∧ unitState t (slice8 m.dec.unit.unit) = 0
        ∧ (unitMap t (slice8 m.dec.unit.unit)).standsFor = some m.dec.unit.slice)
      ∧ (∀ h, m.dec.unit = clusterId h → h ≠ m.spare → home s h = h → unitState t m.dec.unit = 6
        ∧ unitState t (clusterId m.spare) = 0 ∧ tabFind t.prt.standIn m.spare = some h) := by
  obtain ⟨x, hexec, hx, hreg⟩ := exec_migrationSwitchover_switches hm h n
  obtain ⟨hpow, -, hxm, -, -⟩ := regime_eq.mp hreg
  obtain ⟨b, c, r, hb, hc, hcs, hwait, hr, hsw, hlatch, hword, htime, hpipes⟩ :=
    switchOver_row (hx.sane hs) (by rw [hxm]; exact hmode) h2 h3 h5 hk hf
  have hsb := worksKeeps_trans hx hb
  rw [hsw] at hexec
  have hstate : ∀ u, unitState (askTest m.dec.unit (setStep 4 m r)) u = unitState (moveToSpare m b) u := fun u =>
    (unitState_of_works hr.works u).trans (by rw [hc])
  have hmap : ∀ u, unitMap (askTest m.dec.unit (setStep 4 m r)) u = unitMap (moveToSpare m b) u := fun u =>
    (unitMap_of_works hr.works u).trans (by rw [hc])
  refine ⟨_, hexec, rfl, ?_, hword, htime.trans (by rw [hpow]), hlatch, fun k ht hne hp => ?_, fun ht h8 => ?_, fun g hu hne hg => ?_⟩
  · have hw : r.dark.wait = s.dark.wait := (wait_of_keeps hr).trans (hwait.trans (wait_of_keeps hx))
    rw [← hw]
    rfl
  · have hpb := (posOf_of_ring (congrArg Works.ring hsb.works) m.dec.unit.unit).trans hp
    obtain ⟨hring, hspare, hleft⟩ := moveToSpare_pipe_ring (hb.sane (hx.sane hs)) ht hk hne hpb
    rw [← hc] at hring hspare hleft
    have hrr : r.dp.ring = c.dp.ring := congrArg Works.ring hr.works
    refine ⟨?_, (hpipes _).trans hspare, (hpipes _).trans hleft⟩
    rw [← hring, ringAt, ringAt, ← hrr]
    rfl
  · rw [hstate, hstate, hmap]
    exact moveToSpare_slice_map ht h8 b
  · have hstand : r.prt.standIn = (moveToSpare m b).prt.standIn := by
      rw [← hc]
      exact congrArg Works.standIn hr.works
    have hbs : b.prt.standIn = s.prt.standIn := congrArg Works.standIn hsb.works
    have hhome : home b g = g := by rw [home, hbs, ← home, hg]
    obtain ⟨h6, h0, hin⟩ := moveToSpare_cluster_map hu hne hhome
    rw [hstate, hstate]
    refine ⟨h6, h0, ?_⟩
    rw [← hin, ← hstand]
    rfl

end Sys2Proof.Machine
end

section
namespace Sys2Proof.Machine

/-! ### RETIRED_UNIT_FATE (R347) -/

/-- The migration and the results that await a fate stand. -/
def fatesKeep (s t : State) : Prop := t.fix.mig = s.fix.mig ∧ t.fix.tested = s.fix.tested

theorem fatesKeep_trans {s t u : State} (h : fatesKeep s t) (k : fatesKeep t u) : fatesKeep s u :=
  ⟨k.1.trans h.1, k.2.trans h.2⟩

theorem fatesKeep_of_works {s t : State} (h : worksKeeps s t) : fatesKeep s t :=
  ⟨congrArg Works.mig h.works, congrArg Works.tested h.works⟩

theorem fatesKeep_setAny (u : UnitId) (v : Nat) (s : State) : fatesKeep s (setAny u v s) := by
  unfold setAny
  split
  · exact fatesKeep_of_works (worksKeeps_setPipe _ _ _)
  · exact ⟨rfl, rfl⟩

theorem fatesKeep_clusterBack (n : Nat) (s : State) : fatesKeep s (clusterBack n s) := by
  unfold clusterBack
  split
  · exact ⟨rfl, rfl⟩
  · have hlanes := congrArg (fun x => x.fix) (dataKeeps_sampleLanes (clusterLanes n) (clusterUp n s)).control
    have hfix : (sampleLanes (clusterLanes n) (clusterUp n s)).fix = (clusterUp n s).fix := hlanes
    exact fatesKeep_trans (fatesKeep_of_works (booked_clusterUp n s).toworksKeeps) ⟨by rw [hfix], by rw [hfix]⟩

theorem fatesKeep_passedUnit (u : UnitId) (s : State) : fatesKeep s (passedUnit u s) := by
  unfold passedUnit
  split
  · split
    · refine fatesKeep_trans (t := { s with fix := { s.fix with degraded := tabErase s.fix.degraded (unitKey u) } }) ⟨rfl, rfl⟩ ?_
      exact fatesKeep_of_works (worksKeeps_trans (worksKeeps_setPipe _ _ _) (booked_hwEvent _ _ _).toworksKeeps)
    · exact fatesKeep_setAny _ _ _
  · split
    · exact ⟨rfl, rfl⟩
    split
    · exact ⟨rfl, rfl⟩
    split
    · exact fatesKeep_trans (t := setUnit u 0 s) ⟨rfl, rfl⟩ (fatesKeep_clusterBack _ _)
    · exact ⟨rfl, rfl⟩

/-- A condemned unit: its state, event 5, and the fates that stand (R347). -/
theorem condemn_row {d : Decision} {u : UnitId} {k : Nat} {s : State} (hs : s.irqSane) :
    condemned (condemn d u k s) u = true ∧ (getReg (condemn d u k s) fixLatch).getLsbD 5 = true
      ∧ fatesKeep s (condemn d u k s) := by
  obtain ⟨x, hx⟩ : ∃ x, x = setStands u none (setAny u 4 s) := ⟨_, rfl⟩
  have hstate : x.irqSane ∧ (u.type = 2 → pipeState x u.unit = 4) ∧ (u.type ≠ 2 → unitState x u = 4) := by
    rw [hx]
    by_cases h2 : u.type = 2
    · have hany : setAny u 4 s = setPipe u.unit 4 s := by
        unfold setAny
        rw [if_pos h2]
        rfl
      rw [hany]
      refine ⟨(worksKeeps_setPipe _ _ _).sane hs, fun _ => ?_, fun h => absurd h2 h⟩
      exact (pipeState_setPipe hs u.unit u.unit (by decide)).trans (if_pos rfl)
    · have hany : setAny u 4 s = setUnit u 4 s := by
        unfold setAny
        rw [if_neg h2]
      rw [hany]
      refine ⟨hs, fun h => absurd h h2, fun _ => ?_⟩
      rw [unitState_setStands, unitState_setUnit]
  obtain ⟨hsane, hpipe, hunit⟩ := hstate
  obtain ⟨hkeep, hlatch, -, -, hpipes⟩ := repair_recorded (n := 5) (t := condemn d u k s) hsane (by decide) (by rw [condemn, ← hx])
  refine ⟨?_, hlatch, fatesKeep_trans (fatesKeep_setAny u 4 s) ?_⟩
  · unfold condemned
    split
    · next h2 => rw [hpipes, hpipe h2]; rfl
    · next h2 => rw [unitState_of_works hkeep.works, hunit h2]; rfl
  · have h := fatesKeep_of_works hkeep
    rw [hx] at h
    exact h

/-- The cause of a unit's last retirement. -/
abbrev retiredFor (s : State) (u : UnitId) : Nat := tabGet (fun _ => 0) s.fix.causes (unitKey u)

/-- The first row of R347: the test failed, an earlier retirement had another cause than aging, or an aged unit still wears. -/
def fateFails (s : State) (u : UnitId) (pass : Bool) : Prop :=
  pass = false ∨ (unitMap s u).hardBefore = true ∨ (retiredFor s u == 1 || retiredFor s u == 2) = true ∧ stillWorn s u = true

theorem decideFate_condemns {d : Decision} {k : Nat} {u : UnitId} {pass : Bool} {s : State} (h : fateFails s u pass) :
    decideFate d k u pass s = condemn d u k (countRetired u (retiredFor s u) s) := if_pos h

/-- A unit that passed is journalled, and a return of its traffic may be queued (R347). -/
theorem decideFate_passes {d : Decision} {k : Nat} {u : UnitId} {pass : Bool} {s : State} (h : ¬ fateFails s u pass) :
    ∃ x q, booked (passedUnit u (countRetired u (retiredFor s u) s)) x
      ∧ decideFate d k u pass s = { x with fix := { x.fix with queue := q } } := by
  obtain ⟨x, hx⟩ : ∃ x, x = journalOther d u k d.detail (passedUnit u (countRetired u (retiredFor s u) s)) := ⟨_, rfl⟩
  have hbook : booked (passedUnit u (countRetired u (retiredFor s u) s)) x := by
    rw [hx]
    exact booked_journalOther _ _ _ _ _
  have hqueue : ∃ q, (if isHome u && stoodFor s u && getB x (adr pgFixer 0x010) 2 then
      queueDecision { newDecision u 0 (retiredFor s u) with op := 2 } x else x) = { x with fix := { x.fix with queue := q } } := by
    split
    · exact ⟨_, rfl⟩
    · exact ⟨x.fix.queue, rfl⟩
  obtain ⟨q, hq⟩ := hqueue
  refine ⟨x, q, hbook, ?_⟩
  rw [← hq, hx]
  exact if_neg h

theorem not_fateFails {s : State} {u : UnitId} (hh : (unitMap s u).hardBefore = false)
    (hw : stillWorn s u = false ∨ retiredFor s u ∉ [1, 2]) : ¬ fateFails s u true := by
  rintro (h | h | ⟨h1, h2⟩)
  · cases h
  · rw [hh] at h
    cases h
  · rcases hw with hw | hw
    · rw [hw] at h2
      cases h2
    · simp only [Bool.or_eq_true, beq_iff_eq, List.mem_cons, List.not_mem_nil, or_false] at h1 hw
      exact hw h1

theorem fatesKeep_decideFate {d : Decision} {k : Nat} {u : UnitId} {pass : Bool} {s : State} (hs : s.irqSane) :
    fatesKeep s (decideFate d k u pass s) := by
  by_cases h : fateFails s u pass
  · rw [decideFate_condemns h]
    exact (condemn_row (s := countRetired u (retiredFor s u) s) hs).2.2
  · obtain ⟨x, q, hbook, he⟩ := decideFate_passes (d := d) (k := k) h
    rw [he]
    have hx := fatesKeep_of_works hbook.toworksKeeps
    have hpassed := fatesKeep_trans (fatesKeep_passedUnit u (countRetired u (retiredFor s u) s)) hx
    exact ⟨hpassed.1, hpassed.2⟩

/-- A slice or a cluster that passed (R347). -/
theorem passedUnit_slice {u : UnitId} (h : u.type < 2) (s : State) : passedUnit u s =
    if isHome u = false then setUnit u 1 s
    else if stoodFor s u then setUnit u 5 s
    else if u.type = 1 then clusterBack u.unit (setUnit u 0 s)
    else setUnit u 0 s := by
  unfold passedUnit
  split
  · next h2 => omega
  · rfl

/-- Where a unit that passed ends: a pipe without a position is spare or powered down, a spare is free, a home unit that another
stands in for is standby (R347). -/
theorem passedUnit_placed {u : UnitId} {c : Nat} {s : State} (hs : s.irqSane) :
    (u.type = 2 → posOf s u.unit = none → (passedUnit u (countRetired u c s)).irqSane
        ∧ pipeState (passedUnit u (countRetired u c s)) u.unit = if quarterOn s (u.unit / 12) then 2 else 0)
      ∧ (u.type < 2 → isHome u = false → unitState (passedUnit u (countRetired u c s)) u = 1)
      ∧ (u.type < 2 → isHome u = true → stoodFor s u = true → unitState (passedUnit u (countRetired u c s)) u = 5) := by
  have hslice : ∀ n v, unitState (countRetired u c s) v = unitState s v ∧ (unitMap (countRetired u c s) (slice8 n)).standsFor
      = (unitMap s (slice8 n)).standsFor := fun n v => ⟨(countRetired_keeps u v c s).1, (countRetired_keeps u _ c s).2⟩
  have hstood : stoodFor (countRetired u c s) u = stoodFor s u := by
    unfold stoodFor
    rw [(hslice u.unit (slice8 u.unit)).1, (hslice u.unit u).2]
    rfl
  refine ⟨fun h hp => ?_, fun h hh => ?_, fun h hh hst => ?_⟩
  · have hpos : posOf (countRetired u c s) u.unit = none := hp
    have hplace : passedUnit u (countRetired u c s)
        = setPipe u.unit (if quarterOn s (u.unit / 12) then 2 else 0) (countRetired u c s) := by
      simp only [passedUnit, h, hpos, setAny, if_true]
      rfl
    rw [hplace]
    refine ⟨(worksKeeps_setPipe _ _ _).sane hs, ?_⟩
    rw [pipeState_setPipe (s := countRetired u c s) hs _ _ (by split <;> decide), if_pos rfl]
  · rw [passedUnit_slice h, if_pos hh, unitState_setUnit]
  · rw [passedUnit_slice h, if_neg (by rw [hh]; decide), hstood, if_pos hst, unitState_setUnit]

/-- What decides a fate but the results that await one is the same after a result is taken and its migration ended. -/
structure fateStands (s t : State) (u : UnitId) : Prop where
  sane : t.irqSane
  map : ∀ v, unitMap t v = unitMap s v
  cause : retiredFor t u = retiredFor s u
  worn : stillWorn t u = stillWorn s u
  pos : posOf t u.unit = posOf s u.unit
  quarter : quarterOn t (u.unit / 12) = quarterOn s (u.unit / 12)
  stood : stoodFor t u = stoodFor s u

/-- Taking a result ends the migration that waited for it (R347). -/
theorem fate_taken {u : UnitId} {r : List (UnitId × Bool)} {s : State} (hs : s.irqSane) :
    fateStands s (endMigOf u { s with fix := { s.fix with tested := r } }) u
      ∧ (endMigOf u { s with fix := { s.fix with tested := r } }).fix.tested = r
      ∧ inMigration (endMigOf u { s with fix := { s.fix with tested := r } }) u = false := by
  have hstands : ∀ g, fateStands s { s with fix := { s.fix with tested := r, mig := g } } u := fun _ =>
    ⟨hs, fun _ => rfl, rfl, rfl, rfl, rfl, rfl⟩
  unfold endMigOf
  split
  · exact ⟨hstands none, rfl, rfl⟩
  · next h => exact ⟨hstands s.fix.mig, rfl, eq_false_of_ne_true h⟩

theorem exec_retiredUnitFate_idle {s : State} (h : s.fix.tested = []) : exec .retiredUnitFate s = .next s := by
  show execRetiredUnitFate s = _
  simp only [execRetiredUnitFate, h]

theorem exec_retiredUnitFate_decides {u : UnitId} {pass : Bool} {r : List (UnitId × Bool)} {s : State}
    (h : s.fix.tested = (u, pass) :: r) (h4 : (fateOf s u).1.op ≠ 4) : exec .retiredUnitFate s
      = .next (decideFate (fateOf s u).1 (fateOf s u).2 u pass (endMigOf u { s with fix := { s.fix with tested := r } })) := by
  show execRetiredUnitFate s = _
  simp only [execRetiredUnitFate, h]
  rw [if_neg h4]

/-- A unit that passed keeps its place through the journal and the queue (R347). -/
theorem decideFate_places {d : Decision} {k : Nat} {u : UnitId} {s : State} (hs : s.irqSane) (h : ¬ fateFails s u true) :
    (u.type = 2 → posOf s u.unit = none →
        pipeState (decideFate d k u true s) u.unit = if quarterOn s (u.unit / 12) then 2 else 0)
      ∧ (u.type < 2 → isHome u = false → unitState (decideFate d k u true s) u = 1)
      ∧ (u.type < 2 → isHome u = true → stoodFor s u = true → unitState (decideFate d k u true s) u = 5) := by
  obtain ⟨x, q, hbook, he⟩ := decideFate_passes (d := d) (k := k) h
  obtain ⟨hpipe, hspare, hstandby⟩ := passedUnit_placed (u := u) (c := retiredFor s u) hs
  have hmap : unitState { x with fix := { x.fix with queue := q } } u
      = unitState (passedUnit u (countRetired u (retiredFor s u) s)) u := unitState_of_works hbook.works u
  rw [he, hmap]
  refine ⟨fun ht hp => ?_, hspare, hstandby⟩
  obtain ⟨hsane, hplace⟩ := hpipe ht hp
  exact (pipeState_of_booked hbook hsane u.unit).trans hplace

theorem retiredUnitFate_row {u : UnitId} {pass : Bool} {r : List (UnitId × Bool)} {s : State} (hs : s.irqSane)
    (h : s.fix.tested = (u, pass) :: r) (h4 : (fateOf s u).1.op ≠ 4) : ∃ t, exec .retiredUnitFate s = .next t
      ∧ t.fix.tested = r ∧ inMigration t u = false
      ∧ (pass = false → condemned t u = true ∧ (getReg t (adr pgFixer 0x24)).getLsbD 5 = true)
      ∧ (pass = true → (unitMap s u).hardBefore = false →
          stillWorn s u = false ∨ tabGet (fun _ => 0) s.fix.causes (unitKey u) ∉ [1, 2] →
        (u.type = 2 → posOf s u.unit = none → pipeState t u.unit = if quarterOn s (u.unit / 12) then 2 else 0)
        ∧ (u.type < 2 → isHome u = false → unitState t u = 1)
        ∧ (u.type < 2 → isHome u = true → stoodFor s u = true → unitState t u = 5)) := by
  obtain ⟨hstands, htested, hout⟩ := fate_taken (u := u) (r := r) hs
  have hexec := exec_retiredUnitFate_decides h h4
  obtain ⟨y, hy⟩ : ∃ y, y = endMigOf u { s with fix := { s.fix with tested := r } } := ⟨_, rfl⟩
  rw [← hy] at hstands htested hout hexec
  obtain ⟨hmig, htest⟩ := fatesKeep_decideFate (d := (fateOf s u).1) (k := (fateOf s u).2) (u := u) (pass := pass) hstands.sane
  refine ⟨_, hexec, htest.trans htested, ?_, fun hp => ?_, fun hp hh hw => ?_⟩
  · rw [inMigration, hmig, ← inMigration, hout]
  · rw [decideFate_condemns (.inl hp)]
    obtain ⟨hcond, hlatch, -⟩ := condemn_row (d := (fateOf s u).1) (u := u) (k := (fateOf s u).2)
      (s := countRetired u (retiredFor y u) y) hstands.sane
    exact ⟨hcond, hlatch⟩
  · subst hp
    have hfails : ¬ fateFails y u true := not_fateFails (by rw [hstands.map, hh]) (by rw [hstands.worn, hstands.cause]; exact hw)
    obtain ⟨hpipe, hspare, hstandby⟩ := decideFate_places (d := (fateOf s u).1) (k := (fateOf s u).2) hstands.sane hfails
    rw [hstands.pos, hstands.quarter] at hpipe
    rw [hstands.stood] at hstandby
    exact ⟨hpipe, hspare, hstandby⟩

end Sys2Proof.Machine
end

section
namespace Sys2Proof.Machine

/-! ### The journal's hour and the reading of an entry (R349, R350) -/

theorem exec_journalHourRollover_same {s : State} (h : s.tim.powered / hourNs = s.fix.hour) :
    exec .journalHourRollover s = .next s := by
  show Host.Outcome.next (journalHour s) = _
  rw [journalHour, if_pos h]

/-- Nothing is written at the start of an hour where nothing is held (R350). -/
theorem journalHourRollover_row {s : State} (h : s.tim.powered / hourNs ≠ s.fix.hour) (hheld : s.fix.heldJrnl = []) :
    ∃ t, exec .journalHourRollover s = .next t ∧ getF t jrnlA 6 0 = 0 ∧ (∀ b, b ≠ jrnlA → getReg t b = getReg s b)
      ∧ t = { s with win := { s.win with regs := t.win.regs }, fix := { s.fix with hour := s.tim.powered / hourNs } } := by
  generalize hn : s.tim.powered / hourNs = n at h ⊢
  obtain ⟨y, hy⟩ : ∃ y, y = { s with fix := { s.fix with hour := n } } := ⟨_, rfl⟩
  have hflush : flushJournal (setF jrnlA 6 0 0 y) = setF jrnlA 6 0 0 y := by
    have hnone : (setF jrnlA 6 0 0 y).fix.heldJrnl = [] := by
      rw [hy]
      exact hheld
    rw [flushJournal, if_pos (.inl hnone)]
  have hhour : journalHour s = setF jrnlA 6 0 0 y := by rw [journalHour, hn, if_neg h, ← hy, hflush]
  refine ⟨setF jrnlA 6 0 0 y, ?_, getF_setF_same _ _ _ (by decide), fun b hb => ?_, ?_⟩
  · show Host.Outcome.next (journalHour s) = _
    rw [hhour]
  · rw [getReg_setF_other _ _ _ _ hb, hy]
    rfl
  · rw [hy]
    rfl

theorem setWords_window (a : Nat) (l : List Word) (s : State) : ∃ w, setWords a l s = { s with win := w } := by
  induction l generalizing a s with
  | nil => exact ⟨s.win, rfl⟩
  | cons x r ih =>
    obtain ⟨w, hw⟩ := ih (a + 4) (setReg a x s)
    exact ⟨w, hw⟩

theorem getReg_setWords_below {a b : Nat} (l : List Word) (s : State) (h : b < a) : getReg (setWords a l s) b = getReg s b := by
  induction l generalizing a s with
  | nil => rfl
  | cons w r ih => rw [setWords, ih _ (by omega), getReg_setReg_other _ _ (by omega)]

theorem getReg_setWords_at {a k : Nat} {l : List Word} {w : Word} (s : State) (h : l[k]? = some w) :
    getReg (setWords a l s) (a + 4 * k) = w := by
  induction l generalizing a k s with
  | nil => cases h
  | cons x r ih =>
    cases k with
    | zero =>
      rw [setWords, getReg_setWords_below _ _ (by omega), Nat.mul_zero, Nat.add_zero, getReg_setReg_same]
      exact Option.some.inj h
    | succ k =>
      rw [setWords, show a + 4 * (k + 1) = a + 4 + 4 * k by omega]
      exact ih _ h

theorem getElem?_wordsOf {l : List Byte} {off n k : Nat} (h : k < n) :
    (wordsOf l off n)[k]? = some (word (leField l (off + 4 * k) 4)) := by
  induction n generalizing off k with
  | zero => omega
  | succ n ih =>
    cases k with
    | zero => rfl
    | succ k => rw [wordsOf, List.getElem?_cons_succ, ih (by omega), show off + 4 + 4 * k = off + 4 * (k + 1) by omega]

/-- A write that passes every check finds the complex awake (R410). -/
theorem calm_of_accepted {s : State} {p : CmdPort} {a : Nat} {ok : Bool} (h : writeVerdict s p a ok = .accepted) : s.calm := by
  intro hm
  simp only [writeVerdict, hm, decide_true, Bool.true_or, if_true] at h
  split_ifs at h

/-- Reading an entry of which copy A holds and is not the older: copy B is rewritten at most (R303, R349). -/
theorem readEntry_copyA {i : Nat} {s : State} {x : List Byte} (hs : s.calm) (hx : entryCopy s false i = some x)
    (hy : entryCopy s true i = none ∨ ∃ y, entryCopy s true i = some y ∧ leField y 0 4 ≤ leField x 0 4) :
    ∃ t, readEntry i s = (t, some x) ∧ t.fix = s.fix ∧ t.ctl = s.ctl := by
  have hrewrite : (repairEntry true i x s).fix = s.fix ∧ (repairEntry true i x s).ctl = s.ctl := by
    obtain ⟨y, hy⟩ : ∃ y, y = addF (adr pgNv 0x084) 15 0 1 (nvWrite (jrnlAddr true i) x s) := ⟨_, rfl⟩
    have hkeep : y.fix = s.fix ∧ y.ctl = s.ctl := by
      rw [hy]
      exact ⟨rfl, rfl⟩
    rw [repairEntry, ← hy, hwEvent_fix, ← hkeep.1, ← hkeep.2]
    refine ⟨rfl, (Prod.mk.inj (hwEvent_watch pgNv 0 y ?_)).1⟩
    rwa [State.calm, hkeep.2]
  rcases hy with hy | ⟨y, hy, hle⟩
  · exact ⟨_, by simp only [readEntry, hx, hy], hrewrite⟩
  · by_cases he : leField x 0 4 = leField y 0 4
    · exact ⟨s, by simp only [readEntry, hx, hy, if_pos he], rfl, rfl⟩
    · refine ⟨_, ?_, hrewrite⟩
      simp only [readEntry, hx, hy, if_neg he, if_pos (show leField y 0 4 < leField x 0 4 by omega)]

/-- An entry of which no copy holds is counted in PG_NV (R303). -/
theorem readEntry_lost {i : Nat} {s : State} (hx : entryCopy s false i = none) (hy : entryCopy s true i = none) :
    ∃ t, readEntry i s = (t, none) ∧ t.fix = s.fix ∧ (getReg t (adr pgNv 0x24)).getLsbD 1 = true
      ∧ getF t (adr pgNv 0x088) 15 0 = satAdd (2 ^ 16 - 1) (getF s (adr pgNv 0x088) 15 0) 1 := by
  have hclear : clearOf pgNv (adr pgNv 0x088) := by decide
  refine ⟨hwEvent pgNv 1 (addF (adr pgNv 0x088) 15 0 1 s), by simp only [readEntry, hx, hy], hwEvent_fix _ _ _, ?_, ?_⟩
  · rw [hwEvent_latch _ _ _ (by decide), getLsbD_putBit, if_pos ⟨rfl, by decide⟩]
  · rw [getF_congr (hwEvent_clear hclear 1 _), getF_addF_same _ _ _ (by decide)]

theorem exec_jrnlRd_shows {s t : State} {p : CmdPort} {v : Word} {x : List Byte} (h : plainWrite s p (adr pgFixer 0x0C0))
    (hv : bit v 31 = true) (hread : readEntry (bits v 10 0) s = (t, some x)) : exec (.jrnlRd p v) s
      = .next (setReg (adr pgFixer 0x0C4) 2 (setWords (adr pgFixer 0x0E0) (wordsOf x 0 8) t)) := by
  have heff : jrnlRead v s = setReg (adr pgFixer 0x0C4) 2 (setWords (adr pgFixer 0x0E0) (wordsOf x 0 8) t) := by
    simp only [jrnlRead, hv, hread, Bool.true_eq_false, if_false]
  exact congrArg Host.Outcome.next ((gatedWrite_plain v (jrnlRead v) h).trans heff)

theorem exec_jrnlRd_fails {s t : State} {p : CmdPort} {v : Word} (h : plainWrite s p (adr pgFixer 0x0C0)) (hv : bit v 31 = true)
    (hread : readEntry (bits v 10 0) s = (t, none)) : exec (.jrnlRd p v) s = .next (setReg (adr pgFixer 0x0C4) 3 t) := by
  have heff : jrnlRead v s = setReg (adr pgFixer 0x0C4) 3 t := by
    simp only [jrnlRead, hv, hread, Bool.true_eq_false, if_false]
  exact congrArg Host.Outcome.next ((gatedWrite_plain v (jrnlRead v) h).trans heff)

/-- JRNL_RD of an entry that copy A holds shows its words (R349). -/
theorem jrnlRd_found {s : State} {p : CmdPort} {v : Word} {x : List Byte} (h : plainWrite s p (adr pgFixer 0x0C0))
    (hv : bit v 31 = true) (hx : entryCopy s false (bits v 10 0) = some x) (hy : entryCopy s true (bits v 10 0) = none
      ∨ ∃ y, entryCopy s true (bits v 10 0) = some y ∧ leField y 0 4 ≤ leField x 0 4) :
    ∃ t, exec (.jrnlRd p v) s = .next t ∧ getReg t (adr pgFixer 0x0C4) = 2
      ∧ (∀ k, k < 8 → getReg t (adr pgFixer (0x0E0 + 4 * k)) = word (leField x (4 * k) 4))
      ∧ t.fix = s.fix ∧ t.ctl = s.ctl := by
  obtain ⟨t, hread, hfix, hctl⟩ := readEntry_copyA (calm_of_accepted h.1) hx hy
  obtain ⟨w, hw⟩ := setWords_window (adr pgFixer 0x0E0) (wordsOf x 0 8) t
  refine ⟨_, exec_jrnlRd_shows h hv hread, getReg_setReg_same _ _ _, fun k hk => ?_, ?_, ?_⟩
  · have hne : adr pgFixer (0x0E0 + 4 * k) ≠ adr pgFixer 0x0C4 := by
      simp only [adr, pgFixer]
      omega
    have hword := getElem?_wordsOf (l := x) (off := 0) hk
    rw [Nat.zero_add] at hword
    rw [getReg_setReg_other _ _ hne, show adr pgFixer (0x0E0 + 4 * k) = adr pgFixer 0x0E0 + 4 * k by simp only [adr]; omega]
    exact getReg_setWords_at t hword
  · rw [hw]
    exact hfix
  · rw [hw]
    exact hctl

/-- JRNL_RD of an entry of which no copy holds fails (R303, R349). -/
theorem jrnlRd_lost {s : State} {p : CmdPort} {v : Word} (h : plainWrite s p (adr pgFixer 0x0C0)) (hv : bit v 31 = true)
    (hx : entryCopy s false (bits v 10 0) = none) (hy : entryCopy s true (bits v 10 0) = none) :
    ∃ t, exec (.jrnlRd p v) s = .next t ∧ getReg t (adr pgFixer 0x0C4) = 3 ∧ (getReg t (adr pgNv 0x24)).getLsbD 1 = true
      ∧ getF t (adr pgNv 0x088) 15 0 = satAdd (2 ^ 16 - 1) (getF s (adr pgNv 0x088) 15 0) 1 ∧ t.fix = s.fix := by
  obtain ⟨t, hread, hfix, hlatch, hcount⟩ := readEntry_lost hx hy
  refine ⟨_, exec_jrnlRd_fails h hv hread, getReg_setReg_same _ _ _, ?_, ?_, hfix⟩
  · rw [getReg_setReg_other _ _ (by decide)]
    exact hlatch
  · rw [getF_congr (getReg_setReg_other _ _ (by decide))]
    exact hcount

end Sys2Proof.Machine
end

section
namespace Sys2Proof.Machine

/-! ### The rows together -/

theorem exec_agingSample_nil (s : State) : exec (.agingSample []) s = .next s := by
  show execAgingSample [] s = _
  rw [execAgingSample, sampleUnits, ite_self]

/-- In a mode in which FIXER does not repair, its monitors change nothing (R341). -/
theorem monitors_idle {s : State} (h : repairing s = false) :
    (∀ l, exec (.agingSample l) s = .next s) ∧ (∀ u, exec (.lockstepMiscompare u) s = .next s)
      ∧ (∀ u c, exec (.uncorrectableError u c) s = .next s) ∧ exec .migrationStart s = .next s := by
  refine ⟨fun l => ?_, fun u => ?_, fun u c => ?_, ?_⟩
  · show execAgingSample l s = _
    rw [execAgingSample, h, if_neg Bool.false_ne_true]
  · show execLockstepMiscompare u s = _
    rw [execLockstepMiscompare, h, Bool.false_and, if_neg Bool.false_ne_true]
  · show execUncorrectableError u c s = _
    rw [execUncorrectableError, h, if_neg Bool.false_ne_true]
  · show execMigrationStart s = _
    rw [execMigrationStart, h, Bool.false_and, if_neg Bool.false_ne_true]

/-- Settles O59, row by row of FIXER's commands. -/
theorem fixerRows : Obligations.FixerRows := by
  intro s hs
  refine ⟨monitors_idle, exec_agingSample_nil s, fun x l hr => ⟨fun hskip => exec_agingSample_skipped hr hskip l, ?_⟩,
    fun u hr hu => lockstepMiscompare_row hr hu, fun u c hr => uncorrectableError_row hs hr,
    fun d s' hr hm hd hs' hrec => migrationStart_row hs hr hm hd hs' hrec, exec_migrationStart_waits,
    fun hm => ⟨exec_shadowCompareStart_idle hm, exec_migrationSwitchover_idle hm⟩,
    fun m hm hr => ⟨exec_shadowCompareStart_barred hm, shadowCompareStart_row hs hm hr, exec_migrationSwitchover_barred hm,
      migrationSwitchover_row hs hm⟩,
    exec_retiredUnitFate_idle, fun u pass r => retiredUnitFate_row hs, exec_journalHourRollover_same, journalHourRollover_row, ?_⟩
  · intro k c ro ec hsam hk hc hro hec
    have hone := (exec_agingSample_sampled hr hsam []).trans (exec_agingSample_nil _)
    exact ⟨_, hone, exec_agingSample_sampled hr hsam l, sampleUnit_row hs hk hc hro hec rfl⟩
  · rintro p v i hw hv rfl
    exact ⟨fun x => jrnlRd_found hw hv, jrnlRd_lost hw hv⟩

end Sys2Proof.Machine
end
